-- ==== Sys2Proof/Word.lean ====
section
/-!
DEFINITION. The machine's words: a register is 32 bits wide (chapter 00, Register access), and memory, frames and
table space are bytes in little-endian words (R9) or network order (R10).
-/
namespace Sys2Proof

/-- A register or table word. -/
abbrev W32 := BitVec 32

/-- One byte. -/
abbrev Byte := BitVec 8

/-- A byte from a number, modulo 256. -/
def byte (n : Nat) : Byte := BitVec.ofNat 8 n

/-- A 32-bit word from a number, modulo 2^32. -/
def w32 (n : Nat) : W32 := BitVec.ofNat 32 n

end Sys2Proof
end

