-- ==== Sys2Proof/Syntax.lean ====
section
/-!
DEFINITION. The commands the block takes, one constructor per row of the table of operations and events, with the
operands each carries. A value the engine takes in from outside (frame bytes, host memory, an analogue outcome, a sensor
reading) is an operand of the command that takes it (log 2).
-/
namespace Sys2Proof

/-- The order codes of R1. -/
inductive OrderCode where
  /-- MP-1024X-A1 -/
  | x1024
  /-- MP-1024C-A1 -/
  | c1024
  /-- MP-0768X-A1 -/
  | x0768
  deriving DecidableEq, Repr

/-- A register page index. -/
abbrev Page := Fin 1024
/-- A BAR0 byte offset (64 MiB). -/
abbrev Bar0 := BitVec 26
/-- A lane chiplet L0-L7. -/
abbrev Chiplet := Fin 8
/-- A lane of a chiplet. -/
abbrev Lane := Fin 64
/-- A gallery G0-G7, or GS at 8. -/
abbrev Gallery := Fin 9
/-- A wing: E = 0, W = 1. -/
abbrev Wing := Fin 2
/-- A Docent core of a gallery. -/
abbrev Core := Fin 168
/-- A copy of a gallery's match table, which serves 21 cores (R119). -/
abbrev TableCopy := Fin 8
/-- A core among those that one copy serves. -/
abbrev CopyCore := Fin 21
/-- A port number 0-527. -/
abbrev Port := Fin 528
/-- A queue 16 * port + number. -/
abbrev QueueIx := Fin 8448
/-- A Hall cell (R317). -/
abbrev CellIx := Fin 1048576
/-- A network port. -/
abbrev NetPort := Fin 512
/-- A Hall bank. -/
abbrev HallBank := Fin 128
/-- A host ring of one kind. -/
abbrev RingIx := Fin 32
/-- A DMA or Annex channel. -/
abbrev Chan := Fin 16

/-- What reaches the MAC of a port: a whole frame, the first bytes of a frame that goes on arriving, with the length that it will have from
destination address to FCS, or the rest of it.
`fecErr` is 1 when some byte lay in an uncorrectable codeword (R73). -/
inductive RxEvent where
  | whole (bytes : List Byte) (fecErr : Bool)
  | head (bytes : List Byte) (len : Nat)
  | tail (bytes : List Byte) (fecErr : Bool)
  deriving DecidableEq, Repr

/-- A received pause: an 802.3 pause frame with its quanta, or a PFC frame with its enable bits and eight quanta
(R76, R396). -/
inductive PauseFrame where
  | pause (quanta : BitVec 16)
  | pfc (enable : BitVec 8) (quanta : List (BitVec 16))
  deriving DecidableEq, Repr

/-- What a memory array answers to a read: a word without error, one the code corrected, or an uncorrectable one. -/
inductive RdOutcome where
  | good
  | corrected
  | ue
  deriving DecidableEq, Repr

/-- A word that a scrub reads outside the table address space: one of a Hall cell, or one of the memory that a block keeps for itself, by the
block's home page (R578, R590). -/
inductive ScrubWord where
  | cell (c : CellIx)
  | own (p : Page)
  deriving DecidableEq, Repr

/-- A shaper: queue q at q, group g at 8448 + g, port i at 10560 + i. -/
abbrev ShaperIx := Fin 11088

/-- The start of a frame on a port's lanes (its SFD), or its end. -/
inductive TxEvent where
  | start
  | finish
  deriving DecidableEq, Repr

/-- Kinds of descriptor ring: submission, completion, event. -/
inductive RingKind where
  | sq
  | cq
  | eq
  deriving DecidableEq, Repr

/-- Rings whose consumer index the host writes: completion and event rings, Archive rings, the decision log. -/
inductive ConsRing where
  | cq (r : RingIx)
  | eq (r : RingIx)
  | arc (r : Fin 8)
  | log
  deriving DecidableEq, Repr


/-- A decision of the Curator (R485): the knob in the order of CUR_CFG.knob_en, the instance, the target it aims at (alpha in two's
complement), the value of the field it read, the reason code of R492 and the measurement that drove it. -/
structure CurDecision where
  knob : Fin 7
  inst : Fin 8448
  target : BitVec 32
  seen : BitVec 32
  reason : Fin 12
  meas : BitVec 32
  deriving DecidableEq, Repr


/-- The commands of the block: one constructor per row of the table of operations and events. -/
inductive Instr where
  /-- REGISTER_WRITE (R14): A host BAR0 write to a register field that has no behaviour of its own stores or ignores the value according to its access code. -/
  | registerWrite (a : Bar0) (v : W32)
  /-- BAR0_ACCESS_ERROR (R12): A BAR0 access of the wrong size or alignment is discarded, or returns all ones for a read, and is recorded in the DEV error cause. -/
  | bar0AccessError (a : Bar0) (misaligned : Bool) (be : BitVec 4) (read : Bool)
  /-- COUNTER_LO_READ (R101): A read of a counter _LO register returns the low word and latches _HI for the next read of that pair. -/
  | counterLoRead (a : Bar0)
  /-- SOFT_RESET (R688): A write of CTRL.soft_reset resets the block to its Reset values if the block is OFF; otherwise it is refused and recorded. -/
  | softReset (p : Page)
  /-- ENABLE_WRITE (R721): A write of CTRL.enable starts or stops the block, or sets or clears reenable_pending, according to the block state. -/
  | enableWrite (p : Page) (en : Bool)
  /-- BLOCK_START_COMPLETE (R687): A block in STARTING moves to ON once its start completes and no lower-tier block is STARTING. -/
  | blockStartComplete (p : Page)
  /-- BLOCK_STOP_COMPLETE (R686): A STOPPING block whose work has drained goes to OFF, and starts again if reenable_pending is 1. -/
  | blockStopComplete (p : Page)
  /-- STOP_TIMEOUT (R64): After 100 µs of a pending park or stop, the engine aborts the remaining transfers with DOMAIN_PARKED and parks or stops the domain. -/
  | stopTimeout (p : Page)
  /-- RX_FRAME (R73): The MAC receives a frame, checks it, timestamps it and admits it to the hold buffer or drops it. `cws` are the codewords that carried it, by lane of the port's chiplet (R78): the symbols corrected, 15 standing for 15 or more, or none where a codeword could not be corrected. -/
  | rxFrame (i : Port) (ev : RxEvent) (cws : List (Lane × Option (Fin 16)))
  /-- PAUSE_FRAME_RX (R76): The MAC consumes a received pause or PFC frame, counts it and passes the pause state to the traffic manager. -/
  | pauseFrameRx (i : Port) (pf : PauseFrame)
  /-- PAUSE_FRAME_TX (R77): The MAC sends a pause or PFC frame requested by the Depot at the next frame boundary, ahead of queued frames. -/
  | pauseFrameTx (i : NetPort)
  /-- FLIT_RETRY (R89): A die-to-die flit that fails its CRC is resent from the replay buffer and the retry is counted. -/
  | flitRetry (k : Chiplet) (standby : Bool) (ok : Bool)
  /-- STANDBY_RETRAIN (R91): Every 1 ms the chiplet retrains its idle standby link to GS. -/
  | standbyRetrain (k : Chiplet) (ok : Bool)
  /-- OCTET_MODE_WRITE (R69): A write to LNK_OCTET_MODE is accepted only while every lane of the octet is OFF and the code is valid. -/
  | octetModeWrite (k : Chiplet) (o : Fin 8) (v : W32)
  /-- LANE_STATE_REQ (R94): A write of LNK_LANE_CTRL.state_req moves the lane towards OFF, HOLD or UP, aborting any retune in progress. -/
  | laneStateReq (k : Chiplet) (l : Lane) (v : W32)
  /-- TRAIN_COMPLETE (R94): A lane in TRAIN, or restoring from HOLD, reaches lock and PCS alignment and moves to UP. -/
  | trainComplete (k : Chiplet) (l : Lane) (coef : Nat) (ber : Byte)
  /-- LOSS_OF_LOCK (R94): A lane in UP or RETUNE loses lock and returns to TRAIN, taking its port down. -/
  | lossOfLock (k : Chiplet) (l : Lane)
  /-- HOLD_RESTORE_TIMEOUT (R94): A lane leaving HOLD whose partner fails to answer within 2 ms falls back to TRAIN. -/
  | holdRestoreTimeout (k : Chiplet) (l : Lane)
  /-- RETUNE_COMPLETE (R94): A retune completes within 10 ms and the lane returns to UP, logged in the decision log. -/
  | retuneComplete (k : Chiplet) (l : Lane) (coef : Nat) (ber : Byte) (reason : Fin 12) (meas : W32)
  /-- RETUNE_ABORT (R96): A retune that produces an uncorrectable codeword is aborted and the previous coefficients are restored within 1 µs. -/
  | retuneAbort (k : Chiplet) (l : Lane) (reason : Fin 12) (meas : W32)
  /-- MOD_CMD_GO (R98): A write of LNK_MOD_CMD.go starts one single-byte I2C transaction on the chiplet's module bus. -/
  | modCmdGo (k : Chiplet) (v : W32)
  /-- MOD_DONE (R98): The module-bus transaction ends, clears busy, records nack and read data, and sets mod_done. -/
  | modDone (k : Chiplet) (nack : Bool) (data : Byte)
  /-- TS_FIFO_POP (R100): A read of LNK_TS_FIFO_3 returns the head timestamp word and removes the head entry. -/
  | tsFifoPop (k : Chiplet)
  /-- D2D_STAT_READ (R101): A read of LNK_D2D_STAT returns the retry count and clears it. -/
  | d2dStatRead (k : Chiplet)
  /-- DISPATCH (R103): The gallery dispatches up to four held frames to free cores and ring slots, stamping each with the current epoch. -/
  | dispatch (g : Gallery)
  /-- NOP (R114): The core executes NOP in one cycle. -/
  | docNop (g : Gallery) (c : Core)
  /-- ADD (R114): The core adds two registers modulo 2^32. -/
  | docAdd (g : Gallery) (c : Core)
  /-- SUB (R114): The core subtracts two registers modulo 2^32. -/
  | docSub (g : Gallery) (c : Core)
  /-- AND (R114): The core ANDs two registers. -/
  | docAnd (g : Gallery) (c : Core)
  /-- OR (R114): The core ORs two registers. -/
  | docOr (g : Gallery) (c : Core)
  /-- XOR (R114): The core XORs two registers. -/
  | docXor (g : Gallery) (c : Core)
  /-- SHL (R114): The core shifts a register left by another register's low five bits. -/
  | docShl (g : Gallery) (c : Core)
  /-- SHR (R114): The core shifts a register right logically by another register's low five bits. -/
  | docShr (g : Gallery) (c : Core)
  /-- ADDI (R114): The core adds a sign-extended 16-bit immediate to a register. -/
  | docAddi (g : Gallery) (c : Core)
  /-- ANDI (R114): The core ANDs a register with a zero-extended immediate. -/
  | docAndi (g : Gallery) (c : Core)
  /-- ORI (R114): The core ORs a register with a zero-extended immediate. -/
  | docOri (g : Gallery) (c : Core)
  /-- XORI (R114): The core XORs a register with a zero-extended immediate. -/
  | docXori (g : Gallery) (c : Core)
  /-- SHLI (R114): The core shifts a register left by an immediate amount. -/
  | docShli (g : Gallery) (c : Core)
  /-- SHRI (R114): The core shifts a register right logically by an immediate amount. -/
  | docShri (g : Gallery) (c : Core)
  /-- LUI (R114): The core loads an immediate into the upper half of a register. -/
  | docLui (g : Gallery) (c : Core)
  /-- EXT (R114): The core extracts a bit field of given position and length from a register. -/
  | docExt (g : Gallery) (c : Core)
  /-- LDB (R114): The core loads one window byte at cursor plus offset. -/
  | docLdb (g : Gallery) (c : Core)
  /-- LDW (R114): The core loads two window bytes in network order at cursor plus offset. -/
  | docLdw (g : Gallery) (c : Core)
  /-- LDD (R114): The core loads four window bytes in network order at cursor plus offset. -/
  | docLdd (g : Gallery) (c : Core)
  /-- LDBX (R114): The core loads one window byte at cursor plus offset plus a register index. -/
  | docLdbx (g : Gallery) (c : Core)
  /-- LDWX (R114): The core loads two window bytes at cursor plus offset plus a register index. -/
  | docLdwx (g : Gallery) (c : Core)
  /-- LDDX (R114): The core loads four window bytes at cursor plus offset plus a register index. -/
  | docLddx (g : Gallery) (c : Core)
  /-- ADV (R114): The core advances the cursor by an immediate. -/
  | docAdv (g : Gallery) (c : Core)
  /-- ADVR (R114): The core advances the cursor by a register value. -/
  | docAdvr (g : Gallery) (c : Core)
  /-- SETC (R114): The core sets the cursor from a register. -/
  | docSetc (g : Gallery) (c : Core)
  /-- GETC (R114): The core copies the cursor into a register. -/
  | docGetc (g : Gallery) (c : Core)
  /-- STF (R114): The core stores a register's low half into a field-vector slot. -/
  | docStf (g : Gallery) (c : Core)
  /-- STF2 (R114): The core stores a register into two consecutive field-vector slots. -/
  | docStf2 (g : Gallery) (c : Core)
  /-- CPF (R114): The core copies n two-byte window fields into consecutive field-vector slots. -/
  | docCpf (g : Gallery) (c : Core)
  /-- MARK (R114): The core records the cursor as a valid header offset. -/
  | docMark (g : Gallery) (c : Core)
  /-- MARKR (R114): The core records a register value as a valid header offset. -/
  | docMarkr (g : Gallery) (c : Core)
  /-- LDF (R114): The core loads a field-vector slot into a register. -/
  | docLdf (g : Gallery) (c : Core)
  /-- JMP (R114): The core jumps to the target. -/
  | docJmp (g : Gallery) (c : Core)
  /-- BEQ (R114): The core branches if two registers are equal. -/
  | docBeq (g : Gallery) (c : Core)
  /-- BNE (R114): The core branches if two registers differ. -/
  | docBne (g : Gallery) (c : Core)
  /-- BLTU (R114): The core branches if one register is below another, unsigned. -/
  | docBltu (g : Gallery) (c : Core)
  /-- BGEU (R114): The core branches if one register is at or above another, unsigned. -/
  | docBgeu (g : Gallery) (c : Core)
  /-- BEQI (R114): The core branches if a register equals an 8-bit immediate. -/
  | docBeqi (g : Gallery) (c : Core)
  /-- BNEI (R114): The core branches if a register differs from an 8-bit immediate. -/
  | docBnei (g : Gallery) (c : Core)
  /-- BBS (R114): The core branches if a selected bit of a register is 1. -/
  | docBbs (g : Gallery) (c : Core)
  /-- MATCH (R118): The core searches the parse-state match table with S and a key, and on a hit sets S, advances the cursor and jumps, otherwise jumps to the miss address. -/
  | docMatch (g : Gallery) (y : TableCopy) (n : CopyCore)
  /-- SETS (R114): The core sets the parse state S to an immediate. -/
  | docSets (g : Gallery) (c : Core)
  /-- CKV4 (R114): The core checks the IPv4 header checksum at the cursor and records a bad checksum in F7. -/
  | docCkv4 (g : Gallery) (c : Core)
  /-- DONE (R114): The core ends the parse and passes the field vector to the reorder ring. -/
  | docDone (g : Gallery) (c : Core)
  /-- FAIL (R114): The core ends the parse with a program exception code. -/
  | docFail (g : Gallery) (c : Core)
  /-- BUDGET_EXPIRY (R121): A parse not ended by the end of cycle 96 is ended with BUDGET and marked for the port's default action. -/
  | budgetExpiry (g : Gallery) (c : Core)
  /-- PRESSURE_CUT (R122): A parse reaching cut_cycles while the hold buffer exceeds cut_on_kib is ended with PRESSURE. -/
  | pressureCut (g : Gallery) (c : Core)
  /-- DOCENT_CORE_FAULT (R134): A faulty core is fenced, its frame dropped as CORE_FAULT, a message sent and a spare admitted to the pool. -/
  | docentCoreFault (g : Gallery) (c : Core)
  /-- REORDER_RELEASE (R125): The reorder ring releases a parsed frame to the lookups once every earlier frame of its input port is released. -/
  | reorderRelease (g : Gallery)
  /-- CAT_LOOKUP (R152): A Catalogue lookup searches the key's bucket and the overflow store for a visible entry and acts on the hit or miss by its profile's role. -/
  | catLookup (f : Nat) (b : Bool)
  /-- ROUTE_LOOKUP (R194): The route lookup finds the longest visible prefix in the VRF, with long-prefix probes, and resolves its result. -/
  | routeLookup (f : Nat)
  /-- VIT_SEARCH (R226): A Vitrine search matches the masked key against the chain and returns the visible entry of highest priority and lowest position. -/
  | vitSearch (f : Nat) (n : Fin 4)
  /-- INGRESS_RESOLUTION (R235): Ingress resolution forms the forwarding decision, applies policers and stream filtering, admits and enqueues copies and commits or cancels learns. -/
  | ingressResolution (f : Nat)
  /-- LAST_CELL_WRITTEN (R334): When a frame's last cell is written the Depot returns the unused part of its admission charge. -/
  | lastCellWritten (f : Nat)
  /-- CELL_FREE (R328): A holder's free of a cell decrements, returns, ignores as double free or quarantines the cell. -/
  | cellFree (c : CellIx) (h : BitVec 16)
  /-- CHAIN_WALKER_FREE (R327): The chain walker frees handed-over chains at 32 cells per clock in order of hand-over. -/
  | chainWalkerFree
  /-- QUARANTINE_RELEASE (R329): A write of DPT_QUAR_CMD.release returns every quarantined cell. -/
  | quarantineRelease (v : W32)
  /-- HALL_READ (R320): A cell read is queued on its bank and served oldest enqueue first, retrying when the queue is full. -/
  | hallRead (b : HallBank) (out : RdOutcome)
  /-- HALL_BANK_FAIL (R322): A Hall bank reaching its uncorrectable limit is declared failed and a takeover by a spare starts if allowed. -/
  | hallBankFail (b : HallBank)
  /-- HALL_SPARE_CMD (R322): A write of HAL_SPARE_CMD.go declares the named bank failed. -/
  | hallSpareCmd (v : W32)
  /-- HALL_BANK_SPARED (R323): When the spare copy ends the bank is mapped to the spare and allocation resumes. -/
  | hallBankSpared (bad : List (Fin 8192))
  /-- XOFF_EXIT (R342): A pair leaves XOFF when its cells, headroom and pool levels allow, and an XON frame is requested. -/
  | xoffExit (i : NetPort) (p : Fin 8)
  /-- PFC_REFRESH (R343): Every refresh_us while XOFF holds, the Depot repeats its PFC or pause request. -/
  | pfcRefresh (i : NetPort)
  /-- DEQUEUE_SELECT (R388): For a ready port the schedulers choose a group and queue and select the head frame, charging shapers and tags. -/
  | dequeueSelect (g : Gallery)
  /-- HEAD_DISCARD (R397): The traffic manager discards a head copy of a down, fenced or absent port without charging. -/
  | headDiscard (i : Port)
  /-- WHEEL_RELEASE (R404): The calendar wheel releases a shaper whose slot is due, updating its tokens. -/
  | wheelRelease
  /-- SHAPER_RATE_WRITE (R406): A rate write with forgive = 0 keeps the debt and reschedules the shaper at the new rate. -/
  | shaperRateWrite (n : ShaperIx) (rate : BitVec 21)
  /-- SHAPER_FORGIVE (R407): A rate write with forgive = 1 clears a debt and makes the shaper eligible. -/
  | shaperForgive (n : ShaperIx) (rate : BitVec 21)
  /-- SHAPER_BURST_WRITE (R409): A burst write limits the tokens to the new burst. -/
  | shaperBurstWrite (n : ShaperIx) (burst : BitVec 24)
  /-- EDITOR_EDIT (R298): The Editor rewrites a selected copy by splice, operations, remarks, padding and length check. -/
  | editorEdit (c : Nat)
  /-- FRAME_TRANSMIT (R75): The MAC transmits an edited frame, taking the egress timestamp and applying PTP one-step or two-step handling. -/
  | frameTransmit (i : Port) (ev : TxEvent)
  /-- SAMPLER_ROUND (R410): Each period the sampler visits every selected queue and writes a queue-sample record. -/
  | samplerRound
  /-- ARCHIVE_CAPTURE (R370): The Archive takes a session or drop capture and stages its record. -/
  | archiveCapture (out : RdOutcome)
  /-- ARCHIVE_RECORD_WRITE (R374): The engine writes a staged record to its host ring or Annex channel, or applies the full action. -/
  | archiveRecordWrite (r : Fin 8)
  /-- ARC_RING_CFG_WRITE (R381): A write of ARC_RING_CFG is accepted by its conditions, and clearing en flushes staged records. -/
  | arcRingCfgWrite (r : Fin 8) (w : Fin 3) (v : W32)
  /-- RPL_HEADER_CMD (R359): A write of DPT_RPL_CMD.go writes a list header into both replicas. -/
  | rplHeaderCmd (v : W32)
  /-- RPL_BUSY_CLEAR (R359): DPT_RPL_STAT.busy clears once every expansion that read the old header has ended. -/
  | rplBusyClear
  /-- CAT_INSERT (R169): The Catalogue stages a new entry born in the next epoch. -/
  | catInsert
  /-- CAT_REPLACE (R169): The Catalogue stages a new version and retires the old one at the next epoch. -/
  | catReplace
  /-- CAT_DELETE (R169): The Catalogue sets an entry's death to the next epoch. -/
  | catDelete
  /-- CAT_FIND (R169): The Catalogue returns an entry and its index to the host. -/
  | catFind
  /-- ACCESSION_LEARN (R166): The Accession unit takes the next learn at its rate spacing and writes, moves or coalesces the entry in both replicas. -/
  | accessionLearn (w : Wing)
  /-- LEARN_RETRY (R177): A learn that lost to a host command retries once 16 clocks later. -/
  | learnRetry (w : Wing)
  /-- DEACCESSION_PASS (R173): Every tick_ms a pass ages or removes idle learned entries in both replicas. -/
  | deaccessionPass
  /-- ROUTE_ADD (R208): The route table stages a new prefix born in the next epoch. -/
  | routeAdd
  /-- ROUTE_REPLACE (R208): The route table stages a new prefix version and retires the old one. -/
  | routeReplace
  /-- ROUTE_DELETE (R208): The route table sets a prefix's death to the next epoch. -/
  | routeDelete
  /-- ROUTE_FIND (R208): The route table returns a prefix and its result to the host. -/
  | routeFind
  /-- NH_SET (R208): The engine writes a next hop's other version born in the next epoch and retires the current one. -/
  | nhSet
  /-- NH_DELETE (R208): The engine sets a next hop's death to the next epoch. -/
  | nhDelete
  /-- GROUP_SET (R208): The engine allocates and fills a member block and writes a new group version. -/
  | groupSet
  /-- GROUP_REPLACE_MEMBER (R208): The engine writes a new group block with one member's buckets given to another. -/
  | groupReplaceMember
  /-- GROUP_REMOVE_MEMBER (R208): The engine writes a new group block with one member's buckets spread over the rest. -/
  | groupRemoveMember
  /-- GROUP_DELETE (R208): The engine sets a group's death to the next epoch. -/
  | groupDelete
  /-- VIT_PLACE (R241): The Vitrine writes an entry at the lowest free position of a chain. -/
  | vitPlace
  /-- VIT_INSERT (R241): The Vitrine writes an entry at a position, moving a block down to open it. -/
  | vitInsert
  /-- VIT_REPLACE (R241): The Vitrine inserts a new version at a position and retires the old one. -/
  | vitReplace
  /-- VIT_DELETE (R241): The Vitrine sets an entry's death to the next epoch. -/
  | vitDelete
  /-- VIT_FIND (R241): The Vitrine returns an entry with its hit bits and optionally clears them. -/
  | vitFind
  /-- POL_SET (R240): The engine writes a policer's configuration and fills its buckets in one wing. -/
  | polSet
  /-- VIT_BANK_FAIL (R249): A Vitrine bank with too many differing rows is declared failed and a spare takeover starts if auto is set. -/
  | vitBankFail (w : Wing) (b : Fin 16)
  /-- VIT_SPARE_CMD (R249): A write of VIT_SPARE_CMD.go declares a logical bank failed and starts a takeover. -/
  | vitSpareCmd (w : Wing) (v : W32)
  /-- VIT_BANK_SPARED (R250): After the copy the failed logical bank is mapped to the spare. -/
  | vitBankSpared (w : Wing)
  /-- TPL_SET (R312): The engine writes a template's other version born in the next epoch. -/
  | tplSet
  /-- TPL_DELETE (R312): The engine sets a template's death to the next epoch. -/
  | tplDelete
  /-- TPL_FIND (R312): The engine returns the template version visible under the next epoch. -/
  | tplFind
  /-- COMMAND_DISPATCH (R719): The Provenance dispatcher takes one table command from the rings and hands it to its executor. -/
  | commandDispatch
  /-- COMMIT (R277): A COMMIT makes the next epoch current in every gallery and the Depot, or completes BUSY. -/
  | commit
  /-- DISCARD (R278): A DISCARD frees every staged change and clears the marks of the next epoch. -/
  | discard
  /-- EPOCH_RETIRE (R264): The oldest live epoch retires once drained and walked, and the walker starts on the next. -/
  | epochRetire
  /-- WALKER_WORK (R265): The walker settles entries born in the oldest epoch and frees those dying in it. -/
  | walkerWork
  /-- DRAIN_SLOW (R282): When the oldest epoch has drained for warn_ms without retiring, drain_slow is set and the top queue recorded. -/
  | drainSlow
  /-- DOORBELL (R507): A write to HIF_SQ_DB starts a scan of the ring, or latches one further scan. -/
  | doorbell (r : RingIx)
  /-- ENTRY_FETCH (R507): A fetched submission entry is taken if owned and the next is fetched, else the scan stops. -/
  | entryFetch (r : RingIx) (e : List W32) (busErr : Option RingKind)
  /-- RING_CFG_WRITE (R504): A ring CFG write is accepted by its conditions, and enabling resets the engine's index. -/
  | ringCfgWrite (k : RingKind) (r : RingIx) (w : Fin 3) (v : W32)
  /-- H2T (R517): A DMA job copies host memory into table space. -/
  | h2t (c : Chan) (bytes : List Byte)
  /-- T2H (R517): A DMA job copies table space into host memory. -/
  | t2h (c : Chan)
  /-- T2T (R517): A DMA job copies table space to table space. -/
  | t2t (c : Chan)
  /-- FILL (R517): A DMA job fills table space with a 64-bit pattern. -/
  | fill (c : Chan)
  /-- H2H (R517): A DMA job copies host memory to host memory. -/
  | h2h (c : Chan) (bytes : List Byte)
  /-- DMA_COMPLETE (R519): After the last write or read-back the engine writes the DMA completion. -/
  | dmaComplete (c : Chan) (readFails : Bool)
  /-- INJECT_JOB (R529): The engine reads a frame from host memory and presents it as an arrival on port 512. -/
  | injectJob (r : RingIx) (bytes : List Byte)
  /-- BUFFER_POST (R526): The engine takes a posted receive buffer for punted frames. -/
  | bufferPost (q : RingIx) (e : List W32)
  /-- PUNT_DELIVERY (R527): The engine writes a frame of port 512 with its punt header into buffers and writes punt entries. -/
  | puntDelivery (q : RingIx)
  /-- IRQ_TIMER (R530): A ring's moderation timer expires and its MSI-X message is sent. -/
  | irqTimer (eq : Bool) (r : RingIx)
  /-- APERTURE_READ (R501): A BAR4 aperture read returns a table word or all ones for refused, never-written or poisoned words. -/
  | apertureRead (ap : Fin 4) (off : BitVec 26) (len : BitVec 13)
  /-- APERTURE_WRITE (R501): A BAR4 aperture write stores table words or is discarded as refused. -/
  | apertureWrite (ap : Fin 4) (off : BitVec 26) (bytes : List Byte)
  /-- NARROW_WRITE_MERGE (R585): A partial-word write is merged into its ECC word by read and write through the merge buffer. -/
  | narrowWriteMerge
  /-- D3HOT_ENTRY (R532): A PowerState write of D3hot stops fetching, flushes pending messages and completes within 2 µs. -/
  | d3hotEntry (pmeEn : Bool) (clear : Bool)
  /-- D0_RESUME (R534): On return to D0 with bus mastering the engine writes held completions and resumes jobs. -/
  | d0Resume (pmeEn : Bool) (clear : Bool)
  /-- PCIE_PERST_N (R499): PCIE_PERST_N resets the HIF pages and link, disables rings and abandons DMA jobs. -/
  | pciePerstN (speed : Fin 6) (width : Fin 17)
  /-- FUNCTION_LEVEL_RESET (R499): A Function Level Reset resets the HIF pages and disables every ring. -/
  | functionLevelReset
  /-- DATA_SEGMENT_RX (R543): The Annex receives a DATA segment, checks it and passes its payload to port 513, or resets the link on error. -/
  | dataSegmentRx (hdr : BitVec 64) (payload : List Byte) (crcOk : Bool)
  /-- CREDIT_SEGMENT_RX (R543): A received CREDIT segment adds credits for its channel from the next clock. -/
  | creditSegmentRx (hdr : BitVec 64) (payload : List Byte) (crcOk : Bool)
  /-- LINK_SEGMENT_RX (R551): A received LINK segment with acknowledgement moves the link from INIT to UP. -/
  | linkSegmentRx (hdr : BitVec 64) (payload : List Byte) (crcOk : Bool)
  /-- SEGMENT_TX (R541): The Annex sends one DATA segment on a channel holding credit, in rotating channel order. -/
  | segmentTx
  /-- CREDIT_RETURN (R545): The Annex returns gathered credits in a CREDIT segment on batch or timer. -/
  | creditReturn (c : Chan) (timer : Bool)
  /-- LINK_SEGMENT_TX (R551): In INIT the Annex sends one LINK segment per microsecond. -/
  | linkSegmentTx
  /-- ANNEX_TRAIN_DONE (R551): All Annex lanes lock and the PCS aligns, moving the link to INIT. -/
  | annexTrainDone
  /-- ANNEX_LOCK_LOSS (R552): Loss of Annex lane lock or PCS alignment resets the link. -/
  | annexLockLoss (locked : Byte)
  /-- PORT513_DOWN_TIMER (R550): After down_us of link outage port 513 goes down. -/
  | port513DownTimer
  /-- LEDGER_WRAP (R563): A Ledger counter wraps, sets its overflow bit and increments a chained counter. -/
  | ledgerWrap (l : Fin 16) (n : Fin 64)
  /-- COUNTER_CLEAR (R565): A write of LDG_CTR_CLR clears the selected counters. -/
  | counterClear (l : Fin 16) (hi : Bool) (v : W32)
  /-- USER_PAGE_READ (R573): A BAR2 read returns a counter of an allowed group or zero when denied. -/
  | userPageRead (off : BitVec 16) (wide : Bool)
  /-- USER_PAGE_WRITE (R574): A BAR2 write is ignored, counted and flagged. -/
  | userPageWrite (off : BitVec 16)
  /-- LDG_USER_STAT_READ (R574): A read of LDG_USER_STAT returns and clears its counts. -/
  | ldgUserStatRead
  /-- DOC_CYC_STAT_READ (R121): A read of DOC_CYC_STAT returns and clears the longest parse. -/
  | docCycStatRead (g : Gallery)
  /-- SOJOURN_MAX_READ (R413): A read of TMG_Q_SOJ_MAX returns and clears the largest sojourn. -/
  | sojournMaxRead (q : QueueIx)
  /-- SCRUB_PASS (R590): Every pass_ms the Conservator reads and checks every GOOD word of the scrubbed memories. -/
  | scrubPass (late : Bool) (ce : List ScrubWord) (ue : List ScrubWord)
  /-- SCRUB_WRITE_BACK (R591): The Conservator writes back a corrected word unless another write reached it first. -/
  | scrubWriteBack
  /-- CE_LEAK (R589): Every leak_ms the correctable-error bucket level falls by one. -/
  | ceLeak (p : Page)
  /-- IMAGE_COMPARE_PASS (R593): Every 8 ms the Conservator compares match-array rows and overflow keys with their images and rewrites differences. -/
  | imageComparePass (w : Wing) (rows : List (Fin 16 × Fin 4096)) (keys : List (Fin 8192))
  /-- SHADOW_CHUNK_COMPARE (R596): The Conservator compares one shadow chunk read by DMA with both replicas. -/
  | shadowChunkCompare (t : Fin 4) (bytes : List Byte) (busErr : Bool)
  /-- SHADOW_RECHECK (R598): After settle_us a seen difference is read again, confirmed and repaired if one replica matches the shadow. -/
  | shadowRecheck (bytes : List Byte)
  /-- ECC_INJECT (R605): A write of CSV_INJ_CMD.go corrupts nsym symbols of the stored ECC word. -/
  | eccInject (v : W32)
  /-- VAULT_MODE_ENTRY (R453): A spill-eligible queue enters vault mode when every condition holds, splitting into Head and Tail. -/
  | vaultModeEntry (q : QueueIx)
  /-- SPILL_WRITE (R455): The spill writer moves the oldest Tail frame of a queue to the Middle, writing it to a Vault buffer or keeping it in the Hall. -/
  | spillWrite
  /-- RETURN_READ (R457): The return reader brings the next Middle entry back to the Hall or discards it. -/
  | returnRead (rec : RdOutcome) (ce ue : Fin 193)
  /-- VAULT_MODE_EXIT (R460): A queue with an empty Middle and nothing in flight leaves vault mode and joins its Tail to its Head. -/
  | vaultModeExit (q : QueueIx)
  /-- REFRESH_PER_BANK (R468): The controller sends each bank a REFpb once per tREFI. -/
  | refreshPerBank (c : Fin 128) (b : Fin 32) (busy : Bool)
  /-- ACTIVATE (R472): An activate updates the row-disturbance counters and may queue a targeted refresh. -/
  | activate (c : Fin 128) (b : Fin 32) (r : Fin 16384)
  /-- ACT_TABLE_CLEAR (R472): At each refresh window start the bank's activate table is emptied. -/
  | actTableClear (c : Fin 128) (b : Fin 32)
  /-- RFM_REQUEST (R474): A stack's refresh-management request makes the controller send RFM within 1 µs. -/
  | rfmRequest (c : Fin 128) (b : Fin 32)
  /-- STACK_TEMP_READ (R469): Every 1 ms the engine reads each stack's temperature and sets its refresh rate and spill acceptance. -/
  | stackTempRead (k : Fin 4) (reading : Option (BitVec 8))
  /-- PSEUDO_CHANNEL_FAIL (R475): A pseudo-channel is declared failed and starts draining for remapping. -/
  | pseudoChannelFail (c : Fin 128) (retrain : Bool)
  /-- PC_FAIL_CMD (R475): A write of VLT_PC_CMD.go declares a pseudo-channel failed. -/
  | pcFailCmd (v : W32)
  /-- PC_FENCE (R476): A drained failed pseudo-channel is fenced and its buffers removed from the pools. -/
  | pcFence (c : Fin 128)
  /-- SELF_REFRESH_ENTRY (R477): With park_allow and an empty Vault the stacks enter self-refresh. -/
  | selfRefreshEntry
  /-- SELF_REFRESH_EXIT (R477): On the first spill-eligible queue the stacks leave self-refresh within 2 µs. -/
  | selfRefreshExit
  /-- TSN_STEP (R420): A write of TSN_STEP_NS applies a step to the time counter offset D. -/
  | tsnStep (v : W32)
  /-- TSN_TIME_SET (R420): A write of TSN_TIME_SET_NS steps the time counter to the set value. -/
  | tsnTimeSet (v : W32)
  /-- TIME_READ_LATCH (R422): A read of TSN_TIME_NS latches the seconds of the same instant. -/
  | timeReadLatch
  /-- TIME_INPUT_LOSS (R419): Loss of PTP_CLK10_IN puts the time counter into holdover. -/
  | timeInputLoss
  /-- TIME_INPUT_LOCK (R419): The time tick locks to a valid PTP_CLK10_IN without a step. -/
  | timeInputLock
  /-- PPS_OUT_PULSE (R423): At each whole second of E + D less offset the engine drives PTP_PPS_OUT high for width_us. -/
  | ppsOutPulse
  /-- PPS_IN_CAPTURE (R423): A confirmed rising edge of PTP_PPS_IN captures E + D and sets pps_in. -/
  | ppsInCapture
  /-- GCL_GO (R426): A write of TSN_GCL_CTRL.go computes the change time of the administrative configuration or is refused. -/
  | gclGo (i : Port) (v : W32)
  /-- GCL_CHANGE (R426): At the change time the administrative gate configuration becomes operational. -/
  | gclChange (i : Port)
  /-- GATE_ENTRY_ADVANCE (R425): When an entry's interval ends, the port's gate list moves to the next entry or the next cycle. -/
  | gateEntryAdvance (i : Port)
  /-- SRF_TIMEOUT (R439): A recovery function with no pass for reset_ms sets take_any. -/
  | srfTimeout (r : Fin 4096)
  /-- SRF_RESET_CMD (R439): A write of TSN_SRF_RESET sets take_any of the named function. -/
  | srfResetCmd (v : W32)
  /-- CURATOR_PERIOD (R482): Each period a Curator pair reads measurements, makes clamped decisions, writes and logs them, and halts. -/
  | curatorPeriod (ds : Option (List CurDecision))
  /-- LOCKSTEP_MISMATCH (R483): A lockstep mismatch suppresses the write, fences the pair and switches to the other pair. -/
  | lockstepMismatch (other : Option (List Byte))
  /-- CODED_MESSAGE (R611): The Registrar takes a coded message, records it in the history and reacts to its fault kind. -/
  | codedMessage
  /-- INT_SET_WRITE (R627): An INT_SET write sets INT_STAT bits as injections, sending messages with inj and reacting if react is set. -/
  | intSetWrite (p : Page) (v : W32)
  /-- INJECT_MESSAGE (R628): A write of RGR_INJ_MSG_HI injects a coded message into the Registrar's arbiter. -/
  | injectMessage (v : W32)
  /-- HOST_FENCE (R616): A write of FENCE.fence fences the block as a fault of kind 0x1E. -/
  | hostFence (p : Page)
  /-- FENCE_RELEASE (R617): A write of FENCE.release moves a fenced block to OFF and starts it if an enable is latched. -/
  | fenceRelease (p : Page)
  /-- BLOCK_FAULT (R615): A block reports a fault, and the engine fences it and applies the fence effects of its kind. -/
  | blockFault (p : Page) (kind : Fin 64) (addr : BitVec 40)
  /-- GALLERY_FAULT (R618): A gallery fault fences the gallery and starts a takeover by GS when allowed. The fault is an
  uncorrectable error in the gallery's state (`ue`), or a reorder ring that has released nothing for 1 ms (R615). -/
  | galleryFault (g : Gallery) (ue : Bool)
  /-- TAKEOVER_LINK_SWITCH (R621): The chiplet's standby link is ready, link_sel reads 1 and traffic resumes through GS. -/
  | takeoverLinkSwitch (ms : BitVec 16)
  /-- PLANNED_TAKEOVER (R626): RGR_SPARE_CMD with op 0 stops a gallery's DOC and moves it to GS. -/
  | plannedTakeover (g : Fin 8)
  /-- GIVE_BACK (R626): RGR_SPARE_CMD with op 1 returns a gallery's ports from GS to the gallery. -/
  | giveBack (g : Fin 8)
  /-- ERR_CAUSE_READ (R692): A read of ERR_CAUSE latches ERR_ADDR_LO and ERR_ADDR_HI of the same record. -/
  | errCauseRead (p : Page)
  /-- ERR_CAUSE_CLEAR (R692): A write to ERR_CAUSE clears the record and its addresses. -/
  | errCauseClear (p : Page)
  /-- GALLERY_PARK (R632): After idle_cycles idle clocks a gallery with park_allow enters PARKED. -/
  | galleryPark (g : Gallery)
  /-- GALLERY_WAKE (R634): A PARKED gallery wakes on a frame, eligible queue, access, DMA, register change or takeover. -/
  | galleryWake (g : Gallery) (late : Bool)
  /-- GALLERY_DORMANT (R636): A gallery PARKED for dormant_ms with all its ports down enters DORMANT. -/
  | galleryDormant (g : Gallery)
  /-- DORMANT_WAKE (R641): A DORMANT gallery is ramped up, reloaded from the Registrar copy and made ACTIVE. -/
  | dormantWake (g : Gallery) (late : Bool)
  /-- PORESET (R649): Release of PORESET_N resets everything, reads fuses, locks PLLs and starts boot. -/
  | poreset
  /-- RESET_N (R648): RESET_N resets every block except the always-on pages and time counter and runs boot again. -/
  | resetN
  /-- PWR_RST_CMD (R650): A write of PWR_RST_CMD with key 0xA5 and go starts a reset equal to RESET_N. -/
  | pwrRstCmd (v : W32)
  /-- REFCLK_LOSS (R645): Loss of REFCLK25 or a PLL lock holds every non-always-on domain in reset. -/
  | refclkLoss (what : Fin 4)
  /-- REFCLK_RECOVER (R645): After REFCLK25 has run 1 ms the PLLs relock and the domains are released. -/
  | refclkRecover
  /-- LANE_REFCLK_LOSS (R646): Loss of LN_REFCLK drops the chiplet's lanes to TRAIN and sets lnref_lost. -/
  | laneRefclkLoss (k : Chiplet)
  /-- RAIL_UNDERVOLT (R708): A rail below its threshold for 1 µs acts as an assertion of PORESET_N. -/
  | railUndervolt
  /-- SENSOR_READ (R713): Every 1 ms each on-die sensor is read and over-temperature warnings are raised. -/
  | sensorRead (k : Fin 24) (temp : BitVec 8)
  /-- BOOT_ROUND (R654): The boot front end reads the directory and tries flash slots until one verifies and runs. -/
  | bootRound (dir : List Byte) (a b : Option (List Byte))
  /-- BOOT_BACKOFF_EXPIRY (R655): After a failed round the back-off wait expires and the next round starts. -/
  | bootBackoffExpiry (dir : List Byte) (a b : Option (List Byte))
  /-- HOST_FED_LOAD (R658): A write of PWR_BOOT_HOST_CMD.go loads and verifies an image from host memory. -/
  | hostFedLoad (bytes : List Byte)
  /-- VUBEX_RUNNING (R660): Vubex writes phase 0xB and the CUR block may start. -/
  | vubexRunning
  /-- VUBEX_START_TIMEOUT (R656): Vubex not running within 1 s fails the attempt with code 0x7. -/
  | vubexStartTimeout (other : Option (List Byte))
  /-- LIFE_HOURS_TICK (R715): Every second the engine adds temperature-weighted equivalent hours to PWR_LIFE_HOURS. -/
  | lifeHoursTick
  /-- AGE_MONITOR (R716): Every second the ageing monitors are measured and an ageing report raised when the margin falls. -/
  | ageMonitor (worst : Fin 32) (margin : Byte)
  /-- LIFECYCLE_TRANSITION (R669): A write of LCS_TRANS_CMD with key 0x5A checks the request and blows the target state's fuse pair. -/
  | lifecycleTransition (v : W32) (fuses : Fin 3)
  /-- KEY_PROGRAM (R672): LCS_KEY_PROG with revoke 0 programs an owner key slot in PROVISIONED. -/
  | keyProgram (k : Fin 4) (fuses : Fin 3)
  /-- KEY_REVOKE (R673): LCS_KEY_PROG with revoke 1 revokes an owner key slot. -/
  | keyRevoke (k : Fin 4) (fuses : Fin 3)
  /-- VERSION_RAISE (R674): A write of LCS_VER_PROG.go raises the minimum image version. -/
  | versionRaise (v : BitVec 7) (fuses : Fin 3)
  /-- NONCE_READ (R677): A read of LCS_NONCE_LO draws a new nonce and latches its upper half. -/
  | nonceRead
  /-- GPIO_EDGE (R695): An enabled edge on a GPIO sets its DEV_GPIO_EDGE bit and gpio_edge. -/
  | gpioEdge (j : Fin 32) (rising : Bool)
  /-- SMB_WRITE (R696): SMBus command 0x01 writes a register reachable from the management bus. -/
  | smbWrite (a : W32) (v : W32) (pecOk : Bool)
  /-- SMB_SET_ADDRESS (R696): SMBus command 0x02 sets the read address. -/
  | smbSetAddress (a : W32) (pecOk : Bool)
  /-- SMB_READ (R696): SMBus command 0x03 reads the register at the read address. -/
  | smbRead
  /-- PAUSE_QUANTA_EXPIRY (R396): The pause time of a received PFC priority or 802.3 pause runs out and the traffic manager stops holding the paused queues. -/
  | pauseQuantaExpiry (i : NetPort) (p : Fin 9)
  /-- RING_CONSUMER_WRITE (R512): A host write of a completion, event, Archive or decision-log ring consumer index returns entries, so that waiting completions, punts or records may be written. -/
  | ringConsumerWrite (k : ConsRing) (v : W32)
  /-- MSIX_VECTOR_UNMASK (R530): The host unmasks an MSI-X vector whose pending bit is set, and the engine sends the message. -/
  | msixVectorUnmask (v : Fin 256)
  /-- BUS_MASTER_ENABLE_CLEAR (R533): A configuration write that clears Bus Master Enable stops every memory request, stalls jobs that need host memory and holds completions. -/
  | busMasterEnableClear
  /-- ANX_LINK_EN_WRITE (R551): A write of ANX_CFG.link_en moves the Annex link from OFF to TRAIN, or turns it OFF from any state. -/
  | anxLinkEnWrite (v : W32)
  /-- ANX_CHAN_CFG_WRITE (R553): A write to ANX_CHAN_CFG_c or ANX_TX_MAP is accepted only while the link is OFF with link_en 0, and is otherwise ignored and recorded. -/
  | anxChanCfgWrite (k : Fin 18) (v : W32)
  /-- CAT_CFG_WRITE (R148): A write to CAT_CFG changes seed_sel only while both CAT blocks are OFF, recording a refused change, and an age_en of 1 starts the Deaccession interval. -/
  | catCfgWrite (w : Wing) (v : W32)
  /-- CAT_AGE_CFG_WRITE (R173): A write to CAT_AGE_CFG.tick_ms restarts the Deaccession interval from the write. -/
  | catAgeCfgWrite (w : Wing) (v : W32)
  /-- VIT_BANK_CFG_WRITE (R219): A write to VIT_BANK_CFG_b is accepted only while both VIT blocks are OFF or the bank is empty and unreferenced, and is otherwise ignored and recorded. -/
  | vitBankCfgWrite (w : Wing) (b : Fin 16) (v : W32)
  /-- VLT_POOL_CFG_WRITE (R450): A write to VLT_POOL_CFG_k is accepted only while the VLT block is OFF, and is otherwise ignored and recorded. -/
  | vltPoolCfgWrite (k : Fin 3) (v : W32)
  /-- CUR_LOG_CFG_WRITE (R495): A write to CUR_LOG_CFG or the log base registers is accepted only while en is 0, except a change of en alone, and refused writes are recorded. -/
  | curLogCfgWrite (w : Fin 3) (v : W32)
  /-- PCIE_REFCLK_LOSS (R642): Loss of PCIE_REFCLK takes the PCIe link down, as PCIe specifies. -/
  | pcieRefclkLoss
  /-- LANE_REFCLK_RETURN (R646): LN_REFCLK[k] returns, its lnref_ok bit reads 1 again and the chiplet's lanes can train. -/
  | laneRefclkReturn (k : Chiplet)
  deriving DecidableEq, Repr

end Sys2Proof
end

