-- ==== Sys2Proof/Decode.lean ====
section
/-!
DEFINITION. The decoder over the rows of the table of operations and events that give bits. No row gives any (each row's list of
fields is empty), so no word spells a command.
-/
namespace Sys2Proof

/-- The command that a word spells by the table's bits: none, for the table gives no row any bits (log 2). -/
def decodeTableWord (_nbits _w : Nat) : Option Instr := none

end Sys2Proof
end

