-- ==== Sys2Proof/Config.lean ====
section
/-!
DEFINITION. What an implementation fixes and the spec leaves open: free values, as opaque constants with no body.
No proof can see one; a statement about a free value holds for every value of it.
-/
namespace Sys2Proof.Config

/-- FREE VALUE (log 3). A fresh open 32-bit value: the `n`-th one drawn. -/
opaque freeValue : Nat → W32

/-- FREE VALUE (log 3). A fresh open choice below `k` (for example a bank the spec leaves to the Depot, R319). -/
opaque freeChoice : Nat → Nat → Nat

/-- FREE VALUE (log 3). The fixed receive delay of a port mode in quarter-nanoseconds (R80): the spec gives no figure. -/
opaque rxDelay : Nat → Nat

/-- FREE VALUE (log 3). The fixed transmit delay of a port mode in quarter-nanoseconds (R80). -/
opaque txDelay : Nat → Nat

/-- FREE VALUE (log 6). How an egress timestamp, in quarter-nanoseconds, stands in the correction field (R82): the spec does not say. -/
opaque corrField : Nat → BitVec 64

/-- FREE VALUE (log 29). The 64-bit device identifier fused at manufacture (LCS_UID). -/
opaque uid : BitVec 64

/-- FREE VALUE (log 29). The maker key hash fused at manufacture (R672). -/
opaque makerHash : List Byte

/-- FREE VALUE (log 29). SHA-384, which the spec names and does not define: an uninterpreted function of the bytes. -/
opaque sha384 : List Byte → List Byte

/-- FREE VALUE (log 29). ECDSA P-384 verification of a signature (r and s) over a hash with a public key: uninterpreted. -/
opaque ecdsaVerifies : List Byte → List Byte → List Byte → Bool

end Sys2Proof.Config
end

