-- ==== Sys2Proof/Machine/Bits.lean ====
section
/-!
DEFINITION. Bit fields, byte orders and the canonical sparse store. Every other file reads and writes fields, words and
stores through these.
-/
namespace Sys2Proof.Machine

/-- Field [hi:lo] of a number (chapter 00: inclusive, bit 0 least significant). -/
def bitsOf (n hi lo : Nat) : Nat := n / 2 ^ lo % 2 ^ (hi + 1 - lo)

/-- Field [hi:lo] of a register word. -/
def fld (w : W32) (hi lo : Nat) : Nat := bitsOf w.toNat hi lo

/-- Bit `b` of a register word. -/
def bit (w : W32) (b : Nat) : Bool := w.toNat.testBit b

/-- A register word with field [hi:lo] set to `v` modulo the field's width, every other bit kept. -/
def setFld (w : W32) (hi lo v : Nat) : W32 :=
  w32 (w.toNat - bitsOf w.toNat hi lo * 2 ^ lo + v % 2 ^ (hi + 1 - lo) * 2 ^ lo)

/-- A truth value as a bit. -/
def b2n (b : Bool) : Nat := if b then 1 else 0

/-- A `w`-bit number read as two's complement. -/
def signed (w n : Nat) : Int := if n % 2 ^ w < 2 ^ (w - 1) then (n % 2 ^ w : Nat) else ((n % 2 ^ w : Nat) : Int) - 2 ^ w

/-- An integer written in `w` bits of two's complement. -/
def unsigned (w : Nat) (i : Int) : Nat := (i % (2 ^ w : Int)).toNat

/-- The bytes of `n`, least significant first (R9). -/
def leBytes : Nat → Nat → List Byte
  | 0, _ => []
  | k + 1, n => byte n :: leBytes k (n / 256)

/-- The number that bytes spell, least significant first (R9). -/
def leNat : List Byte → Nat
  | [] => 0
  | b :: r => b.toNat + 256 * leNat r

/-- The number that bytes spell in network byte order (R10). -/
def beNat (l : List Byte) : Nat := l.foldl (fun a b => a * 256 + b.toNat) 0

/-- The low `k` bytes of `n` in network byte order (R10). -/
def beBytes (k n : Nat) : List Byte := (leBytes k n).reverse

/-- Byte `i` of a byte string, zero beyond its end. -/
def byteAt (l : List Byte) (i : Nat) : Byte := l.getD i 0

/-- `n` bytes from position `i`, zero beyond the end. -/
def slice (l : List Byte) (i n : Nat) : List Byte := (List.range n).map fun j => byteAt l (i + j)

/-- The byte string with the bytes `new` written over it from position `i` (bytes past its end are dropped). -/
def overwrite : List Byte → Nat → List Byte → List Byte
  | l, _, [] => l
  | [], _, _ => []
  | _ :: r, 0, n :: ns => n :: overwrite r 0 ns
  | x :: r, i + 1, ns => x :: overwrite r i ns

/-- Value at key `k` of a canonical store (keys strictly rising); `d` where it lists nothing. -/
def sGet {α : Type} (d : α) (k : Nat) : List (Nat × α) → α
  | [] => d
  | (j, v) :: r => if j = k then v else sGet d k r

/-- Write of `v` at key `k` of a store whose unlisted entry `k` reads as `d`. In a canonical store the keys stay strictly rising
and an entry equal to `d` is not listed; in any store the key then reads as `v` and every other key as before. -/
def sPut {α : Type} [DecidableEq α] (d : α) (k : Nat) (v : α) : List (Nat × α) → List (Nat × α)
  | [] => if v = d then [] else [(k, v)]
  | (j, w) :: r =>
    if k < j then (if v = d then (j, w) :: r.filter (fun e => e.1 != k) else (k, v) :: (j, w) :: r)
    else if k = j then (if v = d then r.filter (fun e => e.1 != k) else (k, v) :: r)
    else (j, w) :: sPut d k v r

/-- The keys of a store are strictly rising from above `lo`. -/
def sRising {α : Type} : Option Nat → List (Nat × α) → Bool
  | _, [] => true
  | lo, (k, _) :: r => (match lo with | none => true | some m => decide (m < k)) && sRising (some k) r

/-- Canonical form: keys strictly rising and no entry equal to what an unlisted key reads as. -/
def sWf {α : Type} [DecidableEq α] (d : Nat → α) (l : List (Nat × α)) : Bool :=
  sRising none l && l.all fun e => decide (e.2 ≠ d e.1)

/-- The lowest number below `n` that satisfies `p`. -/
def firstBelow (n : Nat) (p : Nat → Bool) : Option Nat := (List.range n).find? p

/-- Ceiling of `a / b` (0 for `b = 0`). -/
def ceilDiv (a b : Nat) : Nat := (a + b - 1) / b

/-- Numbers `i` below `n` with bit `i` of `m` set. -/
def setBits (n m : Nat) : List Nat := (List.range n).filter fun i => m.testBit i

/-- The entry at index `i` of a list replaced. -/
def listSet {α : Type} (l : List α) (i : Nat) (v : α) : List α := l.set i v

end Sys2Proof.Machine
end

