-- ==== Sys2Proof/Machine/Regs.lean ====
section
/-!
DEFINITION. The register map: where every named register of the spec lies in BAR0 (R681, R693), and the field card
of each register (its fields' bits, access codes and Reset values), chapter by chapter. A register address is the
BAR0 byte offset `page * 0x10000 + offset`.
-/
namespace Sys2Proof.Machine

/-- The access codes of R14. -/
inductive Access where
  | rw | ro | rov | w1c | w1s | wo | rwl
  deriving DecidableEq, Repr

/-- One row of a field card: bits [hi:lo], access code and Reset value. -/
structure FieldCard where
  hi : Nat
  lo : Nat
  acc : Access
  reset : Nat
  deriving DecidableEq, Repr

/-- A register, or an array of them (two strides and counts), with its field card. `extra i j` is added to the Reset
value where the card's Reset column depends on the register's index. -/
structure RegCard where
  name : String
  off : Nat
  s1 : Nat
  n1 : Nat
  s2 : Nat
  n2 : Nat
  fields : List FieldCard
  extra : Nat → Nat → Nat := fun _ _ => 0

/-- The blocks of the page map (R693). -/
inductive Blk where
  | dev | pwr | lcs | cur | rgr | hif | anx | lnk | doc | edt | gal | cat | lpm | vit | prv | hal | dpt | arc | tmg | tsn
  | vlt | ldg | csv | test
  deriving DecidableEq, Repr

/-! Page indices (R693). -/

def pageLNK (k : Nat) : Nat := 0x40 + 8 * k
def pageDOC (g : Nat) : Nat := 0x100 + 0x10 * g
def pageEDT (g : Nat) : Nat := 0x101 + 0x10 * g
def pageGAL (g : Nat) : Nat := 0x102 + 0x10 * g
def pageCAT (w : Nat) : Nat := 0x200 + 0x10 * w
def pageLPM (w : Nat) : Nat := 0x201 + 0x10 * w
def pageVIT (w : Nat) : Nat := 0x202 + 0x10 * w
def pagePRV (w : Nat) : Nat := 0x203 + 0x10 * w
def pageLDG (l : Nat) : Nat := 0x2A0 + l
def pageDEV : Nat := 0x000
def pagePWR : Nat := 0x001
def pageLCS : Nat := 0x002
def pageCUR : Nat := 0x003
def pageRGR : Nat := 0x004
def pageHIF : Nat := 0x008
def pageANX : Nat := 0x010
def pageHAL : Nat := 0x240
def pageDPT : Nat := 0x248
def pageARC : Nat := 0x249
def pageTMG : Nat := 0x250
def pageTSN : Nat := 0x260
def pageVLT : Nat := 0x280
def pageCSV : Nat := 0x2B0

/-- BAR0 byte offset of offset `x` of page `p` (R681). -/
def bar0 (p x : Nat) : Nat := p * 0x10000 + x

/-! The common header of page `p` (R682). -/

def H_ID (p : Nat) : Nat := bar0 p 0x0
def H_VERSION (p : Nat) : Nat := bar0 p 0x4
def H_CTRL (p : Nat) : Nat := bar0 p 0x8
def H_STATE (p : Nat) : Nat := bar0 p 0xC
def H_INT_STAT (p : Nat) : Nat := bar0 p 0x10
def H_INT_EN (p : Nat) : Nat := bar0 p 0x14
def H_INT_SET (p : Nat) : Nat := bar0 p 0x18
def H_FENCE (p : Nat) : Nat := bar0 p 0x1C
def H_ERR_CAUSE (p : Nat) : Nat := bar0 p 0x20
def H_ERR_ADDR_LO (p : Nat) : Nat := bar0 p 0x24
def H_ERR_ADDR_HI (p : Nat) : Nat := bar0 p 0x28
def H_CE_BUCKET (p : Nat) : Nat := bar0 p 0x2C
def H_CE_COUNT (p : Nat) : Nat := bar0 p 0x30
def H_MSG_CFG (p : Nat) : Nat := bar0 p 0x34

/-! BAR0 addresses of the named registers. -/

def LNK_OCTET_MODE (k i : Nat) : Nat := bar0 (pageLNK k) (0x100 + 0x4 * i)
def LNK_HB_CFG (k : Nat) : Nat := bar0 (pageLNK k) 0x120
def LNK_HB_STAT (k : Nat) : Nat := bar0 (pageLNK k) 0x124
def LNK_D2D_CTRL (k : Nat) : Nat := bar0 (pageLNK k) 0x130
def LNK_D2D_STAT (k : Nat) : Nat := bar0 (pageLNK k) 0x134
def LNK_MOD_CMD (k : Nat) : Nat := bar0 (pageLNK k) 0x140
def LNK_LANE_CTRL (k i : Nat) : Nat := bar0 (pageLNK k + 1) (0x100 + 0x10 * i)
def LNK_LANE_STAT (k i : Nat) : Nat := bar0 (pageLNK k + 1) (0x104 + 0x10 * i)
def LNK_PORT_CFG (k i : Nat) : Nat := bar0 (pageLNK k + 2) (0x100 + 0x10 * i)
def LNK_TS_TRIM (k i : Nat) : Nat := bar0 (pageLNK k + 3) (0x200 + 0x4 * i)
def LNK_TS_FIFO (k i : Nat) : Nat := bar0 (pageLNK k + 3) (0x110 + 0x4 * i)
def DOC_BUDGET_CFG (g : Nat) : Nat := bar0 (pageDOC g) 0x100
def DOC_POOL_STAT (g : Nat) : Nat := bar0 (pageDOC g) 0x104
def DOC_DISPATCH_STAT (g : Nat) : Nat := bar0 (pageDOC g) 0x108
def DOC_CYC_STAT (g : Nat) : Nat := bar0 (pageDOC g) 0x10C
def DOC_EXC_LAST (g : Nat) : Nat := bar0 (pageDOC g) 0x110
def DOC_CORE_ACTIVE (g i : Nat) : Nat := bar0 (pageDOC g) (0x120 + 0x4 * i)
def DOC_CORE_FENCED (g i : Nat) : Nat := bar0 (pageDOC g) (0x140 + 0x4 * i)
def DOC_PORT_CFG (g i : Nat) : Nat := bar0 (pageDOC g) (0x400 + 0x8 * i)
def DOC_PORT_DEF (g i : Nat) : Nat := bar0 (pageDOC g) (0x404 + 0x8 * i)
def CAT_CFG (w : Nat) : Nat := bar0 (pageCAT w) 0x100
def CAT_LEARN_CFG (w : Nat) : Nat := bar0 (pageCAT w) 0x104
def CAT_LEARN_STAT (w : Nat) : Nat := bar0 (pageCAT w) 0x108
def CAT_OCC_STAT (w : Nat) : Nat := bar0 (pageCAT w) 0x10C
def CAT_OVF_CFG (w : Nat) : Nat := bar0 (pageCAT w) 0x110
def CAT_OVF_STAT (w : Nat) : Nat := bar0 (pageCAT w) 0x114
def CAT_AGE_CFG (w : Nat) : Nat := bar0 (pageCAT w) 0x120
def CAT_AGE_STAT (w : Nat) : Nat := bar0 (pageCAT w) 0x124
def CAT_EVT_CFG (w : Nat) : Nat := bar0 (pageCAT w) 0x128
def CAT_HASH_SEED (w i : Nat) : Nat := bar0 (pageCAT w) (0x130 + 0x4 * i)
def CAT_PROF_CTRL (w i : Nat) : Nat := bar0 (pageCAT w) (0x400 + 0x20 * i)
def CAT_PROF_SEL0 (w i : Nat) : Nat := bar0 (pageCAT w) (0x404 + 0x20 * i)
def CAT_PROF_SEL1 (w i : Nat) : Nat := bar0 (pageCAT w) (0x408 + 0x20 * i)
def CAT_PROF_SEL2 (w i : Nat) : Nat := bar0 (pageCAT w) (0x40C + 0x20 * i)
def CAT_PROF_MISS (w i : Nat) : Nat := bar0 (pageCAT w) (0x410 + 0x20 * i)
def CAT_PORT_PROF (w i : Nat) : Nat := bar0 (pageCAT w) (0x1000 + 0x4 * i)
def LPM_OCC_CFG (w : Nat) : Nat := bar0 (pageLPM w) 0x100
def LPM_OCC_STAT (w : Nat) : Nat := bar0 (pageLPM w) 0x104
def LPM_POOL_STAT (w : Nat) : Nat := bar0 (pageLPM w) 0x108
def LPM_LONG_CFG (w : Nat) : Nat := bar0 (pageLPM w) 0x10C
def LPM_PROF_CTRL (w i : Nat) : Nat := bar0 (pageLPM w) (0x400 + 0x20 * i)
def LPM_PROF_AUX (w i : Nat) : Nat := bar0 (pageLPM w) (0x404 + 0x20 * i)
def LPM_PROF_HSEL0 (w i : Nat) : Nat := bar0 (pageLPM w) (0x408 + 0x20 * i)
def LPM_PROF_HSEL1 (w i : Nat) : Nat := bar0 (pageLPM w) (0x40C + 0x20 * i)
def LPM_PROF_HSEL2 (w i : Nat) : Nat := bar0 (pageLPM w) (0x410 + 0x20 * i)
def LPM_PORT_PROF (w i : Nat) : Nat := bar0 (pageLPM w) (0x1000 + 0x4 * i)
def VIT_BANK_CFG (w i : Nat) : Nat := bar0 (pageVIT w) (0x110 + 0x4 * i)
def VIT_BANK_STAT (w i : Nat) : Nat := bar0 (pageVIT w) (0x150 + 0x4 * i)
def VIT_SPARE_CFG (w : Nat) : Nat := bar0 (pageVIT w) 0x190
def VIT_SPARE_CMD (w : Nat) : Nat := bar0 (pageVIT w) 0x194
def VIT_SPARE_STAT (w : Nat) : Nat := bar0 (pageVIT w) 0x198
def VIT_MOVE_STAT (w : Nat) : Nat := bar0 (pageVIT w) 0x1A0
def VIT_PROF_CTRL (w i : Nat) : Nat := bar0 (pageVIT w) (0x400 + 0x80 * i)
def VIT_PROF_SEL (w i j : Nat) : Nat := bar0 (pageVIT w) (0x404 + 0x80 * i + 0x4 * j)
def VIT_PROF_MASK (w i j : Nat) : Nat := bar0 (pageVIT w) (0x430 + 0x80 * i + 0x4 * j)
def VIT_PORT_PROF (w i : Nat) : Nat := bar0 (pageVIT w) (0x2000 + 0x4 * i)
def PRV_CMD_RINGS (w : Nat) : Nat := bar0 (pagePRV w) 0x100
def PRV_EPOCH (w : Nat) : Nat := bar0 (pagePRV w) 0x104
def PRV_DRAIN_CFG (w : Nat) : Nat := bar0 (pagePRV w) 0x108
def PRV_DRAIN_CNT (w i : Nat) : Nat := bar0 (pagePRV w) (0x110 + 0x4 * i)
def PRV_DRAIN_VLT (w : Nat) : Nat := bar0 (pagePRV w) 0x120
def PRV_DRAIN_TOP (w : Nat) : Nat := bar0 (pagePRV w) 0x124
def PRV_WALK_STAT (w : Nat) : Nat := bar0 (pagePRV w) 0x128
def EDT_CFG (g : Nat) : Nat := bar0 (pageEDT g) 0x100
def EDT_PORT_SMAC_LO (g i : Nat) : Nat := bar0 (pageEDT g) (0x400 + 0x8 * i)
def EDT_PORT_SMAC_HI (g i : Nat) : Nat := bar0 (pageEDT g) (0x404 + 0x8 * i)
def HAL_SPARE_CFG : Nat := bar0 pageHAL 0x100
def HAL_SPARE_CMD : Nat := bar0 pageHAL 0x104
def HAL_SPARE_STAT : Nat := bar0 pageHAL 0x108
def HAL_USE_STAT : Nat := bar0 pageHAL 0x110
def HAL_BANK_UE (i : Nat) : Nat := bar0 pageHAL (0x200 + 0x4 * i)
def HAL_AGE_CFG (i : Nat) : Nat := bar0 pageHAL (0x400 + 0x4 * i)
def HAL_DT_CFG (i : Nat) : Nat := bar0 (pageHAL + 1) (0x100 + 0x10 * i)
def HAL_ECN_CFG (i : Nat) : Nat := bar0 (pageHAL + 1) (0x104 + 0x10 * i)
def HAL_SPILL_CFG (i : Nat) : Nat := bar0 (pageHAL + 1) (0x108 + 0x10 * i)
def HAL_Q_CFG (i : Nat) : Nat := bar0 (pageHAL + 2) (0x100 + 0x4 * i)
def HAL_PORT_CFG (i : Nat) : Nat := bar0 (pageHAL + 3) (0x100 + 0x4 * i)
def HAL_Q_USE (i : Nat) : Nat := bar0 (pageHAL + 4) (0x100 + 0x4 * i)
def HAL_Q_DROP (i : Nat) : Nat := bar0 (pageHAL + 5) (0x100 + 0x4 * i)
def HAL_Q_STALE (i : Nat) : Nat := bar0 (pageHAL + 6) (0x100 + 0x4 * i)
def DPT_CFG : Nat := bar0 pageDPT 0x100
def DPT_CAP_STAT : Nat := bar0 pageDPT 0x104
def DPT_FREE_STAT : Nat := bar0 pageDPT 0x108
def DPT_COMMIT_STAT : Nat := bar0 pageDPT 0x10C
def DPT_PFC_MAP (i : Nat) : Nat := bar0 pageDPT (0x110 + 0x4 * i)
def DPT_PFC_TIMER : Nat := bar0 pageDPT 0x118
def DPT_QUAR_STAT : Nat := bar0 pageDPT 0x120
def DPT_QUAR_CMD : Nat := bar0 pageDPT 0x124
def DPT_ERR_HOLDER : Nat := bar0 pageDPT 0x128
def DPT_POOL_SIZE (i : Nat) : Nat := bar0 pageDPT (0x140 + 0x20 * i)
def DPT_POOL_AMBER (i : Nat) : Nat := bar0 pageDPT (0x144 + 0x20 * i)
def DPT_POOL_RED (i : Nat) : Nat := bar0 pageDPT (0x148 + 0x20 * i)
def DPT_POOL_BLACK (i : Nat) : Nat := bar0 pageDPT (0x14C + 0x20 * i)
def DPT_POOL_REACT (i : Nat) : Nat := bar0 pageDPT (0x150 + 0x20 * i)
def DPT_POOL_STAT (i : Nat) : Nat := bar0 pageDPT (0x154 + 0x20 * i)
def DPT_PFC_CFG (i : Nat) : Nat := bar0 pageDPT (0x1000 + 0x8 * i)
def DPT_PFC_HDRM (i : Nat) : Nat := bar0 pageDPT (0x1004 + 0x8 * i)
def DPT_PFC_STAT (i : Nat) : Nat := bar0 pageDPT (0x3000 + 0x4 * i)
def DPT_RPL_CMD : Nat := bar0 pageDPT 0x400
def DPT_RPL_HDR : Nat := bar0 pageDPT 0x404
def DPT_RPL_STAT : Nat := bar0 pageDPT 0x408
def DPT_MC_DROP (i : Nat) : Nat := bar0 pageDPT (0x4000 + 0x4 * i)
def ARC_DROP_CFG : Nat := bar0 pageARC 0x100
def ARC_SESS_CFG (i : Nat) : Nat := bar0 pageARC (0x400 + 0x10 * i)
def ARC_SESS_SAMP (i : Nat) : Nat := bar0 pageARC (0x404 + 0x10 * i)
def ARC_RING_CFG (i : Nat) : Nat := bar0 pageARC (0x608 + 0x20 * i)
def ARC_RING_BASE_LO (i : Nat) : Nat := bar0 pageARC (0x600 + 0x20 * i)
def ARC_RING_BASE_HI (i : Nat) : Nat := bar0 pageARC (0x604 + 0x20 * i)
def ARC_RING_PROD (i : Nat) : Nat := bar0 pageARC (0x610 + 0x20 * i)
def ARC_RING_CONS (i : Nat) : Nat := bar0 pageARC (0x614 + 0x20 * i)
def ARC_RING_LOST (i : Nat) : Nat := bar0 pageARC (0x618 + 0x20 * i)
def ARC_PORT_MIR (i : Nat) : Nat := bar0 pageARC (0x1000 + 0x4 * i)
def TMG_SAMP_CFG : Nat := bar0 pageTMG 0x100
def TMG_WHEEL_STAT : Nat := bar0 pageTMG 0x104
def TMG_PCP_MAP : Nat := bar0 pageTMG 0x108
def TMG_DSCP_MAP (i : Nat) : Nat := bar0 pageTMG (0x110 + 0x4 * i)
def TMG_PORT_CFG (i : Nat) : Nat := bar0 (pageTMG + 1) (0x100 + 0x10 * i)
def TMG_PORT_SHP_RATE (i : Nat) : Nat := bar0 (pageTMG + 1) (0x104 + 0x10 * i)
def TMG_GRP_SHP_RATE (i : Nat) : Nat := bar0 (pageTMG + 2) (0x104 + 0x10 * i)
def TMG_Q_SHP_RATE (i : Nat) : Nat := bar0 (pageTMG + 4) (0x100 + 0x4 * i)
def TMG_PORT_SHP_BURST (i : Nat) : Nat := bar0 (pageTMG + 1) (0x108 + 0x10 * i)
def TMG_GRP_SHP_BURST (i : Nat) : Nat := bar0 (pageTMG + 2) (0x108 + 0x10 * i)
def TMG_Q_SHP_BURST (i : Nat) : Nat := bar0 (pageTMG + 5) (0x100 + 0x4 * i)
def TMG_PORT_SHP_STAT (i : Nat) : Nat := bar0 (pageTMG + 1) (0x10C + 0x10 * i)
def TMG_GRP_SHP_STAT (i : Nat) : Nat := bar0 (pageTMG + 2) (0x10C + 0x10 * i)
def TMG_Q_SHP_STAT (i : Nat) : Nat := bar0 (pageTMG + 6) (0x100 + 0x4 * i)
def TMG_GRP_CFG (i : Nat) : Nat := bar0 (pageTMG + 2) (0x100 + 0x10 * i)
def TMG_Q_CFG (i : Nat) : Nat := bar0 (pageTMG + 3) (0x100 + 0x4 * i)
def TMG_Q_SOJ_MAX (i : Nat) : Nat := bar0 (pageTMG + 7) (0x100 + 0x4 * i)
def TMG_CLS (i : Nat) : Nat := bar0 (pageTMG + 8) (0x100 + 0x4 * i)
def TMG_SAMP_PORTS (i : Nat) : Nat := bar0 (pageTMG + 9) (0x100 + 0x4 * i)
def TSN_CLK_CFG : Nat := bar0 pageTSN 0x100
def TSN_FREQ_ADJ : Nat := bar0 pageTSN 0x104
def TSN_TIME_NS : Nat := bar0 pageTSN 0x108
def TSN_TIME_SEC_LO : Nat := bar0 pageTSN 0x10C
def TSN_TIME_SEC_HI : Nat := bar0 pageTSN 0x110
def TSN_TIME_SET_NS : Nat := bar0 pageTSN 0x114
def TSN_TIME_SET_SEC_LO : Nat := bar0 pageTSN 0x118
def TSN_TIME_SET_SEC_HI : Nat := bar0 pageTSN 0x11C
def TSN_STEP_SEC : Nat := bar0 pageTSN 0x120
def TSN_STEP_NS : Nat := bar0 pageTSN 0x124
def TSN_PPS_CFG : Nat := bar0 pageTSN 0x128
def TSN_PPS_CAP_NS : Nat := bar0 pageTSN 0x12C
def TSN_PPS_CAP_SEC : Nat := bar0 pageTSN 0x130
def TSN_GCL_CTRL (i : Nat) : Nat := bar0 (pageTSN + 1) (0x100 + 0x20 * i)
def TSN_GCL_STAT (i : Nat) : Nat := bar0 (pageTSN + 1) (0x104 + 0x20 * i)
def TSN_GCL_ADM_LIST (i : Nat) : Nat := bar0 (pageTSN + 1) (0x108 + 0x20 * i)
def TSN_GCL_ADM_CYCLE (i : Nat) : Nat := bar0 (pageTSN + 1) (0x10C + 0x20 * i)
def TSN_GCL_ADM_BASE_NS (i : Nat) : Nat := bar0 (pageTSN + 1) (0x110 + 0x20 * i)
def TSN_GCL_ADM_BASE_SEC_LO (i : Nat) : Nat := bar0 (pageTSN + 1) (0x114 + 0x20 * i)
def TSN_GCL_ADM_BASE_SEC_HI (i : Nat) : Nat := bar0 (pageTSN + 1) (0x118 + 0x20 * i)
def TSN_SF_BLOCKED (i : Nat) : Nat := bar0 (pageTSN + 2) (0x100 + 0x4 * i)
def TSN_SRF_RESET : Nat := bar0 (pageTSN + 3) 0x100
def VLT_CFG : Nat := bar0 pageVLT 0x100
def VLT_SPILL_CFG : Nat := bar0 pageVLT 0x104
def VLT_RET_CFG : Nat := bar0 pageVLT 0x108
def VLT_THERM_CFG : Nat := bar0 pageVLT 0x10C
def VLT_POOL_CFG (i : Nat) : Nat := bar0 pageVLT (0x110 + 0x4 * i)
def VLT_POOL_LVL (i : Nat) : Nat := bar0 pageVLT (0x120 + 0x10 * i)
def VLT_POOL_STAT (i : Nat) : Nat := bar0 pageVLT (0x124 + 0x10 * i)
def VLT_POOL_CAP (i : Nat) : Nat := bar0 pageVLT (0x128 + 0x10 * i)
def VLT_THERM_STAT : Nat := bar0 pageVLT 0x150
def VLT_THERM_FLAGS : Nat := bar0 pageVLT 0x154
def VLT_MODE_STAT : Nat := bar0 pageVLT 0x158
def VLT_PC_CMD : Nat := bar0 pageVLT 0x160
def VLT_PC_CFG : Nat := bar0 pageVLT 0x164
def VLT_PROF_CFG (i : Nat) : Nat := bar0 pageVLT (0x300 + 0x4 * i)
def VLT_Q_STAT (i : Nat) : Nat := bar0 (pageVLT + 1) (0x100 + 0x4 * i)
def VLT_PC_STAT (i : Nat) : Nat := bar0 (pageVLT + 2) (0x100 + 0x4 * i)
def CUR_CFG : Nat := bar0 pageCUR 0x100
def CUR_STAT : Nat := bar0 pageCUR 0x104
def CUR_PIN_PROF : Nat := bar0 pageCUR 0x108
def CUR_PIN_SHP : Nat := bar0 pageCUR 0x10C
def CUR_LOG_CFG : Nat := bar0 pageCUR 0x110
def CUR_LOG_BASE_LO : Nat := bar0 pageCUR 0x114
def CUR_LOG_BASE_HI : Nat := bar0 pageCUR 0x118
def CUR_LOG_PROD : Nat := bar0 pageCUR 0x11C
def CUR_LOG_CONS : Nat := bar0 pageCUR 0x120
def CUR_LOG_LOST : Nat := bar0 pageCUR 0x124
def CUR_ENV_LEAD : Nat := bar0 pageCUR 0x128
def CUR_ENV_PARK : Nat := bar0 pageCUR 0x12C
def CUR_ENV_RETUNE : Nat := bar0 pageCUR 0x130
def CUR_ENV_ALPHA (i : Nat) : Nat := bar0 pageCUR (0x400 + 0x20 * i)
def CUR_ENV_ECN_MIN (i : Nat) : Nat := bar0 pageCUR (0x404 + 0x20 * i)
def CUR_ENV_ECN_MAX (i : Nat) : Nat := bar0 pageCUR (0x408 + 0x20 * i)
def CUR_ENV_SPILL_MIN (i : Nat) : Nat := bar0 pageCUR (0x40C + 0x20 * i)
def CUR_ENV_SPILL_MAX (i : Nat) : Nat := bar0 pageCUR (0x410 + 0x20 * i)
def CUR_ENV_SHP_MIN (i : Nat) : Nat := bar0 pageCUR (0x800 + 0x8 * i)
def CUR_ENV_SHP_MAX (i : Nat) : Nat := bar0 pageCUR (0x804 + 0x8 * i)
def CUR_SHP_PORTS (i : Nat) : Nat := bar0 pageCUR (0x900 + 0x4 * i)
def HIF_CFG : Nat := bar0 pageHIF 0x100
def HIF_PCIE_STAT : Nat := bar0 pageHIF 0x104
def HIF_TWIN_SEL (i : Nat) : Nat := bar0 pageHIF (0x110 + 0x4 * i)
def HIF_PUNT_MAP (i : Nat) : Nat := bar0 pageHIF (0x120 + 0x4 * i)
def HIF_SQ_BASE_LO (i : Nat) : Nat := bar0 (pageHIF + 1) (0x100 + 0x20 * i)
def HIF_SQ_BASE_HI (i : Nat) : Nat := bar0 (pageHIF + 1) (0x104 + 0x20 * i)
def HIF_SQ_CFG (i : Nat) : Nat := bar0 (pageHIF + 1) (0x108 + 0x20 * i)
def HIF_SQ_DB (i : Nat) : Nat := bar0 (pageHIF + 1) (0x10C + 0x20 * i)
def HIF_SQ_HEAD (i : Nat) : Nat := bar0 (pageHIF + 1) (0x110 + 0x20 * i)
def HIF_CQ_BASE_LO (i : Nat) : Nat := bar0 (pageHIF + 2) (0x100 + 0x20 * i)
def HIF_CQ_BASE_HI (i : Nat) : Nat := bar0 (pageHIF + 2) (0x104 + 0x20 * i)
def HIF_EQ_BASE_LO (i : Nat) : Nat := bar0 (pageHIF + 3) (0x100 + 0x20 * i)
def HIF_EQ_BASE_HI (i : Nat) : Nat := bar0 (pageHIF + 3) (0x104 + 0x20 * i)
def HIF_CQ_CFG (i : Nat) : Nat := bar0 (pageHIF + 2) (0x108 + 0x20 * i)
def HIF_EQ_CFG (i : Nat) : Nat := bar0 (pageHIF + 3) (0x108 + 0x20 * i)
def HIF_CQ_CONS (i : Nat) : Nat := bar0 (pageHIF + 2) (0x10C + 0x20 * i)
def HIF_EQ_CONS (i : Nat) : Nat := bar0 (pageHIF + 3) (0x10C + 0x20 * i)
def HIF_CQ_PROD (i : Nat) : Nat := bar0 (pageHIF + 2) (0x110 + 0x20 * i)
def HIF_EQ_PROD (i : Nat) : Nat := bar0 (pageHIF + 3) (0x110 + 0x20 * i)
def HIF_CQ_IRQ (i : Nat) : Nat := bar0 (pageHIF + 2) (0x114 + 0x20 * i)
def HIF_EQ_IRQ (i : Nat) : Nat := bar0 (pageHIF + 3) (0x114 + 0x20 * i)
def HIF_DMA_STAT (i : Nat) : Nat := bar0 (pageHIF + 4) (0x100 + 0x4 * i)
def HIF_MSIX_TABLE (i : Nat) : Nat := bar0 (pageHIF + 6) (0x1000 + 0x4 * i)
def HIF_MSIX_PBA (i : Nat) : Nat := bar0 (pageHIF + 6) (0x2000 + 0x4 * i)
def ANX_CFG : Nat := bar0 pageANX 0x100
def ANX_LANE_CTRL : Nat := bar0 pageANX 0x104
def ANX_LINK_STAT : Nat := bar0 pageANX 0x108
def ANX_TX_MAP (i : Nat) : Nat := bar0 pageANX (0x110 + 0x4 * i)
def ANX_CHAN_CFG (i : Nat) : Nat := bar0 pageANX (0x140 + 0x8 * i)
def ANX_CHAN_STAT (i : Nat) : Nat := bar0 pageANX (0x144 + 0x8 * i)
def LDG_CTR_CFG (l i : Nat) : Nat := bar0 (pageLDG l) (0x100 + 0x4 * i)
def LDG_CTR_THR (l i : Nat) : Nat := bar0 (pageLDG l) (0x200 + 0x4 * i)
def LDG_OVF (l i : Nat) : Nat := bar0 (pageLDG l) (0x600 + 0x4 * i)
def LDG_CTR_CLR (l i : Nat) : Nat := bar0 (pageLDG l) (0x608 + 0x4 * i)
def LDG_USER_CFG (l : Nat) : Nat := bar0 (pageLDG l) 0x610
def LDG_USER_STAT (l : Nat) : Nat := bar0 (pageLDG l) 0x614
def LDG_FLOW_STAT (l : Nat) : Nat := bar0 (pageLDG l) 0x618
def CSV_CFG : Nat := bar0 pageCSV 0x100
def CSV_SCRUB_CFG : Nat := bar0 pageCSV 0x104
def CSV_SHADOW_CFG : Nat := bar0 pageCSV 0x108
def CSV_SHADOW_BASE_LO (i : Nat) : Nat := bar0 pageCSV (0x120 + 0x10 * i)
def CSV_SHADOW_BASE_HI (i : Nat) : Nat := bar0 pageCSV (0x124 + 0x10 * i)
def CSV_SHADOW_STAT (i : Nat) : Nat := bar0 pageCSV (0x128 + 0x10 * i)
def CSV_MISMATCH_LAST : Nat := bar0 pageCSV 0x160
def CSV_INJ_ADDR : Nat := bar0 pageCSV 0x170
def CSV_INJ_CMD : Nat := bar0 pageCSV 0x174
def RGR_CFG : Nat := bar0 pageRGR 0x100
def RGR_SPARE_CFG : Nat := bar0 pageRGR 0x104
def RGR_SPARE_CMD : Nat := bar0 pageRGR 0x108
def RGR_SPARE_STAT : Nat := bar0 pageRGR 0x10C
def RGR_HIST_TOTAL : Nat := bar0 pageRGR 0x110
def RGR_HIST_SEL : Nat := bar0 pageRGR 0x114
def RGR_HIST_W (i : Nat) : Nat := bar0 pageRGR (0x120 + 0x4 * i)
def RGR_INJ_CFG : Nat := bar0 pageRGR 0x140
def RGR_INJ_MSG_LO : Nat := bar0 pageRGR 0x144
def RGR_INJ_MSG_HI : Nat := bar0 pageRGR 0x148
def RGR_PEND (i : Nat) : Nat := bar0 pageRGR (0x400 + 0x4 * i)
def GAL_PARK_CFG (g : Nat) : Nat := bar0 (pageGAL g) 0x100
def GAL_STAT (g : Nat) : Nat := bar0 (pageGAL g) 0x104
def PWR_CLK_CFG : Nat := bar0 pagePWR 0x100
def PWR_CLK_STAT : Nat := bar0 pagePWR 0x104
def PWR_RST_CAUSE : Nat := bar0 pagePWR 0x108
def PWR_RST_CMD : Nat := bar0 pagePWR 0x10C
def PWR_BOOT_CFG : Nat := bar0 pagePWR 0x110
def PWR_BOOT_STAT : Nat := bar0 pagePWR 0x114
def PWR_BOOT_HOST_ADDR_LO : Nat := bar0 pagePWR 0x118
def PWR_BOOT_HOST_ADDR_HI : Nat := bar0 pagePWR 0x11C
def PWR_BOOT_HOST_LEN : Nat := bar0 pagePWR 0x120
def PWR_BOOT_HOST_CMD : Nat := bar0 pagePWR 0x124
def PWR_GAL_STAT : Nat := bar0 pagePWR 0x130
def PWR_TEMP (i : Nat) : Nat := bar0 pagePWR (0x200 + 0x4 * i)
def PWR_AGE_STAT : Nat := bar0 pagePWR 0x400
def PWR_AGE_CFG : Nat := bar0 pagePWR 0x404
def PWR_LIFE_HOURS : Nat := bar0 pagePWR 0x408
def LCS_STATE : Nat := bar0 pageLCS 0x100
def LCS_UID_LO : Nat := bar0 pageLCS 0x104
def LCS_UID_HI : Nat := bar0 pageLCS 0x108
def LCS_NONCE_LO : Nat := bar0 pageLCS 0x10C
def LCS_NONCE_HI : Nat := bar0 pageLCS 0x110
def LCS_TRANS_CMD : Nat := bar0 pageLCS 0x114
def LCS_TRANS_STAT : Nat := bar0 pageLCS 0x118
def LCS_KEY_PROG : Nat := bar0 pageLCS 0x120
def LCS_KEY_STAT : Nat := bar0 pageLCS 0x124
def LCS_VER_PROG : Nat := bar0 pageLCS 0x128
def LCS_ACCESS : Nat := bar0 pageLCS 0x12C
def LCS_TOKEN (i : Nat) : Nat := bar0 pageLCS (0x200 + 0x4 * i)
def LCS_KEY_HASH (i : Nat) : Nat := bar0 pageLCS (0x300 + 0x4 * i)
def DEV_PART : Nat := bar0 pageDEV 0x100
def DEV_PRESENT : Nat := bar0 pageDEV 0x104
def DEV_SCRATCH : Nat := bar0 pageDEV 0x108
def DEV_IO_CFG : Nat := bar0 pageDEV 0x10C
def DEV_GPIO_OUT : Nat := bar0 pageDEV 0x110
def DEV_GPIO_OE : Nat := bar0 pageDEV 0x114
def DEV_GPIO_IN : Nat := bar0 pageDEV 0x118
def DEV_GPIO_EDGE : Nat := bar0 pageDEV 0x11C
def DEV_GPIO_RISE_EN : Nat := bar0 pageDEV 0x120
def DEV_GPIO_FALL_EN : Nat := bar0 pageDEV 0x124
def DEV_ON (i : Nat) : Nat := bar0 pageDEV (0x400 + 0x4 * i)

/-! _LO addresses of the 64-bit counters (the _HI register is 4 above). -/

def DOC_EXC_CNT (g i : Nat) : Nat := bar0 (pageDOC g) (0x200 + 0x8 * i)
def CAT_CNT (w i : Nat) : Nat := bar0 (pageCAT w) (0x200 + 0x8 * i)
def LPM_CNT (w i : Nat) : Nat := bar0 (pageLPM w) (0x200 + 0x8 * i)
def VIT_CNT (w i : Nat) : Nat := bar0 (pageVIT w) (0x200 + 0x8 * i)
def PRV_CNT (w i : Nat) : Nat := bar0 (pagePRV w) (0x200 + 0x8 * i)
def EDT_CNT (g i : Nat) : Nat := bar0 (pageEDT g) (0x200 + 0x8 * i)
def HAL_CNT (i : Nat) : Nat := bar0 (pageHAL + 7) (0x100 + 0x8 * i)
def DPT_CNT (i : Nat) : Nat := bar0 pageDPT (0x200 + 0x8 * i)
def DPT_RPL_CNT (i : Nat) : Nat := bar0 pageDPT (0x500 + 0x8 * i)
def ARC_CNT (i : Nat) : Nat := bar0 pageARC (0x200 + 0x8 * i)
def TMG_CNT (i : Nat) : Nat := bar0 pageTMG (0x200 + 0x8 * i)
def TSN_CNT (i : Nat) : Nat := bar0 pageTSN (0x200 + 0x8 * i)
def VLT_CNT (i : Nat) : Nat := bar0 pageVLT (0x200 + 0x8 * i)
def CUR_CNT (i : Nat) : Nat := bar0 pageCUR (0x200 + 0x8 * i)
def HIF_CNT (i : Nat) : Nat := bar0 pageHIF (0x200 + 0x8 * i)
def ANX_CNT (i : Nat) : Nat := bar0 pageANX (0x200 + 0x8 * i)
def CSV_CNT (i : Nat) : Nat := bar0 pageCSV (0x200 + 0x8 * i)
def RGR_CNT (i : Nat) : Nat := bar0 pageRGR (0x200 + 0x8 * i)
def PWR_CNT (i : Nat) : Nat := bar0 pagePWR (0x300 + 0x8 * i)
/-- Counter `j` of port `i`, in the order in which the spec lists them (DESIGN CHOICE, log 42). -/
def LNK_PORT_CNT (k i j : Nat) : Nat := bar0 (pageLNK k + 4) (0x100 + 0x100 * i + 0x8 * j)
def LNK_LANE_CNT (k i j : Nat) : Nat := bar0 (pageLNK k + 4) (0x8000 + 0x100 * i + 0x8 * j)
def LDG_CTR (l i : Nat) : Nat := bar0 (pageLDG l) (0x400 + 0x8 * i)

/-! The field cards, block by block and sub-page by sub-page. -/

def cardsLNK0 : List RegCard := [
  { name := "LNK_OCTET_MODE", off := 0x100, s1 := 0x4, n1 := 8, s2 := 0x0, n2 := 1, fields := [⟨3, 0, .rw, 0x0⟩] },
  { name := "LNK_HB_CFG", off := 0x120, s1 := 0x0, n1 := 1, s2 := 0x0, n2 := 1, fields := [⟨11, 0, .rw, 0x800⟩] },
  { name := "LNK_HB_STAT", off := 0x124, s1 := 0x0, n1 := 1, s2 := 0x0, n2 := 1, fields := [⟨31, 16, .rov, 0x0⟩, ⟨11, 0, .rov, 0x0⟩] },
  { name := "LNK_D2D_CTRL", off := 0x130, s1 := 0x0, n1 := 1, s2 := 0x0, n2 := 1, fields := [⟨0, 0, .rw, 0x1⟩] },
  { name := "LNK_D2D_STAT", off := 0x134, s1 := 0x0, n1 := 1, s2 := 0x0, n2 := 1, fields := [⟨31, 16, .rov, 0x0⟩, ⟨2, 2, .rov, 0x0⟩, ⟨1, 1, .rov, 0x0⟩, ⟨0, 0, .rov, 0x0⟩] },
  { name := "LNK_MOD_CMD", off := 0x140, s1 := 0x0, n1 := 1, s2 := 0x0, n2 := 1, fields := [⟨31, 31, .w1s, 0x0⟩, ⟨30, 30, .rov, 0x0⟩, ⟨29, 29, .rov, 0x0⟩, ⟨28, 28, .rw, 0x0⟩, ⟨27, 26, .rw, 0x1⟩, ⟨22, 16, .rw, 0x50⟩, ⟨15, 8, .rw, 0x0⟩, ⟨7, 0, .rw, 0x0⟩] }]

def cardsLNK1 : List RegCard := [
  { name := "LNK_LANE_CTRL", off := 0x100, s1 := 0x10, n1 := 64, s2 := 0x0, n2 := 1, fields := [⟨9, 9, .rw, 0x0⟩, ⟨8, 8, .rw, 0x0⟩, ⟨3, 3, .rw, 0x0⟩, ⟨2, 2, .rw, 0x0⟩, ⟨1, 0, .rw, 0x0⟩] },
  { name := "LNK_LANE_STAT", off := 0x104, s1 := 0x10, n1 := 64, s2 := 0x0, n2 := 1, fields := [⟨15, 8, .rov, 0x0⟩, ⟨2, 0, .rov, 0x0⟩] }]

def cardsLNK2 : List RegCard := [
  { name := "LNK_PORT_CFG", off := 0x100, s1 := 0x10, n1 := 64, s2 := 0x0, n2 := 1, fields := [⟨29, 16, .rw, 0x3000⟩, ⟨8, 8, .rw, 0x0⟩, ⟨1, 1, .rw, 0x0⟩, ⟨0, 0, .rw, 0x0⟩] }]

def cardsLNK3 : List RegCard := [
  { name := "LNK_TS_TRIM", off := 0x200, s1 := 0x4, n1 := 64, s2 := 0x0, n2 := 1, fields := [⟨15, 8, .rw, 0x0⟩, ⟨7, 0, .rw, 0x0⟩] },
  { name := "LNK_TS_FIFO", off := 0x110, s1 := 0x4, n1 := 4, s2 := 0x0, n2 := 1, fields := [⟨31, 0, .rov, 0x0⟩] }]

def cardsDOC0 : List RegCard := [
  { name := "DOC_BUDGET_CFG", off := 0x100, s1 := 0x0, n1 := 1, s2 := 0x0, n2 := 1, fields := [⟨23, 12, .rw, 0x800⟩, ⟨6, 0, .rw, 0x60⟩] },
  { name := "DOC_POOL_STAT", off := 0x104, s1 := 0x0, n1 := 1, s2 := 0x0, n2 := 1, fields := [⟨23, 16, .rov, 0x0⟩, ⟨15, 8, .rov, 0x8⟩, ⟨7, 0, .rov, 0xA0⟩] },
  { name := "DOC_DISPATCH_STAT", off := 0x108, s1 := 0x0, n1 := 1, s2 := 0x0, n2 := 1, fields := [⟨25, 16, .rov, 0x0⟩, ⟨7, 0, .rov, 0xA0⟩] },
  { name := "DOC_CYC_STAT", off := 0x10C, s1 := 0x0, n1 := 1, s2 := 0x0, n2 := 1, fields := [⟨22, 16, .rov, 0x0⟩, ⟨15, 0, .rov, 0x0⟩] },
  { name := "DOC_EXC_LAST", off := 0x110, s1 := 0x0, n1 := 1, s2 := 0x0, n2 := 1, fields := [⟨29, 16, .rov, 0x0⟩, ⟨15, 8, .rov, 0x0⟩, ⟨6, 0, .rov, 0x0⟩] },
  { name := "DOC_CORE_ACTIVE", off := 0x120, s1 := 0x4, n1 := 6, s2 := 0x0, n2 := 1, fields := [⟨31, 0, .rov, 0x0⟩], extra := fun i _ => if i < 5 then 0xFFFFFFFF else 0 },
  { name := "DOC_CORE_FENCED", off := 0x140, s1 := 0x4, n1 := 6, s2 := 0x0, n2 := 1, fields := [⟨31, 0, .rov, 0x0⟩] },
  { name := "DOC_PORT_CFG", off := 0x400, s1 := 0x8, n1 := 66, s2 := 0x0, n2 := 1, fields := [⟨29, 16, .rw, 0x0⟩, ⟨7, 0, .rw, 0x0⟩] },
  { name := "DOC_PORT_DEF", off := 0x404, s1 := 0x8, n1 := 66, s2 := 0x0, n2 := 1, fields := [⟨23, 20, .rw, 0x0⟩, ⟨19, 10, .rw, 0x0⟩, ⟨1, 0, .rw, 0x0⟩] }]

def cardsCAT0 : List RegCard := [
  { name := "CAT_CFG", off := 0x100, s1 := 0x0, n1 := 1, s2 := 0x0, n2 := 1, fields := [⟨17, 16, .rw, 0x0⟩, ⟨1, 1, .rw, 0x0⟩, ⟨0, 0, .rw, 0x0⟩] },
  { name := "CAT_LEARN_CFG", off := 0x104, s1 := 0x0, n1 := 1, s2 := 0x0, n2 := 1, fields := [⟨7, 0, .rw, 0xC8⟩] },
  { name := "CAT_LEARN_STAT", off := 0x108, s1 := 0x0, n1 := 1, s2 := 0x0, n2 := 1, fields := [⟨26, 16, .rov, 0x0⟩, ⟨12, 0, .rov, 0x0⟩] },
  { name := "CAT_OCC_STAT", off := 0x10C, s1 := 0x0, n1 := 1, s2 := 0x0, n2 := 1, fields := [⟨20, 0, .rov, 0x0⟩] },
  { name := "CAT_OVF_CFG", off := 0x110, s1 := 0x0, n1 := 1, s2 := 0x0, n2 := 1, fields := [⟨13, 0, .rw, 0x1C00⟩] },
  { name := "CAT_OVF_STAT", off := 0x114, s1 := 0x0, n1 := 1, s2 := 0x0, n2 := 1, fields := [⟨13, 0, .rov, 0x0⟩] },
  { name := "CAT_AGE_CFG", off := 0x120, s1 := 0x0, n1 := 1, s2 := 0x0, n2 := 1, fields := [⟨31, 16, .rw, 0x1388⟩, ⟨5, 0, .rw, 0x3C⟩] },
  { name := "CAT_AGE_STAT", off := 0x124, s1 := 0x0, n1 := 1, s2 := 0x0, n2 := 1, fields := [⟨31, 0, .rov, 0x0⟩] },
  { name := "CAT_EVT_CFG", off := 0x128, s1 := 0x0, n1 := 1, s2 := 0x0, n2 := 1, fields := [⟨10, 10, .rw, 0x0⟩, ⟨9, 9, .rw, 0x0⟩, ⟨8, 8, .rw, 0x0⟩, ⟨4, 0, .rw, 0x0⟩] },
  { name := "CAT_HASH_SEED", off := 0x130, s1 := 0x4, n1 := 4, s2 := 0x0, n2 := 1, fields := [⟨31, 0, .rw, 0x0⟩], extra := fun i _ => [0xFFFFFFFF, 0x5A5AA5A5, 0x0F1E2D3C, 0x3C96C369].getD i 0 },
  { name := "CAT_PROF_CTRL", off := 0x400, s1 := 0x20, n1 := 16, s2 := 0x0, n2 := 1, fields := [⟨31, 31, .rw, 0x0⟩, ⟨30, 29, .rw, 0x0⟩, ⟨28, 28, .rw, 0x0⟩, ⟨27, 27, .rw, 0x0⟩, ⟨26, 26, .rw, 0x0⟩, ⟨25, 25, .rw, 0x0⟩, ⟨23, 16, .rw, 0x0⟩, ⟨15, 12, .rw, 0x0⟩, ⟨11, 10, .rw, 0x0⟩] },
  { name := "CAT_PROF_SEL0", off := 0x404, s1 := 0x20, n1 := 16, s2 := 0x0, n2 := 1, fields := [⟨30, 24, .rw, 0x0⟩, ⟨22, 16, .rw, 0x0⟩, ⟨14, 8, .rw, 0x0⟩, ⟨6, 0, .rw, 0x0⟩] },
  { name := "CAT_PROF_SEL1", off := 0x408, s1 := 0x20, n1 := 16, s2 := 0x0, n2 := 1, fields := [⟨30, 24, .rw, 0x0⟩, ⟨22, 16, .rw, 0x0⟩, ⟨14, 8, .rw, 0x0⟩, ⟨6, 0, .rw, 0x0⟩] },
  { name := "CAT_PROF_SEL2", off := 0x40C, s1 := 0x20, n1 := 16, s2 := 0x0, n2 := 1, fields := [⟨14, 8, .rw, 0x0⟩, ⟨6, 0, .rw, 0x0⟩] },
  { name := "CAT_PROF_MISS", off := 0x410, s1 := 0x20, n1 := 16, s2 := 0x0, n2 := 1, fields := [⟨31, 16, .rw, 0x0⟩, ⟨15, 12, .rw, 0x0⟩, ⟨6, 0, .rw, 0x0⟩] },
  { name := "CAT_PORT_PROF", off := 0x1000, s1 := 0x4, n1 := 528, s2 := 0x0, n2 := 1, fields := [⟨9, 9, .rw, 0x0⟩, ⟨8, 8, .rw, 0x0⟩, ⟨7, 4, .rw, 0x0⟩, ⟨3, 0, .rw, 0x0⟩] }]

def cardsLPM0 : List RegCard := [
  { name := "LPM_OCC_CFG", off := 0x100, s1 := 0x0, n1 := 1, s2 := 0x0, n2 := 1, fields := [⟨21, 0, .rw, 0x1E0000⟩] },
  { name := "LPM_OCC_STAT", off := 0x104, s1 := 0x0, n1 := 1, s2 := 0x0, n2 := 1, fields := [⟨21, 0, .rov, 0x0⟩] },
  { name := "LPM_POOL_STAT", off := 0x108, s1 := 0x0, n1 := 1, s2 := 0x0, n2 := 1, fields := [⟨18, 0, .rov, 0x0⟩] },
  { name := "LPM_LONG_CFG", off := 0x10C, s1 := 0x0, n1 := 1, s2 := 0x0, n2 := 1, fields := [⟨31, 24, .rw, 0x0⟩, ⟨23, 16, .rw, 0x0⟩, ⟨15, 8, .rw, 0x0⟩, ⟨7, 0, .rw, 0x80⟩] },
  { name := "LPM_PROF_CTRL", off := 0x400, s1 := 0x20, n1 := 16, s2 := 0x0, n2 := 1, fields := [⟨31, 31, .rw, 0x0⟩, ⟨30, 30, .rw, 0x0⟩, ⟨29, 28, .rw, 0x0⟩, ⟨27, 24, .rw, 0x0⟩, ⟨23, 23, .rw, 0x0⟩, ⟨22, 16, .rw, 0x0⟩, ⟨15, 15, .rw, 0x0⟩, ⟨14, 8, .rw, 0x0⟩, ⟨6, 0, .rw, 0x0⟩] },
  { name := "LPM_PROF_AUX", off := 0x404, s1 := 0x20, n1 := 16, s2 := 0x0, n2 := 1, fields := [⟨19, 16, .rw, 0x0⟩, ⟨4, 4, .rw, 0x0⟩, ⟨3, 0, .rw, 0x0⟩] },
  { name := "LPM_PROF_HSEL0", off := 0x408, s1 := 0x20, n1 := 16, s2 := 0x0, n2 := 1, fields := [⟨30, 24, .rw, 0x0⟩, ⟨22, 16, .rw, 0x0⟩, ⟨14, 8, .rw, 0x0⟩, ⟨6, 0, .rw, 0x0⟩] },
  { name := "LPM_PROF_HSEL1", off := 0x40C, s1 := 0x20, n1 := 16, s2 := 0x0, n2 := 1, fields := [⟨30, 24, .rw, 0x0⟩, ⟨22, 16, .rw, 0x0⟩, ⟨14, 8, .rw, 0x0⟩, ⟨6, 0, .rw, 0x0⟩] },
  { name := "LPM_PROF_HSEL2", off := 0x410, s1 := 0x20, n1 := 16, s2 := 0x0, n2 := 1, fields := [⟨14, 8, .rw, 0x0⟩, ⟨6, 0, .rw, 0x0⟩] },
  { name := "LPM_PORT_PROF", off := 0x1000, s1 := 0x4, n1 := 528, s2 := 0x0, n2 := 1, fields := [⟨22, 16, .rw, 0x0⟩, ⟨9, 9, .rw, 0x0⟩, ⟨8, 8, .rw, 0x0⟩, ⟨7, 4, .rw, 0x0⟩, ⟨3, 0, .rw, 0x0⟩] }]

def cardsVIT0 : List RegCard := [
  { name := "VIT_BANK_CFG", off := 0x110, s1 := 0x4, n1 := 16, s2 := 0x0, n2 := 1, fields := [⟨4, 4, .rw, 0x0⟩, ⟨1, 0, .rw, 0x0⟩] },
  { name := "VIT_BANK_STAT", off := 0x150, s1 := 0x4, n1 := 16, s2 := 0x0, n2 := 1, fields := [⟨12, 0, .rov, 0x0⟩] },
  { name := "VIT_SPARE_CFG", off := 0x190, s1 := 0x0, n1 := 1, s2 := 0x0, n2 := 1, fields := [⟨8, 8, .rw, 0x1⟩, ⟨7, 0, .rw, 0x4⟩] },
  { name := "VIT_SPARE_CMD", off := 0x194, s1 := 0x0, n1 := 1, s2 := 0x0, n2 := 1, fields := [⟨31, 31, .w1s, 0x0⟩, ⟨3, 0, .rw, 0x0⟩] },
  { name := "VIT_SPARE_STAT", off := 0x198, s1 := 0x0, n1 := 1, s2 := 0x0, n2 := 1, fields := [⟨8, 8, .rov, 0x0⟩, ⟨4, 0, .rov, 0x1F⟩] },
  { name := "VIT_MOVE_STAT", off := 0x1A0, s1 := 0x0, n1 := 1, s2 := 0x0, n2 := 1, fields := [⟨31, 31, .rov, 0x0⟩, ⟨19, 16, .rov, 0x0⟩, ⟨15, 0, .rov, 0x0⟩] },
  { name := "VIT_PROF_CTRL", off := 0x400, s1 := 0x80, n1 := 32, s2 := 0x0, n2 := 1, fields := [⟨31, 31, .rw, 0x0⟩, ⟨30, 29, .rw, 0x0⟩, ⟨28, 28, .rw, 0x0⟩, ⟨27, 24, .rw, 0x0⟩] },
  { name := "VIT_PROF_SEL", off := 0x404, s1 := 0x80, n1 := 32, s2 := 0x4, n2 := 10, fields := [⟨31, 24, .rw, 0x0⟩, ⟨23, 16, .rw, 0x0⟩, ⟨15, 8, .rw, 0x0⟩, ⟨7, 0, .rw, 0x0⟩] },
  { name := "VIT_PROF_MASK", off := 0x430, s1 := 0x80, n1 := 32, s2 := 0x4, n2 := 20, fields := [⟨31, 0, .rw, 0x0⟩] },
  { name := "VIT_PORT_PROF", off := 0x2000, s1 := 0x4, n1 := 528, s2 := 0x0, n2 := 1, fields := [⟨29, 29, .rw, 0x0⟩, ⟨28, 24, .rw, 0x0⟩, ⟨21, 21, .rw, 0x0⟩, ⟨20, 16, .rw, 0x0⟩, ⟨13, 13, .rw, 0x0⟩, ⟨12, 8, .rw, 0x0⟩, ⟨5, 5, .rw, 0x0⟩, ⟨4, 0, .rw, 0x0⟩] }]

def cardsPRV0 : List RegCard := [
  { name := "PRV_CMD_RINGS", off := 0x100, s1 := 0x0, n1 := 1, s2 := 0x0, n2 := 1, fields := [⟨31, 0, .rw, 0x0⟩] },
  { name := "PRV_EPOCH", off := 0x104, s1 := 0x0, n1 := 1, s2 := 0x0, n2 := 1, fields := [⟨24, 24, .rov, 0x0⟩, ⟨18, 16, .rov, 0x1⟩, ⟨15, 8, .rov, 0x0⟩, ⟨7, 0, .rov, 0x0⟩] },
  { name := "PRV_DRAIN_CFG", off := 0x108, s1 := 0x0, n1 := 1, s2 := 0x0, n2 := 1, fields := [⟨15, 0, .rw, 0x3E8⟩] },
  { name := "PRV_DRAIN_CNT", off := 0x110, s1 := 0x4, n1 := 4, s2 := 0x0, n2 := 1, fields := [⟨31, 0, .rov, 0x0⟩] },
  { name := "PRV_DRAIN_VLT", off := 0x120, s1 := 0x0, n1 := 1, s2 := 0x0, n2 := 1, fields := [⟨31, 0, .rov, 0x0⟩] },
  { name := "PRV_DRAIN_TOP", off := 0x124, s1 := 0x0, n1 := 1, s2 := 0x0, n2 := 1, fields := [⟨13, 4, .rov, 0x0⟩, ⟨3, 0, .rov, 0x0⟩] },
  { name := "PRV_WALK_STAT", off := 0x128, s1 := 0x0, n1 := 1, s2 := 0x0, n2 := 1, fields := [⟨31, 31, .rov, 0x0⟩, ⟨23, 16, .rov, 0x0⟩, ⟨15, 0, .rov, 0x0⟩] }]

def cardsEDT0 : List RegCard := [
  { name := "EDT_CFG", off := 0x100, s1 := 0x0, n1 := 1, s2 := 0x0, n2 := 1, fields := [⟨4, 0, .rw, 0x2⟩] },
  { name := "EDT_PORT_SMAC_LO", off := 0x400, s1 := 0x8, n1 := 66, s2 := 0x0, n2 := 1, fields := [⟨31, 0, .rw, 0x0⟩] },
  { name := "EDT_PORT_SMAC_HI", off := 0x404, s1 := 0x8, n1 := 66, s2 := 0x0, n2 := 1, fields := [⟨15, 0, .rw, 0x0⟩] }]

def cardsHAL0 : List RegCard := [
  { name := "HAL_SPARE_CFG", off := 0x100, s1 := 0x0, n1 := 1, s2 := 0x0, n2 := 1, fields := [⟨8, 8, .rw, 0x1⟩, ⟨7, 0, .rw, 0x2⟩] },
  { name := "HAL_SPARE_CMD", off := 0x104, s1 := 0x0, n1 := 1, s2 := 0x0, n2 := 1, fields := [⟨31, 31, .w1s, 0x0⟩, ⟨6, 0, .rw, 0x0⟩] },
  { name := "HAL_SPARE_STAT", off := 0x108, s1 := 0x0, n1 := 1, s2 := 0x0, n2 := 1, fields := [⟨31, 31, .rov, 0x0⟩, ⟨23, 16, .rov, 0xFF⟩, ⟨15, 8, .rov, 0xFF⟩, ⟨7, 0, .rov, 0x0⟩] },
  { name := "HAL_USE_STAT", off := 0x110, s1 := 0x0, n1 := 1, s2 := 0x0, n2 := 1, fields := [⟨20, 0, .rov, 0x0⟩] },
  { name := "HAL_BANK_UE", off := 0x200, s1 := 0x4, n1 := 128, s2 := 0x0, n2 := 1, fields := [⟨7, 0, .rov, 0x0⟩] },
  { name := "HAL_AGE_CFG", off := 0x400, s1 := 0x4, n1 := 16, s2 := 0x0, n2 := 1, fields := [⟨19, 0, .rw, 0x0⟩] }]

def cardsHAL1 : List RegCard := [
  { name := "HAL_DT_CFG", off := 0x100, s1 := 0x10, n1 := 16, s2 := 0x0, n2 := 1, fields := [⟨10, 8, .rw, 0x7⟩, ⟨6, 4, .rw, 0x1⟩, ⟨3, 0, .rw, 0x0⟩] },
  { name := "HAL_ECN_CFG", off := 0x104, s1 := 0x10, n1 := 16, s2 := 0x0, n2 := 1, fields := [⟨31, 31, .rw, 0x0⟩, ⟨20, 0, .rw, 0x400⟩] },
  { name := "HAL_SPILL_CFG", off := 0x108, s1 := 0x10, n1 := 16, s2 := 0x0, n2 := 1, fields := [⟨31, 31, .rw, 0x0⟩, ⟨20, 0, .rw, 0x8000⟩] }]

def cardsHAL2 : List RegCard := [
  { name := "HAL_Q_CFG", off := 0x100, s1 := 0x4, n1 := 8448, s2 := 0x0, n2 := 1, fields := [⟨31, 20, .rw, 0x0⟩, ⟨19, 16, .rw, 0x0⟩, ⟨13, 12, .rw, 0x0⟩, ⟨11, 8, .rw, 0x0⟩] }]

def cardsHAL3 : List RegCard := [
  { name := "HAL_PORT_CFG", off := 0x100, s1 := 0x4, n1 := 528, s2 := 0x0, n2 := 1, fields := [⟨31, 31, .rw, 0x1⟩, ⟨15, 0, .rw, 0x0⟩] }]

def cardsHAL4 : List RegCard := [
  { name := "HAL_Q_USE", off := 0x100, s1 := 0x4, n1 := 8448, s2 := 0x0, n2 := 1, fields := [⟨20, 0, .rov, 0x0⟩] }]

def cardsHAL5 : List RegCard := [
  { name := "HAL_Q_DROP", off := 0x100, s1 := 0x4, n1 := 8448, s2 := 0x0, n2 := 1, fields := [⟨31, 0, .rov, 0x0⟩] }]

def cardsHAL6 : List RegCard := [
  { name := "HAL_Q_STALE", off := 0x100, s1 := 0x4, n1 := 8448, s2 := 0x0, n2 := 1, fields := [⟨31, 0, .rov, 0x0⟩] }]

def cardsDPT0 : List RegCard := [
  { name := "DPT_CFG", off := 0x100, s1 := 0x0, n1 := 1, s2 := 0x0, n2 := 1, fields := [⟨29, 28, .rw, 0x0⟩, ⟨20, 0, .rw, 0x4000⟩] },
  { name := "DPT_CAP_STAT", off := 0x104, s1 := 0x0, n1 := 1, s2 := 0x0, n2 := 1, fields := [⟨20, 0, .rov, 0x100000⟩] },
  { name := "DPT_FREE_STAT", off := 0x108, s1 := 0x0, n1 := 1, s2 := 0x0, n2 := 1, fields := [⟨20, 0, .rov, 0x100000⟩] },
  { name := "DPT_COMMIT_STAT", off := 0x10C, s1 := 0x0, n1 := 1, s2 := 0x0, n2 := 1, fields := [⟨20, 0, .rov, 0x100000⟩] },
  { name := "DPT_PFC_MAP", off := 0x110, s1 := 0x4, n1 := 2, s2 := 0x0, n2 := 1, fields := [⟨2, 0, .rw, 0x0⟩, ⟨6, 4, .rw, 0x1⟩, ⟨10, 8, .rw, 0x2⟩, ⟨14, 12, .rw, 0x3⟩, ⟨18, 16, .rw, 0x4⟩, ⟨22, 20, .rw, 0x5⟩, ⟨26, 24, .rw, 0x6⟩, ⟨30, 28, .rw, 0x7⟩] },
  { name := "DPT_PFC_TIMER", off := 0x118, s1 := 0x0, n1 := 1, s2 := 0x0, n2 := 1, fields := [⟨31, 16, .rw, 0xFFFF⟩, ⟨15, 0, .rw, 0xA⟩] },
  { name := "DPT_QUAR_STAT", off := 0x120, s1 := 0x0, n1 := 1, s2 := 0x0, n2 := 1, fields := [⟨20, 0, .rov, 0x0⟩] },
  { name := "DPT_QUAR_CMD", off := 0x124, s1 := 0x0, n1 := 1, s2 := 0x0, n2 := 1, fields := [⟨0, 0, .w1s, 0x0⟩] },
  { name := "DPT_ERR_HOLDER", off := 0x128, s1 := 0x0, n1 := 1, s2 := 0x0, n2 := 1, fields := [⟨31, 16, .rov, 0x0⟩, ⟨15, 0, .rov, 0x0⟩] },
  { name := "DPT_POOL_SIZE", off := 0x140, s1 := 0x20, n1 := 4, s2 := 0x0, n2 := 1, fields := [⟨20, 0, .rw, 0x0⟩], extra := fun p _ => if p = 0 then 0xFC000 else 0 },
  { name := "DPT_POOL_AMBER", off := 0x144, s1 := 0x20, n1 := 4, s2 := 0x0, n2 := 1, fields := [⟨20, 0, .rw, 0x0⟩] },
  { name := "DPT_POOL_RED", off := 0x148, s1 := 0x20, n1 := 4, s2 := 0x0, n2 := 1, fields := [⟨20, 0, .rw, 0x0⟩] },
  { name := "DPT_POOL_BLACK", off := 0x14C, s1 := 0x20, n1 := 4, s2 := 0x0, n2 := 1, fields := [⟨20, 0, .rw, 0x0⟩] },
  { name := "DPT_POOL_REACT", off := 0x150, s1 := 0x20, n1 := 4, s2 := 0x0, n2 := 1, fields := [⟨31, 16, .rw, 0x400⟩, ⟨11, 8, .rw, 0x0⟩, ⟨7, 4, .rw, 0x0⟩, ⟨3, 0, .rw, 0x0⟩] },
  { name := "DPT_POOL_STAT", off := 0x154, s1 := 0x20, n1 := 4, s2 := 0x0, n2 := 1, fields := [⟨31, 30, .rov, 0x0⟩, ⟨20, 0, .rov, 0x0⟩] },
  { name := "DPT_PFC_CFG", off := 0x1000, s1 := 0x8, n1 := 528, s2 := 0x0, n2 := 1, fields := [⟨31, 24, .rw, 0x0⟩, ⟨23, 12, .rw, 0x600⟩, ⟨11, 0, .rw, 0x800⟩] },
  { name := "DPT_PFC_HDRM", off := 0x1004, s1 := 0x8, n1 := 528, s2 := 0x0, n2 := 1, fields := [⟨31, 16, .rov, 0x0⟩, ⟨15, 0, .rw, 0x0⟩] },
  { name := "DPT_PFC_STAT", off := 0x3000, s1 := 0x4, n1 := 528, s2 := 0x0, n2 := 1, fields := [⟨7, 0, .rov, 0x0⟩] },
  { name := "DPT_RPL_CMD", off := 0x400, s1 := 0x0, n1 := 1, s2 := 0x0, n2 := 1, fields := [⟨31, 31, .w1s, 0x0⟩, ⟨15, 0, .rw, 0x0⟩] },
  { name := "DPT_RPL_HDR", off := 0x404, s1 := 0x0, n1 := 1, s2 := 0x0, n2 := 1, fields := [⟨31, 0, .rw, 0x0⟩] },
  { name := "DPT_RPL_STAT", off := 0x408, s1 := 0x0, n1 := 1, s2 := 0x0, n2 := 1, fields := [⟨0, 0, .rov, 0x0⟩] },
  { name := "DPT_MC_DROP", off := 0x4000, s1 := 0x4, n1 := 522, s2 := 0x0, n2 := 1, fields := [⟨31, 0, .rov, 0x0⟩] }]

def cardsARC0 : List RegCard := [
  { name := "ARC_DROP_CFG", off := 0x100, s1 := 0x0, n1 := 1, s2 := 0x0, n2 := 1, fields := [⟨31, 16, .rw, 0x0⟩, ⟨15, 4, .rw, 0x0⟩, ⟨2, 0, .rw, 0x0⟩] },
  { name := "ARC_SESS_CFG", off := 0x400, s1 := 0x10, n1 := 16, s2 := 0x0, n2 := 1, fields := [⟨31, 31, .rw, 0x0⟩, ⟨30, 30, .rw, 0x0⟩, ⟨29, 27, .rw, 0x0⟩, ⟨26, 23, .rw, 0x0⟩, ⟨22, 13, .rw, 0x0⟩, ⟨12, 0, .rw, 0x0⟩] },
  { name := "ARC_SESS_SAMP", off := 0x404, s1 := 0x10, n1 := 16, s2 := 0x0, n2 := 1, fields := [⟨31, 24, .rw, 0x0⟩, ⟨15, 0, .rw, 0x0⟩] },
  { name := "ARC_RING_CFG", off := 0x608, s1 := 0x20, n1 := 8, s2 := 0x0, n2 := 1, fields := [⟨31, 31, .rw, 0x0⟩, ⟨30, 30, .rw, 0x0⟩, ⟨29, 29, .rw, 0x0⟩, ⟨19, 16, .rw, 0x6⟩, ⟨15, 12, .rw, 0x0⟩, ⟨11, 0, .rw, 0x20⟩] },
  { name := "ARC_RING_BASE_LO", off := 0x600, s1 := 0x20, n1 := 8, s2 := 0x0, n2 := 1, fields := [⟨31, 6, .rw, 0x0⟩] },
  { name := "ARC_RING_BASE_HI", off := 0x604, s1 := 0x20, n1 := 8, s2 := 0x0, n2 := 1, fields := [⟨31, 0, .rw, 0x0⟩] },
  { name := "ARC_RING_PROD", off := 0x610, s1 := 0x20, n1 := 8, s2 := 0x0, n2 := 1, fields := [⟨31, 0, .rov, 0x0⟩] },
  { name := "ARC_RING_CONS", off := 0x614, s1 := 0x20, n1 := 8, s2 := 0x0, n2 := 1, fields := [⟨31, 0, .rw, 0x0⟩] },
  { name := "ARC_RING_LOST", off := 0x618, s1 := 0x20, n1 := 8, s2 := 0x0, n2 := 1, fields := [⟨31, 0, .rov, 0x0⟩] },
  { name := "ARC_PORT_MIR", off := 0x1000, s1 := 0x4, n1 := 528, s2 := 0x0, n2 := 1, fields := [⟨4, 4, .rw, 0x0⟩, ⟨3, 0, .rw, 0x0⟩] }]

def cardsTMG0 : List RegCard := [
  { name := "TMG_SAMP_CFG", off := 0x100, s1 := 0x0, n1 := 1, s2 := 0x0, n2 := 1, fields := [⟨31, 31, .rw, 0x0⟩, ⟨30, 30, .rw, 0x0⟩, ⟨23, 20, .rw, 0x0⟩, ⟨19, 0, .rw, 0x3E8⟩] },
  { name := "TMG_WHEEL_STAT", off := 0x104, s1 := 0x0, n1 := 1, s2 := 0x0, n2 := 1, fields := [⟨29, 16, .rov, 0x0⟩, ⟨13, 0, .rov, 0x0⟩] },
  { name := "TMG_PCP_MAP", off := 0x108, s1 := 0x0, n1 := 1, s2 := 0x0, n2 := 1, fields := [⟨3, 0, .rw, 0x0⟩, ⟨7, 4, .rw, 0x1⟩, ⟨11, 8, .rw, 0x2⟩, ⟨15, 12, .rw, 0x3⟩, ⟨19, 16, .rw, 0x4⟩, ⟨23, 20, .rw, 0x5⟩, ⟨27, 24, .rw, 0x6⟩, ⟨31, 28, .rw, 0x7⟩] },
  { name := "TMG_DSCP_MAP", off := 0x110, s1 := 0x4, n1 := 8, s2 := 0x0, n2 := 1, fields := [⟨3, 0, .rw, 0x0⟩, ⟨7, 4, .rw, 0x0⟩, ⟨11, 8, .rw, 0x0⟩, ⟨15, 12, .rw, 0x0⟩, ⟨19, 16, .rw, 0x0⟩, ⟨23, 20, .rw, 0x0⟩, ⟨27, 24, .rw, 0x0⟩, ⟨31, 28, .rw, 0x0⟩], extra := fun k _ => k * 0x11111111 }]

def cardsTMG1 : List RegCard := [
  { name := "TMG_PORT_CFG", off := 0x100, s1 := 0x10, n1 := 528, s2 := 0x0, n2 := 1, fields := [⟨7, 0, .rw, 0x14⟩] },
  { name := "TMG_PORT_SHP_RATE", off := 0x104, s1 := 0x10, n1 := 528, s2 := 0x0, n2 := 1, fields := [⟨31, 31, .wo, 0x0⟩, ⟨20, 0, .rw, 0x0⟩] },
  { name := "TMG_PORT_SHP_BURST", off := 0x108, s1 := 0x10, n1 := 528, s2 := 0x0, n2 := 1, fields := [⟨23, 0, .rw, 0x3000⟩] },
  { name := "TMG_PORT_SHP_STAT", off := 0x10C, s1 := 0x10, n1 := 528, s2 := 0x0, n2 := 1, fields := [⟨31, 0, .rov, 0x3000⟩] }]

def cardsTMG2 : List RegCard := [
  { name := "TMG_GRP_SHP_RATE", off := 0x104, s1 := 0x10, n1 := 2112, s2 := 0x0, n2 := 1, fields := [⟨31, 31, .wo, 0x0⟩, ⟨20, 0, .rw, 0x0⟩] },
  { name := "TMG_GRP_SHP_BURST", off := 0x108, s1 := 0x10, n1 := 2112, s2 := 0x0, n2 := 1, fields := [⟨23, 0, .rw, 0x3000⟩] },
  { name := "TMG_GRP_SHP_STAT", off := 0x10C, s1 := 0x10, n1 := 2112, s2 := 0x0, n2 := 1, fields := [⟨31, 0, .rov, 0x3000⟩] },
  { name := "TMG_GRP_CFG", off := 0x100, s1 := 0x10, n1 := 2112, s2 := 0x0, n2 := 1, fields := [⟨31, 16, .rw, 0x1⟩, ⟨2, 0, .rw, 0x0⟩] }]

def cardsTMG4 : List RegCard := [
  { name := "TMG_Q_SHP_RATE", off := 0x100, s1 := 0x4, n1 := 8448, s2 := 0x0, n2 := 1, fields := [⟨31, 31, .wo, 0x0⟩, ⟨20, 0, .rw, 0x0⟩] }]

def cardsTMG5 : List RegCard := [
  { name := "TMG_Q_SHP_BURST", off := 0x100, s1 := 0x4, n1 := 8448, s2 := 0x0, n2 := 1, fields := [⟨23, 0, .rw, 0x3000⟩] }]

def cardsTMG6 : List RegCard := [
  { name := "TMG_Q_SHP_STAT", off := 0x100, s1 := 0x4, n1 := 8448, s2 := 0x0, n2 := 1, fields := [⟨31, 0, .rov, 0x3000⟩] }]

def cardsTMG3 : List RegCard := [
  { name := "TMG_Q_CFG", off := 0x100, s1 := 0x4, n1 := 8448, s2 := 0x0, n2 := 1, fields := [⟨31, 16, .rw, 0x1⟩, ⟨11, 11, .rw, 0x0⟩, ⟨10, 8, .rw, 0x0⟩, ⟨5, 4, .rw, 0x0⟩], extra := fun q _ => q % 16 / 4 * 16 }]

def cardsTMG7 : List RegCard := [
  { name := "TMG_Q_SOJ_MAX", off := 0x100, s1 := 0x4, n1 := 8448, s2 := 0x0, n2 := 1, fields := [⟨15, 0, .rov, 0x0⟩] }]

def cardsTMG8 : List RegCard := [
  { name := "TMG_CLS", off := 0x100, s1 := 0x4, n1 := 528, s2 := 0x0, n2 := 1, fields := [⟨19, 16, .rw, 0x0⟩, ⟨14, 8, .rw, 0x0⟩, ⟨1, 0, .rw, 0x0⟩] }]

def cardsTMG9 : List RegCard := [
  { name := "TMG_SAMP_PORTS", off := 0x100, s1 := 0x4, n1 := 17, s2 := 0x0, n2 := 1, fields := [⟨31, 0, .rw, 0x0⟩], extra := fun k _ => if k < 16 then 0xFFFFFFFF else 0xFFFF }]

def cardsTSN0 : List RegCard := [
  { name := "TSN_CLK_CFG", off := 0x100, s1 := 0x0, n1 := 1, s2 := 0x0, n2 := 1, fields := [⟨2, 2, .rov, 0x0⟩, ⟨1, 1, .rov, 0x0⟩, ⟨0, 0, .rw, 0x0⟩] },
  { name := "TSN_FREQ_ADJ", off := 0x104, s1 := 0x0, n1 := 1, s2 := 0x0, n2 := 1, fields := [⟨31, 0, .rw, 0x0⟩] },
  { name := "TSN_TIME_NS", off := 0x108, s1 := 0x0, n1 := 1, s2 := 0x0, n2 := 1, fields := [⟨31, 0, .rov, 0x0⟩] },
  { name := "TSN_TIME_SEC_LO", off := 0x10C, s1 := 0x0, n1 := 1, s2 := 0x0, n2 := 1, fields := [⟨31, 0, .rov, 0x0⟩] },
  { name := "TSN_TIME_SEC_HI", off := 0x110, s1 := 0x0, n1 := 1, s2 := 0x0, n2 := 1, fields := [⟨15, 0, .rov, 0x0⟩] },
  { name := "TSN_TIME_SET_NS", off := 0x114, s1 := 0x0, n1 := 1, s2 := 0x0, n2 := 1, fields := [⟨31, 0, .rw, 0x0⟩] },
  { name := "TSN_TIME_SET_SEC_LO", off := 0x118, s1 := 0x0, n1 := 1, s2 := 0x0, n2 := 1, fields := [⟨31, 0, .rw, 0x0⟩] },
  { name := "TSN_TIME_SET_SEC_HI", off := 0x11C, s1 := 0x0, n1 := 1, s2 := 0x0, n2 := 1, fields := [⟨15, 0, .rw, 0x0⟩] },
  { name := "TSN_STEP_SEC", off := 0x120, s1 := 0x0, n1 := 1, s2 := 0x0, n2 := 1, fields := [⟨31, 0, .rw, 0x0⟩] },
  { name := "TSN_STEP_NS", off := 0x124, s1 := 0x0, n1 := 1, s2 := 0x0, n2 := 1, fields := [⟨31, 0, .wo, 0x0⟩] },
  { name := "TSN_PPS_CFG", off := 0x128, s1 := 0x0, n1 := 1, s2 := 0x0, n2 := 1, fields := [⟨31, 31, .rw, 0x0⟩, ⟨30, 30, .rw, 0x0⟩, ⟨29, 20, .rw, 0x64⟩, ⟨19, 0, .rw, 0x0⟩] },
  { name := "TSN_PPS_CAP_NS", off := 0x12C, s1 := 0x0, n1 := 1, s2 := 0x0, n2 := 1, fields := [⟨31, 0, .rov, 0x0⟩] },
  { name := "TSN_PPS_CAP_SEC", off := 0x130, s1 := 0x0, n1 := 1, s2 := 0x0, n2 := 1, fields := [⟨31, 0, .rov, 0x0⟩] }]

def cardsTSN1 : List RegCard := [
  { name := "TSN_GCL_CTRL", off := 0x100, s1 := 0x20, n1 := 528, s2 := 0x0, n2 := 1, fields := [⟨31, 31, .w1s, 0x0⟩, ⟨0, 0, .rw, 0x0⟩] },
  { name := "TSN_GCL_STAT", off := 0x104, s1 := 0x20, n1 := 528, s2 := 0x0, n2 := 1, fields := [⟨31, 31, .rov, 0x0⟩, ⟨30, 30, .rov, 0x0⟩, ⟨9, 0, .rov, 0x0⟩] },
  { name := "TSN_GCL_ADM_LIST", off := 0x108, s1 := 0x20, n1 := 528, s2 := 0x0, n2 := 1, fields := [⟨26, 16, .rw, 0x0⟩, ⟨9, 0, .rw, 0x0⟩] },
  { name := "TSN_GCL_ADM_CYCLE", off := 0x10C, s1 := 0x20, n1 := 528, s2 := 0x0, n2 := 1, fields := [⟨29, 0, .rw, 0x0⟩] },
  { name := "TSN_GCL_ADM_BASE_NS", off := 0x110, s1 := 0x20, n1 := 528, s2 := 0x0, n2 := 1, fields := [⟨29, 0, .rw, 0x0⟩] },
  { name := "TSN_GCL_ADM_BASE_SEC_LO", off := 0x114, s1 := 0x20, n1 := 528, s2 := 0x0, n2 := 1, fields := [⟨31, 0, .rw, 0x0⟩] },
  { name := "TSN_GCL_ADM_BASE_SEC_HI", off := 0x118, s1 := 0x20, n1 := 528, s2 := 0x0, n2 := 1, fields := [⟨15, 0, .rw, 0x0⟩] }]

def cardsTSN2 : List RegCard := [
  { name := "TSN_SF_BLOCKED", off := 0x100, s1 := 0x4, n1 := 512, s2 := 0x0, n2 := 1, fields := [⟨31, 0, .w1c, 0x0⟩] }]

def cardsTSN3 : List RegCard := [
  { name := "TSN_SRF_RESET", off := 0x100, s1 := 0x0, n1 := 1, s2 := 0x0, n2 := 1, fields := [⟨11, 0, .wo, 0x0⟩] }]

def cardsVLT0 : List RegCard := [
  { name := "VLT_CFG", off := 0x100, s1 := 0x0, n1 := 1, s2 := 0x0, n2 := 1, fields := [⟨0, 0, .rw, 0x1⟩] },
  { name := "VLT_SPILL_CFG", off := 0x104, s1 := 0x0, n1 := 1, s2 := 0x0, n2 := 1, fields := [⟨23, 16, .rw, 0x80⟩, ⟨7, 0, .rw, 0x80⟩] },
  { name := "VLT_RET_CFG", off := 0x108, s1 := 0x0, n1 := 1, s2 := 0x0, n2 := 1, fields := [⟨15, 0, .rw, 0x7D0⟩] },
  { name := "VLT_THERM_CFG", off := 0x10C, s1 := 0x0, n1 := 1, s2 := 0x0, n2 := 1, fields := [⟨23, 16, .rw, 0x55⟩, ⟨15, 8, .rw, 0x69⟩, ⟨7, 0, .rw, 0x64⟩] },
  { name := "VLT_POOL_CFG", off := 0x110, s1 := 0x4, n1 := 3, s2 := 0x0, n2 := 1, fields := [⟨17, 0, .rw, 0x0⟩], extra := fun k _ => [0x10000, 0xC000, 0x7C00].getD k 0 },
  { name := "VLT_POOL_LVL", off := 0x120, s1 := 0x10, n1 := 3, s2 := 0x0, n2 := 1, fields := [⟨23, 16, .rw, 0x5F⟩, ⟨15, 8, .rw, 0x55⟩, ⟨7, 0, .rw, 0x46⟩] },
  { name := "VLT_POOL_STAT", off := 0x124, s1 := 0x10, n1 := 3, s2 := 0x0, n2 := 1, fields := [⟨31, 30, .rov, 0x0⟩, ⟨23, 0, .rov, 0x0⟩] },
  { name := "VLT_POOL_CAP", off := 0x128, s1 := 0x10, n1 := 3, s2 := 0x0, n2 := 1, fields := [⟨31, 30, .rov, 0x0⟩, ⟨23, 0, .rov, 0x0⟩], extra := fun k _ => 128 * [0x10000, 0xC000, 0x7C00].getD k 0 },
  { name := "VLT_THERM_STAT", off := 0x150, s1 := 0x0, n1 := 1, s2 := 0x0, n2 := 1, fields := [⟨7, 0, .rov, 0x0⟩, ⟨15, 8, .rov, 0x0⟩, ⟨23, 16, .rov, 0x0⟩, ⟨31, 24, .rov, 0x0⟩] },
  { name := "VLT_THERM_FLAGS", off := 0x154, s1 := 0x0, n1 := 1, s2 := 0x0, n2 := 1, fields := [⟨11, 8, .rov, 0x0⟩, ⟨7, 4, .rov, 0x0⟩, ⟨3, 0, .rov, 0x0⟩] },
  { name := "VLT_MODE_STAT", off := 0x158, s1 := 0x0, n1 := 1, s2 := 0x0, n2 := 1, fields := [⟨13, 0, .rov, 0x0⟩] },
  { name := "VLT_PC_CMD", off := 0x160, s1 := 0x0, n1 := 1, s2 := 0x0, n2 := 1, fields := [⟨31, 31, .w1s, 0x0⟩, ⟨6, 0, .rw, 0x0⟩] },
  { name := "VLT_PC_CFG", off := 0x164, s1 := 0x0, n1 := 1, s2 := 0x0, n2 := 1, fields := [⟨8, 8, .rw, 0x1⟩, ⟨7, 0, .rw, 0x4⟩] },
  { name := "VLT_PROF_CFG", off := 0x300, s1 := 0x4, n1 := 16, s2 := 0x0, n2 := 1, fields := [⟨16, 0, .rw, 0x1000⟩] }]

def cardsVLT1 : List RegCard := [
  { name := "VLT_Q_STAT", off := 0x100, s1 := 0x4, n1 := 8448, s2 := 0x0, n2 := 1, fields := [⟨31, 31, .rov, 0x0⟩, ⟨26, 0, .rov, 0x0⟩] }]

def cardsVLT2 : List RegCard := [
  { name := "VLT_PC_STAT", off := 0x100, s1 := 0x4, n1 := 128, s2 := 0x0, n2 := 1, fields := [⟨31, 30, .rov, 0x0⟩, ⟨23, 16, .rov, 0x0⟩, ⟨15, 0, .rov, 0x0⟩] }]

def cardsCUR0 : List RegCard := [
  { name := "CUR_CFG", off := 0x100, s1 := 0x0, n1 := 1, s2 := 0x0, n2 := 1, fields := [⟨31, 16, .rw, 0x3E8⟩, ⟨6, 0, .rw, 0x0⟩] },
  { name := "CUR_STAT", off := 0x104, s1 := 0x0, n1 := 1, s2 := 0x0, n2 := 1, fields := [⟨2, 1, .rov, 0x0⟩, ⟨0, 0, .rov, 0x0⟩] },
  { name := "CUR_PIN_PROF", off := 0x108, s1 := 0x0, n1 := 1, s2 := 0x0, n2 := 1, fields := [⟨15, 0, .rw, 0x0⟩] },
  { name := "CUR_PIN_SHP", off := 0x10C, s1 := 0x0, n1 := 1, s2 := 0x0, n2 := 1, fields := [⟨15, 0, .rw, 0x0⟩] },
  { name := "CUR_LOG_CFG", off := 0x110, s1 := 0x0, n1 := 1, s2 := 0x0, n2 := 1, fields := [⟨31, 31, .rw, 0x0⟩, ⟨30, 30, .rw, 0x0⟩, ⟨29, 29, .rw, 0x0⟩, ⟨19, 16, .rw, 0x8⟩, ⟨15, 12, .rw, 0x0⟩] },
  { name := "CUR_LOG_BASE_LO", off := 0x114, s1 := 0x0, n1 := 1, s2 := 0x0, n2 := 1, fields := [⟨31, 5, .rw, 0x0⟩] },
  { name := "CUR_LOG_BASE_HI", off := 0x118, s1 := 0x0, n1 := 1, s2 := 0x0, n2 := 1, fields := [⟨31, 0, .rw, 0x0⟩] },
  { name := "CUR_LOG_PROD", off := 0x11C, s1 := 0x0, n1 := 1, s2 := 0x0, n2 := 1, fields := [⟨31, 0, .rov, 0x0⟩] },
  { name := "CUR_LOG_CONS", off := 0x120, s1 := 0x0, n1 := 1, s2 := 0x0, n2 := 1, fields := [⟨31, 0, .rw, 0x0⟩] },
  { name := "CUR_LOG_LOST", off := 0x124, s1 := 0x0, n1 := 1, s2 := 0x0, n2 := 1, fields := [⟨31, 0, .rov, 0x0⟩] },
  { name := "CUR_ENV_LEAD", off := 0x128, s1 := 0x0, n1 := 1, s2 := 0x0, n2 := 1, fields := [⟨31, 16, .rw, 0x2710⟩, ⟨15, 0, .rw, 0x1F4⟩] },
  { name := "CUR_ENV_PARK", off := 0x12C, s1 := 0x0, n1 := 1, s2 := 0x0, n2 := 1, fields := [⟨14, 8, .rw, 0xA⟩, ⟨7, 0, .rw, 0x0⟩] },
  { name := "CUR_ENV_RETUNE", off := 0x130, s1 := 0x0, n1 := 1, s2 := 0x0, n2 := 1, fields := [⟨15, 8, .rw, 0x5A⟩, ⟨7, 0, .rw, 0x3C⟩] },
  { name := "CUR_ENV_ALPHA", off := 0x400, s1 := 0x20, n1 := 16, s2 := 0x0, n2 := 1, fields := [⟨7, 4, .rw, 0x3⟩, ⟨3, 0, .rw, 0x9⟩] },
  { name := "CUR_ENV_ECN_MIN", off := 0x404, s1 := 0x20, n1 := 16, s2 := 0x0, n2 := 1, fields := [⟨20, 0, .rw, 0x100⟩] },
  { name := "CUR_ENV_ECN_MAX", off := 0x408, s1 := 0x20, n1 := 16, s2 := 0x0, n2 := 1, fields := [⟨31, 21, .rw, 0xC8⟩, ⟨20, 0, .rw, 0x100000⟩] },
  { name := "CUR_ENV_SPILL_MIN", off := 0x40C, s1 := 0x20, n1 := 16, s2 := 0x0, n2 := 1, fields := [⟨20, 0, .rw, 0x100⟩] },
  { name := "CUR_ENV_SPILL_MAX", off := 0x410, s1 := 0x20, n1 := 16, s2 := 0x0, n2 := 1, fields := [⟨20, 0, .rw, 0x100000⟩] },
  { name := "CUR_ENV_SHP_MIN", off := 0x800, s1 := 0x8, n1 := 16, s2 := 0x0, n2 := 1, fields := [⟨20, 0, .rw, 0x1⟩] },
  { name := "CUR_ENV_SHP_MAX", off := 0x804, s1 := 0x8, n1 := 16, s2 := 0x0, n2 := 1, fields := [⟨20, 0, .rw, 0x186A00⟩] },
  { name := "CUR_SHP_PORTS", off := 0x900, s1 := 0x4, n1 := 17, s2 := 0x0, n2 := 1, fields := [⟨31, 0, .rw, 0x0⟩] }]

def cardsHIF0 : List RegCard := [
  { name := "HIF_CFG", off := 0x100, s1 := 0x0, n1 := 1, s2 := 0x0, n2 := 1, fields := [⟨15, 8, .rw, 0x0⟩, ⟨1, 1, .rw, 0x0⟩, ⟨0, 0, .rw, 0x0⟩] },
  { name := "HIF_PCIE_STAT", off := 0x104, s1 := 0x0, n1 := 1, s2 := 0x0, n2 := 1, fields := [⟨12, 12, .rov, 0x0⟩, ⟨11, 10, .rov, 0x0⟩, ⟨9, 9, .rov, 0x0⟩, ⟨8, 4, .rov, 0x0⟩, ⟨3, 0, .rov, 0x0⟩] },
  { name := "HIF_TWIN_SEL", off := 0x110, s1 := 0x4, n1 := 4, s2 := 0x0, n2 := 1, fields := [⟨4, 0, .rw, 0x0⟩], extra := fun a _ => a },
  { name := "HIF_PUNT_MAP", off := 0x120, s1 := 0x4, n1 := 4, s2 := 0x0, n2 := 1, fields := [⟨4, 0, .rw, 0x0⟩, ⟨12, 8, .rw, 0x0⟩, ⟨20, 16, .rw, 0x0⟩, ⟨28, 24, .rw, 0x0⟩] }]

def cardsHIF1 : List RegCard := [
  { name := "HIF_SQ_BASE_LO", off := 0x100, s1 := 0x20, n1 := 32, s2 := 0x0, n2 := 1, fields := [⟨31, 5, .rw, 0x0⟩] },
  { name := "HIF_SQ_BASE_HI", off := 0x104, s1 := 0x20, n1 := 32, s2 := 0x0, n2 := 1, fields := [⟨31, 0, .rw, 0x0⟩] },
  { name := "HIF_SQ_CFG", off := 0x108, s1 := 0x20, n1 := 32, s2 := 0x0, n2 := 1, fields := [⟨31, 31, .rw, 0x0⟩, ⟨30, 29, .rw, 0x0⟩, ⟨28, 28, .rw, 0x0⟩, ⟨20, 16, .rw, 0x0⟩, ⟨11, 8, .rw, 0x0⟩, ⟨4, 0, .rw, 0x4⟩] },
  { name := "HIF_SQ_DB", off := 0x10C, s1 := 0x20, n1 := 32, s2 := 0x0, n2 := 1, fields := [⟨31, 0, .wo, 0x0⟩] },
  { name := "HIF_SQ_HEAD", off := 0x110, s1 := 0x20, n1 := 32, s2 := 0x0, n2 := 1, fields := [⟨16, 16, .rov, 0x1⟩, ⟨15, 0, .rov, 0x0⟩] }]

def cardsHIF2 : List RegCard := [
  { name := "HIF_CQ_BASE_LO", off := 0x100, s1 := 0x20, n1 := 32, s2 := 0x0, n2 := 1, fields := [⟨31, 5, .rw, 0x0⟩] },
  { name := "HIF_CQ_BASE_HI", off := 0x104, s1 := 0x20, n1 := 32, s2 := 0x0, n2 := 1, fields := [⟨31, 0, .rw, 0x0⟩] },
  { name := "HIF_CQ_CFG", off := 0x108, s1 := 0x20, n1 := 32, s2 := 0x0, n2 := 1, fields := [⟨31, 31, .rw, 0x0⟩, ⟨4, 0, .rw, 0x4⟩] },
  { name := "HIF_CQ_CONS", off := 0x10C, s1 := 0x20, n1 := 32, s2 := 0x0, n2 := 1, fields := [⟨16, 16, .rw, 0x0⟩, ⟨15, 0, .rw, 0x0⟩] },
  { name := "HIF_CQ_PROD", off := 0x110, s1 := 0x20, n1 := 32, s2 := 0x0, n2 := 1, fields := [⟨16, 16, .rov, 0x0⟩, ⟨15, 0, .rov, 0x0⟩] },
  { name := "HIF_CQ_IRQ", off := 0x114, s1 := 0x20, n1 := 32, s2 := 0x0, n2 := 1, fields := [⟨31, 24, .rw, 0x0⟩, ⟨23, 16, .rw, 0x1⟩, ⟨15, 0, .rw, 0x0⟩] }]

def cardsHIF3 : List RegCard := [
  { name := "HIF_EQ_BASE_LO", off := 0x100, s1 := 0x20, n1 := 32, s2 := 0x0, n2 := 1, fields := [⟨31, 5, .rw, 0x0⟩] },
  { name := "HIF_EQ_BASE_HI", off := 0x104, s1 := 0x20, n1 := 32, s2 := 0x0, n2 := 1, fields := [⟨31, 0, .rw, 0x0⟩] },
  { name := "HIF_EQ_CFG", off := 0x108, s1 := 0x20, n1 := 32, s2 := 0x0, n2 := 1, fields := [⟨31, 31, .rw, 0x0⟩, ⟨20, 16, .rw, 0x0⟩, ⟨4, 0, .rw, 0x4⟩] },
  { name := "HIF_EQ_CONS", off := 0x10C, s1 := 0x20, n1 := 32, s2 := 0x0, n2 := 1, fields := [⟨16, 16, .rw, 0x0⟩, ⟨15, 0, .rw, 0x0⟩] },
  { name := "HIF_EQ_PROD", off := 0x110, s1 := 0x20, n1 := 32, s2 := 0x0, n2 := 1, fields := [⟨16, 16, .rov, 0x0⟩, ⟨15, 0, .rov, 0x0⟩] },
  { name := "HIF_EQ_IRQ", off := 0x114, s1 := 0x20, n1 := 32, s2 := 0x0, n2 := 1, fields := [⟨31, 24, .rw, 0x0⟩, ⟨23, 16, .rw, 0x1⟩, ⟨15, 0, .rw, 0x0⟩] }]

def cardsHIF4 : List RegCard := [
  { name := "HIF_DMA_STAT", off := 0x100, s1 := 0x4, n1 := 16, s2 := 0x0, n2 := 1, fields := [⟨31, 31, .rov, 0x0⟩, ⟨30, 30, .rov, 0x0⟩, ⟨23, 16, .rov, 0x0⟩, ⟨15, 0, .rov, 0x0⟩] }]

def cardsHIF6 : List RegCard := [
  { name := "HIF_MSIX_TABLE", off := 0x1000, s1 := 0x4, n1 := 1024, s2 := 0x0, n2 := 1, fields := [⟨31, 0, .rw, 0x0⟩] },
  { name := "HIF_MSIX_PBA", off := 0x2000, s1 := 0x4, n1 := 8, s2 := 0x0, n2 := 1, fields := [⟨31, 0, .rov, 0x0⟩] }]

def cardsANX0 : List RegCard := [
  { name := "ANX_CFG", off := 0x100, s1 := 0x0, n1 := 1, s2 := 0x0, n2 := 1, fields := [⟨31, 31, .rw, 0x0⟩, ⟨25, 16, .rw, 0x64⟩, ⟨15, 8, .rw, 0x10⟩, ⟨7, 0, .rw, 0x20⟩] },
  { name := "ANX_LANE_CTRL", off := 0x104, s1 := 0x0, n1 := 1, s2 := 0x0, n2 := 1, fields := [⟨15, 8, .rw, 0x0⟩, ⟨7, 0, .rw, 0x0⟩] },
  { name := "ANX_LINK_STAT", off := 0x108, s1 := 0x0, n1 := 1, s2 := 0x0, n2 := 1, fields := [⟨15, 8, .rov, 0x0⟩, ⟨1, 0, .rov, 0x0⟩] },
  { name := "ANX_TX_MAP", off := 0x110, s1 := 0x4, n1 := 2, s2 := 0x0, n2 := 1, fields := [⟨3, 0, .rw, 0x0⟩, ⟨7, 4, .rw, 0x0⟩, ⟨11, 8, .rw, 0x0⟩, ⟨15, 12, .rw, 0x0⟩, ⟨19, 16, .rw, 0x0⟩, ⟨23, 20, .rw, 0x0⟩, ⟨27, 24, .rw, 0x0⟩, ⟨31, 28, .rw, 0x0⟩] },
  { name := "ANX_CHAN_CFG", off := 0x140, s1 := 0x8, n1 := 16, s2 := 0x0, n2 := 1, fields := [⟨31, 30, .rw, 0x0⟩, ⟨11, 0, .rw, 0x0⟩] },
  { name := "ANX_CHAN_STAT", off := 0x144, s1 := 0x8, n1 := 16, s2 := 0x0, n2 := 1, fields := [⟨31, 16, .rov, 0x0⟩, ⟨11, 0, .rov, 0x0⟩] }]

def cardsLDG0 : List RegCard := [
  { name := "LDG_CTR_CFG", off := 0x100, s1 := 0x4, n1 := 64, s2 := 0x0, n2 := 1, fields := [⟨31, 31, .rw, 0x0⟩, ⟨30, 29, .rw, 0x0⟩, ⟨28, 28, .rw, 0x0⟩, ⟨27, 24, .rw, 0x0⟩, ⟨23, 16, .rw, 0x0⟩, ⟨13, 0, .rw, 0x0⟩] },
  { name := "LDG_CTR_THR", off := 0x200, s1 := 0x4, n1 := 64, s2 := 0x0, n2 := 1, fields := [⟨31, 0, .rw, 0x0⟩] },
  { name := "LDG_OVF", off := 0x600, s1 := 0x4, n1 := 2, s2 := 0x0, n2 := 1, fields := [⟨31, 0, .w1c, 0x0⟩] },
  { name := "LDG_CTR_CLR", off := 0x608, s1 := 0x4, n1 := 2, s2 := 0x0, n2 := 1, fields := [⟨31, 0, .w1s, 0x0⟩] },
  { name := "LDG_USER_CFG", off := 0x610, s1 := 0x0, n1 := 1, s2 := 0x0, n2 := 1, fields := [⟨15, 0, .rw, 0x0⟩] },
  { name := "LDG_USER_STAT", off := 0x614, s1 := 0x0, n1 := 1, s2 := 0x0, n2 := 1, fields := [⟨31, 16, .rov, 0x0⟩, ⟨15, 0, .rov, 0x0⟩] },
  { name := "LDG_FLOW_STAT", off := 0x618, s1 := 0x0, n1 := 1, s2 := 0x0, n2 := 1, fields := [⟨15, 0, .rov, 0x0⟩] }]

def cardsCSV0 : List RegCard := [
  { name := "CSV_CFG", off := 0x100, s1 := 0x0, n1 := 1, s2 := 0x0, n2 := 1, fields := [⟨3, 3, .rw, 0x1⟩, ⟨2, 2, .rw, 0x0⟩, ⟨1, 1, .rw, 0x0⟩, ⟨0, 0, .rw, 0x1⟩] },
  { name := "CSV_SCRUB_CFG", off := 0x104, s1 := 0x0, n1 := 1, s2 := 0x0, n2 := 1, fields := [⟨15, 0, .rw, 0x3E8⟩] },
  { name := "CSV_SHADOW_CFG", off := 0x108, s1 := 0x0, n1 := 1, s2 := 0x0, n2 := 1, fields := [⟨31, 28, .rw, 0x0⟩, ⟨27, 16, .rw, 0x64⟩, ⟨15, 0, .rw, 0x3E8⟩] },
  { name := "CSV_SHADOW_BASE_LO", off := 0x120, s1 := 0x10, n1 := 4, s2 := 0x0, n2 := 1, fields := [⟨31, 12, .rw, 0x0⟩] },
  { name := "CSV_SHADOW_BASE_HI", off := 0x124, s1 := 0x10, n1 := 4, s2 := 0x0, n2 := 1, fields := [⟨31, 0, .rw, 0x0⟩] },
  { name := "CSV_SHADOW_STAT", off := 0x128, s1 := 0x10, n1 := 4, s2 := 0x0, n2 := 1, fields := [⟨31, 16, .rov, 0x0⟩, ⟨15, 0, .rov, 0x0⟩] },
  { name := "CSV_MISMATCH_LAST", off := 0x160, s1 := 0x0, n1 := 1, s2 := 0x0, n2 := 1, fields := [⟨31, 28, .rov, 0x0⟩, ⟨27, 26, .rov, 0x0⟩, ⟨25, 25, .rov, 0x0⟩, ⟨20, 0, .rov, 0x0⟩] },
  { name := "CSV_INJ_ADDR", off := 0x170, s1 := 0x0, n1 := 1, s2 := 0x0, n2 := 1, fields := [⟨31, 0, .rw, 0x0⟩] },
  { name := "CSV_INJ_CMD", off := 0x174, s1 := 0x0, n1 := 1, s2 := 0x0, n2 := 1, fields := [⟨31, 31, .w1s, 0x0⟩, ⟨3, 0, .rw, 0x1⟩] }]

def cardsRGR0 : List RegCard := [
  { name := "RGR_CFG", off := 0x100, s1 := 0x0, n1 := 1, s2 := 0x0, n2 := 1, fields := [⟨15, 8, .rw, 0x69⟩, ⟨2, 2, .rw, 0x0⟩, ⟨1, 1, .rw, 0x1⟩, ⟨0, 0, .rw, 0x1⟩] },
  { name := "RGR_SPARE_CFG", off := 0x104, s1 := 0x0, n1 := 1, s2 := 0x0, n2 := 1, fields := [⟨1, 1, .rw, 0x0⟩, ⟨0, 0, .rw, 0x1⟩] },
  { name := "RGR_SPARE_CMD", off := 0x108, s1 := 0x0, n1 := 1, s2 := 0x0, n2 := 1, fields := [⟨31, 31, .w1s, 0x0⟩, ⟨28, 28, .rw, 0x0⟩, ⟨2, 0, .rw, 0x0⟩] },
  { name := "RGR_SPARE_STAT", off := 0x10C, s1 := 0x0, n1 := 1, s2 := 0x0, n2 := 1, fields := [⟨31, 31, .rov, 0x0⟩, ⟨30, 30, .rov, 0x0⟩, ⟨19, 16, .rov, 0xF⟩, ⟨15, 0, .rov, 0x0⟩] },
  { name := "RGR_HIST_TOTAL", off := 0x110, s1 := 0x0, n1 := 1, s2 := 0x0, n2 := 1, fields := [⟨31, 0, .rov, 0x0⟩] },
  { name := "RGR_HIST_SEL", off := 0x114, s1 := 0x0, n1 := 1, s2 := 0x0, n2 := 1, fields := [⟨5, 0, .rw, 0x0⟩] },
  { name := "RGR_HIST_W", off := 0x120, s1 := 0x4, n1 := 5, s2 := 0x0, n2 := 1, fields := [⟨31, 0, .rov, 0x0⟩] },
  { name := "RGR_INJ_CFG", off := 0x140, s1 := 0x0, n1 := 1, s2 := 0x0, n2 := 1, fields := [⟨0, 0, .rw, 0x0⟩] },
  { name := "RGR_INJ_MSG_LO", off := 0x144, s1 := 0x0, n1 := 1, s2 := 0x0, n2 := 1, fields := [⟨31, 0, .rw, 0x0⟩] },
  { name := "RGR_INJ_MSG_HI", off := 0x148, s1 := 0x0, n1 := 1, s2 := 0x0, n2 := 1, fields := [⟨31, 0, .rw, 0x0⟩] },
  { name := "RGR_PEND", off := 0x400, s1 := 0x4, n1 := 32, s2 := 0x0, n2 := 1, fields := [⟨31, 0, .rov, 0x0⟩] }]

def cardsGAL0 : List RegCard := [
  { name := "GAL_PARK_CFG", off := 0x100, s1 := 0x0, n1 := 1, s2 := 0x0, n2 := 1, fields := [⟨31, 16, .rw, 0x3E8⟩, ⟨15, 4, .rw, 0x400⟩, ⟨2, 2, .rw, 0x0⟩, ⟨1, 1, .rw, 0x0⟩, ⟨0, 0, .rw, 0x0⟩] },
  { name := "GAL_STAT", off := 0x104, s1 := 0x0, n1 := 1, s2 := 0x0, n2 := 1, fields := [⟨2, 0, .rov, 0x0⟩] }]

def cardsPWR0 : List RegCard := [
  { name := "PWR_CLK_CFG", off := 0x100, s1 := 0x0, n1 := 1, s2 := 0x0, n2 := 1, fields := [⟨1, 0, .rw, 0x0⟩] },
  { name := "PWR_CLK_STAT", off := 0x104, s1 := 0x0, n1 := 1, s2 := 0x0, n2 := 1, fields := [⟨15, 8, .rov, 0x0⟩, ⟨3, 3, .rov, 0x0⟩, ⟨2, 2, .rov, 0x0⟩, ⟨1, 1, .rov, 0x0⟩, ⟨0, 0, .rov, 0x0⟩] },
  { name := "PWR_RST_CAUSE", off := 0x108, s1 := 0x0, n1 := 1, s2 := 0x0, n2 := 1, fields := [⟨3, 3, .w1c, 0x0⟩, ⟨2, 2, .w1c, 0x0⟩, ⟨1, 1, .w1c, 0x0⟩, ⟨0, 0, .w1c, 0x1⟩] },
  { name := "PWR_RST_CMD", off := 0x10C, s1 := 0x0, n1 := 1, s2 := 0x0, n2 := 1, fields := [⟨31, 31, .wo, 0x0⟩, ⟨7, 0, .wo, 0x0⟩] },
  { name := "PWR_BOOT_CFG", off := 0x110, s1 := 0x0, n1 := 1, s2 := 0x0, n2 := 1, fields := [⟨0, 0, .rw, 0x0⟩] },
  { name := "PWR_BOOT_STAT", off := 0x114, s1 := 0x0, n1 := 1, s2 := 0x0, n2 := 1, fields := [⟨31, 16, .rov, 0x0⟩, ⟨15, 12, .rov, 0x0⟩, ⟨11, 8, .rov, 0x0⟩, ⟨7, 6, .rov, 0x0⟩, ⟨3, 0, .rov, 0x0⟩] },
  { name := "PWR_BOOT_HOST_ADDR_LO", off := 0x118, s1 := 0x0, n1 := 1, s2 := 0x0, n2 := 1, fields := [⟨31, 0, .rw, 0x0⟩] },
  { name := "PWR_BOOT_HOST_ADDR_HI", off := 0x11C, s1 := 0x0, n1 := 1, s2 := 0x0, n2 := 1, fields := [⟨31, 0, .rw, 0x0⟩] },
  { name := "PWR_BOOT_HOST_LEN", off := 0x120, s1 := 0x0, n1 := 1, s2 := 0x0, n2 := 1, fields := [⟨20, 0, .rw, 0x0⟩] },
  { name := "PWR_BOOT_HOST_CMD", off := 0x124, s1 := 0x0, n1 := 1, s2 := 0x0, n2 := 1, fields := [⟨0, 0, .w1s, 0x0⟩] },
  { name := "PWR_GAL_STAT", off := 0x130, s1 := 0x0, n1 := 1, s2 := 0x0, n2 := 1, fields := [⟨27, 24, .rov, 0xF⟩, ⟨17, 0, .rov, 0x0⟩] },
  { name := "PWR_TEMP", off := 0x200, s1 := 0x4, n1 := 24, s2 := 0x0, n2 := 1, fields := [⟨7, 0, .rov, 0x0⟩] },
  { name := "PWR_AGE_STAT", off := 0x400, s1 := 0x0, n1 := 1, s2 := 0x0, n2 := 1, fields := [⟨12, 8, .rov, 0x0⟩, ⟨7, 0, .rov, 0xFF⟩] },
  { name := "PWR_AGE_CFG", off := 0x404, s1 := 0x0, n1 := 1, s2 := 0x0, n2 := 1, fields := [⟨31, 16, .rw, 0xC8⟩, ⟨7, 0, .rw, 0x32⟩] },
  { name := "PWR_LIFE_HOURS", off := 0x408, s1 := 0x0, n1 := 1, s2 := 0x0, n2 := 1, fields := [⟨31, 0, .rw, 0x0⟩] }]

def cardsLCS0 : List RegCard := [
  { name := "LCS_STATE", off := 0x100, s1 := 0x0, n1 := 1, s2 := 0x0, n2 := 1, fields := [⟨22, 16, .rov, 0x0⟩, ⟨11, 8, .rov, 0x0⟩, ⟨2, 0, .rov, 0x0⟩] },
  { name := "LCS_UID_LO", off := 0x104, s1 := 0x0, n1 := 1, s2 := 0x0, n2 := 1, fields := [⟨31, 0, .ro, 0x0⟩] },
  { name := "LCS_UID_HI", off := 0x108, s1 := 0x0, n1 := 1, s2 := 0x0, n2 := 1, fields := [⟨31, 0, .ro, 0x0⟩] },
  { name := "LCS_NONCE_LO", off := 0x10C, s1 := 0x0, n1 := 1, s2 := 0x0, n2 := 1, fields := [⟨31, 0, .rov, 0x0⟩] },
  { name := "LCS_NONCE_HI", off := 0x110, s1 := 0x0, n1 := 1, s2 := 0x0, n2 := 1, fields := [⟨31, 0, .rov, 0x0⟩] },
  { name := "LCS_TRANS_CMD", off := 0x114, s1 := 0x0, n1 := 1, s2 := 0x0, n2 := 1, fields := [⟨31, 31, .w1s, 0x0⟩, ⟨23, 16, .wo, 0x0⟩, ⟨2, 0, .rw, 0x0⟩] },
  { name := "LCS_TRANS_STAT", off := 0x118, s1 := 0x0, n1 := 1, s2 := 0x0, n2 := 1, fields := [⟨31, 31, .rov, 0x0⟩, ⟨3, 0, .rov, 0x0⟩] },
  { name := "LCS_KEY_PROG", off := 0x120, s1 := 0x0, n1 := 1, s2 := 0x0, n2 := 1, fields := [⟨31, 31, .w1s, 0x0⟩, ⟨30, 30, .rw, 0x0⟩, ⟨1, 0, .rw, 0x0⟩] },
  { name := "LCS_KEY_STAT", off := 0x124, s1 := 0x0, n1 := 1, s2 := 0x0, n2 := 1, fields := [⟨7, 4, .rov, 0x0⟩, ⟨3, 0, .rov, 0x0⟩] },
  { name := "LCS_VER_PROG", off := 0x128, s1 := 0x0, n1 := 1, s2 := 0x0, n2 := 1, fields := [⟨31, 31, .w1s, 0x0⟩, ⟨6, 0, .rw, 0x0⟩] },
  { name := "LCS_ACCESS", off := 0x12C, s1 := 0x0, n1 := 1, s2 := 0x0, n2 := 1, fields := [⟨3, 3, .rov, 0x0⟩, ⟨2, 2, .rov, 0x0⟩, ⟨1, 1, .rov, 0x0⟩, ⟨0, 0, .rov, 0x0⟩] },
  { name := "LCS_TOKEN", off := 0x200, s1 := 0x4, n1 := 64, s2 := 0x0, n2 := 1, fields := [⟨31, 0, .wo, 0x0⟩] },
  { name := "LCS_KEY_HASH", off := 0x300, s1 := 0x4, n1 := 12, s2 := 0x0, n2 := 1, fields := [⟨31, 0, .wo, 0x0⟩] }]

def cardsDEV0 : List RegCard := [
  { name := "DEV_PART", off := 0x100, s1 := 0x0, n1 := 1, s2 := 0x0, n2 := 1, fields := [⟨7, 0, .ro, 0xA1⟩, ⟨31, 16, .ro, 0x0⟩, ⟨15, 8, .ro, 0x0⟩] },
  { name := "DEV_PRESENT", off := 0x104, s1 := 0x0, n1 := 1, s2 := 0x0, n2 := 1, fields := [⟨23, 16, .ro, 0x0⟩, ⟨8, 0, .ro, 0x0⟩] },
  { name := "DEV_SCRATCH", off := 0x108, s1 := 0x0, n1 := 1, s2 := 0x0, n2 := 1, fields := [⟨31, 0, .rw, 0x0⟩] },
  { name := "DEV_IO_CFG", off := 0x10C, s1 := 0x0, n1 := 1, s2 := 0x0, n2 := 1, fields := [⟨3, 2, .rw, 0x1⟩, ⟨1, 0, .rw, 0x1⟩] },
  { name := "DEV_GPIO_OUT", off := 0x110, s1 := 0x0, n1 := 1, s2 := 0x0, n2 := 1, fields := [⟨31, 0, .rw, 0x0⟩] },
  { name := "DEV_GPIO_OE", off := 0x114, s1 := 0x0, n1 := 1, s2 := 0x0, n2 := 1, fields := [⟨31, 0, .rw, 0x0⟩] },
  { name := "DEV_GPIO_IN", off := 0x118, s1 := 0x0, n1 := 1, s2 := 0x0, n2 := 1, fields := [⟨31, 0, .rov, 0x0⟩] },
  { name := "DEV_GPIO_EDGE", off := 0x11C, s1 := 0x0, n1 := 1, s2 := 0x0, n2 := 1, fields := [⟨31, 0, .w1c, 0x0⟩] },
  { name := "DEV_GPIO_RISE_EN", off := 0x120, s1 := 0x0, n1 := 1, s2 := 0x0, n2 := 1, fields := [⟨31, 0, .rw, 0x0⟩] },
  { name := "DEV_GPIO_FALL_EN", off := 0x124, s1 := 0x0, n1 := 1, s2 := 0x0, n2 := 1, fields := [⟨31, 0, .rw, 0x0⟩] },
  { name := "DEV_ON", off := 0x400, s1 := 0x4, n1 := 32, s2 := 0x0, n2 := 1, fields := [⟨31, 0, .rov, 0x0⟩] }]

/-- The cards of sub-page `sub` of a block. -/
def cardsOf : Blk → Nat → List RegCard
  | .lnk, 0 => cardsLNK0
  | .lnk, 1 => cardsLNK1
  | .lnk, 2 => cardsLNK2
  | .lnk, 3 => cardsLNK3
  | .doc, 0 => cardsDOC0
  | .cat, 0 => cardsCAT0
  | .lpm, 0 => cardsLPM0
  | .vit, 0 => cardsVIT0
  | .prv, 0 => cardsPRV0
  | .edt, 0 => cardsEDT0
  | .hal, 0 => cardsHAL0
  | .hal, 1 => cardsHAL1
  | .hal, 2 => cardsHAL2
  | .hal, 3 => cardsHAL3
  | .hal, 4 => cardsHAL4
  | .hal, 5 => cardsHAL5
  | .hal, 6 => cardsHAL6
  | .dpt, 0 => cardsDPT0
  | .arc, 0 => cardsARC0
  | .tmg, 0 => cardsTMG0
  | .tmg, 1 => cardsTMG1
  | .tmg, 2 => cardsTMG2
  | .tmg, 4 => cardsTMG4
  | .tmg, 5 => cardsTMG5
  | .tmg, 6 => cardsTMG6
  | .tmg, 3 => cardsTMG3
  | .tmg, 7 => cardsTMG7
  | .tmg, 8 => cardsTMG8
  | .tmg, 9 => cardsTMG9
  | .tsn, 0 => cardsTSN0
  | .tsn, 1 => cardsTSN1
  | .tsn, 2 => cardsTSN2
  | .tsn, 3 => cardsTSN3
  | .vlt, 0 => cardsVLT0
  | .vlt, 1 => cardsVLT1
  | .vlt, 2 => cardsVLT2
  | .cur, 0 => cardsCUR0
  | .hif, 0 => cardsHIF0
  | .hif, 1 => cardsHIF1
  | .hif, 2 => cardsHIF2
  | .hif, 3 => cardsHIF3
  | .hif, 4 => cardsHIF4
  | .hif, 6 => cardsHIF6
  | .anx, 0 => cardsANX0
  | .ldg, 0 => cardsLDG0
  | .csv, 0 => cardsCSV0
  | .rgr, 0 => cardsRGR0
  | .gal, 0 => cardsGAL0
  | .pwr, 0 => cardsPWR0
  | .lcs, 0 => cardsLCS0
  | .dev, 0 => cardsDEV0
  | _, _ => []

/-- A bank of 64-bit counters, each a _LO/_HI pair 8 bytes apart (R13 and the owning chapters). -/
structure CtrBank where
  off : Nat
  stride : Nat
  count : Nat
  kinds : Nat
  deriving DecidableEq, Repr

/-- The counter banks of sub-page `sub` of a block. -/
def banksOf : Blk → Nat → List CtrBank
  | .doc, 0 => [⟨0x200, 0x0, 1, 8⟩]
  | .cat, 0 => [⟨0x200, 0x0, 1, 16⟩]
  | .lpm, 0 => [⟨0x200, 0x0, 1, 16⟩]
  | .vit, 0 => [⟨0x200, 0x0, 1, 16⟩]
  | .prv, 0 => [⟨0x200, 0x0, 1, 16⟩]
  | .edt, 0 => [⟨0x200, 0x0, 1, 16⟩]
  | .hal, 7 => [⟨0x100, 0x0, 1, 16⟩]
  | .dpt, 0 => [⟨0x200, 0x0, 1, 16⟩, ⟨0x500, 0x0, 1, 8⟩]
  | .arc, 0 => [⟨0x200, 0x0, 1, 4⟩]
  | .tmg, 0 => [⟨0x200, 0x0, 1, 16⟩]
  | .tsn, 0 => [⟨0x200, 0x0, 1, 16⟩]
  | .vlt, 0 => [⟨0x200, 0x0, 1, 16⟩]
  | .cur, 0 => [⟨0x200, 0x0, 1, 8⟩]
  | .hif, 0 => [⟨0x200, 0x0, 1, 16⟩]
  | .anx, 0 => [⟨0x200, 0x0, 1, 8⟩]
  | .csv, 0 => [⟨0x200, 0x0, 1, 16⟩]
  | .rgr, 0 => [⟨0x200, 0x0, 1, 8⟩]
  | .pwr, 0 => [⟨0x300, 0x0, 1, 8⟩]
  | .lnk, 4 => [⟨0x100, 0x100, 64, 15⟩, ⟨0x8000, 0x100, 64, 18⟩]
  | .ldg, 0 => [⟨0x400, 0x0, 1, 64⟩]
  | _, _ => []

/-- The common header's cards of a page (R682): offset, fields. ID, VERSION, CTRL and STATE are computed by the reader
where they depend on the page. -/
def headerCards : List RegCard := [
  { name := "ID", off := 0x0, s1 := 0, n1 := 1, s2 := 0, n2 := 1, fields := [⟨31, 16, .ro, 0⟩, ⟨15, 8, .ro, 0⟩, ⟨7, 0, .ro, 0⟩] },
  { name := "VERSION", off := 0x4, s1 := 0, n1 := 1, s2 := 0, n2 := 1, fields := [⟨15, 8, .ro, 1⟩, ⟨7, 0, .ro, 1⟩] },
  { name := "CTRL", off := 0x8, s1 := 0, n1 := 1, s2 := 0, n2 := 1, fields := [⟨2, 2, .rw, 0⟩, ⟨1, 1, .w1s, 0⟩, ⟨0, 0, .rw, 0⟩] },
  { name := "STATE", off := 0xC, s1 := 0, n1 := 1, s2 := 0, n2 := 1, fields := [⟨8, 8, .rov, 0⟩, ⟨2, 0, .rov, 0⟩] },
  { name := "INT_STAT", off := 0x10, s1 := 0, n1 := 1, s2 := 0, n2 := 1, fields := [⟨31, 0, .w1c, 0⟩] },
  { name := "INT_EN", off := 0x14, s1 := 0, n1 := 1, s2 := 0, n2 := 1, fields := [⟨31, 0, .rw, 0⟩] },
  { name := "INT_SET", off := 0x18, s1 := 0, n1 := 1, s2 := 0, n2 := 1, fields := [⟨31, 0, .w1s, 0⟩] },
  { name := "FENCE", off := 0x1C, s1 := 0, n1 := 1, s2 := 0, n2 := 1, fields := [⟨31, 31, .rov, 0x0⟩, ⟨13, 8, .rov, 0x0⟩, ⟨2, 2, .rov, 0x0⟩, ⟨1, 1, .w1s, 0x0⟩, ⟨0, 0, .w1s, 0x0⟩] },
  { name := "ERR_CAUSE", off := 0x20, s1 := 0, n1 := 1, s2 := 0, n2 := 1, fields := [⟨31, 24, .rov, 0⟩, ⟨23, 16, .rov, 0⟩, ⟨15, 0, .rov, 0⟩] },
  { name := "ERR_ADDR_LO", off := 0x24, s1 := 0, n1 := 1, s2 := 0, n2 := 1, fields := [⟨31, 0, .rov, 0⟩] },
  { name := "ERR_ADDR_HI", off := 0x28, s1 := 0, n1 := 1, s2 := 0, n2 := 1, fields := [⟨31, 0, .rov, 0⟩] },
  { name := "CE_BUCKET", off := 0x2C, s1 := 0, n1 := 1, s2 := 0, n2 := 1, fields := [⟨31, 20, .rov, 0⟩, ⟨19, 8, .rw, 0x40⟩, ⟨7, 0, .rw, 0xA⟩] },
  { name := "CE_COUNT", off := 0x30, s1 := 0, n1 := 1, s2 := 0, n2 := 1, fields := [⟨31, 0, .rov, 0⟩] },
  { name := "MSG_CFG", off := 0x34, s1 := 0, n1 := 1, s2 := 0, n2 := 1, fields := [⟨31, 31, .rw, 0x1⟩, ⟨30, 30, .rw, 0x0⟩] }]

end Sys2Proof.Machine
end

