-- ==== Sys2Proof/Machine/Pages.lean ====
section
/-!
DEFINITION. Pages: which block owns a page (R693), where its CTRL, STATE and FENCE live, its start tier (R37), and what
every register reads at reset (R17, R687).
-/
namespace Sys2Proof.Machine

/-- Galleries present under an order code (R1, R2): G6 and G7 are fused off in the MP-0768X-A1. -/
def galPresent (part : OrderCode) (g : Nat) : Bool := g < 6 || g = 8 || (g < 8 && part != .x0768)

/-- Lane chiplets present under an order code (R2). -/
def lnkPresent (part : OrderCode) (k : Nat) : Bool := k < 6 || (k < 8 && part != .x0768)

/-- Block, sub-page and instance of a page (R693); `none` on a reserved or fused page (R4). -/
def pageBlk (part : OrderCode) (p : Nat) : Option (Blk × Nat × Nat) :=
  if p = 0 then some (.dev, 0, 0) else if p = 1 then some (.pwr, 0, 0) else if p = 2 then some (.lcs, 0, 0)
  else if p = 3 then some (.cur, 0, 0) else if p = 4 then some (.rgr, 0, 0)
  else if 8 ≤ p ∧ p < 0x10 then (if p = 0xD ∨ p = 0xF then none else some (.hif, p - 8, 0))
  else if p = 0x10 then some (.anx, 0, 0)
  else if 0x40 ≤ p ∧ p < 0x80 then
    (if (p - 0x40) % 8 < 5 && lnkPresent part ((p - 0x40) / 8) then some (.lnk, (p - 0x40) % 8, (p - 0x40) / 8) else none)
  else if 0x100 ≤ p ∧ p < 0x190 then
    (if galPresent part ((p - 0x100) / 16) then
      match p % 16 with
      | 0 => some (.doc, 0, (p - 0x100) / 16)
      | 1 => some (.edt, 0, (p - 0x100) / 16)
      | 2 => some (.gal, 0, (p - 0x100) / 16)
      | _ => none
     else none)
  else if 0x200 ≤ p ∧ p < 0x220 then
    (match p % 16 with
      | 0 => some (.cat, 0, (p - 0x200) / 16)
      | 1 => some (.lpm, 0, (p - 0x200) / 16)
      | 2 => some (.vit, 0, (p - 0x200) / 16)
      | 3 => some (.prv, 0, (p - 0x200) / 16)
      | _ => none)
  else if 0x240 ≤ p ∧ p < 0x248 then some (.hal, p - 0x240, 0)
  else if p = 0x248 then some (.dpt, 0, 0) else if p = 0x249 then some (.arc, 0, 0)
  else if 0x250 ≤ p ∧ p < 0x25A then some (.tmg, p - 0x250, 0)
  else if 0x260 ≤ p ∧ p < 0x264 then some (.tsn, p - 0x260, 0)
  else if 0x280 ≤ p ∧ p < 0x283 then some (.vlt, p - 0x280, 0)
  else if 0x2A0 ≤ p ∧ p < 0x2B0 then some (.ldg, 0, p - 0x2A0)
  else if p = 0x2B0 then some (.csv, 0, 0)
  else if 0x3C0 ≤ p ∧ p < 0x400 then some (.test, p - 0x3C0, 0)
  else none

/-- Block code of the page map (R693). -/
def blkCode : Blk → Nat
  | .dev => 1 | .pwr => 2 | .lcs => 3 | .cur => 4 | .rgr => 5 | .hif => 0x10 | .anx => 0x11 | .lnk => 0x20
  | .doc => 0x30 | .edt => 0x31 | .gal => 0x32 | .cat => 0x40 | .lpm => 0x41 | .vit => 0x42 | .prv => 0x43
  | .hal => 0x50 | .dpt => 0x51 | .arc => 0x52 | .tmg => 0x53 | .tsn => 0x54 | .vlt => 0x60 | .ldg => 0x70
  | .csv => 0x71 | .test => 0xF0

/-- Start tier of a block (chapter 01, the tier table of R37). -/
def blkTier : Blk → Nat
  | .pwr | .lcs | .rgr => 0
  | .dev | .cur | .hif => 1
  | .lnk | .hal | .dpt | .vlt | .ldg => 2
  | .prv | .cat | .lpm | .vit | .tmg | .tsn => 3
  | .gal | .doc | .edt | .arc | .anx | .csv | .test => 4

/-- Blocks whose sub-pages mirror CTRL, STATE and FENCE of sub-page 0 (R693). -/
def mirrors : Blk → Bool
  | .hif | .lnk | .hal | .tmg | .tsn | .vlt => true
  | _ => false

/-- The page that holds the CTRL, STATE and FENCE of page `p`. -/
def home (p : Nat) : Nat :=
  if 8 ≤ p ∧ p < 0x10 then 8
  else if 0x40 ≤ p ∧ p < 0x80 then p - p % 8
  else if 0x240 ≤ p ∧ p < 0x248 then 0x240
  else if 0x250 ≤ p ∧ p < 0x260 then 0x250
  else if 0x260 ≤ p ∧ p < 0x270 then 0x260
  else if 0x280 ≤ p ∧ p < 0x290 then 0x280
  else p

/-- The always-on pages PWR, LCS and RGR (R17, R648). -/
def alwaysOn (p : Nat) : Bool := p = 1 || p = 2 || p = 4

/-- The card that holds offset `x`, with the register's two indices. -/
def cardAt (cs : List RegCard) (x : Nat) : Option (RegCard × Nat × Nat) :=
  match cs with
  | [] => none
  | c :: r =>
    let d := x - c.off
    let i := if c.s1 = 0 then 0 else d / c.s1
    let e := d - i * c.s1
    let j := if c.s2 = 0 then 0 else e / c.s2
    if c.off ≤ x ∧ i < c.n1 ∧ j < c.n2 ∧ d = i * c.s1 + j * c.s2 then some (c, i, j) else cardAt r x

/-- The card of offset `x` of page `p`: the common header below 0x100, else the block's own card; LDG_USER_CFG and what follows
it are reserved on Ledger pages other than 0x2A0 (R576). -/
def cardOfReg (part : OrderCode) (p x : Nat) : Option (RegCard × Nat × Nat) :=
  match pageBlk part p with
  | none => none
  | some (b, sub, i) =>
    if x < 0x100 then cardAt headerCards x
    else if b = .ldg ∧ i ≠ 0 ∧ 0x610 ≤ x then none
    else cardAt (cardsOf b sub) x

/-- Reset value of a card's register (the Reset column). -/
def cardReset (c : RegCard) (i j : Nat) : Nat := c.fields.foldl (fun a f => a + f.reset * 2 ^ f.lo) 0 + c.extra i j

/-- What register offset `x` of page `p` reads at reset (R17). The tier-0 blocks are STARTING with CTRL.enable reading 1
on release of PORESET_N (R687); ID and the part words follow the order code. -/
def regReset (part : OrderCode) (a : Nat) : W32 :=
  let p := a / 0x10000
  let x := a % 0x10000
  match pageBlk part p with
  | none => 0
  | some (b, sub, inst) =>
    if x = 0 then w32 (blkCode b * 65536 + sub * 256 + inst)
    else if x = 8 ∧ alwaysOn p then 1
    else if x = 0xC ∧ alwaysOn p then 1
    else if b = .dev ∧ x = 0x100 then
      w32 ((if part = .x0768 then 0x0768 else 0x1024) * 65536 + (if part = .c1024 then 0x43 else 0x58) * 256 + 0xA1)
    else if b = .dev ∧ x = 0x104 then (if part = .x0768 then 0x003F013F else 0x00FF01FF)
    else match cardOfReg part p x with
      | none => 0
      | some (c, i, j) => w32 (cardReset c i j)

/-- Write of a host's `new` over the stored `old` by a card's access codes (R14, R15). -/
def cardWrite (c : RegCard) (rwlOpen : Bool) (old new : W32) : W32 :=
  c.fields.foldl (fun a f =>
    match f.acc with
    | .rw => setFld a f.hi f.lo (fld new f.hi f.lo)
    | .rwl => if rwlOpen then setFld a f.hi f.lo (fld new f.hi f.lo) else a
    | .w1c => setFld a f.hi f.lo (fld (a &&& ~~~ new) f.hi f.lo)
    | .ro | .rov | .w1s | .wo => a) old

/-- What a host reads of a stored word by a card's access codes (R14, R15): zero outside the fields and in W1S and WO
fields. -/
def cardRead (c : RegCard) (w : W32) : W32 :=
  c.fields.foldl (fun a f =>
    match f.acc with
    | .w1s | .wo => a
    | .rw | .ro | .rov | .w1c | .rwl => setFld a f.hi f.lo (fld w f.hi f.lo)) 0

end Sys2Proof.Machine
end

