-- ==== Sys2Proof/Machine/State.lean ====
section
/-!
DEFINITION. The state of the engine as plain data, block by block, and the state right after release of PORESET_N.
-/
namespace Sys2Proof.Machine

/-- Reasons a step can stop with a fault. The engine has none: every command of the table has an effect (a bad access
is recorded in a register, never a stop), so no constructor exists and no fault can be answered. -/
inductive Fault where
  deriving DecidableEq, Repr

/-- Reasons a step can refuse a command. -/
inductive Refusal where
  /-- Raised by `exec`'s arm of a command that has no meaning yet. Safe: the machine stops and nothing is claimed. -/
  | notModelled (mnemonic : String)
  deriving DecidableEq, Repr

/-- Write state of an ECC word (R582). -/
inductive WState where
  | never | good | poisoned
  deriving DecidableEq, Repr

/-- ECC side data of one word: its write state, which of its first eight symbols are in error (bit n: symbol n), and whether
an injection put them there (R63, CSV_INJ_CMD). -/
structure Ecc where
  st : WState
  errs : Nat
  inj : Bool
  deriving DecidableEq, Repr

/-- A narrow write waiting in a merge buffer (R585): the table address of its first word and the words. -/
structure Merge where
  addr : Nat
  words : List W32
  deriving DecidableEq, Repr

/-- The table address space (R500): 32-bit words by table address, the ECC word state by ECC word address, and the
merge buffers' pending merges, oldest first. -/
structure Tab where
  words : List (Nat × W32)
  ecc : List (Nat × Ecc)
  merges : List Merge
  deriving DecidableEq, Repr

/-- An event offered to the Ledger (R559): source group, instance, code and how many. -/
structure LdgEvent where
  group : Nat
  inst : Nat
  code : Nat
  n : Nat
  deriving DecidableEq, Repr

/-- A coded message a source holds for the Registrar (R608, R610), with the inj mark of R63. -/
structure Msg where
  source : Nat
  kind : Nat
  addr : Nat
  seq : Nat
  inj : Bool
  deriving DecidableEq, Repr

/-- The register file and what hangs on it: register words by BAR0 offset, 64-bit counters by the offset of their _LO,
latched words by register offset, the data of the last read, Ledger events not yet added, coded messages waiting at their
sources, the next sequence number of each source, messages sent on each MSI-X vector, the number of free values drawn, Ledger
wraps not yet processed by counter 64 * group + n (R563), one more than the clock of the last event of a kind raised by
`raiseFirst`, by 32 * page + bit, and frames dropped by a forwarding result against their input port (R127, R156, R197, R198). -/
structure Bus where
  regs : List (Nat × W32)
  ctr : List (Nat × Nat)
  latch : List (Nat × Option W32)
  readData : BitVec 64
  ldgQ : List LdgEvent
  msgQ : List Msg
  seqs : List (Nat × Nat)
  msiSent : List (Nat × Nat)
  free : Nat
  wraps : List (Nat × Nat)
  evAt : List (Nat × Nat)
  portDrop : List (Nat × Nat)
  deriving DecidableEq, Repr


/-- The time counter (R418-R421) and the clock: core clocks since reset, the elapsed count E in units of
1 / 204 800 000 000 ns (so that a tick of R419 adds a whole number of them), and the step offset D in quarter-nanoseconds. -/
structure Clock where
  clock : Nat
  e : Nat
  d : Int
  deriving DecidableEq, Repr

/-- A difference that awaits its re-check (R598): table t of R596 and record index. -/
structure Recheck where
  table : Nat
  index : Nat
  deriving DecidableEq, Repr

/-- Conservator: pages whose storm has been reported and whose level has not fallen to half since (R589), words queued for
write-back (R580): ECC words by table address, Hall cells at 2^32 + cell; and differences awaiting their re-check. -/
structure CsvSt where
  stormed : List Nat
  backQ : List Nat
  rechecks : List Recheck
  deriving DecidableEq, Repr

/-- A lane's adaptation coefficients, the coefficients saved at the start of a retune, whether it is restoring from
HOLD (R94, R96), and the reading of its chiplet's temperature sensor at its last tune (R485). The coefficients themselves are
analogue; a number stands for a set of them. -/
structure LaneSt where
  coef : Nat
  saved : Nat
  restoring : Bool
  temp : Nat
  deriving DecidableEq, Repr

/-- An egress timestamp capture: time in quarter-nanoseconds of E + D, chiplet-local first lane, PTP sequence identifier
(R83). -/
structure TsCap where
  q : Nat
  lane : Nat
  seqId : Nat
  deriving DecidableEq, Repr

/-- Where a frame is. -/
inductive Stage where
  /-- In a hold buffer, or waiting for dispatch on a recirculation or service port. -/
  | hold
  /-- On a Docent core. -/
  | core
  /-- Parse ended, in the reorder ring. -/
  | ring
  /-- Released to the lookups and ingress resolution. -/
  | lookup
  /-- In the Hall or the Vault: its copies wait in queues. -/
  | hall
  deriving DecidableEq, Repr

/-- A forwarding result resolved to a destination: nothing, drop with its reason of R372, a punt to a queue of port 512 with
its reason of R527 (0 where the source of the result gives it), an output port, a next hop
with its port and template, or a replication list (with the next hop of kind MCAST that named it). -/
inductive Fwd where
  | none
  | drop (reason : Nat)
  | punt (queue reason : Nat)
  | port (p : Nat)
  | nextHop (nh p template : Nat)
  | list (l : Nat) (nh : Option Nat)
  deriving DecidableEq, Repr


/-- A pending learn: the key's 20 bytes and the learned result (R160). -/
structure Learn where
  key : List Byte
  result : BitVec 64
  deriving DecidableEq, Repr

/-- Outcome of a Catalogue lookup of a frame (R152, R155, R156). -/
inductive CatRes where
  | hit (index : Nat) (result : BitVec 64)
  | miss
  deriving DecidableEq, Repr

/-- Outcome of a route lookup: no lookup made, a result, or the miss of a profile (R191, R197, R198). `prof` is the
profile under which it ran, `seed` that of the group it resolved. -/
inductive RouteRes where
  | notMade
  | found (prof : Nat) (fwd : Fwd) (seed : Option Nat)
  | missed (prof : Nat)
  deriving DecidableEq, Repr

/-- Outcome of a Vitrine search (R227, R250). -/
inductive VitRes where
  | hit (bank row : Nat) (action : BitVec 64)
  | miss
  | bankFailed
  deriving DecidableEq, Repr

/-- The area of the Hall that a frame's cells are charged to (chapter 10, Accounting areas). -/
inductive Area where
  | none
  | queue (q : Nat)
  | port (p : Nat)
  | pool (k : Nat) (q : Option Nat)
  | headroom (p : Nat)
  deriving DecidableEq, Repr

/-- A frame inside the engine. `port` is its input port, `ts` its ingress timestamp in quarter-nanoseconds of E + D,
`seq` its place in dispatch order, `fv` and `ofs` the field vector and the valid header offsets, `exc` the exception code
of its parse; then the outcomes of its lookups, its pending learn, and the flow records it has been counted in. Once in the
Hall: its cells in chain order, its descriptor cells and the pool they are charged to, the cells tested, those still charged and the area charged (R334, R335), its ingress
priority (R333), the next copy index (R325), whether its last cell is written, whether its drain event has happened
(R280), its arrival stamp in microseconds (R348), colour (0 green, 1 yellow, 2 red), CE flag, flow hash, remarks, and the
recovery function and sequence number it passed (R440). `total` is the length it will have when its last byte has come, and `cfg`
holds the stored words of the lookup blocks' register pages, by page number, as they stood when its lookups in that block began
(R184, R257). `direct` is the output port and queue of a direct inject (R529, R549). -/
structure Frame where
  id : Nat
  port : Nat
  bytes : List Byte
  whole : Bool
  bad : Bool
  ts : Nat
  stage : Stage
  gal : Nat
  seq : Nat
  epoch : Nat
  defAct : Bool
  fv : List (Nat × Nat)
  ofs : List (Nat × Nat)
  exc : Nat
  catA : Option CatRes
  catB : Option CatRes
  route : Option RouteRes
  vit : List (Nat × VitRes)
  learn : List Learn
  staticDrop : Bool
  counted : List Nat
  cells : List Nat
  desc : List Nat
  descPool : Nat
  tested : Nat
  charge : Nat
  area : Area
  pri : Nat
  nextHolder : Nat
  lastDone : Bool
  drained : Bool
  stampUs : Nat
  colour : Nat
  ce : Bool
  flowHash : Nat
  dscp : Option Nat
  pcp : Option Nat
  srf : Option (Nat × Nat)
  total : Nat
  cfg : List (Nat × List (Nat × W32))
  direct : Option (Nat × Nat)
  deriving DecidableEq, Repr

/-- A Docent core with a frame (R105): program counter, cursor, parse state S, general registers, field vector, valid
offsets, parse-status flags and parse cycles so far; the core clock in which its parse began, the clock in which the match-table
copy serves the MATCH that it stands at (R119), and whether the pressure cut has caught it (R122). -/
structure CoreSt where
  frame : Nat
  pc : Nat
  cursor : Nat
  s : Nat
  g : List (Nat × W32)
  fv : List (Nat × Nat)
  ofs : List (Nat × Nat)
  overread : Bool
  matchMiss : Bool
  ckBad : Bool
  cycles : Nat
  start : Nat
  search : Option Nat
  cut : Bool
  deriving DecidableEq, Repr

/-- Docent: cores holding a frame by 168 * gallery + core; the last port served by each gallery's dispatch arbiter (R46);
galleries whose hold-buffer condition of R122 held when last judged (R123); sum and count of the parse lengths of the
running window (DOC_CYC_STAT), by gallery; by match-table copy, 8 * gallery + copy, the clocks of the searches it serves and the last
core it served (R119). -/
structure DocSt where
  cores : List (Nat × Option CoreSt)
  rr : List (Nat × Nat)
  pressed : List Nat
  cycSum : List (Nat × Nat)
  cycCnt : List (Nat × Nat)
  searches : List (Nat × List Nat)
  served : List (Nat × Nat)
  deriving DecidableEq, Repr


/-- A table command taken from a submission ring: the ring, the first entry's opcode and tag, the payload of R270, the number
of entries, whether its chain was malformed (R510), and whether a reset of the host interface has left it without a completion (R499). -/
structure Cmd where
  ring : Nat
  op : Nat
  tag : Nat
  payload : List Byte
  entries : Nat
  bad : Bool
  orphan : Bool
  deriving DecidableEq, Repr

/-- A DMA job (R516): its ring, op, irq, tag, source, destination and length, and whether its entry was malformed. -/
structure Dma where
  ring : Nat
  op : Nat
  irq : Bool
  tag : Nat
  src : Nat
  dst : Nat
  len : Nat
  bad : Bool
  deriving DecidableEq, Repr

/-- An inject job (R529). -/
structure Inject where
  ring : Nat
  direct : Bool
  irq : Bool
  tag : Nat
  addr : Nat
  len : Nat
  queue : Nat
  port : Nat
  bad : Bool
  deriving DecidableEq, Repr

/-- A job taken from a submission ring and not yet given to its executor or channel. -/
inductive Job where
  | table (c : Cmd)
  | dma (d : Dma)
  | inject (j : Inject)
  deriving DecidableEq, Repr

/-- A DMA job that has run: its status, the bytes moved, the address at which it failed, and whether the last bytes written to
host memory are still to be read back (R519, R520). -/
structure DmaRun where
  job : Dma
  status : Nat
  bytes : Nat
  addr : Nat
  readBack : Bool
  deriving DecidableEq, Repr

/-- A completion entry that waits for room in its ring or for memory requests to be allowed (R513, R533): who waits with it
(executor e, or 16 + DMA channel, or 32 + inject ring), the submission ring, the words of the entry, and whether it counts
towards moderation (R530). -/
structure Cpl where
  owner : Nat
  ring : Nat
  words : List W32
  counts : Bool
  deriving DecidableEq, Repr

/-- A FIND's completion, which waits for its record to be written to host memory (R273): the record and where it goes. -/
structure FindOut where
  cpl : Cpl
  addr : Nat
  bytes : List Byte
  deriving DecidableEq, Repr

/-- A fetched receive buffer (R526). -/
structure Buf where
  tag : Nat
  addr : Nat
  len : Nat
  deriving DecidableEq, Repr

/-- The host interface: submission rings being scanned, those of them whose scan has taken an entry, and those with a
latched doorbell (R507, R508); open chains; rings skipping the rest of a malformed job (R510); the job each ring has ready; the
last ring each DMA channel served (R515); jobs that have run, by channel; completions waiting for room and completions held
(R513, R533); pending counts and running timers of moderation by ring, event ring r at 32 + r (R530); fetched buffers by event
ring; bytes delivered of a punted frame, by copy (R527); FINDs whose record waits for a memory request; PME_En, PME_Status and the PM_PME messages sent (R533); host
memory as far as the engine has written it; and copies of port 512 that a reset keeps queued until their rings are enabled again (R499). -/
structure HifSt where
  scan : List Nat
  took : List Nat
  again : List Nat
  chains : List (Nat × Option Cmd)
  skip : List Nat
  ready : List (Nat × Option Job)
  chanRr : List (Nat × Nat)
  runs : List (Nat × Option DmaRun)
  waiting : List Cpl
  held : List Cpl
  irqCnt : List (Nat × Nat)
  irqTimer : List Nat
  bufs : List (Nat × List Buf)
  punt : List (Nat × Nat)
  finds : List FindOut
  pmeEn : Bool
  pmeStatus : Bool
  pmeSent : Nat
  mem : List (Nat × Option Byte)
  kept : List Nat
  deriving DecidableEq, Repr

/-- A marked chunk (R266): table 0 CAT, 1 prefixes, 2 next hops, 3 groups, 4 VIT, 5 templates; replica; chunk; epoch. -/
structure Mark where
  table : Nat
  wing : Nat
  chunk : Nat
  epoch : Nat
  deriving DecidableEq, Repr

/-- Provenance: current epoch C and oldest live epoch O (R258), drain counts by epoch (R279), the marked chunks, commands handed to each executor,
oldest first (R719: 0 CAT, 1 LPM, 2 VIT, 3 EDT, 4 Provenance), the last ring the dispatcher took from (R268), and a command
taken that waits for room in its executor's queue (R719). -/
structure PrvSt where
  c : Nat
  o : Nat
  drain : List (Nat × Nat)
  marks : List Mark
  exq : List (Nat × List Cmd)
  rr : Nat
  held : Option Cmd
  deriving DecidableEq, Repr

/-- Catalogue: learn queues and pending-key filters by wing (R164), the learn waiting for its retry by wing (R177), overflow
keys cleared to match nothing by 8192 * wing + k (R158, R595), and wings whose queue or filter was full when last judged
(R181). -/
structure CatSt where
  learnQ : List (Nat × List Learn)
  filter : List (Nat × List (List Byte))
  retry : List (Nat × Option Learn)
  cleared : List Nat
  qWasFull : List Nat
  deriving DecidableEq, Repr

/-- A prefix version of the route structure (R194): family (0 IPv4, 1 IPv6), VRF, length, address bits left-aligned in 32
or 128 bits, result, the version fields of R142, and its number in the version store, by which its chunk is marked (R266). -/
structure Route where
  fam : Nat
  vrf : Nat
  len : Nat
  addr : Nat
  result : BitVec 64
  birth : Nat
  death : Nat
  mortal : Bool
  settled : Bool
  slot : Nat
  deriving DecidableEq, Repr

/-- Route lookup: the prefix versions of both replicas (their structure has no host-visible format, R188). -/
structure LpmSt where
  routes : List Route
  deriving DecidableEq, Repr

/-- A move of a Vitrine block in progress (R243): its command, chain, width, the position asked for, the free position q, the
current target, and whether a step has copied its entry, so that source and target hold it both (R245). -/
structure Move where
  cmd : Cmd
  head : Nat
  width : Nat
  pos : Nat
  q : Nat
  target : Nat
  twin : Bool
  deriving DecidableEq, Repr

/-- Vitrine, by wing: rows cleared to match nothing (4096 * bank + row, plus 65536 * wing) (R255, R595); the logical bank
whose takeover copy is running; failed banks with no spare, 16 * wing + bank (R252); policer token fractions in 1/32000 byte
parts by 2 * (65536 * wing + policer) (+ 1 for the second bucket) (R238); rows found differing in the last comparison pass, by
16 * wing + bank (R249); and the running move. -/
structure VitSt where
  cleared : List Nat
  taking : List (Nat × Option Nat)
  failed : List Nat
  frac : List (Nat × Nat)
  differ : List (Nat × Nat)
  move : Option Move
  deriving DecidableEq, Repr


/-- A frame that is still arriving on a port (R73, R86): the bytes received, the frame inside the engine that they belong
to (none when the hold buffer refused it or the engine has dropped it), and what the outcome of its FCS check decides for
a frame that has left: its pending learns (R54), its recovery function and sequence number (R440) and the flow records that
wait for its length (R567); and the length it will have. -/
structure RxOpen where
  bytes : List Byte
  frame : Option Nat
  learn : List Learn
  srf : Option (Nat × Nat)
  counted : List Nat
  len : Nat
  deriving DecidableEq, Repr

/-- Lane chiplets: lanes by global number; timestamp FIFOs by chiplet; successive failed retries by 2k + (1 for the
standby link) (R90); frames still arriving by port; pause and PFC frames the Depot has requested, oldest first, as port,
priority (8 for 802.3 pause) and quanta (R77, R343); the bytes each network port last sent, with their FCS, good or inverted
(R54). -/
structure LnkSt where
  lanes : List (Nat × LaneSt)
  fifo : List (Nat × List TsCap)
  fails : List (Nat × Nat)
  rx : List (Nat × Option RxOpen)
  pauseReq : List (Nat × Nat × Nat)
  txLast : List (Nat × List Byte)
  deriving DecidableEq, Repr

/-- What a copy is for (R289). -/
inductive CopyKind where
  | forwarded | mirror | punt | recirc
  deriving DecidableEq, Repr

/-- Segment of a queue a queued copy is in (chapter 14, Vault mode): the part the scheduler serves, the Middle, or the
Tail. Outside vault mode every copy is in the Head. -/
inductive Seg where
  | head | middle | tail
  deriving DecidableEq, Repr

/-- Progress of a copy: queued, selected by the traffic manager, edited, or in transmission. -/
inductive CStage where
  | queued | selected | edited | sending
  deriving DecidableEq, Repr

/-- PTP mark of an edited copy (R82, R83): the position of the message, one-step or two-step, and the position of the L3 header
where the edited frame has one. -/
structure PtpMark where
  pos : Nat
  oneStep : Bool
  l3 : Option Nat
  deriving DecidableEq, Repr

/-- An edited copy: the bytes (without FCS) up to where the frame continues unchanged, the stored byte from which it
continues, and the PTP mark. -/
structure Edited where
  pre : List Byte
  cont : Nat
  mark : Option PtpMark
  deriving DecidableEq, Repr

/-- A copy of a frame: a holder of its cells with the copy record of R318 and R289. `plain` copies take no edit (punts and
default-action forwards, R298); `trunc` bytes of a mirror copy are sent (0: all, R368); `qCells` cells are charged to its
queue; `rdNext` cells have been read, and `rdWait` is set while its next read waits in its bank's queue; `vault` names the
Vault pool and pseudo-channel that hold it, and `buf` its buffer there; `spoiled` marks a copy to be stomped; `reason` is the punt reason of R527 and
`sess` the session of a mirror copy; `overrun` says that its passing the closing of its gate has been counted (R430). -/
structure Copy where
  id : Nat
  frame : Nat
  holder : Nat
  port : Nat
  queue : Nat
  kind : CopyKind
  plain : Bool
  nh : Option Nat
  template : Nat
  trunc : Nat
  qCells : Nat
  seg : Seg
  stage : CStage
  cut : Bool
  rdNext : Nat
  rdWait : Bool
  vault : Option (Nat × Nat)
  buf : Nat
  spoiled : Bool
  reason : Nat
  sess : Nat
  edit : Option Edited
  overrun : Bool
  deriving DecidableEq, Repr

/-- Depot side of a Hall cell (R318, R328): allocation bit, reference count, residual, quarantine, poison flag, and the
frame it belongs to. -/
structure CellSt where
  alloc : Bool
  count : Nat
  residual : Nat
  quar : Bool
  poison : Bool
  frame : Nat
  deriving DecidableEq, Repr

/-- Hall: cells by index; reads waiting on each logical bank, oldest enqueue first, as copy numbers (R320); the logical
bank whose takeover copy is running; banks declared failed; banks fenced with no spare (R322-R324); banks whose write port a cell has
taken in this clock (R32), and cells freed in it (R46). -/
structure HalSt where
  cells : List (Nat × CellSt)
  readQ : List (Nat × List Nat)
  taking : Option Nat
  failed : List Nat
  fenced : List Nat
  wrote : List Nat
  freed : List Nat
  deriving DecidableEq, Repr

/-- A cell handed to the chain walker: the holder that frees it, and the queue charged for it. -/
structure Walk where
  cell : Nat
  holder : Nat
  queue : Option Nat
  deriving DecidableEq, Repr

/-- Depot: cells handed to the walker, oldest first (R327); port reserve in use by output port; shared
cells by queue (R335); cells by pair 8 * input port + priority (R333); pools that put a pair in XOFF, as pair, pool and the
level that carried the reaction (R342); and each pool's level at the end of the previous clock (R335). -/
structure DptSt where
  walk : List Walk
  portUse : List (Nat × Nat)
  qShared : List (Nat × Nat)
  pair : List (Nat × Nat)
  xoffBy : List (Nat × Nat × Nat)
  level : List (Nat × Nat)
  deriving DecidableEq, Repr

/-- A shaper's bucket (R398): tokens in 1/32000 byte (so that both 1/256 byte and a nanosecond of any rate are whole), and
the E time in ns of its last update. -/
structure Bucket where
  t : Int
  last : Nat
  deriving DecidableEq, Repr

/-- Traffic manager. A node is numbered: queue q, group 8448 + g, port 10560 + i. Buckets by node; the calendar wheel's
entries as next eligible time in ns and node, in order of entry (R403); start and finish tags of queues and groups (R389);
virtual times by 8 * scheduler + priority, with the scheduler of group g numbered g and that of port i 2112 + i; queues and
groups eligible when last judged (R390); last port each gallery served (R394); received pause by port, bit p for PFC
priority p and bit 8 for 802.3 pause (R396); by recirculation port, the E time from which its pacing lets it start a frame, or at
which the frame it sends began (R72); and the E time in us at which the sampler's next round is due (R410). -/
structure TmgSt where
  buckets : List (Nat × Bucket)
  wheel : List (Nat × Nat)
  tagS : List (Nat × Nat)
  tagF : List (Nat × Nat)
  vt : List (Nat × Nat)
  elig : List Nat
  rr : List (Nat × Nat)
  paused : List (Nat × Nat)
  pace : List (Nat × Nat)
  sampDue : Nat
  deriving DecidableEq, Repr

/-- A gate configuration (chapter 13): first entry and length of its run, cycle in ns, base in ns. -/
structure Gcl where
  start : Nat
  len : Nat
  cycle : Nat
  base : Nat
  deriving DecidableEq, Repr

/-- TSN and time: operational and pending gate configurations by port, the pending one with its change time in ns (R426);
ports whose gates are all open until a time in ns because an entry could not be read (R442); last pass of each recovery
function in ns of E (R439); whether PTP_PPS_OUT is high and the end of its pulse in ns of E (R423). -/
structure TsnSt where
  oper : List (Nat × Option Gcl)
  pend : List (Nat × Option (Gcl × Nat))
  openTill : List (Nat × Nat)
  srfLast : List (Nat × Nat)
  ppsHigh : Bool
  ppsEnd : Nat
  deriving DecidableEq, Repr

/-- Vault: last pseudo-channel of each pool's rotation (R451); numbers of the buffers in use by 128 * pool + pseudo-channel; last
queues served by the spill writer and the return reader, and the E times from which their caps let them move the next bytes (R462);
by pseudo-channel the write queue, as codeword address and queue, the read queue, as codeword address and copy (R464, R467), and the
direction served, true for writes, with the bursts served since the turn (R465); open rows by 32 * pseudo-channel + bank, as one more
than the row; copies being spilled, with the codewords of each that have entered a write queue; copies being returned, with the
codewords of each that have entered a read queue and those asked for; activate tables by bank as row and count (R472); waiting
targeted refreshes by bank, each as its rows (R473); refreshes outstanding by bank (R468); next row a bank's refresh covers; successive
failed temperature reads by stack (R471); stacks in self-refresh (R477). -/
structure VltSt where
  rot : List (Nat × Nat)
  bufs : List (Nat × List Nat)
  lastWr : Nat
  lastRd : Nat
  wrAt : Nat
  rdAt : Nat
  wq : List (Nat × List (Nat × Nat))
  rq : List (Nat × List (Nat × Nat))
  turn : List (Nat × Bool × Nat)
  openRow : List (Nat × Nat)
  spilling : List (Nat × Nat)
  reads : List (Nat × Nat × Nat)
  acts : List (Nat × List (Nat × Nat))
  trq : List (Nat × List (List Nat))
  owed : List (Nat × Nat)
  refRow : List (Nat × Nat)
  tempFails : List (Nat × Nat)
  selfRef : Bool
  deriving DecidableEq, Repr

/-- A capture (R370, R371): ring, header bytes, ingress time in ns, input port, output port (1023: none) and queue of the
dropped copy, reason, frame length, kind (0 session, 1 drop), session, wing, epoch, colour, F7 and flow hash; `stored` is
the frame and holder whose first cell has still to be read; `gal` and `clock` are the gallery that made it and the clock in which it
did (R373). -/
structure Cap where
  ring : Nat
  bytes : List Byte
  ns : Nat
  inPort : Nat
  outPort : Nat
  queue : Nat
  reason : Nat
  len : Nat
  kind : Nat
  sess : Nat
  wing : Nat
  epoch : Nat
  colour : Nat
  f7 : Nat
  hash : Nat
  stored : Option (Nat × Nat)
  gal : Nat
  clock : Nat
  deriving DecidableEq, Repr

/-- Archive: captures made and not yet taken, in the order of R373; staged records by ring; counts of R366 by
16 * gallery + session and of ARC_DROP_CFG.sample_n by gallery; next sequence number and losses since the last record by
ring. -/
structure ArcSt where
  pend : List Cap
  staged : List (Nat × List Cap)
  sessCnt : List (Nat × Nat)
  dropCnt : List (Nat × Nat)
  seq : List (Nat × Nat)
  lost : List (Nat × Nat)
  deriving DecidableEq, Repr


/-- An entry of the Registrar's history (R611): message words, time taken in ns, messages lost, and the inj mark. -/
structure Hist where
  lo : W32
  hi : W32
  ns : Nat
  lost : Nat
  inj : Bool
  deriving DecidableEq, Repr

/-- Registrar: history by slot; one more than the last sequence number taken, by source (0: none yet); the source served last
(R610); pages that could not be reached and have sent a coded message of kind 0x20-0x3F (R606); the gallery whose link is
being switched, with true for a give-back (R621, R626); a planned takeover or give-back that waits for a DOC block to
stop. -/
structure RgrSt where
  hist : List (Nat × Hist)
  lastSeq : List (Nat × Nat)
  rr : Nat
  unrPend : List Nat
  switching : Option (Nat × Bool)
  planned : Option (Nat × Bool)
  deriving DecidableEq, Repr

/-- A record handed to the Annex (R541, R542): its src code, channel and bytes. -/
structure AnxRec where
  src : Nat
  chan : Nat
  bytes : List Byte
  deriving DecidableEq, Repr

/-- What a transmit channel is in the middle of sending: src, the copy of port 513 it belongs to, the bytes left, and whether
no segment of it has gone yet. -/
structure AnxTx where
  src : Nat
  copy : Option Nat
  rest : List Byte
  first : Bool
  deriving DecidableEq, Repr

/-- Annex: whether port 513 is down (R550); by channel, the credits the partner still holds, those freed or granted and not yet
sent, the next sequence numbers in either direction, the frame being received with its segments, and what is being sent;
channels whose first grant is still to be sent (R544); received frames that dispatch has not taken, as frame, channel and
segments (R545); records waiting to be sent; the last src served on each channel and the last channel served (R541,
R542); whether a LINK segment with version 1 has been received (R551); and the last segment sent. -/
structure AnxSt where
  portDown : Bool
  rxLeft : List (Nat × Nat)
  gath : List (Nat × Nat)
  rxSeq : List (Nat × Nat)
  txSeq : List (Nat × Nat)
  rxPart : List (Nat × Option (List Byte × Nat))
  tx : List (Nat × Option AnxTx)
  grant : List Nat
  rxHeld : List (Nat × Nat × Nat)
  recs : List AnxRec
  srcRr : List (Nat × Nat)
  chanRr : Nat
  linkSeen : Bool
  sent : Option (Nat × List Byte)
  deriving DecidableEq, Repr

/-- A record of the decision log before it takes its sequence number (R492). -/
structure LogRec where
  ns : Nat
  knob : Nat
  reason : Nat
  inst : Nat
  old : Nat
  new : Nat
  meas : Nat
  deriving DecidableEq, Repr

/-- Curator: log records waiting to be written; the next sequence number and the losses since the last record (R492); the
queue-sample records of the last round, as delivered (R410); whether the other pair starts at the next period (R483); the ns
at which each lane's last retune started (R485); decisions made whose writes have still to be issued (R490); periods of calm in
succession by 8448 * knob + instance, the E time in ns of the last period, and by port the 20-byte-padded bytes that it had then sent
(R485). -/
structure CurSt where
  staged : List LogRec
  seq : Nat
  lost : Nat
  samples : List (List W32)
  switch : Bool
  retuneAt : List (Nat × Nat)
  issue : List CurDecision
  calm : List (Nat × Nat)
  lastNs : Nat
  sentBy : List (Nat × Nat)
  deriving DecidableEq, Repr

/-- What holds the domains in reset: nothing, a rail below its threshold (R708), a lost clock (R645), or the thermal trip
(R651). -/
inductive Hold where
  | none | rail | clock | trip
  deriving DecidableEq, Repr

/-- Power and boot: lane chiplets whose LN_REFCLK has stopped (R646); what holds the domains in reset; whether the boot front
end waits in a back-off (R655); the image whose Vubex is starting, as its source (1 slot A, 2 slot B, 3 host-fed) and version,
and the other slot if this round has still to try it (R654, R656); the lifecycle state read at the start of the round; the version of the image running (R674); a host-fed go not
yet carried out (R659); the Curator pair that boots (R661); the fraction of PWR_LIFE_HOURS in units of 2^-64 hours (R715); and
whether the margin and the hours have been reported (R716); and galleries with a park pending (R64, R65, R632). -/
structure PwrSt where
  lnrefLost : List Nat
  held : Hold
  backOff : Bool
  starting : Option (Nat × Nat)
  other : Option Nat
  roundLc : Nat
  runVer : Option Nat
  hostGo : Bool
  bootPair : Nat
  lifeFrac : Nat
  marginSaid : Bool
  hoursSaid : Bool
  parkPend : List Nat
  deriving DecidableEq, Repr

/-- Lifecycle: fuses blown, none, one or two of each pair, of the states above BLANK by state code (R670), of the owner key
slots and their revoke fuses, and of the version thermometer by bit (R671); the hash fused in each slot; the words written to
LCS_TOKEN and LCS_KEY_HASH; and the current nonce (R677). -/
structure LcsSt where
  pairs : List (Nat × Nat)
  keys : List (Nat × Nat)
  revs : List (Nat × Nat)
  vers : List (Nat × Nat)
  hashes : List (Nat × List Byte)
  token : List (Nat × W32)
  hashIn : List (Nat × W32)
  nonce : Option (BitVec 64)
  deriving DecidableEq, Repr

/-- Device page and management slave: the levels that the board drives on GPIO[31:0] after the filter (R695), the read address
of the SMBus slave, and whether it answered the last transaction with NACK (R696). -/
structure DevSt where
  gpioPins : W32
  smbAddr : Nat
  smbNack : Bool
  deriving DecidableEq, Repr

/-- Ledger: the latch of each user page (R574); and the flow record
each BAR4 aperture has latched, as flow index and words (R570). -/
structure LdgSt where
  userLatch : List (Nat × W32)
  flowLatch : List (Nat × Option (Nat × List W32))
  deriving DecidableEq, Repr

/-- The whole engine. -/
structure State where
  part : OrderCode
  bus : Bus
  tab : Tab
  time : Clock
  frames : List Frame
  nextId : Nat
  nextSeq : Nat
  copies : List Copy
  nextCopy : Nat
  lnk : LnkSt
  doc : DocSt
  cat : CatSt
  lpm : LpmSt
  vit : VitSt
  prv : PrvSt
  csv : CsvSt
  hal : HalSt
  dpt : DptSt
  tmg : TmgSt
  tsn : TsnSt
  vlt : VltSt
  arc : ArcSt
  rgr : RgrSt
  hif : HifSt
  anx : AnxSt
  cur : CurSt
  pwr : PwrSt
  lcs : LcsSt
  dev : DevSt
  ldg : LdgSt
  pending : List Instr
  deriving DecidableEq, Repr

/-- The engine of order code `part` right after release of PORESET_N (R17, R649, R687): every register at its Reset value, no
table word written, no frame, no fuse blown since manufacture. The spec gives an arbiter's first position no value;
the values here are the model's (DESIGN CHOICE, log 11). -/
def State.initial (part : OrderCode) : State where
  part := part
  bus := {
    regs := [], ctr := [], latch := [], readData := 0, ldgQ := [], msgQ := [], seqs := [], msiSent := [], free := 0,
    wraps := [], evAt := [], portDrop := [] }
  tab := { words := [], ecc := [], merges := [] }
  time := { clock := 0, e := 0, d := 0 }
  frames := []
  nextId := 0
  nextSeq := 0
  copies := []
  nextCopy := 0
  lnk := { lanes := [], fifo := [], fails := [], rx := [], pauseReq := [], txLast := [] }
  doc := { cores := [], rr := [], pressed := [], cycSum := [], cycCnt := [], searches := [], served := [] }
  cat := { learnQ := [], filter := [], retry := [], cleared := [], qWasFull := [] }
  lpm := { routes := [] }
  vit := { cleared := [], taking := [], failed := [], frac := [], differ := [], move := none }
  prv := { c := 0, o := 0, drain := [], marks := [], exq := [], rr := 31, held := none }
  csv := { stormed := [], backQ := [], rechecks := [] }
  hal := { cells := [], readQ := [], taking := none, failed := [], fenced := [], wrote := [], freed := [] }
  dpt := { walk := [], portUse := [], qShared := [], pair := [], xoffBy := [], level := [] }
  tmg := { buckets := [], wheel := [], tagS := [], tagF := [], vt := [], elig := [], rr := [], paused := [], pace := [], sampDue := 0 }
  tsn := { oper := [], pend := [], openTill := [], srfLast := [], ppsHigh := false, ppsEnd := 0 }
  vlt := {
    rot := [], bufs := [], lastWr := 8447, lastRd := 8447, wrAt := 0, rdAt := 0, wq := [], rq := [], turn := [], openRow := [],
    spilling := [], reads := [], acts := [], trq := [], owed := [], refRow := [],
    tempFails := [], selfRef := false }
  arc := { pend := [], staged := [], sessCnt := [], dropCnt := [], seq := [], lost := [] }
  rgr := { hist := [], lastSeq := [], rr := 1023, unrPend := [], switching := none, planned := none }
  hif := {
    scan := [], took := [], again := [], chains := [], skip := [], ready := [], chanRr := [], runs := [], waiting := [],
    held := [], irqCnt := [], irqTimer := [], bufs := [], punt := [], finds := [], pmeEn := false, pmeStatus := false,
    pmeSent := 0, mem := [], kept := [] }
  anx := {
    portDown := true, rxLeft := [], gath := [], rxSeq := [], txSeq := [], rxPart := [], tx := [], grant := [], rxHeld := [],
    recs := [], srcRr := [], chanRr := 15, linkSeen := false, sent := none }
  cur := { staged := [], seq := 0, lost := 0, samples := [], switch := false, retuneAt := [], issue := [], calm := [], lastNs := 0, sentBy := [] }
  pwr := {
    lnrefLost := [], held := .none, backOff := false, starting := none, other := none, roundLc := 0, runVer := none,
    hostGo := false, bootPair := 0, lifeFrac := 0, marginSaid := false, hoursSaid := false, parkPend := [] }
  lcs := { pairs := [], keys := [], revs := [], vers := [], hashes := [], token := [], hashIn := [], nonce := none }
  dev := { gpioPins := 0, smbAddr := 0, smbNack := false }
  ldg := { userLatch := [], flowLatch := [] }
  pending := []

/-- The machine right after reset: an MP-1024X-A1 (the order code is DESIGN CHOICE, log 10), its queue empty. -/
def State.reset : State := State.initial .x1024

end Sys2Proof.Machine
end

