-- ==== Sys2Proof/Machine/Ops.lean ====
section
/-!
DEFINITION. The named operations every family shares: register words and fields, counters, error records, event bits,
coded messages, interrupt messages, block states, and table words with their ECC state. Every register, counter and
message of the machine is read and written through these.
-/
namespace Sys2Proof.Machine

/-- What a meaning answers. -/
abbrev Res := Host.Outcome State Fault Refusal

/-! ## Registers -/

/-- The stored word of the register at BAR0 offset `a`; a register nothing has written holds its Reset value (R17). -/
def rd (s : State) (a : Nat) : W32 := sGet (regReset s.part a) a s.bus.regs

/-- The register at `a` stored as `v`. -/
def wr (a : Nat) (v : W32) (s : State) : State :=
  { s with bus := { s.bus with regs := sPut (regReset s.part a) a v s.bus.regs } }

/-- Field [hi:lo] of the register at `a`. -/
def rf (s : State) (a hi lo : Nat) : Nat := fld (rd s a) hi lo

/-- Bit `b` of the register at `a`. -/
def rb (s : State) (a b : Nat) : Bool := bit (rd s a) b

/-- Field [hi:lo] of the register at `a` set to `v`. -/
def wf (a hi lo v : Nat) (s : State) : State := wr a (setFld (rd s a) hi lo v) s

/-- One added to field [hi:lo], holding at all ones. -/
def incSat (a hi lo : Nat) (s : State) : State :=
  if rf s a hi lo + 1 < 2 ^ (hi + 1 - lo) then wf a hi lo (rf s a hi lo + 1) s else s

/-- `n` added to field [hi:lo], wrapping. -/
def addWrap (a hi lo n : Nat) (s : State) : State := wf a hi lo (rf s a hi lo + n) s

/-- A 64-bit quantity split over a _LO register at `a` and a _HI register at `a + 4` (R13). -/
def rd64 (s : State) (a : Nat) : Nat := (rd s a).toNat + (rd s (a + 4)).toNat * 2 ^ 32

/-- The data a read returns to whoever asked. -/
def answer (v : Nat) (s : State) : State := { s with bus := { s.bus with readData := BitVec.ofNat 64 v } }

/-- The next free value (log 3): open in the spec, constrained by nothing. -/
def drawFree (s : State) : W32 × State :=
  (Config.freeValue s.bus.free, { s with bus := { s.bus with free := s.bus.free + 1 } })

/-- A free choice below `k` (log 3). -/
def drawChoice (k : Nat) (s : State) : Nat × State :=
  (Config.freeChoice s.bus.free k % max k 1, { s with bus := { s.bus with free := s.bus.free + 1 } })

/-! ## Ledger events and counters (R559) -/

/-- Ledger source group of a block. -/
def blkGroup : Blk → Option Nat
  | .lnk => some 0 | .doc => some 1 | .cat => some 2 | .lpm => some 3 | .vit => some 4 | .prv | .edt => some 5
  | .hal => some 6 | .dpt => some 7 | .tmg => some 8 | .tsn => some 9 | .vlt => some 10 | .hif | .anx => some 11
  | .arc | .cur => some 12 | _ => none

/-- Ledger source group, instance and event code of the counter whose _LO lies at `a` (R559). -/
def ctrEvent (part : OrderCode) (a : Nat) : Option (Nat × Nat × Nat) :=
  let p := a / 0x10000
  let x := a % 0x10000
  match pageBlk part p with
  | some (.lnk, 4, k) =>
    if x < 0x8000 then some (0, 64 * k + (x - 0x100) / 0x100, x % 0x100 / 8)
    else if x % 0x100 / 8 < 2 then some (0, k, 0x20 + x % 0x100 / 8) else none
  | some (.doc, _, g) => some (1, g, (x - 0x200) / 8)
  | some (.cat, _, w) => some (2, w, (x - 0x200) / 8)
  | some (.lpm, _, w) => some (3, w, (x - 0x200) / 8)
  | some (.vit, _, w) => some (4, w, (x - 0x200) / 8)
  | some (.prv, _, _) => some (5, 0, (x - 0x200) / 8)
  | some (.edt, _, g) => some (5, g, 0x10 + (x - 0x200) / 8)
  | some (.hal, 7, _) => some (6, 0, (x - 0x100) / 8)
  | some (.dpt, _, _) => if x < 0x500 then some (7, 0, (x - 0x200) / 8) else some (7, 0, 0x10 + (x - 0x500) / 8)
  | some (.tmg, 0, _) => some (8, 0, (x - 0x200) / 8)
  | some (.tsn, 0, _) => some (9, 0, (x - 0x200) / 8)
  | some (.vlt, 0, _) => some (10, 0, (x - 0x200) / 8)
  | some (.hif, 0, _) => some (11, 0, (x - 0x200) / 8)
  | some (.anx, _, _) => some (11, 0, 0x10 + (x - 0x200) / 8)
  | some (.arc, _, _) => some (12, 0, (x - 0x200) / 8)
  | some (.cur, _, _) => some (12, 0, 0x10 + (x - 0x200) / 8)
  | _ => none

/-- An event offered to the Ledger; the tick adds it (R561). -/
def ledger (e : LdgEvent) (s : State) : State := { s with bus := { s.bus with ldgQ := s.bus.ldgQ ++ [e] } }

/-- The value of the 64-bit counter whose _LO lies at `a`. -/
def ctr (s : State) (a : Nat) : Nat := sGet 0 a s.bus.ctr

/-- `n` added to the counter at `a`, and the event offered to the Ledger (R559). -/
def bumpN (a n : Nat) (s : State) : State :=
  if n = 0 then s else
    { s with bus := { s.bus with
        ctr := sPut 0 a ((sGet 0 a s.bus.ctr + n) % 2 ^ 64) s.bus.ctr
        ldgQ := match ctrEvent s.part a with
          | some (g, i, c) => s.bus.ldgQ ++ [⟨g, i, c, n⟩]
          | none => s.bus.ldgQ } }

/-- One added to the counter at `a`. -/
def bump (a : Nat) (s : State) : State := bumpN a 1 s

/-! ## Error records (R691, R692) -/

/-- An error record of page `p`: it replaces the previous one and adds one to count. -/
def recordErr (p code detail addr : Nat) (s : State) : State :=
  let n := rf s (H_ERR_CAUSE p) 23 16
  wr (H_ERR_ADDR_HI p) (w32 (addr / 2 ^ 32))
    (wr (H_ERR_ADDR_LO p) (w32 addr)
      (wr (H_ERR_CAUSE p) (w32 (code % 256 * 2 ^ 24 + min (n + 1) 255 * 2 ^ 16 + detail % 2 ^ 16)) s))

/-! ## Block states (R686) -/

/-- STATE.state of the block that owns page `p`. -/
def blkState (s : State) (p : Nat) : Nat := rf s (H_STATE (home p)) 2 0

/-- STATE.state is ON. -/
def isOn (s : State) (p : Nat) : Bool := blkState s p == 2

/-- STATE.state of the block that owns page `p` set. -/
def setBlk (p v : Nat) (s : State) : State := wf (H_STATE (home p)) 2 0 v s

/-- STATE.reenable_pending. -/
def reenable (s : State) (p : Nat) : Bool := rb s (H_STATE (home p)) 8

/-! ## The Ledger's event counters (R557-R560) -/

/-- Where an event code of a source group counts. -/
inductive Inst where
  /-- Instance 0 alone. -/
  | one
  /-- A network port whose chiplet is present. -/
  | port
  /-- A lane chiplet that is present. -/
  | chiplet
  /-- A gallery that is present. -/
  | gallery
  /-- A wing. -/
  | wing
  /-- A queue. -/
  | queue
  /-- A pool: four of the Hall, three of the Vault. -/
  | pool (n : Nat)
  deriving DecidableEq, Repr

/-- Does instance `i` exist? -/
def instOk (part : OrderCode) (k : Inst) (i : Nat) : Bool :=
  match k with
  | .one => i == 0
  | .port => decide (i < 512) && lnkPresent part (i / 64)
  | .chiplet => lnkPresent part i
  | .gallery => galPresent part i
  | .wing => decide (i < 2)
  | .queue => decide (i < 8448)
  | .pool n => decide (i < n)

/-- The instances of the events of code `c` in group `g`; `none` for a reserved code. -/
def eventInst (g c : Nat) : Option Inst :=
  if 0x60 ≤ c then none
  else match g with
    | 0 => if c ≤ 0xE then some .port else if c = 0x20 ∨ c = 0x21 ∨ 0x40 ≤ c then some .chiplet else none
    | 1 => if c < 8 ∨ 0x40 ≤ c then some .gallery else none
    | 2 | 3 | 4 => if c < 16 ∨ 0x40 ≤ c then some .wing else none
    | 5 => if c < 16 then some .one else if c < 32 ∨ 0x40 ≤ c then some .gallery else none
    | 6 | 8 | 9 | 10 => if c < 16 ∨ 0x40 ≤ c then some .one else none
    | 7 | 11 => if c < 24 ∨ 0x40 ≤ c then some .one else none
    | 12 => if c < 4 ∨ (16 ≤ c ∧ c < 24) ∨ 0x40 ≤ c then some .one else none
    | 13 => if c < 3 then some .one else none
    | _ => none

/-- The instances of level source `c` of group `g`. -/
def levelInst (g c : Nat) : Option Inst :=
  match g, c with
  | 0, 0x80 => some .chiplet
  | 1, 0x80 | 1, 0x81 => some .gallery
  | 2, 0x80 | 2, 0x81 | 3, 0x80 => some .wing
  | 5, 0x80 | 6, 0x80 | 7, 0x80 | 8, 0x80 | 10, 0x82 => some .one
  | 6, 0x81 | 10, 0x80 => some .queue
  | 7, 0x81 => some (.pool 4)
  | 10, 0x81 => some (.pool 3)
  | _, _ => none

/-- Source group of counter `n` of group `g`. -/
def srcGroup (g : Nat) (cfg : W32) : Nat := if g < 14 then g else fld cfg 27 24

/-- Is the configuration one that counts (R560): a mode that fits its code, a known code, and an instance that exists, or all
of them outside ABOVE? -/
def cfgCounts (part : OrderCode) (g : Nat) (cfg : W32) : Bool :=
  let c := fld cfg 23 16
  let i := fld cfg 13 0
  let ok := fun (k : Option Inst) => match k with
    | none => false
    | some k => instOk part k i
  match fld cfg 30 29 with
  | 0 => if i = 0x3FFF then (eventInst (srcGroup g cfg) c).isSome else ok (eventInst (srcGroup g cfg) c)
  | 1 => ok (levelInst (srcGroup g cfg) c)
  | 2 => if i = 0x3FFF then (levelInst (srcGroup g cfg) c).isSome else ok (levelInst (srcGroup g cfg) c)
  | _ => false

/-- Does counter `n` of group `g` count the wraps of counter `n - 1` (R564)? -/
def chainedCtr (s : State) (g n : Nat) : Bool := n != 0 && rb s (LDG_CTR_CFG g (n - 1)) 28

/-- Does counter `n` of group `g` count sources: its page ON, en 1, not chained, and a configuration that counts? -/
def counts (s : State) (g n : Nat) : Bool :=
  isOn s (pageLDG g) && rb s (LDG_CTR_CFG g n) 31 && !chainedCtr s g n && cfgCounts s.part g (rd s (LDG_CTR_CFG g n))

/-- `k` added to a 48-bit counter, its wraps left to be processed (R563). -/
def ctrAdd (g n k : Nat) (s : State) : State :=
  let a := LDG_CTR g n
  let v := ctr s a + k
  { s with bus := { s.bus with
      ctr := sPut 0 a (v % 2 ^ 48) s.bus.ctr
      wraps := sPut 0 (64 * g + n) (sGet 0 (64 * g + n) s.bus.wraps + v / 2 ^ 48) s.bus.wraps } }

/-- The events of one entry of the queue that a configuration in EVENT mode counts. -/
def eventAdds (g : Nat) (cfg : W32) (e : LdgEvent) : Nat :=
  if e.group = srcGroup g cfg ∧ e.code = fld cfg 23 16 ∧ (fld cfg 13 0 = 0x3FFF ∨ fld cfg 13 0 = e.inst) then e.n else 0

/-- The waiting events added to every counter in EVENT mode, and taken: the Ledger counts an event before any interrupt that the event
causes goes out (R53). -/
def ledgerFlush (s : State) : State :=
  if s.bus.ldgQ.isEmpty then s
  else
    let s1 := (List.range 16).foldl (fun a g =>
      if isOn s (pageLDG g) then
        (List.range 64).foldl (fun b n =>
          let cfg := rd s (LDG_CTR_CFG g n)
          if counts s g n && fld cfg 30 29 == 0 && srcGroup g cfg != 13 then
            ctrAdd g n (s.bus.ldgQ.foldl (fun x e => x + eventAdds g cfg e) 0) b else b) a
      else a) s
    { s1 with bus := { s1.bus with ldgQ := [] } }

/-! ## Coded messages and interrupts (R606-R610, R531) -/

/-- A page that cannot be reached (R609): a lane chiplet's while neither of its die-to-die links is trained (log 12), and
a gallery's while the gallery is DORMANT. -/
def unreachable (s : State) (p : Nat) : Bool :=
  match pageBlk s.part p with
  | some (.lnk, _, k) =>
    let d := LNK_D2D_STAT k
    decide (2 ≤ blkState s p) && !rb s d 1 && !rb s d 2
  | some (.doc, _, g) | some (.edt, _, g) | some (.gal, _, g) => rf s (GAL_STAT g) 2 0 == 2
  | _ => false

/-- May the engine issue a memory request (R533): the function in D0 with Bus Master Enable 1 and the link up. -/
def memOk (s : State) : Bool :=
  rf s HIF_PCIE_STAT 11 10 == 0 && rb s HIF_PCIE_STAT 12 && rb s HIF_PCIE_STAT 9

/-- MSI-X message on vector `v`: counted in HIF_CNT_8 and sent; a masked vector, or one for which no memory request may
be issued, sets its pending bit instead (R530, R533). The Ledger has counted what caused it (R53). -/
def sendMsix (v : Nat) (s : State) : State :=
  if rb s (HIF_MSIX_TABLE (4 * v + 3)) 0 || !memOk s then
    wr (HIF_MSIX_PBA (v / 32)) (rd s (HIF_MSIX_PBA (v / 32)) ||| w32 (2 ^ (v % 32))) s
  else
    let s1 := ledgerFlush s
    bump (HIF_CNT 8) { s1 with bus := { s1.bus with msiSent := sPut 0 v (sGet 0 v s1.bus.msiSent + 1) s1.bus.msiSent } }

/-- The Registrar's pending bit of page `p` from its INT_STAT and INT_EN, or from a coded message of a page that cannot be
reached (R606). -/
def pendBit (s : State) (p : Nat) : Bool :=
  rd s (H_INT_STAT p) &&& rd s (H_INT_EN p) != 0 || (s.rgr.unrPend.contains p && unreachable s p)

/-- The block interrupt when page `p`'s pending bit has changed from 0 to 1 (R607). -/
def pendEdge (p : Nat) (before : Bool) (s : State) : State :=
  if !before && pendBit s p then sendMsix (rf s HIF_CFG 15 8) s else s

/-- A coded message from page `p`: the source holds at most two the Registrar has not taken, and advances seq for every
one (R610). -/
def sendMsg (p kind addr : Nat) (inj : Bool) (s : State) : State :=
  let q := sGet 0 p s.bus.seqs
  let held := (s.bus.msgQ.filter fun m => m.source == p).length
  { s with bus := { s.bus with
      seqs := sPut 0 p ((q + 1) % 256) s.bus.seqs
      msgQ := if held < 2 then s.bus.msgQ ++ [⟨p, kind, addr, q, inj⟩] else s.bus.msgQ } }

/-- Event bit `b` of page `p` is set by the engine (R690): a bit that becomes 1 is offered to the Ledger (R559), sends a
coded message where R609 asks for one, and may raise the page's pending bit (R606, R607). -/
def raiseAs (inj : Bool) (p b : Nat) (s : State) : State :=
  let old := rd s (H_INT_STAT p)
  if bit old b then s else
    let before := pendBit s p
    let s1 := wr (H_INT_STAT p) (old ||| w32 (2 ^ b)) s
    let s2 := match pageBlk s.part p with
      | some (k, _, i) => (match blkGroup k with
        | some g => ledger ⟨g, i, 0x40 + b, 1⟩ s1
        | none => s1)
      | none => s1
    let s3 := if rb s (H_MSG_CFG p) 30 || unreachable s p then
        sendMsg p (0x20 + b) (rd s1 (H_INT_STAT p)).toNat inj s2 else s2
    pendEdge p before s3

/-- Event bit set by an event of the engine. -/
def raise (p b : Nat) (s : State) : State := raiseAs false p b s

/-- Has no event of the kind that sets bit `b` of page `p` fallen in this clock or the one before it? -/
def isFirst (s : State) (p b : Nat) : Bool :=
  let last := sGet 0 (32 * p + b) s.bus.evAt
  last == 0 || decide (last < s.time.clock)

/-- Event bit `b` of page `p` for an event of a kind that the spec raises on the first one after a clock without one (R212, R303, R316,
R337, R351, R376, R412, R510, R577, R604): set when no such event fell in this clock or the one before it. -/
def raiseFirst (p b : Nat) (s : State) : State :=
  let s1 := { s with bus := { s.bus with evAt := sPut 0 (32 * p + b) (s.time.clock + 1) s.bus.evAt } }
  if isFirst s p b then raise p b s1 else s1

/-- A fault-kind event of page `p` (R609, R615): a coded message while MSG_CFG.fault_msg is 1. -/
def reportFault (p kind addr : Nat) (inj : Bool) (s : State) : State :=
  if rb s (H_MSG_CFG p) 31 then sendMsg p kind addr inj s else s

/-! ## Table words and ECC (R578-R588) -/

/-- Size of the ECC word that holds table address `a` (R578). -/
def eccSize (a : Nat) : Nat :=
  let r := a / 0x4000000
  let o := a % 0x4000000
  if r ≤ 1 ∨ r = 6 ∨ r = 7 then 64 else if r ≤ 3 then (if o < 0xEC0000 then 64 else 16) else 16

/-- Address of the ECC word that holds table address `a`. -/
def eccBase (a : Nat) : Nat := a - a % eccSize a

/-- Does table address `a` lie in a table of its region's layout (R500, R501)? -/
def mapped (part : OrderCode) (a : Nat) : Bool :=
  let r := a / 0x4000000
  let o := a % 0x4000000
  if r ≤ 1 then o < 0x2040000
  else if r ≤ 3 then o < 0xEC0000 || (0x1000000 ≤ o && o < 0x1840000) || (0x1900000 ≤ o && o < 0x1A00000)
  else if r ≤ 5 then o < 0x280000 || (0x400000 ≤ o && o < 0x600000)
  else if r ≤ 7 then o < 0x400000
  else if r ≤ 9 then o < 0x140000
  else if r = 0xA then o < 0x420000 || (0x500000 ≤ o && o < 0x570000)
  else if r = 0xB then o < 0x1020000 || (0x1200000 ≤ o && o < 0x1400000)
  else if 0x10 ≤ r ∧ r ≤ 0x18 then galPresent part (r - 0x10) && o < 0x28000
  else false

/-- Is a region code reserved (R500, R4)? -/
def regionReserved (part : OrderCode) (r : Nat) : Bool :=
  !(r ≤ 0xB || (0x10 ≤ r && r ≤ 0x18 && galPresent part (r - 0x10)))

/-- The page that owns a table address: where its uncorrectable reads and corrections are recorded (R580, R581). -/
def tabOwner (a : Nat) : Nat :=
  let r := a / 0x4000000
  if r ≤ 1 then pageCAT r else if r ≤ 3 then pageLPM (r - 2) else if r ≤ 5 then pageVIT (r - 4)
  else if r ≤ 7 then pageEDT (4 * (r - 6)) else if r ≤ 9 then pageDPT else if r = 0xA then pageTSN
  else if r = 0xB then pageLDG 0 else pageDOC (r - 0x10)

/-- ECC side data of the word that holds `a`; never written unless listed (R582). -/
def eccOf (s : State) (a : Nat) : Ecc := sGet ⟨.never, 0, false⟩ (eccBase a) s.tab.ecc

/-- The four-byte table word at `a` (a multiple of 4), zero where nothing was written. -/
def tw (s : State) (a : Nat) : W32 := sGet 0 a s.tab.words

/-- What a read of the ECC word that holds an address finds. -/
inductive RdStat where
  | never | good | corrected | ue
  deriving DecidableEq, Repr

/-- Symbols the code corrects: four in RS(72,64), two in RS(20,16) (R579). -/
def eccLimit (a : Nat) : Nat := if eccSize a = 64 then 4 else 2

/-- How many symbols of a word are in error. -/
def symErrs (e : Ecc) : Nat := (setBits 16 e.errs).length

/-- Outcome of a read at table address `a` (R579, R580, R583, R587). -/
def rdStat (s : State) (a : Nat) : RdStat :=
  let e := eccOf s a
  match e.st with
  | .never => .never
  | .poisoned => .ue
  | .good => if e.errs = 0 then .good else if symErrs e ≤ eccLimit a then .corrected else .ue

/-- Is the word readable (good, or correctable)? -/
def readable (s : State) (a : Nat) : Bool :=
  match rdStat s a with
  | .good | .corrected => true
  | .never | .ue => false

/-- A correctable-error storm of page `p` (R589, kind 0x02). -/
def storm (p : Nat) (s : State) : State := reportFault p 0x02 0 false s

/-- One corrected word of page `p`: CE_COUNT and the CE_BUCKET level; a level that reaches depth is held there and
reported once until it has fallen to half of depth (R580, R589). -/
def correctedAt (p : Nat) (s : State) : State :=
  let s1 := addWrap (H_CE_COUNT p) 31 0 1 s
  let lvl := rf s1 (H_CE_BUCKET p) 31 20
  let depth := rf s1 (H_CE_BUCKET p) 19 8
  if depth = 0 then wf (H_CE_BUCKET p) 31 20 (min (lvl + 1) 0xFFF) s1
  else
    let s2 := wf (H_CE_BUCKET p) 31 20 (min (lvl + 1) depth) s1
    if depth ≤ lvl + 1 ∧ !(s.csv.stormed.contains p) then
      storm p { s2 with csv := { s2.csv with stormed := s2.csv.stormed ++ [p] } }
    else s2

/-- A flow record that cannot be read sets store_err of page 0x2A0 (R569). -/
def flowErr (a : Nat) (s : State) : State := if a / 0x4000000 = 0xB then raise (pageLDG 0) 1 s else s

/-- An uncorrectable read of table address `a` as the owning page records it (R581, kind 0x01). -/
def ueAt (a : Nat) (s : State) : State :=
  flowErr a <| reportFault (tabOwner a) 0x01 a (eccOf s a).inj (recordErr (tabOwner a) 0x03 0 a s)

/-- A read of a never-written word as the Conservator counts and records it (R583, code 0x03 of R691). -/
def uninitAt (a : Nat) (s : State) : State :=
  flowErr a <| raiseFirst pageCSV 0 (recordErr pageCSV 0x03 0 a (bump (CSV_CNT 2) s))

/-- Side effects of a read at table address `a` (R580, R581, R583); a corrected word is queued for write-back while the
Conservator is ON (R603). -/
def noteRead (a : Nat) (s : State) : State :=
  match rdStat s a with
  | .good => s
  | .corrected =>
    let s1 := correctedAt (tabOwner a) s
    if isOn s pageCSV && !(s.csv.backQ.contains (eccBase a)) then
      { s1 with csv := { s1.csv with backQ := s1.csv.backQ ++ [eccBase a] } } else s1
  | .never => uninitAt a s
  | .ue => ueAt a s

/-- A lookup's or a command's read of a word that it finds readable: a correctable one is counted and queued (R580). -/
def noteCe (a : Nat) (s : State) : State := if rdStat s a = .corrected then noteRead a s else s

/-- The ECC words that hold some addresses read together, each once (R580). -/
def noteCes (as : List Nat) (s : State) : State := (as.map eccBase).eraseDups.foldl (fun x a => noteCe a x) s

/-- Bits of the table word at `a` that its memory holds: a flow record packs 34 bits of packets and 46 of bytes (R568). -/
def wordMask (a : Nat) : W32 :=
  if a / 0x4000000 = 0xB ∧ a % 16 = 4 then 0x3 else if a / 0x4000000 = 0xB ∧ a % 16 = 12 then 0x3FFF else 0xFFFFFFFF

/-- One table word stored. -/
def putWord (a : Nat) (v : W32) (s : State) : State :=
  { s with tab := { s.tab with words := sPut 0 a (v &&& wordMask a) s.tab.words } }

/-- Table words stored from `a` upwards. -/
def putWords : Nat → List W32 → State → State
  | _, [], s => s
  | a, v :: r, s => putWords (a + 4) r (putWord a v s)

/-- Table address of entry `x` of wing `w`'s replica (R141). -/
def catAddr (w x : Nat) : Nat := w * 0x4000000 + 32 * x

/-- Overflow entries of wing `w` whose image holds a word with valid = 1, in rising order. -/
def ovfValid (s : State) (w : Nat) : List Nat :=
  (s.tab.words.filter fun e =>
    decide (catAddr w 0x100000 ≤ e.1) && decide (e.1 < catAddr w 0x102000) && e.1 % 32 == 28 && bit e.2 31).map
    fun e => (e.1 - catAddr w 0) / 32

/-- Overflow entries in use in wing `w`'s replica (CAT_OVF_STAT). -/
def ovfUsed (s : State) (w : Nat) : Nat := (ovfValid s w).length

/-- ovf_high where a write, whoever made it, has raised an overflow count to warn_level (R181). -/
def ovfEdge (old s : State) : State :=
  [0, 1].foldl (fun a w =>
    let l := min 8192 (rf s (CAT_OVF_CFG w) 13 0)
    if ovfUsed old w < l ∧ l ≤ ovfUsed s w then raise (pageCAT w) 2 a else a) s

/-- A match row, or an overflow match key, is written together with its image (R220, R255): one that had been cleared to match
nothing matches again once a write of the word at base `b` has made its image readable (R595). Nothing else that makes the image readable does: the row then
differs from its image until a comparison pass writes it (R593). -/
def unclear (b : Nat) (s : State) : State :=
  let r := b / 0x4000000
  let o := b % 0x4000000
  if (r = 4 ∨ r = 5) ∧ o < 0x200000 then
    if readable s (b - b % 32) && readable s (b - b % 32 + 16) then
      { s with vit := { s.vit with cleared := s.vit.cleared.filter (· != 65536 * (r - 4) + o / 32) } } else s
  else if r ≤ 1 ∧ 0x2000000 ≤ o ∧ o < 0x2040000 then
    { s with cat := { s.cat with cleared := s.cat.cleared.filter fun k =>
        k != 8192 * r + (o - 0x2000000) / 32 && k != 8192 * r + (o - 0x2000000) / 32 + 1 } }
  else s

/-- ECC side data of the word at base `b` stored. -/
def putEcc (b : Nat) (e : Ecc) (s : State) : State :=
  { s with tab := { s.tab with ecc := sPut ⟨.never, 0, false⟩ b e s.tab.ecc } }

/-- A write has stored the word at base `b`, of which `old` is the state before: the match row or overflow key of a GOOD image record is
written with it (R220), and overflow use may have risen to its level. -/
def wordWritten (b : Nat) (old s : State) : State :=
  let s1 := if (eccOf s b).st = .good then unclear b s else s
  if b / 0x4000000 ≤ 1 ∧ 0x2000000 ≤ b % 0x4000000 then ovfEdge old s1 else s1

/-- A write that covers ECC words whole, from base `a`: they become GOOD (R582), and a write-back pending for one is
dropped (R591). -/
def coverWords : Nat → Nat → State → State
  | 0, _, s => s
  | n + 1, a, s => coverWords n (a + eccSize a) (putEcc a ⟨.good, 0, false⟩ s)

/-- A merge's second access (R585-R587): the new words over the old with fresh check symbols; a never-written word's other
bytes become zero and it becomes GOOD; an uncorrectable word becomes POISONED. -/
def runMerge (m : Merge) (s : State) : State :=
  let b := eccBase m.addr
  match rdStat s m.addr with
  | .never => raiseFirst pageCSV 6 (bump (CSV_CNT 4) (wordWritten b s (putWords m.addr m.words (putEcc b ⟨.good, 0, false⟩ s))))
  | .ue => bump (CSV_CNT 5) (wordWritten b s (putWords m.addr m.words (putEcc b ⟨.poisoned, 0, (eccOf s m.addr).inj⟩ s)))
  | .corrected | .good => wordWritten b s (putWords m.addr m.words (putEcc b ⟨.good, 0, false⟩ s))

/-- Every pending merge runs, oldest first: what a read that waits for a merge finds (R588). -/
def settle (s : State) : State :=
  s.tab.merges.foldl (fun a m => runMerge m a) { s with tab := { s.tab with merges := [] } }

/-- The memory that holds table address `a`: its region, and in the route regions the prefix structure apart from what stands beside it
(R578). -/
def memoryOf (a : Nat) : Nat := 2 * (a / 0x4000000) + b2n (eccSize a == 16)

/-- Words written at `a` inside one ECC word: whole words are stored at once, part of a word through its memory's merge buffer of
16 merges; a write that finds it full waits for its oldest merge (R585), and writes to one word keep their order
(R588). -/
def writeEcc (a : Nat) (ws : List W32) (s : State) : State :=
  if ws.length * 4 = eccSize a then
    let s1 := if s.tab.merges.any fun m => eccBase m.addr == eccBase a then settle s else s
    wordWritten a s1 (putEcc a ⟨.good, 0, false⟩ (putWords a ws s1))
  else
    let own := s.tab.merges.filter fun m => memoryOf m.addr == memoryOf a
    let s1 := if own.length < 16 then s else
      (match own with
        | [] => s
        | m :: _ => runMerge m { s with tab := { s.tab with merges := s.tab.merges.erase m } })
    bump (CSV_CNT 3) { s1 with tab := { s1.tab with merges := s1.tab.merges ++ [⟨a, ws⟩] } }

/-- A host's or a DMA job's write of words from `a`, split at ECC words. -/
def writeTable : Nat → Nat → List W32 → State → State
  | 0, _, _, s => s
  | n + 1, a, ws, s =>
    if ws.isEmpty then s else
      let k := (eccSize a - a % eccSize a) / 4
      writeTable n (a + 4 * k) (ws.drop k) (writeEcc a (ws.take k) s)

/-- The engine's own write of a record through the update access: it rewrites the ECC word with the record in it, so that
the word is GOOD with fresh check symbols; a word that reads as uncorrectable stays POISONED (R587). -/
def engWrite (a : Nat) (ws : List W32) (s : State) : State :=
  let s0 := settle s
  let e := eccOf s0 a
  let e' : Ecc := if ws.length * 4 = eccSize a then ⟨.good, 0, false⟩
    else match rdStat s0 a with
      | .ue => ⟨.poisoned, 0, e.inj⟩
      | .never | .good | .corrected => ⟨.good, 0, false⟩
  wordWritten (eccBase a) s0 (putEcc (eccBase a) e' (putWords a ws s0))

/-- The same record written at offset `o` of regions `r` (Wing E) and `r + 1` (Wing W): both replicas in one clock
(R27). -/
def engWriteBoth (r o : Nat) (ws : List W32) (s : State) : State :=
  engWrite ((r + 1) * 0x4000000 + o) ws (engWrite (r * 0x4000000 + o) ws s)

/-- `n` table words from `a`. -/
def tws (s : State) (a n : Nat) : List W32 := (List.range n).map fun i => tw s (a + 4 * i)

/-- Does `a` lie in a prefix structure that the engine may have built? Its words have no host-visible format (R188), so a read of
one finds a free value once the route block has left OFF or holds a route (log 3). -/
def prefixWord (s : State) (a : Nat) : Bool :=
  let r := a / 0x4000000
  decide (2 ≤ r) && decide (r ≤ 3) && decide (a % 0x4000000 < 0xEC0000) &&
    (!s.lpm.routes.isEmpty || blkState s (pageLPM (r - 2)) != 0)

/-- The table word at `a` as the host or a DMA job reads it. -/
def readTab (a : Nat) (s : State) : W32 × State := if prefixWord s a then drawFree s else (tw s a, s)

/-- Bytes of table words. -/
def wordBytes (ws : List W32) : List Byte := ws.flatMap fun w => leBytes 4 w.toNat

/-- Words of bytes, little-endian, the last one filled with zeros (R9). -/
def bytesWords (bs : List Byte) : List W32 :=
  (List.range ((bs.length + 3) / 4)).map fun i => w32 (leNat (slice bs (4 * i) 4))

/-- The wing whose galleries carry port `i` (chapter 01, the gallery table): its gallery's number divided by four. -/
def portGal (i : Nat) : Nat :=
  if i < 512 then i / 64 else if i = 512 then 0 else if i = 513 then 4 else i - 514

/-- Wing of a port. -/
def portWing (i : Nat) : Nat := portGal i / 4

end Sys2Proof.Machine
end

