-- ==== Sys2Proof/Machine/PortOps.lean ====
section
/-!
DEFINITION. Ports, lanes, the time counter, and the frames inside the engine: which ports exist and are up, which gallery
serves a port, what time a timestamp takes, and how a frame enters, changes and leaves.
-/
namespace Sys2Proof.Machine

/-! ## Time (R418-R421) -/

/-- E in quarter-nanoseconds. -/
def eQ (s : State) : Nat := s.time.e / 51200000000

/-- E in nanoseconds. -/
def eNs (s : State) : Nat := s.time.e / 204800000000

/-- E in microseconds. -/
def eUs (s : State) : Nat := eNs s / 1000

/-- The time counter E + D in quarter-nanoseconds, modulo its 48 bits of seconds. -/
def nowQ (s : State) : Nat := (((eQ s : Int) + s.time.d) % (2 ^ 48 * 4000000000 : Int)).toNat

/-- Seconds of a time in quarter-nanoseconds. -/
def qSec (q : Nat) : Nat := q / 4000000000

/-- The word whose bits [31:2] are nanoseconds and [1:0] quarter-nanoseconds (R109, R422). -/
def qSub (q : Nat) : Nat := q % 4000000000

/-- A time in ns: seconds * 10^9 + nanoseconds (R611, R411). -/
def qNs (q : Nat) : Nat := q / 4

/-- The time counter in ns. -/
def nowNs (s : State) : Nat := qNs (nowQ s)

/-! ## Octets, ports and lanes (R66, R67, R95) -/

/-- Mode code of global octet `o`. -/
def octetMode (s : State) (o : Nat) : Nat := rf s (LNK_OCTET_MODE (o / 8) (o % 8)) 3 0

/-- Lanes per port in a mode; 0 for Off and for codes no octet can hold. -/
def modeLanes (m : Nat) : Nat := [0, 8, 4, 2, 1, 1, 1, 1, 1].getD m 0

/-- Speed of a port in a mode, in Mbit/s. -/
def modeSpeed (m : Nat) : Nat := [0, 1600000, 800000, 400000, 200000, 100000, 50000, 25000, 10000].getD m 0

/-- Is port `i` present: a network port formed by its octet's mode (R67), a service port, or the recirculation port of a
gallery in service (R2)? -/
def portPresent (s : State) (i : Nat) : Bool :=
  if i < 512 then
    let n := modeLanes (octetMode s (i / 8))
    lnkPresent s.part (i / 64) && n != 0 && i % max n 1 == 0
  else if i < 514 then true
  else i < 522 && galPresent s.part (i - 514)

/-- State of a lane by global number. -/
def laneState (s : State) (l : Nat) : Nat := rf s (LNK_LANE_STAT (l / 64) (l % 64)) 2 0

/-- The lane is UP or in RETUNE. -/
def laneUp (s : State) (l : Nat) : Bool := laneState s l == 3 || laneState s l == 4

/-- Is port `i` up (R95)? A recirculation port and port 512 are up while present; port 513 follows the Annex (R550). -/
def portUp (s : State) (i : Nat) : Bool :=
  if i < 512 then
    portPresent s i && (List.range (modeLanes (octetMode s (i / 8)))).all fun j => laneUp s (i + j)
  else if i = 513 then !s.anx.portDown
  else portPresent s i

/-- Speed of port `i` in Mbit/s: its mode's, 400G for a recirculation port (R72), 800G for the Annex (chapter 17) and the
250 Gbit/s of chapter 01's cell table for port 512. -/
def portSpeed (s : State) (i : Nat) : Nat :=
  if i < 512 then modeSpeed (octetMode s (i / 8)) else if i = 512 then 250000 else if i = 513 then 800000 else 400000

/-- The network port whose lanes include global lane `l`. -/
def lanePort (s : State) (l : Nat) : Nat := l - l % max (modeLanes (octetMode s (l / 8))) 1

/-- The gallery that a takeover has put in place of `g`: GS while RGR_SPARE_STAT.target names `g` (R625). -/
def servingGal (s : State) (g : Nat) : Nat := if rf s RGR_SPARE_STAT 19 16 = g ∧ g < 8 then 8 else g

/-- The gallery that carries port `i` now (R23, R28). -/
def galOf (s : State) (i : Nat) : Nat := servingGal s (portGal i)

/-- The gallery whose ports gallery `g` carries: its own, or for GS those of the gallery it replaces (R28); `none` for GS on
standby and for a gallery that GS replaces. -/
def carries (s : State) (g : Nat) : Option Nat :=
  let t := rf s RGR_SPARE_STAT 19 16
  if g = 8 then (if t < 8 then some t else none) else if t = g then none else some g

/-- Ports that gallery `g` carries, in the order of their numbers. -/
def galPorts (s : State) (g : Nat) : List Nat :=
  match carries s g with
  | none => []
  | some t => (List.range 64).map (fun i => 64 * t + i) ++ (if t = 0 then [512] else []) ++ (if t = 4 then [513] else [])
      ++ [514 + t]

/-- Wing of a gallery; GS is in the wing of the gallery it replaces (R28). -/
def galWing (s : State) (g : Nat) : Nat := match carries s g with | some t => t / 4 | none => if g < 8 then g / 4 else 0

/-- Per-port index i of the DOC and EDT pages: 0-63 network, 64 recirculation, 65 service port (chapter 04). -/
def portIndex (i : Nat) : Nat := if i < 512 then i % 64 else if i < 514 then 65 else 64

/-- Is gallery `g` FENCED? -/
def galFenced (s : State) (g : Nat) : Bool := blkState s (pageGAL g) == 4

/-- Largest frame of a port: LNK_PORT_CFG.max_frame between 64 and 12,288, and 12,288 on a recirculation or service port
(R307). -/
def maxFrame (s : State) (i : Nat) : Nat :=
  if i < 512 then max 64 (min 12288 (rf s (LNK_PORT_CFG (i / 64) (i % 64)) 29 16)) else 12288

/-- Gallery `g` has no park pending any more. -/
def dropPark (g : Nat) (s : State) : State :=
  { s with pwr := { s.pwr with parkPend := s.pwr.parkPend.filter (· != g) } }

/-- PWR_GAL_STAT.ramping: the gallery whose DORMANT ramp runs, 15 for none (R639). -/
def ramping (s : State) : Nat := rf s PWR_GAL_STAT 27 24

/-- The ramp of gallery `g`, if it runs, has ended. -/
def endRamp (g : Nat) (s : State) : State := if ramping s = g then wf PWR_GAL_STAT 27 24 15 s else s

/-- Power state of gallery `g` (0 ACTIVE, 1 PARKED, 2 DORMANT, 3 FENCED, 4 WAKING) shown in GAL_STAT and PWR_GAL_STAT (R631); a ramp ends
with any change. -/
def showGalState (g v : Nat) (s : State) : State :=
  endRamp g (wf PWR_GAL_STAT (2 * g + 1) (2 * g) (if v = 4 then 0 else v) (wf (GAL_STAT g) 2 0 v s))

/-- Power state of gallery `g` set; a park pending ends with any change. -/
def setGalState (g v : Nat) (s : State) : State := dropPark g (showGalState g v s)

/-- Power state of gallery `g`. -/
def galState (s : State) (g : Nat) : Nat := rf s (GAL_STAT g) 2 0

/-- Has gallery `g` a park pending, held back by a DMA job into its DOC region (R64, R523, R632)? -/
def parkPending (s : State) (g : Nat) : Bool := s.pwr.parkPend.contains g && galState s g == 0

/-- A wake request to gallery `g`: a PARKED gallery, which has no park pending, starts to wake (R88, R634). -/
def wakeGal (g : Nat) (s : State) : State := if galState s g = 1 then showGalState g 4 s else s

/-- The port counter `n` of R101 for a network port; other ports have none. -/
def portCnt (i n k : Nat) (s : State) : State := if i < 512 then bumpN (LNK_PORT_CNT (i / 64) (i % 64) n) k s else s

/-! ## Frames -/

/-- The frame with a number. -/
def frameOf (s : State) (id : Nat) : Option Frame := s.frames.find? fun f => f.id == id

/-- The frame with `f`'s number replaced by `f`. -/
def putFrame (f : Frame) (s : State) : State :=
  { s with frames := s.frames.map fun x => if x.id = f.id then f else x }

/-- What the FCS check of a frame that is still arriving decides goes to its port's MAC when the frame leaves. -/
def partToMac (id : Nat) (s : State) : State :=
  match frameOf s id with
  | none => s
  | some f =>
    match sGet none f.port s.lnk.rx with
    | none => s
    | some r =>
      if r.frame = some id then
        { s with lnk := { s.lnk with
          rx := sPut none f.port (some { r with frame := none, learn := f.learn, srf := f.srf, counted := f.counted }) s.lnk.rx } }
      else s

/-- The frame with a number leaves the engine. -/
def delFrame (id : Nat) (s : State) : State :=
  let s1 := partToMac id s
  { s1 with frames := s1.frames.filter fun x => x.id != id }

/-- A frame of `bytes` just arrived on port `i` with timestamp `ts`. -/
def newFrame (s : State) (i : Nat) (bytes : List Byte) (whole bad : Bool) (ts : Nat) : Frame :=
  { id := s.nextId, port := i, bytes := bytes, whole := whole, bad := bad, ts := ts, stage := .hold, gal := 0, seq := 0,
    epoch := 0, defAct := false, fv := [], ofs := [], exc := 0, catA := none, catB := none, route := none, vit := [],
    learn := [], staticDrop := false, counted := [], cells := [], desc := [], descPool := 0, tested := 0, charge := 0, area := .none, pri := 0,
    nextHolder := 0, lastDone := false, drained := false, stampUs := 0, colour := 0, ce := false, flowHash := 0,
    dscp := none, pcp := none, srf := none, total := bytes.length, cfg := [], direct := none }

/-- A frame enters, last in order of arrival. -/
def addFrame (f : Frame) (s : State) : State := { s with frames := s.frames ++ [f], nextId := s.nextId + 1 }

/-- Length of a frame from destination address to FCS: its bytes once whole, else the length it will have. -/
def frameLen (f : Frame) : Nat := if f.whole then f.bytes.length else f.total

/-- A frame that its forwarding result drops is counted against its input port (R127, R156, R197, R198); the spec names no register for
this count (log 42). -/
def portDropped (i : Nat) (s : State) : State :=
  { s with bus := { s.bus with portDrop := sPut 0 i (sGet 0 i s.bus.portDrop + 1) s.bus.portDrop } }

/-! ## The register words that a frame's lookups see (R184, R257) -/

/-- The register at `a` as frame `f`'s lookups see it: as it stood when its lookups in that block began. -/
def rdFor (s : State) (f : Frame) (a : Nat) : W32 :=
  match f.cfg.find? fun e => e.1 == a / 0x10000 with
  | some e => sGet (regReset s.part a) a e.2
  | none => rd s a

/-- Field [hi:lo] of the register at `a` as frame `f`'s lookups see it. -/
def rfFor (s : State) (f : Frame) (a hi lo : Nat) : Nat := fld (rdFor s f a) hi lo

/-- Bit `b` of the register at `a` as frame `f`'s lookups see it. -/
def rbFor (s : State) (f : Frame) (a b : Nat) : Bool := bit (rdFor s f a) b

/-- The lookups of frame `f` in the block of page `p` begin: later writes to the page do not reach them. -/
def beginLookups (p : Nat) (s : State) (f : Frame) : Frame :=
  if f.cfg.any fun e => e.1 == p then f
  else { f with cfg := f.cfg ++ [(p, s.bus.regs.filter fun e => e.1 / 0x10000 == p)] }

/-- Bytes in the hold buffer of chiplet `k` (R85): frames of its network ports waiting for dispatch. -/
def hbBytes (s : State) (k : Nat) : Nat :=
  (s.frames.filter fun f => f.stage == .hold && decide (f.port < 512) && f.port / 64 == k).foldl
    (fun a f => a + f.bytes.length) 0

/-- Hold-buffer bytes of one port. -/
def hbPort (s : State) (i : Nat) : Nat :=
  (s.frames.filter fun f => f.stage == .hold && f.port == i).foldl (fun a f => a + f.bytes.length) 0

/-- Descriptors in use in the hold buffer of chiplet `k`. -/
def hbDesc (s : State) (k : Nat) : Nat :=
  (s.frames.filter fun f => f.stage == .hold && decide (f.port < 512) && f.port / 64 == k).length

/-- LNK_HB_STAT.kib_used: KiB rounded up. -/
def hbKib (s : State) (k : Nat) : Nat := ceilDiv (hbBytes s k) 1024

/-- The frame leaves its epoch's drain count (R280). -/
def drainDec (epoch : Nat) (s : State) : State :=
  { s with prv := { s.prv with drain := sPut 0 epoch (sGet 0 epoch s.prv.drain - 1) s.prv.drain } }

/-- A frame that dispatch has stamped leaves before its first Hall cell was written (R280). -/
def discardFrame (f : Frame) (s : State) : State := drainDec f.epoch (delFrame f.id s)

end Sys2Proof.Machine
end

