-- ==== Sys2Proof/Machine/Gate.lean ====
section
/-!
DEFINITION. How a BAR0 access reaches a page (R634, R638, R684, R685): which pages answer, and what an access to a page
that does not answer returns.
-/
namespace Sys2Proof.Machine

/-- Fields of a gallery's three pages that the Registrar copies (R619): register offset `x` of page `p`. -/
def copied (part : OrderCode) (p x : Nat) : Bool :=
  match pageBlk part p with
  | some (.doc, _, _) => x == 0x14 || x == 0x34 || x == 0x100 || (decide (0x400 ≤ x) && decide (x < 0x610))
  | some (.edt, _, _) => x == 0x14 || x == 0x34 || x == 0x100 || (decide (0x400 ≤ x) && decide (x < 0x610))
  | some (.gal, _, _) => x == 0x8 || x == 0x14 || x == 0x2C || x == 0x34 || x == 0x100
  | _ => false

/-- The gallery whose page `p` is. -/
def pageGallery (part : OrderCode) (p : Nat) : Option Nat :=
  match pageBlk part p with
  | some (.doc, _, g) | some (.edt, _, g) | some (.gal, _, g) => some g
  | _ => none

/-- Is offset `x` of page `p` a counter word of R101's kind? -/
def isCounter (part : OrderCode) (p x : Nat) : Bool :=
  match pageBlk part p with
  | none => false
  | some (b, sub, _) => (banksOf b sub).any fun k =>
      let st := max (if k.stride = 0 then 8 * k.kinds else k.stride) 1
      decide (k.off ≤ x) && decide ((x - k.off) / st < k.count) && decide ((x - k.off) % st < 8 * k.kinds)

/-- How an access reaches a register: answered; no register there, or the block is fenced (read as zero, write ignored);
a page that cannot be reached (R684); a retained counter of a DORMANT gallery, which reads but ignores writes (R638). -/
inductive Reach where
  | open
  | shut
  | gone
  | kept
  deriving DecidableEq, Repr

/-! ## Lifecycle state (R665, R670) -/

/-- Does fuse pair, or half-programmed bit, `k` of a fuse store read as blown (R670, R671)? -/
def blown (l : List (Nat × Nat)) (k : Nat) : Bool := sGet 0 k l != 0

/-- Lifecycle state: the highest state whose pair reads blown (R670). -/
def lcState (s : State) : Nat := ((List.range 5).filter fun n => n != 0 && blown s.lcs.pairs n).foldl max 0

/-- Are the test pages open (R665)? -/
def testOpen (s : State) : Bool := lcState s == 0 || lcState s == 3

/-- Is page `p`'s domain held in reset (R645, R651, R708)? The always-on pages run through a lost clock and a thermal
trip. -/
def heldPage (s : State) (p : Nat) : Bool :=
  match s.pwr.held with
  | .none => false
  | .rail => true
  | .clock | .trip => !alwaysOn p

/-- How the register at BAR0 offset `a` answers. The common header answers in every state (R685). -/
def reach (s : State) (a : Nat) : Reach :=
  let p := a / 0x10000
  let x := a % 0x10000
  if heldPage s p then .shut else
  match pageBlk s.part p with
  | none => .shut
  | some (.test, _, _) => if testOpen s then .open else .shut
  | some (.lnk, _, _) => if unreachable s p then .gone else if 0x100 ≤ x ∧ blkState s p = 4 then .shut else .open
  | some (_, _, _) =>
    if x < 0x100 then .open
    else if blkState s p = 4 then .shut
    else match pageGallery s.part p with
      | some g =>
        if galState s g ≠ 2 then .open
        else if copied s.part p x then .open else if isCounter s.part p x then .kept else .shut
      | none => .open

/-- The record of an access to a page that cannot be reached (R684, R694). -/
def noteGone (a : Nat) (s : State) : State := raise pageDEV 2 (recordErr pageDEV 0x09 (a / 0x10000) a s)

/-- A BAR0 access beyond the header of a PARKED gallery's page wakes it (R634). -/
def noteAccess (a : Nat) (s : State) : State :=
  if a % 0x10000 < 0x100 then s else
    match pageGallery s.part (a / 0x10000) with
    | some g => wakeGal g s
    | none => s

/-- A host write to the register at `a` with effect `f`. -/
def hostDo (a : Nat) (f : State → State) (s : State) : State :=
  match reach s a with
  | .open => f (noteAccess a s)
  | .gone => noteGone a s
  | .shut | .kept => noteAccess a s

/-- A host read of the register at `a` with effect `f`, which leaves the answer. -/
def hostAsk (a : Nat) (f : State → State) (s : State) : State :=
  match reach s a with
  | .open | .kept => f (noteAccess a s)
  | .gone => answer 0xFFFFFFFF (noteGone a s)
  | .shut => answer 0 (noteAccess a s)

end Sys2Proof.Machine
end

