-- ==== Sys2Proof/Machine/Hash.lean ====
section
/-!
DEFINITION. The CRC of R147, the bucket it names, and the frame check sequence of IEEE 802.3 (R73).
-/
namespace Sys2Proof.Machine

/-- One bit into the CRC-32 register of R147 (generator 0x04C1_1DB7, most significant bit first). -/
def crcBit (r : Nat) (b : Bool) : Nat :=
  let top := r.testBit 31 != b
  let sh := r * 2 % 2 ^ 32
  if top then sh ^^^ 0x04C11DB7 else sh

/-- One byte into the register, most significant bit first, no reflection (R147). -/
def crcByte (r : Nat) (b : Byte) : Nat :=
  let n := b.toNat
  [7, 6, 5, 4, 3, 2, 1, 0].foldl (fun a i => crcBit a (n.testBit i)) r

/-- The final register over bytes from a seed, no final XOR (R147). -/
def crc (seed : Nat) (bs : List Byte) : Nat := bs.foldl crcByte seed

/-- Bucket of a Catalogue key under a seed: h[17:0] XOR h[31:18] (R147). -/
def bucketOf (seed : Nat) (key : List Byte) : Nat :=
  let h := crc seed (slice key 0 20)
  h % 2 ^ 18 ^^^ h / 2 ^ 18

/-- One bit into the reflected CRC-32 of IEEE 802.3. -/
def fcsBit (r : Nat) : Nat := if r % 2 = 1 then r / 2 ^^^ 0xEDB88320 else r / 2

/-- One byte into the reflected CRC-32. -/
def fcsByte (r : Nat) (b : Byte) : Nat :=
  fcsBit (fcsBit (fcsBit (fcsBit (fcsBit (fcsBit (fcsBit (fcsBit (r ^^^ b.toNat))))))))

/-- The frame check sequence of a frame's bytes without it, as a number whose least significant byte is sent first
(PRESUMED, log 5: IEEE 802.3). -/
def fcsOf (bs : List Byte) : Nat := bs.foldl fcsByte 0xFFFFFFFF ^^^ 0xFFFFFFFF

/-- The four FCS bytes of a frame's bytes. -/
def fcsBytes (bs : List Byte) : List Byte := leBytes 4 (fcsOf bs)

/-- Does a frame's FCS check hold? -/
def fcsGood (bs : List Byte) : Bool := bs.drop (bs.length - 4) == fcsBytes (bs.take (bs.length - 4))

/-- One's complement sum of 16-bit words in network order, folded. -/
def onesSum (bs : List Byte) : Nat :=
  let t := (List.range ((bs.length + 1) / 2)).foldl (fun a i => a + beNat (slice bs (2 * i) 2)) 0
  let u := t % 65536 + t / 65536
  u % 65536 + u / 65536

end Sys2Proof.Machine
end

