-- ==== Sys2Proof/Machine/Flow.lean ====
section
/-!
DEFINITION. Epoch visibility (R144, R259), flow counters (R566-R568), and the read side of the lookup tables' records.
-/
namespace Sys2Proof.Machine

/-- rel(x): distance from the oldest live epoch (R259). -/
def rel (s : State) (x : Nat) : Nat := (x + 256 - s.prv.o) % 256

/-- Next epoch N (R258). -/
def nextEpoch (s : State) : Nat := (s.prv.c + 1) % 256

/-- Live count (R258). -/
def liveCount (s : State) : Nat := (s.prv.c + 256 - s.prv.o) % 256 + 1

/-- Version fields of R142: birth, death, mortal, settled. -/
structure Ver where
  birth : Nat
  death : Nat
  mortal : Bool
  settled : Bool
  deriving DecidableEq, Repr

/-- Born for epoch `e` and not dead for it (R259). -/
def visible (s : State) (v : Ver) (e : Nat) : Bool :=
  (v.settled || decide (rel s v.birth ≤ rel s e)) && !(v.mortal && decide (rel s v.death ≤ rel s e))

/-- Field-vector slot of a frame; a slot never written, or above 127, reads as zero (R110, R192). -/
def slotOf (f : Frame) (n : Nat) : Nat := if n < 128 then sGet 0 n f.fv else 0

/-- Bytes of a slot, [15:8] then [7:0] (R151). -/
def slotBytes (f : Frame) (n : Nat) : List Byte := beBytes 2 (slotOf f n)

/-- Slot selector `i` (0-9) of three SEL registers (R151). -/
def selOf (s : State) (f : Frame) (a0 a1 a2 i : Nat) : Nat :=
  let a := if i < 4 then a0 else if i < 8 then a1 else a2
  rfFor s f a (8 * (i % 4) + 6) (8 * (i % 4))

/-- Slot count of a profile: 0 acts as 1, above 10 as 10. -/
def nslotsOf (n : Nat) : Nat := max 1 (min 10 n)

/-- Concatenated bytes of the first `n` selected slots. -/
def selBytes (s : State) (f : Frame) (a0 a1 a2 n : Nat) : List Byte :=
  (List.range n).flatMap fun i => slotBytes f (selOf s f a0 a1 a2 i)

/-! ## Flow counters -/

/-- Table address of flow record `x` (R568). -/
def flowAddr (x : Nat) : Nat := 0xB * 0x4000000 + 16 * x

/-- One packet and `n` bytes added to flow record `x`: while the Ledger of page 0x2A0 is ON (R575), to a record that can be
read (R569); both counts wrap (R568). -/
def flowAdd (x n : Nat) (s : State) : State :=
  if !isOn s (pageLDG 0) then s
  else
    let a := flowAddr x
    let s0 := settle s
    if readable s0 a then
      let p := (tw s0 a).toNat + (tw s0 (a + 4)).toNat * 2 ^ 32 + 1
      let b := (tw s0 (a + 8)).toNat + (tw s0 (a + 12)).toNat * 2 ^ 32 + n
      engWrite a [w32 p, w32 (p % 2 ^ 34 / 2 ^ 32), w32 b, w32 (b % 2 ^ 46 / 2 ^ 32)] (noteCe a s0)
    else noteRead a s0

/-- A hit of frame `f` on the entry with flow index `x`: counted once per frame and entry (R157, R567), with the frame's
length once its last byte has arrived. Answers the frame with the index noted. -/
def flowHit (f : Frame) (x : Nat) (s : State) : Frame × State :=
  if f.counted.contains x then (f, s)
  else ({ f with counted := f.counted ++ [x] }, if f.whole then flowAdd x f.bytes.length s else s)

/-! ## Catalogue records (R140-R142) -/

/-- Key of an entry. -/
def catKey (s : State) (w x : Nat) : List Byte := wordBytes (tws s (catAddr w x) 5)

/-- Result of an entry. -/
def catResult (s : State) (w x : Nat) : BitVec 64 :=
  BitVec.ofNat 64 ((tw s (catAddr w x + 20)).toNat + (tw s (catAddr w x + 24)).toNat * 2 ^ 32)

/-- Control word (word 7) of an entry. -/
def catCtl (s : State) (w x : Nat) : W32 := tw s (catAddr w x + 28)

/-- Version fields of an entry. -/
def catVer (s : State) (w x : Nat) : Ver :=
  let c := catCtl s w x
  ⟨fld c 7 0, fld c 15 8, bit c 27, bit c 26⟩

/-- valid. -/
def catValid (s : State) (w x : Nat) : Bool := bit (catCtl s w x) 31

/-- Bucket of a key under the seed in use; Wing E's registers govern (R148, R149). -/
def catBucket (s : State) (key : List Byte) : Nat := bucketOf (rd s (CAT_HASH_SEED 0 (rf s (CAT_CFG 0) 17 16))).toNat key

/-- Entries whose match key can answer for `key`: the four of its bucket and the overflow entries whose key equals it and
has not been cleared to match nothing (R152, R158). -/
def catCandidates (s : State) (w : Nat) (key : List Byte) : List Nat :=
  let b := catBucket s key
  [4 * b, 4 * b + 1, 4 * b + 2, 4 * b + 3] ++
    (ovfValid s w).filter fun x => catKey s w x == key && !(s.cat.cleared.contains (w * 8192 + (x - 0x100000)))

/-- The first candidate whose word cannot be read: both halves of the bucket are read, and an overflow image only when its
key matches (R158). -/
def catUnreadable (s : State) (w : Nat) (key : List Byte) : Option Nat :=
  (catCandidates s w key).find? fun x => !readable s (catAddr w x)

/-- Entries of a key that are valid, lowest index first. -/
def catMatches (s : State) (w : Nat) (key : List Byte) : List Nat :=
  (catCandidates s w key).filter fun x => catValid s w x && catKey s w x == key

/-- A store error of the Catalogue (R158, R182: counted on the Wing E page): event bit, count, and the entry index
recorded on the wing's page. -/
def catStoreErr (w x : Nat) (s : State) : State :=
  let a := catAddr w x
  let s1 := if rdStat s a = .never then uninitAt a s else reportFault (pageCAT w) 0x01 x (eccOf s a).inj s
  raise (pageCAT w) 3 (bump (CAT_CNT 0 14) (recordErr (pageCAT w) 0x03 0 x s1))

/-- kind of a result (R146). -/
def kindOf (r : BitVec 64) : Nat := r.toNat / 2 ^ 60
/-- value of a result. -/
def valueOf (r : BitVec 64) : Nat := r.toNat % 2 ^ 48
/-- count of a result. -/
def countOf (r : BitVec 64) : Bool := r.toNat.testBit 52

/-! ## Vitrine records (R215-R220) -/

/-- Width in units of logical bank `b`; Wing E governs (R253). Code 3 holds no entry: 0. -/
def bankWidth (s : State) (b : Nat) : Nat := [1, 2, 4, 0].getD (rf s (VIT_BANK_CFG 0 b) 1 0) 0

/-- Does bank `b` continue the chain of bank `b - 1` (R216, R217)? -/
def chained (s : State) (b : Nat) : Bool :=
  b != 0 && rb s (VIT_BANK_CFG 0 b) 4 && bankWidth s b == bankWidth s (b - 1)

/-- Is bank `b` a head bank? -/
def headBank (s : State) (b : Nat) : Bool := decide (b < 16) && !chained s b

/-- Banks of the chain headed by `h`, in order. -/
def chainFrom (s : State) : Nat → Nat → List Nat
  | 0, _ => []
  | n + 1, b => if b < 16 then (if chained s (b + 1) && b + 1 < 16 then b :: chainFrom s n (b + 1) else [b]) else []

/-- Banks of the chain headed by `h` (R216). -/
def chainOf (s : State) (h : Nat) : List Nat := chainFrom s 16 h

/-- Entries of a chain headed by `h`. -/
def chainLen (s : State) (h : Nat) : Nat :=
  if bankWidth s h = 0 then 0 else (chainOf s h).length * (4096 / bankWidth s h)

/-- Bank and first row of position `p` of a chain (R218). -/
def posBank (s : State) (h p : Nat) : Nat := h + p / (4096 / max (bankWidth s h) 1)
def posRow (s : State) (h p : Nat) : Nat := p % (4096 / max (bankWidth s h) 1) * bankWidth s h

/-- Position of the entry at row `r` of bank `b` in the chain headed by `h` (R218). -/
def rowPos (s : State) (h b r : Nat) : Nat := (b - h) * (4096 / max (bankWidth s h) 1) + r / max (bankWidth s h) 1

/-- Table address of row record `r` of bank `b`, wing `w`. -/
def vitAddr (w b r : Nat) : Nat := (4 + w) * 0x4000000 + 0x20000 * b + 32 * r

/-- Table address of an entry's action. -/
def vitActAddr (w b r : Nat) : Nat := (4 + w) * 0x4000000 + 0x200000 + 0x8000 * b + 8 * r

/-- Table address of policer record `p`. -/
def polAddr (w p : Nat) : Nat := (4 + w) * 0x4000000 + 0x400000 + 32 * p

/-- Control word of a row record (word 5). -/
def vitCtl (s : State) (w b r : Nat) : W32 := tw s (vitAddr w b r + 20)

/-- Version fields of an entry. -/
def vitVer (s : State) (w b r : Nat) : Ver :=
  let c := tw s (vitAddr w b r + 24)
  ⟨fld c 7 0, fld c 15 8, bit (vitCtl s w b r) 30, bit (vitCtl s w b r) 29⟩

/-- Action of an entry. -/
def vitAction (s : State) (w b r : Nat) : BitVec 64 :=
  BitVec.ofNat 64 ((tw s (vitActAddr w b r)).toNat + (tw s (vitActAddr w b r + 4)).toNat * 2 ^ 32)

/-- Key bits of the entry at row `r`: word 5u + n is word n of unit u. -/
def vitKey (s : State) (w b r width : Nat) : List W32 :=
  (List.range width).flatMap fun u => tws s (vitAddr w b (r + u)) 5

/-- First rows of the entries of wing `w` with valid = 1, as (bank, row), in rising order. -/
def vitValid (s : State) (w : Nat) : List (Nat × Nat) :=
  ((s.tab.words.filter fun e =>
    decide (vitAddr w 0 0 ≤ e.1) && decide (e.1 < vitAddr w 16 0) && e.1 % 32 == 20 && bit e.2 31).map
    fun e => ((e.1 - vitAddr w 0 0) / 0x20000, (e.1 - vitAddr w 0 0) % 0x20000 / 32)).filter
    fun br => bankWidth s br.1 != 0 && br.2 % max (bankWidth s br.1) 1 == 0

end Sys2Proof.Machine
end

