-- ==== Sys2Proof/Machine/VltOps.lean ====
section
/-!
DEFINITION. Vault pools and buffers (R447-R452): what a frame takes, which buffer it gets, and the levels of a pool.
-/
namespace Sys2Proof.Machine

/-- Largest stored length a pool takes, and a slot with its record (R448). -/
def poolSize (k : Nat) : Nat := [512, 2048, 12288].getD k 12288
def slotSize (k : Nat) : Nat := [576, 2112, 12352].getD k 12352

/-- Vault bytes of a frame of `len` bytes: its record and its bytes rounded up to 64 (R447). -/
def frameVault (len : Nat) : Nat := 64 + 64 * ceilDiv len 64

/-- Codewords of a frame: its record and its bytes. -/
def frameWords (len : Nat) : Nat := 1 + ceilDiv len 64

/-- State of pseudo-channel `c`: 0 in service, 1 draining, 2 fenced. -/
def pcState (s : State) (c : Nat) : Nat := rf s (VLT_PC_STAT c) 31 30

/-- Does stack `k` accept spill (R470)? -/
def stackTakes (s : State) (k : Nat) : Bool := !rb s VLT_THERM_FLAGS (4 + k)

/-- Buffers of pool `k` in each pseudo-channel (R448). -/
def poolCount (s : State) (k : Nat) : Nat := rf s (VLT_POOL_CFG k) 17 0

/-- Buffers of pool `k` in use in pseudo-channel `c`, and in the engine. -/
def bufsOf (s : State) (k c : Nat) : List Nat := sGet [] (128 * k + c) s.vlt.bufs
def bufsUsed (s : State) (k c : Nat) : Nat := (bufsOf s k c).length
def poolUsed (s : State) (k : Nat) : Nat := s.vlt.bufs.foldl (fun n e => if e.1 / 128 = k then n + e.2.length else n) 0

/-- Pseudo-channels not fenced, and those in service. -/
def pcsLeft (s : State) : Nat := ((List.range 128).filter fun c => pcState s c != 2).length
def pcsServing (s : State) : Nat := ((List.range 128).filter fun c => pcState s c == 0).length

/-- Pool `k`'s capacity in buffers (R476); VLT_POOL_CAP shows its low 24 bits. -/
def poolCapacity (s : State) (k : Nat) : Nat := pcsLeft s * poolCount s k

/-! ### Codewords (R446, R447) -/

/-- Codewords of a slot of pool `k`. -/
def slotWords (k : Nat) : Nat := slotSize k / 64

/-- The first codeword of buffer `b` of pool `k`, by its number in its pseudo-channel: pool 0's slots, then pool 1's, then pool 2's, from
codeword 0 (DESIGN CHOICE, log 44). -/
def bufBase (s : State) (k b : Nat) : Nat :=
  (List.range k).foldl (fun n j => n + poolCount s j * slotWords j) 0 + b * slotWords k

/-- The bank, 0-31 in 8 bank groups of 4, and the row of a codeword: 16 codewords fill a row of 1 KiB, and rows in succession go to banks in
succession (DESIGN CHOICE, log 44). -/
def wordBank (n : Nat) : Nat := n / 16 % 32
def wordRow (n : Nat) : Nat := n / 512 % 16384

/-- Number of bank `b` of pseudo-channel `c`. -/
def bankNo (c b : Nat) : Nat := 32 * c + b

/-- Is a copy being spilled: placed in the Middle, its codewords not yet all in a write queue? -/
def isSpilling (s : State) (id : Nat) : Bool := s.vlt.spilling.any fun e => e.1 == id

/-- A copy that ends is spilled and returned no further. -/
def vaultForget (id : Nat) (s : State) : State :=
  { s with vlt := { s.vlt with
      spilling := s.vlt.spilling.filter fun e => e.1 != id
      reads := s.vlt.reads.filter fun e => e.1 != id
      rq := (s.vlt.rq.map fun e => (e.1, e.2.filter fun r => r.2 != id)).filter fun e => !e.2.isEmpty } }

/-! ### Levels and buffers -/

/-- Is level `l` of pool `k` reached with `used` buffers, or with `slack` percentage points more? A pool without capacity is at
no level (log 28). -/
def vaultAt (s : State) (k used slack l : Nat) : Bool :=
  let w := VLT_POOL_LVL k
  let pct := [rf s w 7 0, rf s w 15 8, min 100 (rf s w 23 16)].getD (l - 1) 100
  let cap := poolCapacity s k
  cap != 0 && (decide (pct * cap ≤ used * 100) || decide (0 < slack ∧ pct * cap < used * 100 + slack * cap))

/-- Pool `k`'s level judged: the highest level reached; it falls below a level only 2 points under it (R452). -/
def judgeVault (k : Nat) (s : State) : State :=
  let used := poolUsed s k
  let old := rf s (VLT_POOL_STAT k) 31 30
  let top := fun (slack m : Nat) => ((List.range (m + 1)).filter fun l => l == 0 || vaultAt s k used slack l).foldl max 0
  let new := max (top 0 3) (top 2 old)
  let s1 := wf (VLT_POOL_STAT k) 31 30 new s
  if old = 0 ∧ 0 < new then raise pageVLT 5 s1 else s1

/-- VLT_POOL_STAT of pool `k` brought up to date. -/
def poolStatus (k : Nat) (s : State) : State := judgeVault k (wf (VLT_POOL_STAT k) 23 0 (poolUsed s k) s)

/-- The lowest free buffer of pool `k` in pseudo-channel `c` (DESIGN CHOICE, log 44). -/
def lowBuf (s : State) (k c : Nat) : Nat := (firstBelow (bufsUsed s k c + 1) fun b => !(bufsOf s k c).contains b).getD 0

/-- Buffer `b` of pool `k` taken in pseudo-channel `c`, which becomes the rotation's last. -/
def vaultTake (k c b : Nat) (s : State) : State :=
  poolStatus k { s with vlt := { s.vlt with
    bufs := sPut [] (128 * k + c) (bufsOf s k c ++ [b]) s.vlt.bufs
    rot := sPut 127 k c s.vlt.rot } }

/-- Buffer `b` of pool `k` released. -/
def vaultGive (k c b : Nat) (s : State) : State :=
  poolStatus k { s with vlt := { s.vlt with bufs := sPut [] (128 * k + c) ((bufsOf s k c).filter (· != b)) s.vlt.bufs } }

/-- Vault bytes of queue `q`'s Middle. -/
def queueVault (s : State) (q : Nat) : Nat :=
  (s.copies.filter fun c => 16 * c.port + c.queue == q && c.vault.isSome).foldl (fun a c =>
    a + match frameOf s c.frame with | some f => frameVault f.bytes.length | none => 0) 0

/-- VLT_Q_STAT_q.kib brought up to date. -/
def vaultBytes (q : Nat) (s : State) : State := wf (VLT_Q_STAT q) 26 0 (ceilDiv (queueVault s q) 1024) s

/-- The pool and pseudo-channel for a frame of `len` bytes: the smallest pool that fits and is below black, and the next
pseudo-channel of its rotation in service, with a free buffer, on a stack that accepts spill (R451). -/
def vaultRoom (s : State) (len : Nat) : Option (Nat × Nat) :=
  [0, 1, 2].findSome? fun k =>
    if poolSize k < len ∨ rf s (VLT_POOL_STAT k) 31 30 = 3 then none
    else
      let last := sGet 127 k s.vlt.rot
      (((List.range 128).map fun i => (last + 1 + i) % 128).find? fun c =>
        pcState s c == 0 && decide (bufsUsed s k c < rf s (VLT_POOL_CFG k) 17 0) && stackTakes s (c / 32)).map fun c => (k, c)

end Sys2Proof.Machine
end

