-- ==== Sys2Proof/Machine/Depot.lean ====
section
/-!
DEFINITION. The Hall's cells and the Depot's accounts (chapter 10): banks and allocation, holders and frees, the chain
walker, accounting areas, warning levels and reactions, XOFF, and the captures a drop makes (chapter 11).
-/
namespace Sys2Proof.Machine

/-! ## Cells and banks (R317-R324) -/

/-- A cell nothing has allocated. -/
def cellNone : CellSt := ⟨false, 0, 0, false, false, 0⟩

/-- Depot side of cell `c`. -/
def cellOf (s : State) (c : Nat) : CellSt := sGet cellNone c s.hal.cells

/-- Depot side of cell `c` stored. -/
def putCell (c : Nat) (k : CellSt) (s : State) : State :=
  { s with hal := { s.hal with cells := sPut cellNone c k s.hal.cells } }

/-- Logical bank of a cell (R317). -/
def bankOf (c : Nat) : Nat := c % 128

/-- Allocated cells of logical bank `b`. -/
def bankUsed (s : State) (b : Nat) : Nat := (s.hal.cells.filter fun e => bankOf e.1 == b && e.2.alloc).length

/-- Is bank `b` out of allocation: under a takeover (R323), or fenced (R324)? -/
def bankShut (s : State) (b : Nat) : Bool := s.hal.taking == some b || s.hal.fenced.contains b

/-- Free cells of bank `b` that can be allocated, now or in the next clock. -/
def bankFree (s : State) (b : Nat) : Nat := if bankShut s b then 0 else 8192 - bankUsed s b

/-- Cells of bank `b` freed in this clock, which the next clock can allocate first (R46). -/
def freedIn (s : State) (b : Nat) : Nat := (s.hal.freed.filter fun c => bankOf c == b).length

/-- Cells of bank `b` that can be allocated in this clock. -/
def bankOpen (s : State) (b : Nat) : Nat := bankFree s b - freedIn s b

/-- Cells that can be allocated in this clock. -/
def allocatable (s : State) : Nat := (List.range 128).foldl (fun a b => a + bankOpen s b) 0

/-- Has bank `b` a cell to allocate and its write port free in this clock (R32)? -/
def bankReady (s : State) (b : Nat) : Bool := bankOpen s b != 0 && !s.hal.wrote.contains b

/-- The bank of a frame's next cell, the frame's previous cells given newest first (R319): the most free cells outside the
previous seven's banks, ties to the lowest bank, among those whose write port is free. -/
def bankPick (s : State) (prev : List Nat) : Option Nat :=
  let out := (prev.take 7).map bankOf
  (List.range 128).foldl (fun best b =>
    if out.contains b || !bankReady s b then best
    else match best with
      | none => some b
      | some x => if bankOpen s x < bankOpen s b then some b else best) none

/-- The third step of R319: any bank with a free write port and a free cell. Which one is a free choice (log 3). -/
def bankAny (s : State) : Option Nat × State :=
  let bs := (List.range 128).filter (bankReady s)
  if bs.isEmpty then (none, s)
  else
    let d := drawChoice bs.length s
    (bs[d.1]?, d.2)

/-- The first row of bank `b`, cyclically from `r`, whose cell can be allocated: at most one row more than are in use, or
were freed in this clock, is looked at. -/
def freeRow (s : State) (b r : Nat) : Nat :=
  let taken := fun (c : Nat) => (cellOf s c).alloc || s.hal.freed.contains c
  match firstBelow (bankUsed s b + freedIn s b + 1) fun i => !taken ((r + i) % 8192 * 128 + b) with
  | some i => (r + i) % 8192
  | none => r

/-- Cell writes go on in the next clock, whose write ports are all free. -/
def nextWrites (s : State) : State :=
  if (List.range 128).any (bankReady s) then s else { s with hal := { s.hal with wrote := [] } }

/-- One cell allocated with its holders (R326); the row within the bank is a free choice (log 3). -/
def allocCell (prev : List Nat) (count residual frame : Nat) (s0 : State) : Option (Nat × State) :=
  let s := nextWrites s0
  let p := match bankPick s prev with
    | some b => (some b, s)
    | none => let q := bankAny s; (q.1, bump (HAL_CNT 14) q.2)
  match p.1 with
  | none => none
  | some b =>
    let d := drawChoice 8192 p.2
    let c := freeRow d.2 b d.1 * 128 + b
    let s0' := { d.2 with hal := { d.2.hal with wrote := d.2.hal.wrote ++ [b] } }
    let s1 := putCell c ⟨true, count, residual, false, false, frame⟩ s0'
    let s2 := bump (HAL_CNT 0) (bump (DPT_CNT 0) s1)
    some (c, addWrap HAL_USE_STAT 20 0 1 (wf DPT_FREE_STAT 20 0 (rf s2 DPT_FREE_STAT 20 0 - 1) s2))

/-- `n` cells allocated after the chain `chain`; answers the whole chain. The caller has checked that they are free. -/
def allocCells (count residual frame : Nat) : Nat → List Nat → State → List Nat × State
  | 0, chain, s => (chain, s)
  | n + 1, chain, s =>
    match allocCell chain.reverse count residual frame s with
    | none => (chain, s)
    | some (c, s1) => allocCells count residual frame n (chain ++ [c]) s1

/-- Cells that `n` bytes take. -/
def cellsFor (n : Nat) : Nat := ceilDiv n 256

/-! ## Warning levels and reactions (R339, R340) -/

/-- Thresholds of pool `k` by level 1-3, 0 where the level is disabled; one below the one beneath it acts as equal to it. -/
def poolThr (s : State) (k : Nat) : List Nat :=
  let a := rf s (DPT_POOL_AMBER k) 20 0
  let r := rf s (DPT_POOL_RED k) 20 0
  let b := rf s (DPT_POOL_BLACK k) 20 0
  let r' := if r = 0 then 0 else max r a
  let b' := if b = 0 then 0 else max b (max a r')
  [a, r', b']

/-- The level a pool is at after its use or its thresholds changed: up to the highest enabled level reached, down only past
a level's hysteresis. -/
def levelFrom (thr : List Nat) (hyst used : Nat) : Nat → Nat
  | 0 => 0
  | l + 1 =>
    let t := thr.getD l 0
    if t ≠ 0 ∧ t ≤ used + hyst then l + 1 else levelFrom thr hyst used l

/-- The level reached by use alone. -/
def levelUp (thr : List Nat) (used : Nat) : Nat := levelFrom thr 0 used 3

/-- Pool `k`'s level judged again; level_up when it rises (R339). -/
def judgeLevel (k : Nat) (s : State) : State :=
  let thr := poolThr s k
  let used := rf s (DPT_POOL_STAT k) 20 0
  let old := rf s (DPT_POOL_STAT k) 31 30
  let new := max (levelUp thr used) (levelFrom thr (rf s (DPT_POOL_REACT k) 31 16) used old)
  let s1 := wf (DPT_POOL_STAT k) 31 30 new s
  if old < new then raise pageDPT 3 s1 else s1

/-- Levels of pool `k` whose reactions are active: the current one and every enabled one below it (R340). -/
def activeLevels (s : State) (k : Nat) : List Nat :=
  let thr := poolThr s k
  [1, 2, 3].filter fun l => decide (l ≤ rf s (DPT_POOL_STAT k) 31 30) && thr.getD (l - 1) 0 != 0

/-- Is reaction bit `b` (0 ecn, 1 xoff, 2 spill, 3 yellow_drop) active for pool `k`? -/
def reacting (s : State) (k b : Nat) : Bool :=
  (activeLevels s k).any fun l => rb s (DPT_POOL_REACT k) (4 * (l - 1) + b)

/-- Is reaction bit `b` active for pool `k` at the level in which the pool ended the previous clock (R335)? -/
def reactedBefore (s : State) (k b : Nat) : Bool :=
  let thr := poolThr s k
  ([1, 2, 3].filter fun l => decide (l ≤ sGet 0 k s.dpt.level) && thr.getD (l - 1) 0 != 0).any fun l =>
    rb s (DPT_POOL_REACT k) (4 * (l - 1) + b)

/-- The pools' levels as a clock leaves them. -/
def latchLevels (s : State) : State :=
  { s with dpt := { s.dpt with
    level := (List.range 4).foldl (fun l k => sPut 0 k (rf s (DPT_POOL_STAT k) 31 30) l) s.dpt.level } }

/-- The lowest active level of pool `k` that carries the xoff reaction. -/
def xoffLevel (s : State) (k : Nat) : Nat :=
  ((activeLevels s k).find? fun l => rb s (DPT_POOL_REACT k) (4 * (l - 1) + 1)).getD 0

/-! ## XOFF (R342, R343) -/

/-- A PFC or pause request to the MAC of port `i`: PFC for priority `p`, or 802.3 pause (as priority 8) while pfc_en is
0. -/
def pauseRequest (i p quanta : Nat) (s : State) : State :=
  let pr := if rb s (LNK_PORT_CFG (i / 64) (i % 64)) 8 then p else 8
  { s with lnk := { s.lnk with pauseReq := s.lnk.pauseReq ++ [(i, pr, quanta)] } }

/-- Is priority `p` of port `i` lossless (R355: never on ports 512-527)? -/
def lossless (s : State) (i p : Nat) : Bool := decide (i < 512) && rb s (DPT_PFC_CFG i) (24 + p)

/-- Is the pair in XOFF? -/
def inXoff (s : State) (i p : Nat) : Bool := rb s (DPT_PFC_STAT i) p

/-- The pair (i, p) enters XOFF, with its request; a pair already in XOFF stays there. -/
def enterXoff (i p : Nat) (s : State) : State :=
  if inXoff s i p then s
  else bump (DPT_CNT 6) (pauseRequest i p (rf s DPT_PFC_TIMER 31 16) (wf (DPT_PFC_STAT i) p p 1 s))

/-- The pair's cell count (R333). -/
def pairCells (s : State) (i p : Nat) : Nat := sGet 0 (8 * i + p) s.dpt.pair

/-- The pair's count changed to `n`; XOFF begins at xoff_cells. -/
def setPair (i p n : Nat) (s : State) : State :=
  let s1 := { s with dpt := { s.dpt with pair := sPut 0 (8 * i + p) n s.dpt.pair } }
  if lossless s1 i p && decide (rf s1 (DPT_PFC_CFG i) 11 0 ≤ n) then enterXoff i p s1 else s1

/-! ## Accounting areas (R333, R334) -/

/-- `n` taken from a register field, not below zero. -/
def fieldDec (a hi lo n : Nat) (s : State) : State := wf a hi lo (rf s a hi lo - n) s

/-- HAL_Q_USE_q less `n`. -/
def queueDec (q n : Nat) (s : State) : State := fieldDec (HAL_Q_USE q) 20 0 n s

/-- Shared use of pool `k` less `n`, and its level judged. -/
def poolDec (k n : Nat) (s : State) : State := judgeLevel k (fieldDec (DPT_POOL_STAT k) 20 0 n s)

/-- `n` cells charged to an area of the Hall. -/
def areaAdd (a : Area) (n : Nat) (s : State) : State :=
  match a with
  | .none | .queue _ => s
  | .port p => { s with dpt := { s.dpt with portUse := sPut 0 p (sGet 0 p s.dpt.portUse + n) s.dpt.portUse } }
  | .pool k q =>
    let s1 := judgeLevel k (addWrap (DPT_POOL_STAT k) 20 0 n s)
    (match q with
      | none => s1
      | some q => { s1 with dpt := { s1.dpt with qShared := sPut 0 q (sGet 0 q s1.dpt.qShared + n) s1.dpt.qShared } })
  | .headroom i => addWrap (DPT_PFC_HDRM i) 31 16 n s

/-- `n` cells returned to an area. -/
def areaSub (a : Area) (n : Nat) (s : State) : State :=
  match a with
  | .none | .queue _ => s
  | .port p => { s with dpt := { s.dpt with portUse := sPut 0 p (sGet 0 p s.dpt.portUse - n) s.dpt.portUse } }
  | .pool k q =>
    let s1 := poolDec k n s
    (match q with
      | none => s1
      | some q => { s1 with dpt := { s1.dpt with qShared := sPut 0 q (sGet 0 q s1.dpt.qShared - n) s1.dpt.qShared } })
  | .headroom i => fieldDec (DPT_PFC_HDRM i) 31 16 n s

/-- `n` cells of a frame's charge returned to its area and its pair. -/
def uncharge (id n : Nat) (s : State) : State :=
  match frameOf s id with
  | none => s
  | some f =>
    let m := min n f.charge
    let s1 := putFrame { f with charge := f.charge - m } s
    setPair f.port f.pri (pairCells s1 f.port f.pri - m) (areaSub f.area m s1)

/-! ## Captures of drops (R370-R372) -/

/-- One record of ring `r` is lost: counted, kept for word 7 of the next record, ring_loss set (R376). -/
def arcLose (r : Nat) (s : State) : State :=
  let s1 := wr (ARC_RING_LOST r) (rd s (ARC_RING_LOST r) + 1) s
  raiseFirst pageARC (8 + r) { s1 with arc := { s1.arc with lost := sPut 0 r (min 65535 (sGet 0 r s1.arc.lost + 1)) s1.arc.lost } }

/-- A capture of a frame made at gallery `g`: its header bytes and what its record will say. -/
def mkCap (s : State) (g : Nat) (f : Frame) (ring reason kind sess len : Nat) (out queue : Nat) (stored : Option (Nat × Nat)) : Cap :=
  { ring := ring, bytes := slice f.bytes 0 128, ns := qNs f.ts, inPort := f.port, outPort := out, queue := queue,
    reason := reason, len := len, kind := kind, sess := sess, wing := portWing f.port, epoch := f.epoch,
    colour := f.colour, f7 := sGet 0 7 f.fv, hash := f.flowHash, stored := stored,
    gal := g, clock := s.time.clock }

/-- A capture offered to the Archive: while ON it waits to be taken; while STOPPING it is counted as lost (R377). -/
def offerCap (c : Cap) (s : State) : State :=
  if isOn s pageARC then { s with arc := { s.arc with pend := s.arc.pend ++ [c] } }
  else if blkState s pageARC = 3 then arcLose c.ring s
  else s

/-- Counts modulo a sampling divisor: selected on every `n`-th, and on each for 0 and 1 (R366). -/
def sampled (n count : Nat) : Bool × Nat := if n ≤ 1 ∨ n ≤ count + 1 then (true, 0) else (false, count + 1)

/-- A drop at gallery `g` for a reason: is it selected in ARC_DROP_CFG, and by the gallery's sampler? -/
def dropPicked (g reason : Nat) (s : State) : Bool × State :=
  if rb s ARC_DROP_CFG (16 + reason) then
    let r := sampled (rf s ARC_DROP_CFG 15 4) (sGet 0 g s.arc.dropCnt)
    (r.1, { s with arc := { s.arc with dropCnt := sPut 0 g r.2 s.arc.dropCnt } })
  else (false, s)

/-- The capture of a drop: its ring is ARC_DROP_CFG's, and `stored` names the cell that the Archive has still to read. -/
def dropCapOf (s : State) (g reason : Nat) (f : Frame) (out queue : Nat) (stored : Option (Nat × Nat)) : Cap :=
  mkCap s g f (rf s ARC_DROP_CFG 2 0) reason 1 0 (frameLen f) out queue stored

/-- The drop capture of a frame, or of one of its copies, for a reason selected in ARC_DROP_CFG, sampled per gallery. -/
def dropCap (g reason : Nat) (f : Frame) (out queue : Nat) (s : State) : State :=
  let x := dropPicked g reason s
  if x.1 then offerCap (dropCapOf s g reason f out queue none) x.2 else x.2

/-! ## Holders and frees (R325-R331) -/

/-- A 16-bit holder identifier: class and copy index (R325). -/
def holderId (cls ix : Nat) : Nat := cls * 1024 + ix % 1024

/-- An address recorded in the DPT page without an error code (R328). -/
def dptAddr (c : Nat) (s : State) : State := wr (H_ERR_ADDR_HI pageDPT) 0 (wr (H_ERR_ADDR_LO pageDPT) (w32 c) s)

/-- Copies of frame `id`. -/
def copiesOf (s : State) (id : Nat) : List Copy := s.copies.filter fun c => c.frame == id

/-- Cells that still belong to frame `id`, its descriptor cells aside. -/
def cellsHeld (s : State) (f : Frame) : Bool :=
  s.hal.cells.any fun e => e.2.alloc && e.2.frame == f.id && !(f.desc.contains e.1)

/-- A cell out of use: back to the free cells, where the next clock can allocate it (R46), or out of service in a fenced bank (R324). -/
def cellBack (c : Nat) (s : State) : State :=
  let s0 := fieldDec HAL_USE_STAT 20 0 1 (putCell c cellNone s)
  let s1 := { s0 with hal := { s0.hal with freed := s0.hal.freed ++ [c] } }
  if s1.hal.fenced.contains (bankOf c) then s1 else addWrap DPT_FREE_STAT 20 0 1 s1

/-- The descriptor cells of a frame return, with their charge (R336). -/
def descBack (f : Frame) (s : State) : State :=
  f.desc.foldl (fun a c => poolDec f.descPool 1 (bump (DPT_CNT 1) (cellBack c a))) s

/-- A frame that no copy, capture or cell holds any more leaves, with its drain event (R60, R280). -/
def tryEnd (id : Nat) (s : State) : State :=
  match frameOf s id with
  | none => s
  | some f =>
    if f.stage != .hall || cellsHeld s f || s.copies.any (fun c => c.frame == id) ||
        s.arc.pend.any (fun k => match k.stored with | some x => x.1 == id | none => false) then s
    else
      let s1 := descBack f (uncharge id f.charge s)
      delFrame id (if f.drained then s1 else drainDec f.epoch s1)

/-- The drain event of a frame at the first holder error on its first cell (R330). -/
def earlyDrain (id c : Nat) (s : State) : State :=
  match frameOf s id with
  | none => s
  | some f =>
    if f.cells.head? = some c ∧ !f.drained then putFrame { f with drained := true } (drainDec f.epoch s) else s

/-- The drain event at the free of a frame's last cell (R60, R280): its copies have all read it, none is in the Vault, and
only their transmission is left; a copy to port 512 counts until its transfer has ended. -/
def lastFree (id : Nat) (s : State) : State :=
  match frameOf s id with
  | none => s
  | some f =>
    if f.lastDone && !f.drained && !cellsHeld s f && !(s.copies.any fun c => c.frame == id && (c.vault.isSome || c.port == 512)) then
      putFrame { f with drained := true } (drainDec f.epoch s)
    else s

/-- A free of cell `c` that names holder `h` (R328, R329). -/
def freeCell (c h : Nat) (s : State) : State :=
  let k := cellOf s c
  if !k.alloc then reportFault pageDPT 0x0C c false (dptAddr c (raise pageDPT 0 (bump (DPT_CNT 3) s)))
  else if 2 ≤ k.count then
    bump (DPT_CNT 2) (putCell c { k with count := k.count - 1, residual := k.residual ^^^ h } s)
  else if h = k.residual then
    let s1 := if k.quar then fieldDec DPT_QUAR_STAT 20 0 1 s else s
    lastFree k.frame (tryEnd k.frame (uncharge k.frame 1 (bump (DPT_CNT 1) (cellBack c s1))))
  else
    let s1 := if k.quar then s else addWrap DPT_QUAR_STAT 20 0 1 s
    let s2 := putCell c { k with quar := true } s1
    let s3 := wr DPT_ERR_HOLDER (w32 (h % 65536 * 65536 + k.residual % 65536)) (dptAddr c (raise pageDPT 1 (bump (DPT_CNT 4) s2)))
    earlyDrain k.frame c (reportFault pageDPT 0x0C c false s3)

/-- CELL_FREE: a holder's free of a cell (R328). -/
def execCellFree (c : CellIx) (h : BitVec 16) (s : State) : Res := .next (freeCell c.val h.toNat s)

/-- The chain a copy reads: its frame's cells (those of its return, for one that has been in the Vault). -/
def chainOfCopy (s : State) (c : Copy) : List Nat :=
  match frameOf s c.frame with
  | some f => f.cells
  | none => []

/-- Cells of its chain that a copy reads: those of the first 64 * trunc bytes for a truncated mirror (R368), else all. -/
def cellsWanted (s : State) (c : Copy) : Nat :=
  if c.kind == .mirror && c.trunc != 0 then min (chainOfCopy s c).length (cellsFor (64 * c.trunc)) else (chainOfCopy s c).length

/-- The copy with its number replaced. -/
def putCopy (c : Copy) (s : State) : State := { s with copies := s.copies.map fun x => if x.id = c.id then c else x }

/-- The copy with a number. -/
def copyOf (s : State) (id : Nat) : Option Copy := s.copies.find? fun c => c.id == id

/-- A copy reads no further: it leaves, the rest of its chain but for the first `keep` cells goes to the walker (R327), and the part of its
queue's charge that no cell handed over carries returns at once. One that is being spilled has read its cells and freed none. -/
def endCopyBut (keep : Nat) (c : Copy) (s : State) : State :=
  let rest := (chainOfCopy s c).drop ((if isSpilling s c.id then 0 else c.rdNext) + keep)
  let w : List Walk := rest.map fun x => ⟨x, c.holder, some (16 * c.port + c.queue)⟩
  let s1 := { s with
    copies := s.copies.filter fun x => x.id != c.id
    dpt := { s.dpt with walk := s.dpt.walk ++ w } }
  let s2 := { s1 with hal := { s1.hal with readQ := s1.hal.readQ.map fun e => (e.1, e.2.filter fun x => x != c.id) } }
  let s3 := match c.vault with
    | some b => vaultBytes (16 * c.port + c.queue) (vaultGive b.1 b.2 c.buf (vaultForget c.id s2))
    | none => s2
  tryEnd c.frame (queueDec (16 * c.port + c.queue) (c.qCells - rest.length) s3)

/-- A copy reads no further. -/
def endCopy (c : Copy) (s : State) : State := endCopyBut 0 c s

/-- One cell of the walker. -/
def walkOne (s : State) : State :=
  match s.dpt.walk with
  | [] => s
  | w :: r =>
    let s1 := { s with dpt := { s.dpt with walk := r } }
    let s2 := match w.queue with
      | some q => queueDec q 1 s1
      | none => s1
    freeCell w.cell w.holder s2

/-- `n` cells of the walker. -/
def walkN : Nat → State → State
  | 0, s => s
  | n + 1, s => walkN n (walkOne s)

/-- CHAIN_WALKER_FREE: one clock of the walker, 32 cells in order of hand-over (R327). -/
def execChainWalkerFree (s : State) : Res := .next (walkN 32 s)

/-- A write of DPT_QUAR_CMD; release = 1 returns every quarantined cell (R329). -/
def releaseQuarantine (v : W32) (s : State) : State :=
  if bit v 0 then
    let qs := s.hal.cells.filter fun e => e.2.quar
    qs.foldl (fun a e =>
      tryEnd e.2.frame (uncharge e.2.frame 1 (bump (DPT_CNT 1) (cellBack e.1 (fieldDec DPT_QUAR_STAT 20 0 1 a)))))
      (bump (DPT_CNT 8) s)
  else s

/-- QUARANTINE_RELEASE (R329). -/
def execQuarantineRelease (v : W32) (s : State) : Res := .next (hostDo DPT_QUAR_CMD (releaseQuarantine v) s)

/-! ## Drops of stored copies -/

/-- Gallery whose samplers see a copy's drop: the one that carries its output port. -/
def copyGal (s : State) (c : Copy) : Nat := galOf s c.port

/-- A stored copy is dropped for a reason (R370, R372) and ends. A capture of the drop reads the copy's first cell, which the copy still
holds until then; one that has freed it already gave its header when it was read. -/
def dropCopy (reason : Nat) (c : Copy) (s : State) : State :=
  match frameOf s c.frame with
  | none => endCopy c s
  | some f =>
    let x := dropPicked (copyGal s c) reason s
    if !x.1 then endCopy c x.2
    else
      let held := c.rdNext == 0 && c.vault.isNone && !f.cells.isEmpty && isOn s pageARC
      let k := dropCapOf s (copyGal s c) reason f c.port c.queue (if held then some (f.id, c.holder) else none)
      endCopyBut (b2n held) c (offerCap k x.2)

/-- A drop counted against an output port that is down or fenced (R59, R361). -/
def countDown (i : Nat) (s : State) : State :=
  wr (DPT_MC_DROP i) (rd s (DPT_MC_DROP i) + 1) (bump (DPT_RPL_CNT 3) s)

/-! ## Leaving XOFF and repeating it -/

/-- Do all three conditions of R342 for leaving XOFF hold, and none for entering it? -/
def xoffMayEnd (s : State) (i p : Nat) : Bool :=
  decide (pairCells s i p ≤ rf s (DPT_PFC_CFG i) 23 12) && rf s (DPT_PFC_HDRM i) 31 16 == 0 &&
  (s.dpt.xoffBy.all fun e => e.1 != 8 * i + p || decide (rf s (DPT_POOL_STAT e.2.1) 31 30 < e.2.2)) &&
  !(lossless s i p && decide (rf s (DPT_PFC_CFG i) 11 0 ≤ pairCells s i p))

/-- XOFF_EXIT: the pair leaves XOFF when its cells, headroom and pool levels allow, and XON is requested (R342, R343):
802.3 pause with quanta 0 only when no priority of the port is in XOFF any more. -/
def execXoffExit (i : NetPort) (p : Fin 8) (s : State) : Res :=
  if inXoff s i p && xoffMayEnd s i p then
    let s1 := wf (DPT_PFC_STAT i) p p 0 s
    let s2 := { s1 with dpt := { s1.dpt with xoffBy := s1.dpt.xoffBy.filter fun e => e.1 != 8 * i.val + p.val } }
    if rb s2 (LNK_PORT_CFG (i / 64) (i % 64)) 8 || rf s2 (DPT_PFC_STAT i) 7 0 == 0 then
      .next (bump (DPT_CNT 7) (pauseRequest i p 0 s2))
    else .next s2
  else .next s

/-- PFC_REFRESH: the Depot repeats the requests of port `i` while XOFF holds (R343). -/
def execPfcRefresh (i : NetPort) (s : State) : Res :=
  let q := rf s DPT_PFC_TIMER 31 16
  let ps := (List.range 8).filter fun p => inXoff s i p
  if rb s (LNK_PORT_CFG (i / 64) (i % 64)) 8 then
    .next (ps.foldl (fun a p => bump (DPT_CNT 6) (pauseRequest i p q a)) s)
  else if ps.isEmpty then .next s
  else .next (bump (DPT_CNT 6) (pauseRequest i 8 q s))

/-! ## Commitment (R332) -/

/-- The field that the register at `a` gives to the committed sum: a pool size, a queue or port reserve, headroom, or the guard. -/
def commitField (a : Nat) : Option (Nat × Nat) :=
  let p := a / 0x10000
  let x := a % 0x10000
  if p = pageDPT then
    if x = 0x100 ∨ (0x140 ≤ x ∧ x < 0x1C0 ∧ x % 0x20 = 0) then some (20, 0)
    else if 0x1000 ≤ x ∧ x < 0x2080 ∧ x % 8 = 4 then some (15, 0) else none
  else if p = pageHAL + 2 ∧ 0x100 ≤ x ∧ x < 0x100 + 4 * 8448 then some (31, 20)
  else if p = pageHAL + 3 ∧ 0x100 ≤ x ∧ x < 0x100 + 4 * 528 then some (15, 0)
  else none

/-- The committed sum: what the fields sum to at reset (pool 0 and the guard), and what each register written since adds to that. -/
def committed (s : State) : Nat :=
  (s.bus.regs.foldl (fun (n : Int) e => match commitField e.1 with
    | some (hi, lo) => n + fld e.2 hi lo - fld (regReset s.part e.1) hi lo
    | none => n) 0x100000).toNat

/-- Does the committed sum exceed the capacity? -/
def overCommitted (s : State) : Bool := decide (rf s DPT_CAP_STAT 20 0 < committed s)

/-- DPT_COMMIT_STAT and overcommit judged again. A sum beyond the field shows its low bits (DESIGN CHOICE, log 42). -/
def judgeCommit (s : State) : State :=
  let s1 := wf DPT_COMMIT_STAT 20 0 (committed s) s
  if overCommitted s1 then raise pageDPT 4 s1 else s1

end Sys2Proof.Machine
end

