-- ==== Sys2Proof/Machine/TsnOps.lean ====
section
/-!
DEFINITION. Gate lists (R424-R432), stream filters and gates (R433-R435) and sequence recovery (R436-R440): what a frame
meets of chapter 13.
-/
namespace Sys2Proof.Machine

/-! ## Gate lists -/

/-- Table address of gate entry `e` of port `i` (R424). -/
def gateAddr (i e : Nat) : Nat := 0xA * 0x4000000 + 0x2000 * i + 8 * e

/-- Operational configuration of port `i`. -/
def operOf (s : State) (i : Nat) : Option Gcl := sGet none i s.tsn.oper

/-- A cycle above one second acts as one second (R427). -/
def gclCycle (g : Gcl) : Nat := min g.cycle 1000000000

/-- Segments of a cycle from `pos` on: gates, start and end; the last entry holds to the cycle's end and an entry past it is
cut there (R425). -/
def gateSegs (cycle : Nat) : Nat → List (Nat × Nat) → List (Nat × Nat × Nat)
  | _, [] => []
  | pos, [(g, _)] => if pos < cycle then [(g, pos, cycle)] else []
  | pos, (g, iv) :: r =>
    if pos < cycle then (g, pos, min (pos + max iv 1) cycle) :: gateSegs cycle (pos + max iv 1) r else []

/-- Entries of a run as gates and interval. -/
def gateRun (s : State) (i : Nat) (g : Gcl) : List (Nat × Nat) :=
  (List.range g.len).map fun n =>
    (fld (tw s (gateAddr i (g.start + n))) 15 0, fld (tw s (gateAddr i (g.start + n) + 4)) 29 0)

/-- The first entry of a run that cannot be read (R442). -/
def gateBad (s : State) (i : Nat) (g : Gcl) : Option Nat :=
  (List.range g.len).find? fun n => !readable s (gateAddr i (g.start + n))

/-- Offset of the time counter into the current cycle, in quarter-nanoseconds and in ns. -/
def gateOffsetQ (s : State) (g : Gcl) : Nat := (((nowQ s : Int) - 4 * g.base) % (4 * max (gclCycle g) 1 : Nat)).toNat
def gateOffset (s : State) (g : Gcl) : Nat := gateOffsetQ s g / 4

/-- Is every gate of port `i` open: no list applied (R425), the block not ON (R443), or an unreadable entry (R442)? -/
def gatesFree (s : State) (i : Nat) : Bool :=
  !isOn s pageTSN || !rb s (TSN_GCL_CTRL i) 0 || (operOf s i).isNone || decide (nowNs s < sGet 0 i s.tsn.openTill)

/-- Quarter-nanoseconds until queue `j`'s gate next closes, from the segments of one cycle and the offset `x` into it in
quarter-nanoseconds; `none` for a gate open in every entry. -/
def closesIn (segs : List (Nat × Nat × Nat)) (cycle x j : Nat) : Option Nat :=
  match (segs ++ segs.map fun e => (e.1, e.2.1 + cycle, e.2.2 + cycle)).find?
      fun e => decide (x < 4 * e.2.2) && !e.1.testBit j with
  | some e => some (4 * e.2.1 - x)
  | none => none

/-- Is queue `j`'s gate of port `i` open for a frame of a charge (R429)? -/
def gateOpen (s : State) (i j charge : Nat) : Bool :=
  gatesFree s i || (match operOf s i with
    | none => true
    | some g =>
      let segs := gateSegs (gclCycle g) 0 (gateRun s i g)
      let x := gateOffset s g
      match segs.find? fun e => decide (e.2.1 ≤ x) && decide (x < e.2.2) with
      | none => true
      | some e => e.1.testBit j && (match closesIn segs (gclCycle g) (gateOffsetQ s g) j with
          | none => true
          | some t => decide (charge * 32000 ≤ t * portSpeed s i)))

/-- A TSN read of an unreadable word at table address `a` (R442). -/
def tsnErr (a : Nat) (s : State) : State :=
  let s1 := if rdStat s a = .never then uninitAt a s else reportFault pageTSN 0x01 a (eccOf s a).inj s
  raise pageTSN 6 (bump (TSN_CNT 3) (recordErr pageTSN 0x03 0 a s1))

/-! ## Stream filters -/

/-- Table addresses of stream filter record `h`, stream gate `g` and recovery function `r`. -/
def sfAddr (h : Nat) : Nat := 0xA * 0x4000000 + 0x500000 + 16 * h
def sgAddr (g : Nat) : Nat := 0xA * 0x4000000 + 0x540000 + 64 * g
def srfAddr (r : Nat) : Nat := 0xA * 0x4000000 + 0x550000 + 32 * r

/-- Is stream gate `g` open at a frame's ingress timestamp (R435)? A gate whose cycle_ns is 0 is left open by no rule: its
state is a free value (log 3). -/
def streamGate (g ts : Nat) (s : State) : Bool × State :=
  let a := sgAddr g
  match [a, a + 16, a + 32].find? fun x => !readable s x with
  | some x => (true, tsnErr x s)
  | none =>
  let s := noteCes [a, a + 16, a + 32] s
  if !bit (tw s a) 31 then (true, s)
  else
    let cycle := fld (tw s a) 29 0
    if cycle = 0 then let d := drawFree s; (bit d.1 0, d.2)
    else
      let x := ((((qNs ts % 1000000000 : Nat) : Int) - fld (tw s (a + 4)) 29 0) % (cycle : Int)).toNat
      let run := (List.range 8).map fun n => (b2n (bit (tw s (a + 8 + 4 * n)) 31), fld (tw s (a + 8 + 4 * n)) 29 0)
      match (gateSegs cycle 0 run).find? fun e => decide (e.2.1 ≤ x) && decide (x < e.2.2) with
      | some e => (e.1 == 1, s)
      | none => (true, s)

/-- Outcome of sequence recovery. -/
inductive SrfRes where
  | pass | duplicate | rogue
  deriving DecidableEq, Repr

/-- A recovery function's engine state stored. -/
def srfPut (r seq : Nat) (any : Bool) (hist dup rogue : Nat) (s : State) : State :=
  let a := srfAddr r
  engWrite (a + 4) [w32 (seq % 65536 * 65536 + b2n any), w32 (hist % 2 ^ 32), w32 (hist / 2 ^ 32 % 2 ^ 32),
    w32 (hist / 2 ^ 64 % 2 ^ 32), w32 (hist / 2 ^ 96 % 2 ^ 32), w32 dup, w32 rogue] s

/-- History length of a recovery function (R436). -/
def srfLen (s : State) (r : Nat) : Nat :=
  let h := fld (tw s (srfAddr r)) 30 24
  if h = 0 then 128 else if h = 1 then 2 else min h 128

/-- The first word of a recovery function that cannot be read (R442). -/
def srfBad (s : State) (r : Nat) : Option Nat := [srfAddr r, srfAddr r + 16].find? fun a => !readable s a

/-- Its 128-bit history. -/
def srfHist (s : State) (r : Nat) : Nat :=
  let a := srfAddr r
  (tw s (a + 8)).toNat + (tw s (a + 12)).toNat * 2 ^ 32 + (tw s (a + 16)).toNat * 2 ^ 64 + (tw s (a + 20)).toNat * 2 ^ 96

/-- A function has passed a frame (R437): counted, and the time of the pass on E kept for the reset timer (R439). -/
def srfPassed (r : Nat) (s : State) : State :=
  bump (TSN_CNT 4) { s with tsn := { s.tsn with srfLast := sPut 0 r (eNs s) s.tsn.srfLast } }

/-- recover(R, n) of R437, with the counts of its outcome. -/
def recover (r n : Nat) (s : State) : SrfRes × State :=
  let a := srfAddr r
  let w1 := tw s (a + 4)
  let seq := fld w1 31 16
  let hist := srfHist s r
  let h := srfLen s r
  let dup := (tw s (a + 24)).toNat
  let rog := (tw s (a + 28)).toNat
  if bit w1 0 then (.pass, srfPassed r (srfPut r n false 1 dup rog s))
  else
    let d := signed 16 (n + 65536 - seq)
    if (h : Int) ≤ d ∨ d ≤ -(h : Int) then
      (.rogue, bump (TSN_CNT 6) (srfPut r seq false hist dup ((rog + 1) % 2 ^ 32) s))
    else if 0 < d then
      (.pass, srfPassed r (srfPut r n false ((hist * 2 ^ d.toNat + 1) % 2 ^ 128) dup rog s))
    else
      let b := (-d).toNat
      if hist.testBit b then (.duplicate, bump (TSN_CNT 5) (srfPut r seq false hist ((dup + 1) % 2 ^ 32) rog s))
      else (.pass, srfPassed r (srfPut r seq false (hist + 2 ^ b) dup rog s))

/-- A passed frame proves bad: the bit of its sequence number is cleared unless recov_seq has moved by the history length
or more (R440). -/
def srfUnpass (x : Option (Nat × Nat)) (s : State) : State :=
  match x with
  | none => s
  | some (r, n) =>
    let s0 := settle s
    let a := srfAddr r
    match srfBad s0 r with
    | some x => tsnErr x s0
    | none =>
      let seq := fld (tw s0 (a + 4)) 31 16
      let d := signed 16 (seq + 65536 - n)
      let hist := srfHist s0 r
      if 0 ≤ d ∧ d < (srfLen s0 r : Int) ∧ hist.testBit d.toNat then
        srfPut r seq (bit (tw s0 (a + 4)) 0) (hist - 2 ^ d.toNat) (tw s0 (a + 24)).toNat (tw s0 (a + 28)).toNat s0
      else s0

end Sys2Proof.Machine
end

