-- ==== Sys2Proof/Machine/TmgOps.lean ====
section
/-!
DEFINITION. The traffic manager's arithmetic (chapter 12): classification, shapers and the calendar wheel, eligibility, tags,
selection, and the discard of head copies. And the template version a frame sees (chapter 09).
-/
namespace Sys2Proof.Machine

/-! ## Classification (R382-R384) -/

/-- The queue TMG_CLS_i gives a frame (R383). -/
def classify (s : State) (f : Frame) : Nat :=
  let c := rd s (TMG_CLS f.port)
  let slot := fld c 14 8
  if f.exc ≠ 0 ∨ slot < 8 then fld c 19 16
  else
    let v := slotOf f slot
    match fld c 1 0 with
    | 1 => let p := v / 8192; rf s TMG_PCP_MAP (4 * p + 3) (4 * p)
    | 2 => let d := v % 256 / 4; rf s (TMG_DSCP_MAP (d / 8)) (4 * (d % 8) + 3) (4 * (d % 8))
    | _ => fld c 19 16

/-- Priority DPT_PFC_MAP gives a queue number (R333, R396). -/
def queuePri (s : State) (j : Nat) : Nat := rf s (DPT_PFC_MAP (j / 8)) (4 * (j % 8) + 2) (4 * (j % 8))

/-! ## Shapers (R398-R402) -/

/-- Node numbers: queue q, group 8448 + g, port 10560 + i. -/
def grpNode (g : Nat) : Nat := 8448 + g
def portNode (i : Nat) : Nat := 10560 + i

/-- RATE, BURST and STAT registers of a node. -/
def rateReg (n : Nat) : Nat :=
  if n < 8448 then TMG_Q_SHP_RATE n else if n < 10560 then TMG_GRP_SHP_RATE (n - 8448) else TMG_PORT_SHP_RATE (n - 10560)
def burstReg (n : Nat) : Nat :=
  if n < 8448 then TMG_Q_SHP_BURST n else if n < 10560 then TMG_GRP_SHP_BURST (n - 8448) else TMG_PORT_SHP_BURST (n - 10560)
def tokReg (n : Nat) : Nat :=
  if n < 8448 then TMG_Q_SHP_STAT n else if n < 10560 then TMG_GRP_SHP_STAT (n - 8448) else TMG_PORT_SHP_STAT (n - 10560)

/-- Rate in Mbit/s; above 1,600,000 acts as that (R399); 0 is unshaped. -/
def rateOf (s : State) (n : Nat) : Nat := min 1600000 (rf s (rateReg n) 20 0)

/-- Burst in bytes. -/
def burstOf (s : State) (n : Nat) : Nat := rf s (burstReg n) 23 0

/-- A bucket as reset leaves it: full to the reset burst. -/
def bucketReset : Bucket := ⟨0x3000 * 32000, 0⟩

/-- Bucket of a node. -/
def bucketAt (s : State) (n : Nat) : Bucket := sGet bucketReset n s.tmg.buckets

/-- Bucket stored, with T in whole bytes rounded towards zero in its STAT register. -/
def putBucket (n : Nat) (b : Bucket) (s : State) : State :=
  wr (tokReg n) (w32 (unsigned 32 (b.t.tdiv 32000)))
    { s with tmg := { s.tmg with buckets := sPut bucketReset n b s.tmg.buckets } }

/-- T after the tokens earned since the last update, limited to the burst (R398): a rate of r Mbit/s earns r / 8,000 bytes
a ns. -/
def earned (s : State) (n : Nat) : Int :=
  let b := bucketAt s n
  min ((burstOf s n : Int) * 32000) (b.t + (rateOf s n : Int) * 4 * ((eNs s - b.last : Nat) : Int))

/-- Is the node on the calendar wheel? -/
def onWheel (s : State) (n : Nat) : Bool := s.tmg.wheel.any fun e => e.2 == n

/-- The node taken off the wheel. -/
def offWheel (n : Nat) (s : State) : State := { s with tmg := { s.tmg with wheel := s.tmg.wheel.filter fun e => e.2 != n } }

/-- Next eligible time of a shaper with tokens `t` < 0 at rate `r`: the first multiple of 4 ns by which the debt is earned
(R401). -/
def nextEligible (now r : Nat) (t : Int) : Nat := 4 * ceilDiv (now * (4 * r) + (-t).toNat) (16 * r)

/-- A shaper in debt enters the wheel at its next eligible time (R400). -/
def toWheel (n : Nat) (s : State) : State :=
  let t := (bucketAt s n).t
  if t < 0 ∧ rateOf s n ≠ 0 then
    let s1 := offWheel n s
    { s1 with tmg := { s1.tmg with wheel := s1.tmg.wheel ++ [(nextEligible (eNs s) (rateOf s n) t, n)] } }
  else s

/-- A selection's charge in bytes taken from a node's shaper; an unshaped node keeps its T (R400, R408). -/
def chargeShaper (n : Nat) (charge : Int) (s : State) : State :=
  if rateOf s n = 0 then s
  else toWheel n (putBucket n ⟨earned s n - charge * 32000, eNs s⟩ s)

/-- Is a node's shaper eligible (R402)? -/
def shaperOk (s : State) (n : Nat) : Bool := rateOf s n == 0 || (decide (0 ≤ (bucketAt s n).t) && !onWheel s n)

/-! ## Queues -/

/-- Copies waiting in queue `q`, oldest first. -/
def queued (s : State) (q : Nat) : List Copy :=
  s.copies.filter fun c => c.stage == .queued && 16 * c.port + c.queue == q

/-- Head copy of a queue. -/
def headCopy (s : State) (q : Nat) : Option Copy := s.copies.find? fun c => c.stage == .queued && 16 * c.port + c.queue == q

/-- Is queue `q` in vault mode? -/
def inVault (s : State) (q : Nat) : Bool := rb s (VLT_Q_STAT q) 31

/-- Stored length of a copy as R389 charges it. -/
def copyLen (s : State) (c : Copy) (len : Nat) : Nat :=
  let _ := s
  if c.kind == .mirror && c.trunc != 0 && decide (64 * c.trunc < len) then 64 * c.trunc + 4 else len

/-- Charge of a copy of a frame of `len` bytes: its stored length plus the output port's signed ovh (R389). -/
def chargeOf (s : State) (c : Copy) (len : Nat) : Int := copyLen s c len + signed 8 (rf s (TMG_PORT_CFG c.port) 7 0)

/-- Length of a copy's frame. -/
def lenNow (s : State) (c : Copy) : Nat := match frameOf s c.frame with | some f => frameLen f | none => 0

/-- Received pause that holds queue `q` (R396). -/
def pausedQ (s : State) (q : Nat) : Bool :=
  let m := sGet 0 (q / 16) s.tmg.paused
  m.testBit 8 || m.testBit (queuePri s (q % 16))

/-- A frame whose last cell is written and whose FCS was good may be sent whole (R41). -/
def stored (s : State) (c : Copy) : Bool :=
  match frameOf s c.frame with
  | some f => f.lastDone && f.whole && !f.bad
  | none => false

/-- Is a stored frame older than its queue's age class allows (R348)? -/
def staleFrame (s : State) (f : Frame) (q : Nat) : Bool :=
  let lim := min 1000000 (rf s (HAL_AGE_CFG (rf s (HAL_Q_CFG q) 11 8)) 19 0)
  lim != 0 && decide (lim < (eUs s + 2 ^ 32 - f.stampUs % 2 ^ 32) % 2 ^ 32)

/-- Role of submission ring `r` (R502): 4 for the table role, else HIF_SQ_CFG.role. -/
def sqRole (s : State) (r : Nat) : Nat := if rb s (PRV_CMD_RINGS 0) r then 4 else rf s (HIF_SQ_CFG r) 30 29

/-- Is a completion or event ring full (R512)? -/
def ringFull (cons prod : W32) : Bool := fld cons 15 0 == fld prod 15 0 && bit cons 16 != bit prod 16

/-- Event ring of queue `j` of port 512 (HIF_PUNT_MAP). -/
def puntRing (s : State) (j : Nat) : Nat := rf s (HIF_PUNT_MAP (j / 4)) (8 * (j % 4) + 4) (8 * (j % 4))

/-- Are event ring `e` and its buffer ring enabled, the latter in the buffer role (R524)? -/
def puntOk (s : State) (e : Nat) : Bool :=
  let b := rf s (HIF_EQ_CFG e) 20 16
  rb s (HIF_EQ_CFG e) 31 && rb s (HIF_SQ_CFG b) 31 && sqRole s b == 2

/-- May punted frames move: HIF ON and memory requests allowed (R533, R535)? -/
def hostAwake (s : State) : Bool := isOn s pageHIF && memOk s

/-- Channel of queue `j` of port 513 (ANX_TX_MAP). -/
def anxChan (s : State) (j : Nat) : Nat := rf s (ANX_TX_MAP (j / 8)) (4 * (j % 8) + 3) (4 * (j % 8))

/-- Has the Annex link credit to send on channel `c` for a use (1 frame, 2 record; R543, R547)? -/
def anxCredit (s : State) (use c : Nat) : Bool :=
  isOn s pageANX && rf s ANX_LINK_STAT 1 0 == 3 && rf s (ANX_CHAN_CFG c) 31 30 == use && rf s (ANX_CHAN_STAT c) 31 16 != 0

/-- Queues of ports 512 and 513 that the traffic manager treats as held (R524, R533, R548, R550); a frame that a reset found queued on
port 512 stays until its rings are enabled (R499). -/
def extHeld (s : State) (q : Nat) : Bool :=
  if q / 16 = 512 then
    let e := puntRing s (q % 16)
    !hostAwake s || (!puntOk s e && (headCopy s q).any fun c => s.hif.kept.contains c.id) || (puntOk s e && (ringFull (rd s (HIF_EQ_CONS e)) (rd s (HIF_EQ_PROD e)) || (sGet [] e s.hif.bufs).isEmpty))
  else if q / 16 = 513 then !anxCredit s 1 (anxChan s (q % 16))
  else false

/-- Is the first cell of a copy's frame in the Hall (R387)? -/
def firstCell (s : State) (c : Copy) : Bool :=
  match frameOf s c.frame with
  | some f => f.whole || decide (256 ≤ f.bytes.length)
  | none => false

/-- Does the pacing of a recirculation port let it start a frame now (R72)? -/
def paceOpen (s : State) (i : Nat) : Bool := decide (i < 514) || decide (sGet 0 i s.tmg.pace ≤ s.time.e)

/-- The pacing of a recirculation port moved to `e`. -/
def setPace (i e : Nat) (s : State) : State :=
  if i < 514 then s else { s with tmg := { s.tmg with pace := sPut 0 i e s.tmg.pace } }

/-- Eligibility of queue `q` (R387), its received pause aside. -/
def queueReady (s : State) (q : Nat) : Bool :=
  match headCopy s q with
  | none => false
  | some c =>
    c.seg == .head && firstCell s c && !rb s (TMG_Q_CFG q) 11 && !extHeld s q && shaperOk s q &&
    gateOpen s (q / 16) (q % 16) (chargeOf s c (lenNow s c)).toNat

/-- Eligibility of queue `q` (R387). -/
def queueEligible (s : State) (q : Nat) : Bool := !pausedQ s q && queueReady s q

/-- Queues of group `g` (= 4 * port + group). -/
def groupQueues (s : State) (g : Nat) : List Nat :=
  ((List.range 16).map fun j => 16 * (g / 4) + j).filter fun q => rf s (TMG_Q_CFG q) 5 4 == g % 4

/-- Eligibility of group `g` given which queues are (R387). -/
def groupEligible (s : State) (okQ : Nat → Bool) (g : Nat) : Bool := shaperOk s (grpNode g) && (groupQueues s g).any okQ

/-! ## Tags (R389-R392) -/

/-- The later of two 48-bit tags, by their signed difference. -/
def tagMax (a b : Nat) : Nat := if 0 ≤ signed 48 (a + 2 ^ 48 - b) then a else b

/-- The earlier of two tags? -/
def tagLt (a b : Nat) : Bool := decide (signed 48 (a + 2 ^ 48 - b) < 0)

/-- The scheduler that a node is a child of, and its priority level there. -/
def nodeSched (s : State) (n : Nat) : Nat :=
  if n < 8448 then 4 * (n / 16) + rf s (TMG_Q_CFG n) 5 4 else 2112 + (n - 8448) / 4
def nodePri (s : State) (n : Nat) : Nat := if n < 8448 then rf s (TMG_Q_CFG n) 10 8 else rf s (TMG_GRP_CFG (n - 8448)) 2 0
def nodeWeight (s : State) (n : Nat) : Nat :=
  max 1 (if n < 8448 then rf s (TMG_Q_CFG n) 31 16 else rf s (TMG_GRP_CFG (n - 8448)) 31 16)

/-- Virtual time of a node's priority level. -/
def vtOf (s : State) (n : Nat) : Nat := sGet 0 (8 * nodeSched s n + nodePri s n) s.tmg.vt

/-- Start tag of a node. -/
def startTag (s : State) (n : Nat) : Nat := sGet 0 n s.tmg.tagS

/-- S = max(V_l, S) (R390). -/
def catchUp (n : Nat) (s : State) : State :=
  { s with tmg := { s.tmg with tagS := sPut 0 n (tagMax (vtOf s n) (startTag s n)) s.tmg.tagS } }

/-- A node judged: it is in `elig` from the moment its conditions hold, and its tag catches up then (R390, R391). -/
def judgeNode (n : Nat) (ok : Bool) (s : State) : State :=
  let was := s.tmg.elig.contains n
  if ok && !was then
    let s1 := catchUp n s
    { s1 with tmg := { s1.tmg with elig := s1.tmg.elig ++ [n] } }
  else if !ok && was then { s with tmg := { s.tmg with elig := s.tmg.elig.filter (· != n) } }
  else s

/-- Every queue and group of port `i` judged. -/
def judgePort (i : Nat) (s : State) : State :=
  let s1 := (List.range 16).foldl (fun a j => judgeNode (16 * i + j) (queueEligible s (16 * i + j)) a) s
  (List.range 4).foldl (fun a g =>
    judgeNode (grpNode (4 * i + g)) (groupEligible s (fun q => s1.tmg.elig.contains q) (4 * i + g)) a) s1

/-- The child a scheduler chooses: highest priority, then smallest start tag, then lowest number (R388). -/
def chooseChild (s : State) (cs : List Nat) : Option Nat :=
  cs.foldl (fun b n => match b with
    | none => some n
    | some m =>
      if nodePri s m < nodePri s n then some n
      else if nodePri s n < nodePri s m then some m
      else if tagLt (startTag s n) (startTag s m) then some n else some m) none

/-- The tags of a chosen child (R390). -/
def tagChosen (n : Nat) (charge : Int) (s : State) : State :=
  let l := 8 * nodeSched s n + nodePri s n
  let st := startTag s n
  let fin := (((st : Int) + charge * 65536 / (nodeWeight s n : Int)) % (2 ^ 48 : Int)).toNat
  { s with tmg := { s.tmg with
      vt := sPut 0 l st s.tmg.vt
      tagF := sPut 0 n fin s.tmg.tagF
      tagS := sPut 0 n fin s.tmg.tagS } }

/-! ## Selection (R395) -/

/-- Sojourn of a frame in us, saturating (R411, R413). -/
def sojourn (s : State) (f : Frame) : Nat := min 0xFFFF ((eUs s + 2 ^ 32 - f.stampUs % 2 ^ 32) % 2 ^ 32)

/-- A copy of a frame of `len` bytes is selected: charged to its three shapers, the tags moved, counted, its sojourn
recorded; it is handed to the Editor, behind the copies selected before it (R395, R413, R416). -/
def selectCopy (c : Copy) (len : Nat) (s : State) : State :=
  let q := 16 * c.port + c.queue
  let g := 4 * c.port + rf s (TMG_Q_CFG q) 5 4
  let ch := chargeOf s c len
  let s1 := tagChosen (grpNode g) ch (tagChosen q ch s)
  let s2 := chargeShaper (portNode c.port) ch (chargeShaper (grpNode g) ch (chargeShaper q ch s1))
  let s3 := bumpN (TMG_CNT 1) ch.toNat (bump (TMG_CNT 0) s2)
  let s4 := match frameOf s c.frame with
    | some f => if rf s3 (TMG_Q_SOJ_MAX q) 15 0 < sojourn s f then wf (TMG_Q_SOJ_MAX q) 15 0 (sojourn s f) s3 else s3
    | none => s3
  { s4 with copies := (s4.copies.filter fun x => x.id != c.id) ++ [{ c with stage := .selected }] }

/-! ## Head discards (R349, R397) -/

/-- One stale head copy discarded: of the lowest queue of port `i` that has one. -/
def discardStale (i : Nat) (s : State) : State :=
  match (List.range 16).findSome? fun j =>
      match headCopy s (16 * i + j) with
      | some c => (match frameOf s c.frame with
        | some f => if c.seg == .head && staleFrame s f (16 * i + j) then some c else none
        | none => none)
      | none => none with
  | none => s
  | some c =>
    let q := 16 * i + c.queue
    let s1 := wr (HAL_Q_STALE q) (rd s (HAL_Q_STALE q) + 1) (bump (HAL_CNT 9) (bump (TMG_CNT 2) s))
    dropCopy 0x0A c (raiseFirst pageHAL 4 s1)

/-- Stale heads of port `i` discarded, each in the clock it reaches the head: at most `n`. -/
def discardStales (i : Nat) : Nat → State → State
  | 0, s => s
  | n + 1, s => discardStales i n (discardStale i s)

/-- Is port `i` carried by a fenced gallery, or cut off in a takeover that has not switched its link (R29, R361)? -/
def portFenced (s : State) (i : Nat) : Bool := galFenced s (galOf s i)

/-- One head copy of port `i` discarded while the port is absent (flushed, R70) or down or fenced (R59): of the lowest queue
that has one. -/
def discardDown (i : Nat) (s : State) : State :=
  let absent := !portPresent s i
  if absent || !portUp s i || portFenced s i then
    match (List.range 16).findSome? fun j => match headCopy s (16 * i + j) with
        | some c => if c.seg == .head then some c else none
        | none => none with
    | none => s
    | some c =>
      let s1 := bump (TMG_CNT 2) s
      if absent then dropCopy 0x0E c (portCnt i 14 1 s1)
      else dropCopy 0x09 c (countDown i s1)
  else s

/-! ## Template versions (R292-R295) -/

/-- Table address of version `v` of template `t` in wing `w`'s region. -/
def tplAddr (w t v : Nat) : Nat := (6 + w) * 0x4000000 + 512 * t + 256 * v

/-- Is version `v` of template `t` visible for epoch `e`? -/
def tplVis (s : State) (w t e v : Nat) : Bool :=
  let c := tw s (tplAddr w t v)
  bit c 31 && visible s ⟨fld c 7 0, fld c 15 8, bit c 30, bit c 29⟩ e

/-- The version of a template a frame sees: version 0 when both are visible (R294). -/
def tplVersion (s : State) (w t e : Nat) : Option Nat :=
  if tplVis s w t e 0 then some 0 else if tplVis s w t e 1 then some 1 else none

/-- A 64-bit field operation of a template version. -/
def tplOp (s : State) (a n : Nat) : Nat := (tw s (a + 16 + 8 * n)).toNat + (tw s (a + 20 + 8 * n)).toNat * 2 ^ 32

/-- Does a template hold a LEN16 operation (R308)? -/
def hasLen16 (s : State) (w t e : Nat) : Bool :=
  t != 0 && decide (t < 8192) && (match tplVersion s w t e with
    | none => false
    | some v => (List.range 8).any fun n => tplOp s (tplAddr w t v) n / 2 ^ 60 == 4)

/-! ## Cut-through (R40, R308, R346, R431, R525, R635) -/

/-- May a copy of a frame that is still arriving be cut through in the clock of its enqueue? Besides the conditions of R40:
ct_en of the output port, no LEN16 operation, not to port 512 or 513, the output gallery ACTIVE with its Editor ON, the
traffic manager ON, and no pause or hold on the queue. -/
def cutOk (s : State) (f : Frame) (c : Copy) : Bool :=
  let i := c.port
  let q := 16 * i + c.queue
  let g := galOf s i
  !f.whole && (queued s q).isEmpty && !inVault s q &&
  !(s.copies.any fun x => x.port == i && x.stage == .sending) && paceOpen s i &&
  decide (portSpeed s i ≤ portSpeed s f.port) &&
  gateOpen s i c.queue (chargeOf s c (maxFrame s f.port)).toNat && shaperOk s q &&
  shaperOk s (grpNode (4 * i + rf s (TMG_Q_CFG q) 5 4)) && shaperOk s (portNode i) &&
  (decide (f.port < 512) || (decide (514 ≤ f.port) && decide (f.port < 522))) &&
  rb s (HAL_PORT_CFG i) 31 && i != 512 && i != 513 &&
  (c.plain || !hasLen16 s (galWing s g) c.template f.epoch) &&
  galState s g == 0 && isOn s (pageEDT g) && isOn s pageTMG && !pausedQ s q && !rb s (TMG_Q_CFG q) 11

end Sys2Proof.Machine
end

