-- ==== Sys2Proof/Machine/HifOps.lean ====
section
/-!
DEFINITION. What every user of the host interface shares: host memory as the engine writes it, completion and event entries
(R511-R514), interrupt moderation (R530), and completions that wait or are held (R513, R533).
-/
namespace Sys2Proof.Machine

/-- Bytes written to host memory at an address. -/
def hostWrite : Nat → List Byte → State → State
  | _, [], s => s
  | a, b :: r, s => hostWrite (a + 1) r { s with hif := { s.hif with mem := sPut none a (some b) s.hif.mem } }

/-- Entries of a ring: 2^size_log2 within 4-16 (R504). -/
def ringSize (cfg : W32) : Nat := 2 ^ max 4 (min 16 (fld cfg 4 0))

/-- Registers of a completion ring (`false`) or event ring (`true`). -/
def outCfg (eq : Bool) (r : Nat) : Nat := if eq then HIF_EQ_CFG r else HIF_CQ_CFG r
def outProd (eq : Bool) (r : Nat) : Nat := if eq then HIF_EQ_PROD r else HIF_CQ_PROD r
def outCons (eq : Bool) (r : Nat) : Nat := if eq then HIF_EQ_CONS r else HIF_CQ_CONS r
def outIrq (eq : Bool) (r : Nat) : Nat := if eq then HIF_EQ_IRQ r else HIF_CQ_IRQ r
def outBase (eq : Bool) (r : Nat) : Nat := if eq then HIF_EQ_BASE_LO r else HIF_CQ_BASE_LO r
/-- Key of a ring's moderation state. -/
def outKey (eq : Bool) (r : Nat) : Nat := if eq then 32 + r else r

/-- The ring's pending count set, and its timer stopped when it is 0. -/
def putIrq (k n : Nat) (s : State) : State :=
  { s with hif := { s.hif with
      irqCnt := sPut 0 k n s.hif.irqCnt
      irqTimer := if n = 0 then s.hif.irqTimer.filter (· != k) else s.hif.irqTimer } }

/-- An entry that counts has been written (R530). -/
def irqCount (eq : Bool) (r : Nat) (s : State) : State :=
  let c := rd s (outIrq eq r)
  let k := outKey eq r
  let n := sGet 0 k s.hif.irqCnt + 1
  if fld c 15 0 = 0 ∨ max 1 (fld c 23 16) ≤ n then sendMsix (fld c 31 24) (putIrq k 0 s)
  else
    let s1 := putIrq k n s
    if n = 1 then { s1 with hif := { s1.hif with irqTimer := s1.hif.irqTimer ++ [k] } } else s1

/-- An entry written at the ring's producer index with the phase of its lap (R511); the index advances. -/
def putEntry (eq : Bool) (r : Nat) (ws : List W32) (s : State) : State :=
  let p := rd s (outProd eq r)
  let i := fld p 15 0
  let lap := bit p 16
  let w0 := setFld (ws.getD 0 0) 31 31 (if lap then 0 else 1)
  let a := (rd64 s (outBase eq r)) / 32 * 32 + 32 * i
  let s1 := hostWrite a (wordBytes (w0 :: ((List.range 7).map fun j => ws.getD (j + 1) 0))) s
  if i + 1 < ringSize (rd s (outCfg eq r)) then wf (outProd eq r) 15 0 (i + 1) s1
  else wr (outProd eq r) (w32 (if lap then 0 else 65536)) s1

/-- Is the ring full (R512)? -/
def outFull (s : State) (eq : Bool) (r : Nat) : Bool := ringFull (rd s (outCons eq r)) (rd s (outProd eq r))

/-- Completion ring of submission ring `r` (HIF_SQ_CFG). -/
def cqOf (s : State) (r : Nat) : Nat := rf s (HIF_SQ_CFG r) 20 16

/-- One PM_PME in D3hot with PME_En set, until the host clears PME_Status (R533). -/
def pme (s : State) : State :=
  if rf s HIF_PCIE_STAT 11 10 == 3 && s.hif.pmeEn && !s.hif.pmeStatus then
    { s with hif := { s.hif with pmeStatus := true, pmeSent := s.hif.pmeSent + 1 } }
  else s

/-- A completion discarded (R499, R514). -/
def loseCpl (s : State) : State := bump (HIF_CNT 7) s

/-- A completion's entry written to its ring. -/
def writeEntry (c : Cpl) (s : State) : State := bump (HIF_CNT 5) (putEntry false (cqOf s c.ring) c.words s)

/-- A completion written to its ring, and its moderation counted. -/
def writeCpl (c : Cpl) (s : State) : State :=
  let s1 := writeEntry c s
  if c.counts then irqCount false (cqOf s c.ring) s1 else s1

/-- Does the completion ring of `c` take an entry now: enabled, with room, and nothing waiting for it? -/
def cplRoom (s : State) (c : Cpl) : Bool :=
  let r := cqOf s c.ring
  rb s (HIF_CQ_CFG r) 31 && !outFull s false r && !(s.hif.waiting.any fun x => cqOf s x.ring == r)

/-- A completion that may be written now: its ring disabled discards it (R514); a full ring makes it wait, with its executor or
channel (R513). -/
def offerCpl (c : Cpl) (s : State) : State :=
  let r := cqOf s c.ring
  if !rb s (HIF_CQ_CFG r) 31 then loseCpl s
  else if outFull s false r || s.hif.waiting.any (fun x => cqOf s x.ring == r) then
    raise pageHIF 3 { s with hif := { s.hif with waiting := s.hif.waiting ++ [c] } }
  else writeCpl c s

/-- A completion falls due (R511-R514): while no memory request may be issued it is held (R533). -/
def complete (c : Cpl) (s : State) : State :=
  if !rb s (HIF_CQ_CFG (cqOf s c.ring)) 31 then loseCpl s
  else if memOk s then offerCpl c s
  else pme (bump (HIF_CNT 6) { s with hif := { s.hif with held := s.hif.held ++ [c] } })

/-- Completions that wait, offered again in the order they fell due: those whose ring has room are written. -/
def offerAll : List Cpl → State → State
  | [], s => s
  | c :: r, s => offerAll r (offerCpl c s)

/-- Waiting completions judged again after a consumer write or a change of a ring (R512-R514). -/
def flushCpls (s : State) : State :=
  if !memOk s then s else offerAll s.hif.waiting { s with hif := { s.hif with waiting := [] } }

/-- Is nobody waiting with a completion under owner `o` (R513)? -/
def noWait (s : State) (o : Nat) : Bool := !(s.hif.waiting.any fun c => c.owner == o)

/-- Time of completion: seconds * 10^9 + nanoseconds of E + D, modulo 2^64 (R520). -/
def timeWords (s : State) : List W32 := [w32 (nowNs s), w32 (nowNs s / 2 ^ 32)]

/-- Event ring `r` can take an entry now: enabled, not full, requests allowed (R513). -/
def eqOpen (s : State) (r : Nat) : Bool := rb s (HIF_EQ_CFG r) 31 && !outFull s true r && memOk s

/-- An event entry of ring `r` (R528, R530). -/
def putEvent (r : Nat) (ws : List W32) (s : State) : State := irqCount true r (putEntry true r ws s)

/-! ## Records on the Annex (R547) -/

/-- Has channel `c`, of use record, credit for one record more than wait on it? -/
def anxRoom (s : State) (c : Nat) : Bool :=
  anxCredit s 2 c && decide ((s.anx.recs.filter fun x => x.chan == c).length < rf s (ANX_CHAN_STAT c) 31 16)

/-- A record of source `src` handed to channel `c`. -/
def anxSend (src c : Nat) (bytes : List Byte) (s : State) : State :=
  { s with anx := { s.anx with recs := s.anx.recs ++ [⟨src, c, bytes⟩] } }

end Sys2Proof.Machine
end

