-- ==== Sys2Proof/Machine/CurOps.lean ====
section
/-!
DEFINITION. The Curator's decision log (R492, R493).
-/
namespace Sys2Proof.Machine

/-- One record of the log lost: counted, log_lost set (R493). -/
def loseLog (s : State) : State :=
  let s1 := wr CUR_LOG_LOST (rd s CUR_LOG_LOST + 1) (bump (CUR_CNT 6) s)
  raiseFirst pageCUR 0 { s1 with cur := { s1.cur with lost := min 65535 (s1.cur.lost + 1) } }

/-- The 32 bytes of a record. -/
def logBytes (r : LogRec) (seq lost : Nat) : List Byte :=
  wordBytes [w32 r.ns, w32 (r.ns / 2 ^ 32), w32 seq, w32 (r.knob % 256 * 2 ^ 24 + r.reason % 256 * 65536 + r.inst % 65536),
    w32 r.old, w32 r.new, w32 r.meas, w32 (lost % 65536)]

/-- A record leaves staging with the next sequence number and the losses so far. -/
def takeLog (r : LogRec) (s : State) : List Byte × State :=
  (logBytes r s.cur.seq s.cur.lost,
    bump (CUR_CNT 5) { s with cur := { s.cur with seq := (s.cur.seq + 1) % 2 ^ 32, lost := 0 } })

/-- A record written to the host ring. -/
def writeLog (r : LogRec) (s : State) : State :=
  let p := rd s CUR_LOG_PROD
  let n := 2 ^ max 6 (rf s CUR_LOG_CFG 19 16)
  let x := takeLog r s
  wr CUR_LOG_PROD (p + 1) (hostWrite (rd64 s CUR_LOG_BASE_LO / 32 * 32 + 32 * (p.toNat % n)) x.1 x.2)

/-- Staged records written as far as there is room (R374-R376 as R493 applies them), at most `n`. -/
def drainLog : Nat → State → State
  | 0, s => s
  | n + 1, s =>
    match s.cur.staged with
    | [] => s
    | r :: rest =>
      let cfg := rd s CUR_LOG_CFG
      let s0 := { s with cur := { s.cur with staged := rest } }
      if bit cfg 30 then
        if anxRoom s (fld cfg 15 12) then
          let x := takeLog r s0
          drainLog n (anxSend 0x11 (fld cfg 15 12) x.1 x.2)
        else s
      else if !memOk s then s
      else if (rd s CUR_LOG_PROD - rd s CUR_LOG_CONS).toNat = 2 ^ max 6 (fld cfg 19 16) then
        if bit cfg 29 then drainLog n (writeLog r (loseLog (wr CUR_LOG_CONS (rd s CUR_LOG_CONS + 1) s0)))
        else drainLog n (loseLog s0)
      else drainLog n (writeLog r s0)

/-- A record of the log: lost while en is 0; it waits in a staging buffer of 256 records (log 26) when it cannot be written. -/
def logRecord (knob reason inst old new meas : Nat) (s : State) : State :=
  let r : LogRec := ⟨nowNs s, knob, reason, inst, old, new, meas⟩
  if !rb s CUR_LOG_CFG 31 then loseLog s
  else if s.cur.staged.length < 256 then
    drainLog 257 { s with cur := { s.cur with staged := s.cur.staged ++ [r] } }
  else if rb s CUR_LOG_CFG 29 then loseLog { s with cur := { s.cur with staged := s.cur.staged.drop 1 ++ [r] } }
  else loseLog s

end Sys2Proof.Machine
end

