-- ==== Sys2Proof/Machine/Docent.lean ====
section
/-!
DEFINITION. Gallery dispatch, the Docent cores and the Hemioth instruction set, budgets and the reorder ring (chapter 04).
-/
namespace Sys2Proof.Machine

/-! ## Cores and pools -/

/-- The core's state, if it holds a frame. -/
def coreOf (s : State) (g c : Nat) : Option CoreSt := sGet none (168 * g + c) s.doc.cores

/-- The core's state set; `none` frees it. -/
def putCore (g c : Nat) (k : Option CoreSt) (s : State) : State :=
  { s with doc := { s.doc with cores := sPut none (168 * g + c) k s.doc.cores } }

/-- Is core `c` in the active pool? -/
def coreActive (s : State) (g c : Nat) : Bool := rb s (DOC_CORE_ACTIVE g (c / 32)) (c % 32)

/-- Is core `c` fenced? -/
def coreFenced (s : State) (g c : Nat) : Bool := rb s (DOC_CORE_FENCED g (c / 32)) (c % 32)

/-- The lowest-numbered free active core (R46). -/
def freeCore (s : State) (g : Nat) : Option Nat := firstBelow 168 fun c => coreActive s g c && (coreOf s g c).isNone

/-- Reorder-ring slots held in gallery `g` (R124): frames from dispatch to release. -/
def ringUsed (s : State) (g : Nat) : Nat :=
  (s.frames.filter fun f => f.gal == g && (f.stage == .core || f.stage == .ring)).length

/-- Cores of the pool, and cores fenced. -/
def countCores (s : State) (g : Nat) (p : State → Nat → Nat → Bool) : Nat :=
  ((List.range 168).filter fun c => p s g c).length

/-! ## The hold-buffer condition of the pressure cut (R122, R123) -/

/-- Does the hold-buffer condition of R122 hold for gallery `g`? -/
def pressed (s : State) (g : Nat) : Bool :=
  match carries s g with
  | none => false
  | some k => decide (min (rf s (DOC_BUDGET_CFG g) 23 12) 2048 < hbKib s k)

/-- The condition judged again: INT_STAT.pressure_active is set when it begins to hold (R123). -/
def judgePressure (g : Nat) (s : State) : State :=
  let was := s.doc.pressed.contains g
  let now := pressed s g
  let s1 := { s with doc := { s.doc with pressed :=
    if now && !was then s.doc.pressed ++ [g] else if !now && was then s.doc.pressed.filter (· != g) else s.doc.pressed } }
  if now && !was then raise (pageDOC g) 5 s1 else s1

/-! ## Dispatch (R102-R105, R109) -/

/-- A held frame can be offered once 256 bytes, or the whole frame, are stored (R87). -/
def offerable (f : Frame) : Bool := f.stage == .hold && (f.whole || decide (256 ≤ f.bytes.length))

/-- The first frame, in order of arrival, that port `i` holds for dispatch; only a port's oldest held frame can go. -/
def headOfPort (s : State) (i : Nat) : Option Frame :=
  match s.frames.find? fun f => f.port == i && f.stage == .hold with
  | some f => if offerable f then some f else none
  | none => none

/-- The next port, round-robin after the last one served, that has a frame to dispatch (R46). -/
def nextPort (s : State) (g : Nat) : Option Nat :=
  let ps := galPorts s g
  let last := sGet 0 g s.doc.rr
  let after := ps.filter fun i => decide (last < i)
  let before := ps.filter fun i => decide (i ≤ last)
  (after ++ before).find? fun i => (headOfPort s i).isSome

/-- Window length: 256 bytes, or the frame if it is shorter (R722). -/
def winLen (f : Frame) : Nat := min f.bytes.length 256

/-- Does the frame continue beyond the window? A frame with exactly 256 bytes stored whose end has not come counts as one that does
(DESIGN CHOICE, log 42). -/
def beyond (f : Frame) : Bool := decide (256 < f.bytes.length) || !f.whole

/-- The slots dispatch fills (R109): F0-F6; F7 is the core's. -/
def dispatchSlots (f : Frame) (epoch : Nat) : List (Nat × Nat) :=
  let sec := qSec f.ts
  let sub := qSub f.ts
  [(0, f.port), (1, winLen f + (if beyond f then 0x8000 else 0)),
   (2, epoch + (if 514 ≤ f.port ∧ f.port < 522 then 0x100 else 0)),
   (3, sec / 65536 % 65536), (4, sec % 65536), (5, sub / 65536), (6, sub % 65536)].foldl
    (fun l e => sPut 0 e.1 e.2 l) []

/-- Are all lookup blocks of a wing ON (R38)? -/
def wingOn (s : State) (w : Nat) : Bool :=
  isOn s (pageCAT w) && isOn s (pageLPM w) && isOn s (pageVIT w) && isOn s (pagePRV w)

/-- May gallery `g` dispatch: its DOC block ON (R137), its GAL page not fenced, and the gallery ACTIVE (R30) with no park pending
(R65)? -/
def mayDispatch (s : State) (g : Nat) : Bool :=
  isOn s (pageDOC g) && !galFenced s g && galState s g == 0 && !parkPending s g

/-- Frame `f` of port `i` leaves its hold buffer for gallery `g`: its place in dispatch order, its epoch stamp, and its drain count
(R43, R279). `f'` is the frame with what the gallery makes of it. -/
def stampFrame (g i : Nat) (f' : Frame) (s : State) : State :=
  let e := s.prv.c
  let s1 := putFrame { f' with gal := g, seq := s.nextSeq, epoch := e } s
  { s1 with
    nextSeq := s.nextSeq + 1
    doc := { s1.doc with rr := sPut 0 g i s1.doc.rr }
    prv := { s1.prv with drain := sPut 0 e (sGet 0 e s1.prv.drain + 1) s1.prv.drain } }

/-- One dispatch slot of gallery `g`: the port the arbiter serves gives its oldest frame to the lowest free core, stamped
with the current epoch (R103-R105). A direct inject takes its turn in the port's order and goes to ingress resolution without a core,
a ring place or a lookup (R42, R43, R529). -/
def dispatchOne (g : Nat) (s : State) : State :=
  match nextPort s g with
  | none => s
  | some i =>
    match headOfPort s i with
    | none => s
    | some f =>
      if f.direct.isSome then stampFrame g i { f with stage := .lookup, defAct := true } s
      else match freeCore s g with
        | none => s
        | some c =>
          if ringUsed s g < 512 then
            let cfg := rd s (DOC_PORT_CFG g (portIndex i))
            let k : CoreSt :=
              { frame := f.id, pc := fld cfg 29 16, cursor := 0, s := fld cfg 7 0, g := [],
                fv := dispatchSlots f s.prv.c, ofs := [(0, 0)], overread := false, matchMiss := false, ckBad := false, cycles := 0,
                start := s.time.clock, search := none, cut := false }
            stampFrame g i { f with stage := .core, fv := k.fv, ofs := k.ofs, defAct := !wingOn s (galWing s g) } (putCore g c (some k) s)
          else s

/-- DISPATCH: up to four headers in one clock (R24). -/
def execDispatch (g : Gallery) (s : State) : Res :=
  .next (if mayDispatch s g then judgePressure g (dispatchOne g (dispatchOne g (dispatchOne g (dispatchOne g s)))) else s)

/-! ## The end of a parse (R116, R121, R139) -/

/-- F7 of a parse (R109). -/
def statusWord (code : Nat) (k : CoreSt) : Nat :=
  code % 256 * 256 + b2n k.ckBad * 4 + b2n k.matchMiss * 2 + b2n k.overread

/-- Counter of DOC_EXC_CNT for a code: 0 DONE, 1-6 the exception codes, 7 FAIL. -/
def excCounter (code : Nat) : Nat := if code < 7 then code else 7

/-- Event bit of the DOC page that an exception sets (R138). -/
def excEvent (g code : Nat) (s : State) : State :=
  if code = 1 then raise (pageDOC g) 3 s
  else if code = 3 then raise (pageDOC g) 4 s
  else if code = 4 then raise (pageDOC g) 0 s
  else s

/-- The parse on core `c` ends with `code` (0 for DONE) after `n` cycles: the frame passes to the reorder ring; an
exception discards the program's field vector and is recorded (R116). -/
def endParse (g c : Nat) (k : CoreSt) (code n : Nat) (s : State) : State :=
  match frameOf s k.frame with
  | none => putCore g c none s
  | some f =>
    let fv := if code = 0 then sPut 0 7 (statusWord 0 k) k.fv
      else sPut 0 7 (statusWord code k) (k.fv.filter fun e => decide (e.1 < 7))
    let ofs := if code = 0 then k.ofs else [(0, 0)]
    let s1 := putCore g c none (putFrame { f with stage := .ring, fv := fv, ofs := ofs, exc := code } s)
    let s2 := bump (DOC_EXC_CNT g (excCounter code)) s1
    let s3 := if rf s2 (DOC_CYC_STAT g) 22 16 < n then wf (DOC_CYC_STAT g) 22 16 n s2 else s2
    let s4 := { s3 with doc := { s3.doc with
      cycSum := sPut 0 g (sGet 0 g s3.doc.cycSum + n) s3.doc.cycSum
      cycCnt := sPut 0 g (sGet 0 g s3.doc.cycCnt + 1) s3.doc.cycCnt } }
    if code = 0 then s4
    else excEvent g code (wr (DOC_EXC_LAST g) (w32 (k.pc * 65536 + code % 256 * 256 + portIndex f.port)) s4)

/-! ## Instruction fields (R113) -/

/-- Opcode of a word. -/
def opOf (w : W32) : Nat := fld w 31 26

/-- The opcodes R114 lists; every other is reserved. -/
def opListed (o : Nat) : Bool :=
  o < 0x16 || (0x18 ≤ o && o < 0x1C) || (0x20 ≤ o && o < 0x26) || (0x28 ≤ o && o < 0x33) || o == 0x38 || o == 0x39

/-- Register `r` of a core; G0 reads as zero (R111). -/
def getG (k : CoreSt) (r : Nat) : W32 := if r = 0 then 0 else sGet 0 r k.g

/-- Register `r` written; writes to G0 are discarded (R111). -/
def setG (r : Nat) (v : W32) (k : CoreSt) : CoreSt := if r = 0 then k else { k with g := sPut 0 r v k.g }

/-- gd, ga, gb and the immediates of formats A, B and H, and format J's fields. -/
def fGd (w : W32) : Nat := fld w 25 22
def fGa (w : W32) : Nat := fld w 21 18
def fGb (w : W32) : Nat := fld w 17 14
def fImm (w : W32) : Nat := fld w 15 0
def fOff (w : W32) : Nat := fld w 7 0
def fFoff (w : W32) : Nat := fld w 15 8
def fSlot (w : W32) : Nat := fld w 6 0
def fTarget (w : W32) : Nat := fld w 13 0
def jGa (w : W32) : Nat := fld w 25 22
def jGb (w : W32) : Nat := fld w 21 18

/-- Bits that must be zero in a word of an opcode, as a mask: the format's zero bits and the register fields the
instruction does not use (R113, R114). A byte that is no register field and that the instruction does not use (off in NOP,
SETC, STF and the like) is not marked zero and is not checked. -/
def zeroMask (o : Nat) : Nat :=
  let gd := 0x03C00000
  let ga := 0x003C0000
  let hz := 0x0003FF00
  let fz := 0x00030080
  if o = 0x00 then gd + ga + hz
  else if 0x01 ≤ o ∧ o ≤ 0x07 then 0x3FFF
  else if 0x08 ≤ o ∧ o ≤ 0x0B then 0x30000
  else if o = 0x0C ∨ o = 0x0D then 0x30000 + 0xFFE0
  else if o = 0x0E then 0x30000 + ga
  else if o = 0x0F then 0x30000 + 0xFC00
  else if 0x10 ≤ o ∧ o ≤ 0x12 then hz + ga
  else if 0x13 ≤ o ∧ o ≤ 0x15 then hz
  else if o = 0x18 then hz + gd + ga
  else if o = 0x19 ∨ o = 0x1A then hz + gd
  else if o = 0x1B then hz + ga
  else if o = 0x20 ∨ o = 0x21 then fz + gd
  else if o = 0x22 then fz + ga
  else if o = 0x23 then fz + gd + ga + 0x60
  else if o = 0x24 then fz + gd + 0x60
  else if o = 0x25 then fz + ga
  else if o = 0x28 then gd + 0x003FC000
  else if 0x29 ≤ o ∧ o ≤ 0x2C then 0x0003C000
  else if o = 0x2D ∨ o = 0x2E then 0
  else if o = 0x2F then 0x00380000
  else if o = 0x30 then 0x003FC000
  else if o = 0x31 then hz + gd + ga
  else if o = 0x32 then hz + ga
  else if o = 0x38 then hz + gd + ga
  else if o = 0x39 then hz + gd + ga
  else 0

/-- Is a word of a listed opcode ILLEGAL (R113): a zero field not zero, or a slot out of range? -/
def illegal (w : W32) : Bool :=
  let o := opOf w
  decide (w.toNat &&& zeroMask o ≠ 0)
    || (o == 0x21 && decide (126 < fSlot w))
    || (o == 0x22 && (decide (7 < fGd w) || decide (128 < fSlot w + fGd w + 1)))

/-! ## The window (R106-R108) -/

/-- Outcome of an instruction on its core: the core goes on after so many cycles, or the parse ends with a code. -/
inductive CoreRes where
  | go (k : CoreSt) (cycles : Nat)
  | stop (k : CoreSt) (code cycles : Nat)
  deriving DecidableEq, Repr

/-- `n` window bytes from index `i`: `none` where one lies at 256 or beyond (R107); a byte at or beyond the window length
reads as zero and sets overread (R106). An access that ends with WINDOW leaves overread as it was (DESIGN CHOICE, log 42). -/
def winBytes (f : Frame) (i n : Nat) (k : CoreSt) : Option (List Byte × CoreSt) :=
  if 256 < i + n then none
  else some ((List.range n).map (fun j => if i + j < winLen f then byteAt f.bytes (i + j) else 0),
    if winLen f < i + n then { k with overread := true } else k)

/-- The core moves on to the next word. -/
def advPc (k : CoreSt) : CoreSt := { k with pc := (k.pc + 1) % 16384 }

/-- Load of `n` bytes at cursor + off + index into gd, network order (R108). -/
def loadG (n idx : Nat) (w : W32) (f : Frame) (k : CoreSt) : CoreRes :=
  match winBytes f (k.cursor + fOff w + idx) n k with
  | none => .stop k 2 1
  | some (bs, k') => .go (advPc (setG (fGd w) (w32 (beNat bs)) k')) 1

/-- The cursor set to `n`; above 511 the parse ends with WINDOW (R107). -/
def setCursor (n : Nat) (k : CoreSt) : CoreRes :=
  if 511 < n then .stop k 2 1 else .go (advPc { k with cursor := n }) 1

/-- A field-vector slot written; F0-F7 ignore program writes (R110). -/
def setF (slot v : Nat) (k : CoreSt) : CoreSt := if slot < 8 then k else { k with fv := sPut 0 slot (v % 65536) k.fv }

/-- F7 as the core keeps it while the parse runs, and any other slot. -/
def getF (slot : Nat) (k : CoreSt) : Nat := if slot = 7 then statusWord 0 k else sGet 0 slot k.fv

/-- Header offset `i` marked valid at byte `n`; O0 ignores it (R110), and a mark at byte 256 or more ends the parse
(R107). Bits [8:0] hold the offset; an unlisted offset is invalid. -/
def markO (i n : Nat) (k : CoreSt) : CoreRes :=
  if 255 < n then .stop k 2 1
  else .go (advPc (if i = 0 then k else { k with ofs := sPut 512 i n k.ofs })) 1

/-- A branch: 3 cycles taken, 1 not. -/
def branchIf (b : Bool) (w : W32) (k : CoreSt) : CoreRes :=
  if b then .go { k with pc := fTarget w } 3 else .go (advPc k) 1

/-- A register-to-register result. -/
def aluG (v : W32) (w : W32) (k : CoreSt) : CoreRes := .go (advPc (setG (fGd w) v k)) 1

/-! ## Fetch and execution -/

/-- Table address of word `pc` of gallery `g`'s instruction store. -/
def storeAddr (g pc : Nat) : Nat := (0x10 + g) * 0x4000000 + 4 * pc

/-- Table address of match-table entry `e`. -/
def matchAddr (g e : Nat) : Nat := (0x10 + g) * 0x4000000 + 0x20000 + 16 * e

/-- DOC_BUDGET_CFG.cut_cycles within 40-96 (R122). -/
def cutCycles (s : State) (g : Nat) : Nat := max 40 (min 96 (rf s (DOC_BUDGET_CFG g) 6 0))

/-- Would a parse at `n` cycles that ends an instruction at `m` pass the end of cycle cut_cycles on gallery `g`, short of the hard limit,
while the hold-buffer condition holds (R122)? -/
def meetsCut (s : State) (g n m : Nat) : Bool :=
  decide (n < cutCycles s g) && decide (cutCycles s g ≤ m) && decide (cutCycles s g < 96) && pressed s g

/-- The outcome of an instruction applied. Within 96 cycles it takes effect; one that would end later is abandoned and the core stands at
the hard limit, where BUDGET_EXPIRY ends the parse (R121). A parse that reaches the end of cycle cut_cycles without ending, while
the condition of R122 holds, is caught there, and PRESSURE_CUT ends it; an instruction in progress is abandoned. -/
def applyRes (g c : Nat) (k0 : CoreSt) (r : CoreRes) (s : State) : State :=
  let caught := fun (k : CoreSt) => putCore g c (some { k with cycles := cutCycles s g, cut := true }) s
  match r with
  | .go k n =>
    if meetsCut s g k0.cycles (k0.cycles + n) then caught (if k0.cycles + n = cutCycles s g then k else k0)
    else if k0.cycles + n ≤ 96 then putCore g c (some { k with cycles := k0.cycles + n, search := none }) s
    else putCore g c (some { k0 with cycles := 96 }) s
  | .stop k code n =>
    if meetsCut s g k0.cycles (k0.cycles + n) && decide (k0.cycles + n ≠ cutCycles s g) then caught k0
    else if k0.cycles + n ≤ 96 then endParse g c k code (k0.cycles + n) s
    else putCore g c (some { k0 with cycles := 96 }) s

/-- One instruction of opcode `o` on core `c` of gallery `g`. It takes place when the word at the core's pc has that
opcode (NOP's event also takes the words of reserved opcodes, which end the parse with ILLEGAL); an unreadable word ends it
with STORE_ERR (R116), a non-zero zero field or an out-of-range slot with ILLEGAL (R113). An instruction that so ends the parse
counts the cycles it would have taken, one where its word cannot be read or has no meaning (DESIGN CHOICE, log 42). -/
def docStep (o : Nat) (f : W32 → Frame → CoreSt → State → CoreRes) (g c : Nat) (s : State) : State :=
  match coreOf s g c with
  | none => s
  | some k =>
    match frameOf s k.frame with
    | none => s
    | some fr =>
      if 96 ≤ k.cycles || k.cut then s else
        let a := storeAddr g k.pc
        let s0 := settle s
        match rdStat s0 a with
        | .never | .ue => if o = 0 then applyRes g c k (.stop k 4 1) (noteRead a s0) else s
        | .good | .corrected =>
          let w := tw s0 a
          if opOf w = o then
            if illegal w then applyRes g c k (.stop k 3 1) (noteRead a s0)
            else applyRes g c k (f w fr k s0) (noteRead a s0)
          else if o = 0 ∧ !opListed (opOf w) then applyRes g c k (.stop k 3 1) (noteRead a s0)
          else s

/-! ## The instructions (R114) -/

def execDocNop (g : Gallery) (c : Core) (s : State) : Res := .next (docStep 0x00 (fun _ _ k _ => .go (advPc k) 1) g c s)
def execDocAdd (g : Gallery) (c : Core) (s : State) : Res :=
  .next (docStep 0x01 (fun w _ k _ => aluG (getG k (fGa w) + getG k (fGb w)) w k) g c s)
def execDocSub (g : Gallery) (c : Core) (s : State) : Res :=
  .next (docStep 0x02 (fun w _ k _ => aluG (getG k (fGa w) - getG k (fGb w)) w k) g c s)
def execDocAnd (g : Gallery) (c : Core) (s : State) : Res :=
  .next (docStep 0x03 (fun w _ k _ => aluG (getG k (fGa w) &&& getG k (fGb w)) w k) g c s)
def execDocOr (g : Gallery) (c : Core) (s : State) : Res :=
  .next (docStep 0x04 (fun w _ k _ => aluG (getG k (fGa w) ||| getG k (fGb w)) w k) g c s)
def execDocXor (g : Gallery) (c : Core) (s : State) : Res :=
  .next (docStep 0x05 (fun w _ k _ => aluG (getG k (fGa w) ^^^ getG k (fGb w)) w k) g c s)
def execDocShl (g : Gallery) (c : Core) (s : State) : Res :=
  .next (docStep 0x06 (fun w _ k _ => aluG (getG k (fGa w) <<< ((getG k (fGb w)).toNat % 32)) w k) g c s)
def execDocShr (g : Gallery) (c : Core) (s : State) : Res :=
  .next (docStep 0x07 (fun w _ k _ => aluG (getG k (fGa w) >>> ((getG k (fGb w)).toNat % 32)) w k) g c s)
def execDocAddi (g : Gallery) (c : Core) (s : State) : Res :=
  .next (docStep 0x08 (fun w _ k _ =>
    aluG (getG k (fGa w) + (BitVec.ofNat 16 (fImm w)).signExtend 32) w k) g c s)
def execDocAndi (g : Gallery) (c : Core) (s : State) : Res :=
  .next (docStep 0x09 (fun w _ k _ => aluG (getG k (fGa w) &&& w32 (fImm w)) w k) g c s)
def execDocOri (g : Gallery) (c : Core) (s : State) : Res :=
  .next (docStep 0x0A (fun w _ k _ => aluG (getG k (fGa w) ||| w32 (fImm w)) w k) g c s)
def execDocXori (g : Gallery) (c : Core) (s : State) : Res :=
  .next (docStep 0x0B (fun w _ k _ => aluG (getG k (fGa w) ^^^ w32 (fImm w)) w k) g c s)
def execDocShli (g : Gallery) (c : Core) (s : State) : Res :=
  .next (docStep 0x0C (fun w _ k _ => aluG (getG k (fGa w) <<< (fImm w % 32)) w k) g c s)
def execDocShri (g : Gallery) (c : Core) (s : State) : Res :=
  .next (docStep 0x0D (fun w _ k _ => aluG (getG k (fGa w) >>> (fImm w % 32)) w k) g c s)
def execDocLui (g : Gallery) (c : Core) (s : State) : Res :=
  .next (docStep 0x0E (fun w _ k _ => aluG (w32 (fImm w * 65536)) w k) g c s)
def execDocExt (g : Gallery) (c : Core) (s : State) : Res :=
  .next (docStep 0x0F (fun w _ k _ =>
    aluG (w32 ((getG k (fGa w)).toNat / 2 ^ fld w 9 5 % 2 ^ (fld w 4 0 + 1))) w k) g c s)
def execDocLdb (g : Gallery) (c : Core) (s : State) : Res := .next (docStep 0x10 (fun w f k _ => loadG 1 0 w f k) g c s)
def execDocLdw (g : Gallery) (c : Core) (s : State) : Res := .next (docStep 0x11 (fun w f k _ => loadG 2 0 w f k) g c s)
def execDocLdd (g : Gallery) (c : Core) (s : State) : Res := .next (docStep 0x12 (fun w f k _ => loadG 4 0 w f k) g c s)
def execDocLdbx (g : Gallery) (c : Core) (s : State) : Res :=
  .next (docStep 0x13 (fun w f k _ => loadG 1 ((getG k (fGa w)).toNat % 512) w f k) g c s)
def execDocLdwx (g : Gallery) (c : Core) (s : State) : Res :=
  .next (docStep 0x14 (fun w f k _ => loadG 2 ((getG k (fGa w)).toNat % 512) w f k) g c s)
def execDocLddx (g : Gallery) (c : Core) (s : State) : Res :=
  .next (docStep 0x15 (fun w f k _ => loadG 4 ((getG k (fGa w)).toNat % 512) w f k) g c s)
def execDocAdv (g : Gallery) (c : Core) (s : State) : Res :=
  .next (docStep 0x18 (fun w _ k _ => setCursor (k.cursor + fOff w) k) g c s)
def execDocAdvr (g : Gallery) (c : Core) (s : State) : Res :=
  .next (docStep 0x19 (fun w _ k _ => setCursor (k.cursor + (getG k (fGa w)).toNat % 512) k) g c s)
def execDocSetc (g : Gallery) (c : Core) (s : State) : Res :=
  .next (docStep 0x1A (fun w _ k _ => setCursor ((getG k (fGa w)).toNat % 512) k) g c s)
def execDocGetc (g : Gallery) (c : Core) (s : State) : Res :=
  .next (docStep 0x1B (fun w _ k _ => aluG (w32 k.cursor) w k) g c s)
def execDocStf (g : Gallery) (c : Core) (s : State) : Res :=
  .next (docStep 0x20 (fun w _ k _ => .go (advPc (setF (fSlot w) (getG k (fGa w)).toNat k)) 1) g c s)
def execDocStf2 (g : Gallery) (c : Core) (s : State) : Res :=
  .next (docStep 0x21 (fun w _ k _ =>
    .go (advPc (setF (fSlot w + 1) (getG k (fGa w)).toNat (setF (fSlot w) ((getG k (fGa w)).toNat / 65536) k))) 1) g c s)
def execDocCpf (g : Gallery) (c : Core) (s : State) : Res :=
  .next (docStep 0x22 (fun w f k _ =>
    let n := fGd w + 1
    match winBytes f (k.cursor + fFoff w) (2 * n) k with
    | none => .stop k 2 (if n ≤ 4 then 1 else 2)
    | some (bs, k') =>
      .go (advPc ((List.range n).foldl (fun a j => setF (fSlot w + j) (beNat (slice bs (2 * j) 2)) a) k'))
        (if n ≤ 4 then 1 else 2)) g c s)
def execDocMark (g : Gallery) (c : Core) (s : State) : Res :=
  .next (docStep 0x23 (fun w _ k _ => markO (fSlot w % 32) k.cursor k) g c s)
def execDocMarkr (g : Gallery) (c : Core) (s : State) : Res :=
  .next (docStep 0x24 (fun w _ k _ => markO (fSlot w % 32) ((getG k (fGa w)).toNat % 512) k) g c s)
def execDocLdf (g : Gallery) (c : Core) (s : State) : Res :=
  .next (docStep 0x25 (fun w _ k _ => aluG (w32 (getF (fSlot w) k)) w k) g c s)
def execDocJmp (g : Gallery) (c : Core) (s : State) : Res := .next (docStep 0x28 (fun w _ k _ => branchIf true w k) g c s)
def execDocBeq (g : Gallery) (c : Core) (s : State) : Res :=
  .next (docStep 0x29 (fun w _ k _ => branchIf (getG k (jGa w) == getG k (jGb w)) w k) g c s)
def execDocBne (g : Gallery) (c : Core) (s : State) : Res :=
  .next (docStep 0x2A (fun w _ k _ => branchIf (getG k (jGa w) != getG k (jGb w)) w k) g c s)
def execDocBltu (g : Gallery) (c : Core) (s : State) : Res :=
  .next (docStep 0x2B (fun w _ k _ => branchIf (decide ((getG k (jGa w)).toNat < (getG k (jGb w)).toNat)) w k) g c s)
def execDocBgeu (g : Gallery) (c : Core) (s : State) : Res :=
  .next (docStep 0x2C (fun w _ k _ => branchIf (decide ((getG k (jGb w)).toNat ≤ (getG k (jGa w)).toNat)) w k) g c s)
def execDocBeqi (g : Gallery) (c : Core) (s : State) : Res :=
  .next (docStep 0x2D (fun w _ k _ => branchIf ((getG k (jGa w)).toNat == fld w 21 14) w k) g c s)
def execDocBnei (g : Gallery) (c : Core) (s : State) : Res :=
  .next (docStep 0x2E (fun w _ k _ => branchIf ((getG k (jGa w)).toNat != fld w 21 14) w k) g c s)
def execDocBbs (g : Gallery) (c : Core) (s : State) : Res :=
  .next (docStep 0x2F (fun w _ k _ => branchIf (bit (getG k (jGa w)) (fld w 18 14)) w k) g c s)
def execDocSets (g : Gallery) (c : Core) (s : State) : Res :=
  .next (docStep 0x31 (fun w _ k _ => .go (advPc { k with s := fOff w }) 1) g c s)

/-- The lowest-indexed valid match-table entry that S and the key hit (R118). -/
def matchFind (s : State) (g st key : Nat) : Option Nat :=
  firstBelow 2048 fun e =>
    let a := matchAddr g e
    let w0 := tw s a
    let m := fld (tw s (a + 4)) 15 0
    bit w0 31 && fld w0 23 16 == st && (fld w0 15 0 &&& m) == (key &&& m)

/-- The lowest match-table entry that reads as never written or uncorrectable (R116, R120). -/
def matchBad (s : State) (g : Nat) : Option Nat := firstBelow 2048 fun e => !readable s (matchAddr g e)

/-- Does core `c` of gallery `g` stand at a MATCH whose search has no clock yet? The clock in which it issues it: cores run from the clock
of their dispatch, one cycle a clock. -/
def issuesAt (s : State) (g c : Nat) : Option Nat :=
  match coreOf s g c with
  | none => none
  | some k =>
    let a := storeAddr g k.pc
    if k.search.isNone && !k.cut && decide (k.cycles < 96) && readable s a && opOf (tw s a) == 0x30 && !illegal (tw s a) then
      some (k.start + k.cycles) else none

/-- The first clock from `t` in which a copy has served fewer than four searches. -/
def freeSearch (l : List Nat) (t : Nat) : Nat :=
  (firstBelow (l.length + 1) fun n => decide ((l.filter (· == t + n)).length < 4)).elim t (t + ·)

/-- Core `c` of gallery `g` takes its turn on its match-table copy for a search issued in clock `t`. -/
def bookSearch (g t c : Nat) (s : State) : State :=
  match coreOf s g c with
  | none => s
  | some k =>
    let y := 8 * g + c / 21
    let l := (sGet [] y s.doc.searches).filter fun x => decide (t ≤ x + 96)
    let w := freeSearch l t
    let s1 := putCore g c (some { k with search := some w }) s
    { s1 with doc := { s1.doc with searches := sPut [] y (l ++ [w]) s1.doc.searches, served := sPut 0 y (c + 1) s1.doc.served } }

/-- The searches that the cores of one group issue in one clock: their copy serves four a clock, in rotating core order, starting
after the last core served (R119). Where core `c` stands at a MATCH, every core of its group that issues one in that clock is given its turn. -/
def issueMatch (g c : Nat) (s : State) : State :=
  match issuesAt s g c with
  | none => s
  | some t =>
    let b := c / 21
    let next := sGet 0 (8 * g + b) s.doc.served
    let cores := (List.range 21).map fun j => 21 * b + (next + j) % 21
    (cores.filter fun x => issuesAt s g x == some t).foldl (fun a x => bookSearch g t x a) s

/-- Core `n` of the 21 that copy `y` of a gallery's match table serves (R119). -/
def copyCore (y : TableCopy) (n : CopyCore) : Core := ⟨21 * y.val + n.val, by omega⟩

/-- MATCH: 4 cycles plus the wait for a search port of the core's match-table copy (R115, R119). The core is named by the copy that serves
it and its place in that copy's group. -/
def execDocMatch (g : Gallery) (y : TableCopy) (n : CopyCore) (s : State) : Res :=
  let c := copyCore y n
  .next (docStep 0x30 (fun w _ k s0 =>
    let n := 4 + (k.search.getD (k.start + k.cycles) - (k.start + k.cycles))
    match matchBad s0 g with
    | some _ => .stop k 4 n
    | none =>
      match matchFind s0 g k.s ((getG k (jGa w)).toNat % 65536) with
      | some e =>
        let w2 := tw s0 (matchAddr g e + 8)
        let cur := k.cursor + fld w2 23 16
        if 511 < cur then .stop k 2 n
        else .go { k with s := fld w2 31 24, cursor := cur, pc := fld w2 13 0 } n
      | none => .go { k with matchMiss := true, pc := fTarget w } n) g c (issueMatch g c (settle s)))

/-- CKV4: the one's complement sum over IHL * 4 bytes at the cursor is all ones for a good header. -/
def execDocCkv4 (g : Gallery) (c : Core) (s : State) : Res :=
  .next (docStep 0x32 (fun w f k _ =>
    match winBytes f k.cursor 1 k with
    | none => .stop k 2 3
    | some (b0, k1) =>
      match winBytes f k.cursor (beNat b0 % 16 * 4) k1 with
      | none => .stop k 2 3
      | some (bs, k2) =>
        if onesSum bs = 0xFFFF then .go (advPc (setG (fGd w) 1 k2)) 3
        else .go (advPc (setG (fGd w) 0 { k2 with ckBad := true })) 3) g c s)

def execDocDone (g : Gallery) (c : Core) (s : State) : Res := .next (docStep 0x38 (fun _ _ k _ => .stop k 0 1) g c s)
/-- FAIL: a code below 0x10 is recorded as 0x10. -/
def execDocFail (g : Gallery) (c : Core) (s : State) : Res :=
  .next (docStep 0x39 (fun w _ k _ => .stop k (max (fOff w) 0x10) 1) g c s)

/-! ## Limits, core faults and the reorder ring -/

/-- BUDGET_EXPIRY: a parse not ended by the end of cycle 96 ends with BUDGET (R121). -/
def execBudgetExpiry (g : Gallery) (c : Core) (s : State) : Res :=
  match coreOf s g c with
  | some k => .next (if 96 ≤ k.cycles then endParse g c k 1 96 s else s)
  | none => .next s

/-- PRESSURE_CUT: a parse that the cut has caught, or that stands at the end of cycle cut_cycles while the hold-buffer condition holds, ends
with PRESSURE, unless it is at the hard limit (R122); the condition is judged in the same clock (R123). -/
def execPressureCut (g : Gallery) (c : Core) (s : State) : Res :=
  let s1 := judgePressure g s
  match coreOf s1 g c with
  | some k => .next (if k.cut || (k.cycles == cutCycles s g && decide (cutCycles s g < 96) && pressed s g) then
      endParse g c k 5 k.cycles s1 else s1)
  | none => .next s1

/-- Core `c`'s bit in one of the pool registers. -/
def setCoreBit (reg : Nat → Nat → Nat) (g c : Nat) (v : Bool) (s : State) : State :=
  wf (reg g (c / 32)) (c % 32) (c % 32) (b2n v) s

/-- A core fault: the core is fenced and leaves the pool, its frame ends with CORE_FAULT, a message is sent, and the
healthy spare with the lowest number (DESIGN CHOICE, log 42) joins the pool; with no spare left spares_exhausted is set (R134, R135). -/
def coreFault (g c : Nat) (s : State) : State :=
  if coreFenced s g c then s else
    let s1 := match coreOf s g c with
      | some k => endParse g c k 6 k.cycles s
      | none => s
    let was := coreActive s g c
    let s2 := setCoreBit DOC_CORE_FENCED g c true (setCoreBit DOC_CORE_ACTIVE g c false s1)
    let s3 := reportFault (pageDOC g) 0x05 c false (raise (pageDOC g) 1 s2)
    if was then
      match firstBelow 168 fun x => !coreActive s3 g x && !coreFenced s3 g x with
      | some x => setCoreBit DOC_CORE_ACTIVE g x true s3
      | none => raise (pageDOC g) 2 s3
    else s3

/-- DOCENT_CORE_FAULT. -/
def execDocentCoreFault (g : Gallery) (c : Core) (s : State) : Res := .next (coreFault g.val c.val s)

/-- The next frame the ring of gallery `g` releases: the earliest dispatched whose parse has ended and of whose input port
every earlier frame has been released (R125). -/
def releasable (s : State) (g : Nat) : Option Frame :=
  (s.frames.filter fun f => f.gal == g && f.stage == .ring &&
    !(s.frames.any fun x => x.gal == g && x.port == f.port && decide (x.seq < f.seq) &&
        (x.stage == .core || x.stage == .ring))).foldl
    (fun b f => match b with | some x => if f.seq < x.seq then some f else b | none => some f) none

/-- One release from the ring of gallery `g`. -/
def releaseOne (g : Nat) (s : State) : State :=
  match releasable s g with
  | some f => putFrame { f with stage := .lookup } s
  | none => s

/-- REORDER_RELEASE: at most four frames per clock, oldest first (R125). -/
def execReorderRelease (g : Gallery) (s : State) : Res :=
  .next (releaseOne g (releaseOne g (releaseOne g (releaseOne g s))))

/-- DOC_CYC_STAT_READ: the longest parse is returned and cleared (DOC_CYC_STAT.max_cycles). -/
def execDocCycStatRead (g : Gallery) (s : State) : Res :=
  .next (hostAsk (DOC_CYC_STAT g) (fun a => wf (DOC_CYC_STAT g) 22 16 0 (answer (rd a (DOC_CYC_STAT g)).toNat a)) s)

end Sys2Proof.Machine
end

