-- ==== Sys2Proof/Machine/Lookup.lean ====
section
/-!
DEFINITION. What a frame's lookups do: Catalogue lookups A and B (chapter 05), the route lookup with its groups and next
hops (chapter 06), and the Vitrine searches (chapter 07).
-/
namespace Sys2Proof.Machine

/-! ## Catalogue lookup -/

/-- Profile of lookup A (`false`) or B of a frame's port, when the port and the profile enable it: an enabled profile of
role 0b11, or of type 0x00, 0x03 or 0x07-0x7F, acts as disabled (R150, the CAT_PROF_CTRL card). -/
def catProf (s : State) (f : Frame) (b : Bool) : Option Nat :=
  let w := portWing f.port
  let pp := rdFor s f (CAT_PORT_PROF w f.port)
  let n := if b then fld pp 7 4 else fld pp 3 0
  let c := rdFor s f (CAT_PROF_CTRL w n)
  let t := fld c 23 16
  if (if b then bit pp 9 else bit pp 8) && bit c 31 && fld c 30 29 != 3 && t != 0 && t != 3 && !(7 ≤ t && t ≤ 0x7F) then some n
  else none

/-- Key of a Catalogue lookup under profile `n` (R151). -/
def catKeyOf (s : State) (f : Frame) (n : Nat) : List Byte :=
  let w := portWing f.port
  let c := rdFor s f (CAT_PROF_CTRL w n)
  let body := selBytes s f (CAT_PROF_SEL0 w n) (CAT_PROF_SEL1 w n) (CAT_PROF_SEL2 w n) (nslotsOf (fld c 15 12))
  byte (fld c 23 16) :: slice body 0 19

/-- What a search of wing `w` for a key under epoch `e` finds: an unreadable word, or the visible entries (R152, R158). -/
def catSearch (s : State) (w : Nat) (key : List Byte) (e : Nat) : Sum Nat (List Nat) :=
  match catUnreadable s w key with
  | some x => .inl x
  | none => .inr ((catMatches s w key).filter fun x => visible s (catVer s w x) e)

/-- The reads of a search of wing `w` for a key: correctable words count (R580). -/
def catReads (w : Nat) (key : List Byte) (s : State) : State := noteCes ((catCandidates s w key).map (catAddr w)) s

/-- The learned result of a frame under profile `n` (R160). -/
def learnedResult (s : State) (f : Frame) (n : Nat) : BitVec 64 :=
  BitVec.ofNat 64 (1 * 2 ^ 60 + b2n (rbFor s f (CAT_PROF_CTRL (portWing f.port) n) 26) * 2 ^ 52 + f.port)

/-- A pending learn raised by a SRC lookup (R160, R162, R179). -/
def raiseLearn (s : State) (f : Frame) (n : Nat) (key : List Byte) : Frame :=
  let w := portWing f.port
  if rbFor s f (CAT_PROF_CTRL w n) 27 && f.port < 512 && isOn s (pageCAT w) then
    { f with learn := f.learn ++ [⟨key, learnedResult s f n⟩] } else f

/-- A SRC lookup's effect: a pending learn on a miss or on a different non-static result; a static entry with another
result is counted, flagged and may drop the frame (R160, R161). -/
def srcEffect (f : Frame) (n : Nat) (key : List Byte) (hit : Option Nat) (s : State) : Frame × State :=
  let w := portWing f.port
  match hit with
  | none => (raiseLearn s f n key, s)
  | some x =>
    if catResult s w x = learnedResult s f n then (f, s)
    else if bit (catCtl s w x) 30 then
      ((if rbFor s f (CAT_PROF_CTRL w n) 25 then { f with staticDrop := true } else f),
        raise (pageCAT w) 4 (bump (CAT_CNT w 10) s))
    else (raiseLearn s f n key, s)

/-- Outcome of lookup A or B noted in the frame. -/
def setCatRes (b : Bool) (r : CatRes) (f : Frame) : Frame :=
  if b then { f with catB := some r } else { f with catA := some r }

/-- A hit on entry `x`: counted; the hit bit under hit_upd (R154); a reserved kind recorded (R146); its flow counter
(R157). -/
def catHit (f : Frame) (b : Bool) (n x : Nat) (s : State) : Frame × State :=
  let w := portWing f.port
  let r := catResult s w x
  let s1 := bump (CAT_CNT w 1) s
  let s2 := if rbFor s f (CAT_PROF_CTRL w n) 28 then
      putWord (catAddr w x + 28) (setFld (catCtl s w x) 29 29 1) s1 else s1
  let s3 := if 0xA ≤ kindOf r then recordErr (pageCAT w) 0x04 0 x s2 else s2
  let p := if countOf r then flowHit f x s3 else (f, s3)
  (setCatRes b (.hit x r) p.1, p.2)

/-- CAT_LOOKUP: lookup A or B of a released frame searches its wing's replica (R152-R158). -/
def execCatLookup (id : Nat) (b : Bool) (s : State) : Res :=
  match frameOf s id with
  | none => .next s
  | some f =>
    match catProf s f b with
    | none => .next s
    | some n =>
      if f.stage != .lookup || f.defAct || f.exc != 0 || (if b then f.catB else f.catA).isSome then .next s
      else
        let w := portWing f.port
        let f := beginLookups (pageCAT w) s f
        let s0 := settle s
        let key := catKeyOf s0 f n
        let src := rfFor s0 f (CAT_PROF_CTRL w n) 30 29 == 1
        let s1 := catReads w key (bump (CAT_CNT w 0) s0)
        match catSearch s1 w key f.epoch with
        | .inl x =>
          let s2 := catStoreErr w x s1
          let p := if src then srcEffect (setCatRes b .miss f) n key none s2 else (setCatRes b .miss f, s2)
          .next (putFrame p.1 p.2)
        | .inr [] =>
          let p := if src then srcEffect (setCatRes b .miss f) n key none s1 else (setCatRes b .miss f, s1)
          .next (putFrame p.1 p.2)
        | .inr (x :: more) =>
          let s2 := if more.isEmpty then s1 else bump (CAT_CNT w 12) s1
          let h := catHit f b n x s2
          let p := if src then srcEffect h.1 n key (some x) h.2 else h
          .next (putFrame p.1 p.2)

/-! ## Next hops and groups (R200-R206) -/

/-- Outcome of resolving a forwarding result to a destination. -/
def lpmErr (w a : Nat) (s : State) : State :=
  let s1 := if rdStat s a = .never then uninitAt a s else reportFault (pageLPM w) 0x01 a (eccOf s a).inj s
  raise (pageLPM w) 0 (bump (LPM_CNT w 10) (recordErr (pageLPM w) 0x03 0 a s1))

/-- Table addresses of next hop `n`, group `g` and bucket `k` in wing `w`'s region. -/
def nhAddr (w n v : Nat) : Nat := (2 + w) * 0x4000000 + 0x1000000 + 32 * n + 16 * v
def grpAddr (w g v : Nat) : Nat := (2 + w) * 0x4000000 + 0x1800000 + 16 * g + 8 * v
def bktAddr (w k : Nat) : Nat := (2 + w) * 0x4000000 + 0x1900000 + 4 * k

/-- Version fields of a next-hop version. -/
def nhVer (s : State) (w n v : Nat) : Ver :=
  let c := tw s (nhAddr w n v)
  ⟨fld c 7 0, fld c 15 8, bit c 30, bit c 29⟩

/-- Version fields of a group version. -/
def grpVer (s : State) (w g v : Nat) : Ver :=
  let c := tw s (grpAddr w g v)
  let d := tw s (grpAddr w g v + 4)
  ⟨fld d 23 16, fld d 31 24, bit c 30, bit c 29⟩

/-- Is a version of a next hop, or of a group, visible for epoch `e`? -/
def nhVis (s : State) (w n e v : Nat) : Bool := bit (tw s (nhAddr w n v)) 31 && visible s (nhVer s w n v) e
def grpVis (s : State) (w g e v : Nat) : Bool := bit (tw s (grpAddr w g v)) 31 && visible s (grpVer s w g v) e

/-- A frame that finds no visible version (R201, R204): counted, nh_miss set. -/
def noVersion (w : Nat) (s : State) : State := raiseFirst (pageLPM w) 2 (bump (LPM_CNT w 4) s)

/-- Both versions visible (R201). -/
def bothVersions (w : Nat) (s : State) : State := raise (pageLPM w) 0 (bump (LPM_CNT w 11) s)

/-- The first unreadable word of next hop `n`. -/
def nhBad (s : State) (w n : Nat) : Option Nat :=
  if !readable s (nhAddr w n 0) then some (nhAddr w n 0) else if !readable s (nhAddr w n 1) then some (nhAddr w n 1) else none

/-- Next hop `n` used by a frame (R200-R202): the forwarding it gives, with the TTL trap under profile `prof` of the
frame's route lookup. -/
def resolveNh (f : Frame) (prof : Option Nat) (n : Nat) (s : State) : Fwd × State :=
  let w := portWing f.port
  let s := noteCes [nhAddr w n 0, nhAddr w n 1] s
  match nhBad s w n with
  | some a => (.drop 4, lpmErr w a s)
  | none =>
    let v0 := nhVis s w n f.epoch 0
    let v1 := nhVis s w n f.epoch 1
    if !v0 && !v1 then (.drop 4, noVersion w s)
    else
      let s1 := if v0 && v1 then bothVersions w s else s
      let a := nhAddr w n (if v0 then 0 else 1)
      let c := tw s a
      let trap := match prof with
        | none => false
        | some p => bit (tw s (a + 8)) 16 && decide (slotOf f (rfFor s f (LPM_PROF_CTRL w p) 6 0) % 256 ≤ 1)
      if trap then
        let s2 := bump (LPM_CNT w 8) s1
        match prof with
        | some p => if rbFor s f (LPM_PROF_CTRL w p) 15 then (.punt (rfFor s f (LPM_PROF_CTRL w p) 27 24) 6, s2) else (.drop 5, s2)
        | none => (.drop 5, s2)
      else
        match fld c 28 26 with
        | 0 => (.nextHop n (fld c 25 16) (fld (tw s (a + 12)) 19 0), s1)
        | 1 => (.drop 4, s1)
        | 2 => (.punt (fld c 19 16) 0, s1)
        | 3 => (.list (fld (tw s (a + 12)) 15 0) (some n), s1)
        | _ => (.drop 4, recordErr (pageLPM w) 0x04 0 n s1)

/-- The hash that selects a group member (R205). -/
def groupHash (s : State) (f : Frame) (prof : Option Nat) (seed : Nat) : Nat :=
  let w := portWing f.port
  let key := match prof with
    | none => []
    | some p => selBytes s f (LPM_PROF_HSEL0 w p) (LPM_PROF_HSEL1 w p) (LPM_PROF_HSEL2 w p)
        (nslotsOf (rfFor s f (LPM_PROF_AUX w p) 19 16))
  let h := crc (seed * 0x10001) key
  h / 65536 ^^^ h % 65536

/-- Port of a next hop that is UNICAST under its visible version; `none` for the other kinds and where no version is
visible. -/
def nhUnicast (s : State) (w n e : Nat) : Option Nat :=
  let v := if nhVis s w n e 0 then some 0 else if nhVis s w n e 1 then some 1 else none
  match v with
  | none => none
  | some v => if fld (tw s (nhAddr w n v)) 28 26 = 0 then some (fld (tw s (nhAddr w n v)) 25 16) else none

/-- The failover steps of R206 from bucket `k`: at most `n` more; the first member whose port is up. Passed over: an empty
bucket, an unreadable word, a next hop with no visible version, a port that is down. -/
def failover (w e base size : Nat) : Nat → Nat → State → Option Nat × State
  | 0, _, s => (none, s)
  | n + 1, k, s0 =>
    let k' := (k + 1) % size
    let a := bktAddr w ((base + k') % 262144)
    let s := noteCe a s0
    if !readable s a then failover w e base size n k' (raise (pageLPM w) 0 (bump (LPM_CNT w 10) s))
    else if !bit (tw s a) 31 then failover w e base size n k' s
    else
      let nh := fld (tw s a) 17 0
      match nhBad s w nh with
      | some _ => failover w e base size n k' (raise (pageLPM w) 0 (bump (LPM_CNT w 10) s))
      | none =>
        if !nhVis s w nh e 0 && !nhVis s w nh e 1 then failover w e base size n k' s
        else match nhUnicast s w nh e with
          | some p => if portUp s p then (some nh, s) else failover w e base size n k' s
          | none => (some nh, s)

/-- Group `g` used by a frame (R203-R206): its visible version, the member the hash selects, the failover step, and the
member's next hop. -/
def resolveGroup (f : Frame) (prof : Option Nat) (g : Nat) (s : State) : Fwd × State :=
  let w := portWing f.port
  let s := noteCe (grpAddr w g 0) s
  if !readable s (grpAddr w g 0) then (.drop 4, lpmErr w (grpAddr w g 0) s)
  else
    let v0 := grpVis s w g f.epoch 0
    let v1 := grpVis s w g f.epoch 1
    if !v0 && !v1 then (.drop 4, noVersion w s)
    else
      let a := grpAddr w g (if v0 then 0 else 1)
      let c := tw s a
      let size := 2 ^ min 9 (fld c 27 24)
      let base := fld c 17 0
      let k := groupHash s f prof (fld (tw s (a + 4)) 15 0) % size
      let ba := bktAddr w ((base + k) % 262144)
      let s1 := noteCe ba (if v0 && v1 then bothVersions w s else s)
      if !readable s ba then (.drop 4, lpmErr w ba s1)
      else if !bit (tw s ba) 31 then (.drop 4, bump (LPM_CNT w 5) s1)
      else
        let nh := fld (tw s ba) 17 0
        let down := match nhUnicast s w nh f.epoch with
          | some p => !portUp s p
          | none => false
        if bit c 28 && down && (nhBad s w nh).isNone then
          match failover w f.epoch base size 3 k (raiseFirst (pageLPM w) 3 s1) with
          | (some n', s2) => resolveNh f prof n' (bump (LPM_CNT w 6) s2)
          | (none, s2) => resolveNh f prof nh (bump (LPM_CNT w 7) s2)
        else resolveNh f prof nh s1

/-! ## Route lookup (R191-R199) -/

/-- The profile LPM_PORT_PROF_i selects for a frame (R191). -/
def routeProf (s : State) (f : Frame) : Option Nat :=
  let w := portWing f.port
  let pp := rdFor s f (LPM_PORT_PROF w f.port)
  let et := slotOf f (fld pp 22 16)
  let n := if et = 0x0800 ∧ bit pp 8 then some (fld pp 3 0) else if et = 0x86DD ∧ bit pp 9 then some (fld pp 7 4) else none
  match n with
  | some p => if rbFor s f (LPM_PROF_CTRL w p) 31 then some p else none
  | none => none

/-- Role of the profile of a Catalogue lookup: SRC lookups have no TERMINATE effect (R155). -/
def catRole (s : State) (f : Frame) (b : Bool) : Nat :=
  match catProf s f b with
  | some n => rfFor s f (CAT_PROF_CTRL (portWing f.port) n) 30 29
  | none => 3

/-- The inner VRF of a TERMINATE hit; lookup A's takes precedence (R193). -/
def terminate (s : State) (f : Frame) : Option Nat :=
  match f.catA, f.catB with
  | some (.hit _ r), b =>
    if kindOf r = 7 ∧ catRole s f false ≠ 1 then some (valueOf r % 65536)
    else match b with
      | some (.hit _ q) => if kindOf q = 7 ∧ catRole s f true ≠ 1 then some (valueOf q % 65536) else none
      | _ => none
  | _, some (.hit _ q) => if kindOf q = 7 ∧ catRole s f true ≠ 1 then some (valueOf q % 65536) else none
  | _, _ => none

/-- Address of a lookup under profile `p`, as a number of 32 or 128 bits (R192). -/
def routeAddr (s : State) (f : Frame) (p : Nat) : Nat :=
  let c := rdFor s f (LPM_PROF_CTRL (portWing f.port) p)
  let n := if bit c 30 then 8 else 2
  (List.range n).foldl (fun a j => a * 65536 + slotOf f (fld c 14 8 + j)) 0

/-- Does a route of length `len` (address left-aligned in `bits`) match an address? -/
def prefixEq (bits len a b : Nat) : Bool := a / 2 ^ (bits - len) == b / 2 ^ (bits - len)

/-- The visible prefix of greatest length (R194). -/
def routeFind (s : State) (fam vrf addr e : Nat) : Option Route :=
  let bits := if fam = 0 then 32 else 128
  (s.lpm.routes.filter fun r => r.fam == fam && r.vrf == vrf && prefixEq bits r.len r.addr addr &&
    visible s ⟨r.birth, r.death, r.mortal, r.settled⟩ e).foldl
    (fun b r => match b with | some x => if x.len < r.len then some r else b | none => some r) none

/-- Probed lengths, distinct and greatest first; Wing E governs (R195, R211, the LPM_LONG_CFG card). -/
def longLens (s : State) : List Nat :=
  let c := rd s (LPM_LONG_CFG 0)
  let ls := [fld c 7 0, fld c 15 8, fld c 23 16, fld c 31 24].filter fun l => 65 ≤ l && l ≤ 128
  ((List.range 129).filter fun l => ls.contains l).reverse

/-- Key of a long-prefix probe (R145, R195). -/
def longKey (vrf len addr : Nat) : List Byte :=
  [byte 3] ++ beBytes 2 vrf ++ [byte len] ++ beBytes 16 (addr / 2 ^ (128 - len) * 2 ^ (128 - len))

/-- The probes in order of falling length: the first visible hit gives the result; each hit on an entry whose result counts adds to
its flow counter (R157); an unreadable word misses and is recorded (R158). -/
def longProbe (w vrf addr e : Nat) : List Nat → Frame → State → Option (Nat × BitVec 64) × Frame × State
  | [], f, s => (none, f, s)
  | l :: r, f, s0 =>
    let s := catReads w (longKey vrf l addr) s0
    match catSearch s w (longKey vrf l addr) e with
    | .inl x => longProbe w vrf addr e r f (catStoreErr w x s)
    | .inr [] => longProbe w vrf addr e r f s
    | .inr (x :: _) =>
      let h := if countOf (catResult s w x) then flowHit f x s else (f, s)
      (some (x, catResult s w x), (longProbe w vrf addr e r h.1 h.2).2)

/-- A route result's effect (R197): kinds other than those of its table act as DROP. -/
def routeResult (f : Frame) (p : Nat) (r : BitVec 64) (s : State) : Fwd × State :=
  match kindOf r with
  | 2 => resolveNh f (some p) (valueOf r % 2 ^ 18) s
  | 3 => resolveGroup f (some p) (valueOf r % 2 ^ 14) s
  | 6 => (.punt (valueOf r % 16) 0, s)
  | _ => (.drop 4, s)

/-- Seed of group `g` as a frame sees it: its visible version's, when one can be read (R205, R289). -/
def groupSeed (s : State) (f : Frame) (g : Nat) : Option Nat :=
  let w := portWing f.port
  if !readable s (grpAddr w g 0) then none
  else if grpVis s w g f.epoch 0 then some (fld (tw s (grpAddr w g 0 + 4)) 15 0)
  else if grpVis s w g f.epoch 1 then some (fld (tw s (grpAddr w g 1 + 4)) 15 0)
  else none

/-- Seed of the group that a result resolves, if it names one. -/
def resultSeed (s : State) (f : Frame) (r : BitVec 64) : Option Nat :=
  if kindOf r = 3 then groupSeed s f (valueOf r % 2 ^ 14) else none

/-- The Catalogue lookups a frame makes are done. -/
def catDone (s : State) (f : Frame) : Bool :=
  ((catProf s f false).isNone || f.catA.isSome) && ((catProf s f true).isNone || f.catB.isSome)

/-- The search itself under profile `p` and VRF `vrf`: long-prefix hits take precedence over the structure (R195). -/
def routeSearch (f : Frame) (p vrf : Nat) (s : State) : RouteRes × Frame × State :=
  let w := portWing f.port
  let c := rdFor s f (LPM_PROF_CTRL w p)
  let addr := routeAddr s f p
  let s1 := bump (LPM_CNT w 0) s
  let lp := if bit c 30 && bit c 23 then longProbe w vrf addr f.epoch (longLens s1) f s1 else (none, f, s1)
  match lp with
  | (some (x, r), f1, s2) =>
    let s3 := bump (LPM_CNT w 2) s2
    let s4 := if kindOf r = 2 ∨ kindOf r = 3 ∨ kindOf r = 5 ∨ kindOf r = 6 then s3 else recordErr (pageLPM w) 0x04 0 x s3
    let q := routeResult f p r s4
    (.found p q.1 (resultSeed s2 f r), f1, q.2)
  | (none, f1, s2) =>
    match routeFind s2 (b2n (bit c 30)) vrf addr f.epoch with
    | some r =>
      let q := routeResult f p r.result (bump (LPM_CNT w 1) s2)
      (.found p q.1 (resultSeed s2 f r.result), f1, q.2)
    | none => (.missed p, f1, bump (LPM_CNT w 3) s2)

/-- ROUTE_LOOKUP of a released frame whose Catalogue results are known (R191-R199). -/
def execRouteLookup (id : Nat) (s : State) : Res :=
  match frameOf s id with
  | none => .next s
  | some f =>
    if f.stage != .lookup || f.defAct || f.exc != 0 || f.route.isSome || !catDone s f then .next s
    else
      let w := portWing f.port
      let f := beginLookups (pageLPM w) s (beginLookups (pageCAT w) s f)
      match routeProf s f with
      | none => .next (putFrame { f with route := some .notMade } s)
      | some p =>
        let s0 := settle s
        let r := match terminate s0 f with
          | some vrf =>
            if rbFor s0 f (LPM_PROF_AUX w p) 4 then
              let t := rfFor s0 f (LPM_PROF_AUX w p) 3 0
              if rbFor s0 f (LPM_PROF_CTRL w t) 31 then routeSearch f t vrf s0 else (.notMade, f, s0)
            else routeSearch f p (slotOf f (rfFor s0 f (LPM_PROF_CTRL w p) 22 16)) s0
          | none => routeSearch f p (slotOf f (rfFor s0 f (LPM_PROF_CTRL w p) 22 16)) s0
        .next (putFrame { r.2.1 with route := some r.1 } r.2.2)

/-! ## Vitrine searches (R224-R232, R250) -/

/-- Profile of search `n` of a frame, when the port enables the search and the profile is enabled with a width (R224, the
VIT_PROF_CTRL card). -/
def vitProf (s : State) (f : Frame) (n : Nat) : Option Nat :=
  let w := portWing f.port
  let pp := rdFor s f (VIT_PORT_PROF w f.port)
  let p := fld pp (8 * n + 4) (8 * n)
  let c := rdFor s f (VIT_PROF_CTRL w p)
  if bit pp (8 * n + 5) && bit c 31 && fld c 30 29 != 3 then some p else none

/-- META value of Catalogue lookup A or B, zero when it did not hit an entry of kind META (R225); a SRC lookup has no META effect
(R155). -/
def metaOf (s : State) (f : Frame) (b : Bool) : Nat :=
  match if b then f.catB else f.catA with
  | some (.hit _ v) => if kindOf v = 9 ∧ catRole s f b ≠ 1 then valueOf v else 0
  | _ => 0

/-- Value of key selector code `c` (R225). -/
def selector (s : State) (f : Frame) (c : Nat) : Nat :=
  if c < 0x80 then slotOf f c
  else if c < 0x83 then metaOf s f false / 2 ^ (16 * (0x82 - c)) % 65536
  else if c < 0x86 then metaOf s f true / 2 ^ (16 * (0x85 - c)) % 65536
  else 0

/-- Does the key of profile `p` take a META selector, so that its search waits for the Catalogue results (R225)? -/
def usesMeta (s : State) (f : Frame) (p : Nat) : Bool :=
  let w := portWing f.port
  (List.range (10 * [1, 2, 4].getD (rfFor s f (VIT_PROF_CTRL w p) 30 29) 0)).any fun k =>
    let c := rfFor s f (VIT_PROF_SEL w p (k / 4)) (8 * (k % 4) + 7) (8 * (k % 4))
    decide (0x80 ≤ c) && decide (c < 0x86)

/-- Unit `u` of a search key: selector 10u + m fills bits [159 - 16m : 144 - 16m] (R225). -/
def vitUnit (s : State) (f : Frame) (p u : Nat) : Nat :=
  (List.range 10).foldl (fun a m =>
    let k := 10 * u + m
    let c := rfFor s f (VIT_PROF_SEL (portWing f.port) p (k / 4)) (8 * (k % 4) + 7) (8 * (k % 4))
    a + selector s f c * 2 ^ (144 - 16 * m)) 0

/-- (key XOR entry) AND mask is zero over all key bits (R226). -/
def vitMatches (s : State) (f : Frame) (p w b r width : Nat) : Bool :=
  (List.range width).all fun u =>
    let key := vitUnit s f p u
    (List.range 5).all fun n =>
      let e := (tw s (vitAddr w b (r + u) + 4 * n)).toNat
      let m := (rdFor s f (VIT_PROF_MASK w p (5 * u + n))).toNat
      ((key / 2 ^ (32 * n) % 2 ^ 32 ^^^ e) &&& m) == 0

/-- Rows of an entry that have been written and have not been cleared to match nothing (R255, R595). -/
def rowsKept (s : State) (w b r width : Nat) : Bool :=
  (List.range width).all fun u => !(s.vit.cleared.contains (65536 * w + 4096 * b + r + u)) &&
    (eccOf s (vitAddr w b (r + u))).st != .never && (eccOf s (vitAddr w b (r + u) + 16)).st != .never

/-- Is the entry's control word or action word unreadable (R255)? -/
def vitBad (s : State) (w b r : Nat) : Bool := !readable s (vitAddr w b r + 16) || !readable s (vitActAddr w b r)

/-- A store error of the Vitrine at bank `b`, row `r` (R255). -/
def vitStoreErr (w b r : Nat) (s : State) : State :=
  let a := if !readable s (vitAddr w b r + 16) then vitAddr w b r + 16 else vitActAddr w b r
  let s1 := if rdStat s a = .never then uninitAt a s else reportFault (pageVIT w) 0x01 (4096 * b + r) (eccOf s a).inj s
  raise (pageVIT w) 0 (bump (VIT_CNT w 14) (recordErr (pageVIT w) 0x03 0 (4096 * b + r) s1))

/-- The better of two matches: higher priority, then lower position (R227). -/
def vitBetter (s : State) (w : Nat) (a b : Nat × Nat) : Nat × Nat :=
  if fld (vitCtl s w a.1 a.2) 15 0 < fld (vitCtl s w b.1 b.2) 15 0 then b else a

/-- The outcome of search `n` noted in the frame. -/
def setVit (n : Nat) (r : VitRes) (f : Frame) : Frame := { f with vit := f.vit ++ [(n, r)] }

/-- Is bank `b` of wing `w` under a takeover, or failed with no spare (R250, R252)? -/
def bankDown (s : State) (w b : Nat) : Bool := sGet none w s.vit.taking == some b || s.vit.failed.contains (16 * w + b)

/-- While a step of a move has left an entry at two positions of chain `h` (R245): the bank and row of the source and of the
target. -/
def twinOf (s : State) (h : Nat) : Option ((Nat × Nat) × (Nat × Nat)) :=
  match s.vit.move with
  | some m =>
    if m.twin && m.head == h then
      some ((posBank s h m.target, posRow s h m.target), (posBank s h (m.target + 1), posRow s h (m.target + 1)))
    else none
  | none => none

/-- The hit bit of an entry set in wing `w`'s replica. -/
def vitHit (w : Nat) (br : Nat × Nat) (s : State) : State :=
  putWord (vitAddr w br.1 br.2 + 20) (setFld (vitCtl s w br.1 br.2) 28 28 1) s

/-- VIT_SEARCH: search `n` of a released frame (R226-R232); one on a chain with a failed bank gives the default action
(R250). -/
def execVitSearch (id : Nat) (n : Fin 4) (s : State) : Res :=
  match frameOf s id with
  | none => .next s
  | some f =>
    match vitProf s f n with
    | none => .next s
    | some p =>
      if f.stage != .lookup || f.defAct || f.exc != 0 || (usesMeta s f p && !catDone s f) || f.vit.any (fun e => e.1 == n.val) then
        .next s
      else
        let w := portWing f.port
        let f := beginLookups (pageVIT w) s (beginLookups (pageCAT w) s f)
        let s0 := bump (VIT_CNT w 0) (settle s)
        let c := rdFor s0 f (VIT_PROF_CTRL w p)
        let h := fld c 27 24
        let width := [1, 2, 4].getD (fld c 30 29) 0
        let miss := fun s => .next (putFrame (setVit n .miss f) (bump (VIT_CNT w 2) s))
        if !headBank s0 h || bankWidth s0 h != width then miss (raise (pageVIT w) 5 (bump (VIT_CNT w 4) s0))
        else if (chainOf s0 h).any (bankDown s0 w) then
          let s1 := if f.vit.any (fun e => decide (e.2 = .bankFailed)) then s0 else bump (VIT_CNT w 5) s0
          .next (putFrame (setVit n .bankFailed f) s1)
        else
          let keyed := (vitValid s0 w).filter fun br => (chainOf s0 h).contains br.1 &&
            rowsKept s0 w br.1 br.2 width && vitMatches s0 f p w br.1 br.2 width &&
            visible s0 (vitVer s0 w br.1 br.2) f.epoch && !((twinOf s0 h).any fun t => t.2 == br)
          let bad := keyed.filter fun br => vitBad s0 w br.1 br.2
          let s1 := bad.foldl (fun a br => vitStoreErr w br.1 br.2 a)
            (noteCes (keyed.map fun br => vitAddr w br.1 br.2 + 16) s0)
          match keyed.filter fun br => !vitBad s0 w br.1 br.2 with
          | [] => miss s1
          | m :: more =>
            let best := more.foldl (vitBetter s0 w) m
            let pri := fld (vitCtl s0 w best.1 best.2) 15 0
            let ties := ((m :: more).filter fun br => fld (vitCtl s0 w br.1 br.2) 15 0 == pri).length
            let s2 := bump (VIT_CNT w 1) (noteCe (vitActAddr w best.1 best.2) s1)
            let s3 := if 1 < ties then raise (pageVIT w) 6 (bump (VIT_CNT w 3) s2) else s2
            let s4 := if bit c 28 then
                (match twinOf s0 h with
                  | some t => if t.1 = best then vitHit w t.2 (vitHit w best s3) else vitHit w best s3
                  | none => vitHit w best s3)
              else s3
            let act := vitAction s0 w best.1 best.2
            let s5 := if 7 ≤ kindOf act then recordErr (pageVIT w) 0x04 0 (rowPos s0 h best.1 best.2) s4 else s4
            let q := if act.toNat.testBit 20 then flowHit f (0x120000 + 0x10000 * w + 4096 * best.1 + best.2) s5 else (f, s5)
            .next (putFrame (setVit n (.hit best.1 best.2 act) q.1) q.2)

end Sys2Proof.Machine
end

