-- ==== Sys2Proof/Machine/Ingress.lean ====
section
/-!
DEFINITION. Ingress resolution (R234-R236), policers (R237-R239), stream filtering (R433), learns (R163, R164), replication
(R361-R365), mirrors and captures (R366-R370), and admission at the Depot (R333-R341).
-/
namespace Sys2Proof.Machine

/-! ## The decision -/

/-- What ingress resolution decides for a frame: its forwarding (without rewrite when `plain`, to queue `q`), a drop that
overrides it with its reason of R372, the queues of COPY_TO_HOST copies, the mirror sessions named, a Vitrine queue, remarks,
the learn veto, the policers bound, and the seed of the group resolved. -/
structure Decision where
  fwd : Fwd
  plain : Bool
  q : Option Nat
  drop : Option Nat
  hosts : List Nat
  mirrors : List Nat
  vq : Option Nat
  dscp : Option Nat
  pcp : Option Nat
  veto : Bool
  pols : List Nat
  seed : Option Nat
  deriving DecidableEq, Repr

/-- A decision that forwards nothing. -/
def noDecision : Decision :=
  { fwd := .none, plain := false, q := none, drop := none, hosts := [], mirrors := [], vq := none, dscp := none, pcp := none,
    veto := false, pols := [], seed := none }

/-- The input port's default action (R127, R128): drop, punt, or forward without rewrite. -/
def defaultAction (s : State) (f : Frame) : Decision :=
  let c := rd s (DOC_PORT_DEF f.gal (portIndex f.port))
  match fld c 1 0 with
  | 1 => { noDecision with fwd := .punt (fld c 23 20) 1 }
  | 2 => { noDecision with fwd := .port (fld c 19 10), plain := true, q := some (fld c 23 20) }
  | _ => { noDecision with drop := some 1 }

/-- Profile under which a frame's route lookup ran (R205). -/
def profOf (f : Frame) : Option Nat :=
  match f.route with
  | some (.found p _ _) => some p
  | some (.missed p) => some p
  | _ => none

/-- Actions of a frame's Vitrine hits in search order. -/
def vitActs (f : Frame) : List (BitVec 64) :=
  (List.range 4).filterMap fun n => match f.vit.find? fun e => e.1 == n with
    | some (_, .hit _ _ a) => some a
    | _ => none

/-- Fields of a Vitrine action (R233). -/
def actFwd (a : BitVec 64) : Nat := bitsOf a.toNat 63 60
def actVal (a : BitVec 64) : Nat := bitsOf a.toNat 17 0

/-- Is a search's fwd a redirect (R235)? -/
def isRedirect (a : BitVec 64) : Bool := decide (2 ≤ actFwd a) && decide (actFwd a ≤ 5)

/-- The forwarding of a Catalogue result of a forwarding kind (R146). -/
def catFwd (f : Frame) (r : BitVec 64) (s : State) : Fwd × State :=
  match kindOf r with
  | 1 => (.port (valueOf r % 1024), s)
  | 2 => resolveNh f (profOf f) (valueOf r % 2 ^ 18) s
  | 3 => resolveGroup f (profOf f) (valueOf r % 2 ^ 14) s
  | 4 => (.list (valueOf r % 65536) none, s)
  | 6 => (.punt (valueOf r % 16) 0, s)
  | _ => (.drop 4, s)

/-- The reason of a punt whose source gives it. -/
def puntReason (n : Nat) (w : Fwd) : Fwd :=
  match w with
  | .punt q 0 => .punt q n
  | x => x

/-- A DST lookup's forwarding result (R155). -/
def dstResult (s : State) (f : Frame) (b : Bool) : Option (BitVec 64) :=
  match (if b then f.catB else f.catA) with
  | some (.hit _ r) => if catRole s f b = 0 ∧ 1 ≤ kindOf r ∧ kindOf r ≤ 6 then some r else none
  | _ => none

/-- A DST lookup's miss action other than none (R156), as the profile that gives it. -/
def dstMiss (s : State) (f : Frame) (b : Bool) : Option Nat :=
  match (if b then f.catB else f.catA), catProf s f b with
  | some .miss, some n =>
    let c := rdFor s f (CAT_PROF_CTRL (portWing f.port) n)
    if fld c 30 29 = 0 ∧ fld c 11 10 ≠ 0 then some n else none
  | _, _ => none

/-- The miss action of Catalogue profile `n` (R156). -/
def catMissFwd (s : State) (f : Frame) (n : Nat) : Fwd :=
  let w := portWing f.port
  let m := rdFor s f (CAT_PROF_MISS w n)
  match rfFor s f (CAT_PROF_CTRL w n) 11 10 with
  | 1 => .list ((fld m 31 16 + slotOf f (fld m 6 0)) % 65536) none
  | 2 => .punt (fld m 15 12) 2
  | _ => .drop 4

/-- The miss action of route profile `p` (R198). -/
def routeMissFwd (s : State) (f : Frame) (p : Nat) : Fwd :=
  let c := rdFor s f (LPM_PROF_CTRL (portWing f.port) p)
  match fld c 29 28 with
  | 0 => .none
  | 1 => .punt (fld c 27 24) 5
  | _ => .drop 4

/-- The seed of a frame's route result. -/
def routeSeed (f : Frame) : Option Nat := match f.route with | some (.found _ _ d) => d | _ => none

/-- The base forwarding result, the first of R234's list that exists, with the seed of a group it resolved. -/
def baseResult (f : Frame) (s : State) : (Fwd × Option Nat) × State :=
  match (dstResult s f false).or (dstResult s f true) with
  | some r =>
    let x := catFwd f r s
    ((puntReason 3 x.1, (resultSeed s f r).or (routeSeed f)), x.2)
  | none =>
    match f.route with
    | some (.found _ w d) => ((puntReason 4 w, d), s)
    | r =>
      match (dstMiss s f false).or (dstMiss s f true) with
      | some n => ((catMissFwd s f n, none), s)
      | none => match r with
        | some (.missed p) => ((routeMissFwd s f p, none), s)
        | _ => ((.none, none), s)

/-- A redirect's forwarding (R233). -/
def redirectFwd (f : Frame) (a : BitVec 64) (s : State) : (Fwd × Option Nat) × State :=
  match actFwd a with
  | 2 => ((.port (actVal a % 1024), none), s)
  | 3 => let x := resolveNh f (profOf f) (actVal a) s; ((puntReason 7 x.1, none), x.2)
  | 4 => let x := resolveGroup f (profOf f) (actVal a % 2 ^ 14) s; ((puntReason 7 x.1, groupSeed s f (actVal a % 2 ^ 14)), x.2)
  | _ => ((.punt (actVal a % 16) 7, none), s)

/-- Mirror sessions a frame names: by its hits, and by its input port (chapter 11, Mirror sessions). -/
def namedMirrors (s : State) (f : Frame) (acts : List (BitVec 64)) : List Nat :=
  let p := rd s (ARC_PORT_MIR f.port)
  (List.range 16).filter fun n =>
    (acts.any fun a => bitsOf a.toNat 59 59 == 1 && bitsOf a.toNat 58 55 == n) || (bit p 4 && fld p 3 0 == n)

/-- The combination of R235 and R236 for a frame whose lookups ran. -/
def combine (f : Frame) (s : State) : Decision × State :=
  let acts := vitActs f
  let red := acts.find? isRedirect
  let r := match red with
    | some a => redirectFwd f a s
    | none => baseResult f s
  let first := fun (en : Nat) (hi lo : Nat) =>
    (acts.find? fun a => bitsOf a.toNat en en == 1).map fun a => bitsOf a.toNat hi lo
  let d : Decision :=
    { fwd := r.1.1, plain := false, q := none,
      drop := if f.staticDrop || acts.any (fun a => actFwd a == 1) then some 2 else none,
      hosts := ((List.range 16).filter fun q => acts.any fun a => actFwd a == 6 && actVal a % 16 == q),
      mirrors := [], vq := first 36 35 32, dscp := first 31 30 25, pcp := first 24 23 21,
      veto := acts.any fun a => bitsOf a.toNat 37 37 == 1,
      pols := acts.filterMap fun a => if bitsOf a.toNat 54 54 == 1 then some (bitsOf a.toNat 53 38) else none,
      seed := r.1.2.or (routeSeed f) }
  if d.fwd = .none ∧ red.isNone then
    let a := defaultAction r.2 f
    ({ d with fwd := a.fwd, plain := a.plain, q := a.q, drop := d.drop.or a.drop }, r.2)
  else (d, r.2)

/-- The decision of a frame: its default action when its parse or a bank calls for it (R127, R38, R250), else the
combination of its results. A CORE_FAULT frame is dropped (R129) for a reason R372 does not list. -/
def decideFrame (f : Frame) (s : State) : Decision × State :=
  if f.exc = 6 then ({ noDecision with drop := some 15 }, s)
  else match f.direct with
  | some (p, q) => ({ noDecision with fwd := .port p, plain := true, q := some q, mirrors := namedMirrors s f [] }, s)
  | none =>
    if f.exc ≠ 0 ∨ f.defAct ∨ f.vit.any (fun e => decide (e.2 = .bankFailed)) then
      ({ defaultAction s f with mirrors := namedMirrors s f [], seed := routeSeed f }, s)
    else
      let r := combine f s
      ({ r.1 with mirrors := namedMirrors s f (vitActs f) }, r.2)

/-! ## Policers (R237-R239) -/

/-- Colours (R371): 0 green, 1 yellow, 2 red. A policer's tokens are kept in 1/32000 byte: the whole bytes in its record, the
rest inside. -/
def polTokens (s : State) (w p n : Nat) : Nat :=
  (tw s (polAddr w p + 16 + 4 * n)).toNat * 32000 + sGet 0 (2 * (65536 * w + p) + n) s.vit.frac

/-- Tokens and time of last update of a policer stored. -/
def putPol (w p tc te now : Nat) (s : State) : State :=
  let k := 2 * (65536 * w + p)
  let s1 := engWrite (polAddr w p + 16) [w32 (tc / 32000), w32 (te / 32000), w32 now, w32 (now / 2 ^ 32)] s
  { s1 with vit := { s1.vit with frac := sPut 0 (k + 1) (te % 32000) (sPut 0 k (tc % 32000) s1.vit.frac) } }

/-- police(P, B, pre) of R238 on tokens: colour, tokens of both buckets. `mode` 1 srTCM, 2 trTCM; rates in Mbit/s earn 4 /
32000 byte a ns. -/
def policeTokens (mode : Nat) (aware : Bool) (cir pir cbs ebs dt tc te len pre : Nat) : Nat × Nat × Nat :=
  let b := len * 32000
  if mode = 1 then
    let all := tc + cir * 4 * dt
    let tc' := min all (cbs * 32000)
    let te' := min (te + (all - tc')) (ebs * 32000)
    if (!aware || pre == 0) && decide (b ≤ tc') then (0, tc' - b, te')
    else if (!aware || pre != 2) && decide (b ≤ te') then (1, tc', te' - b)
    else (2, tc', te')
  else
    let tp := min (te + pir * 4 * dt) (ebs * 32000)
    let tc' := min (tc + cir * 4 * dt) (cbs * 32000)
    if (aware && pre == 2) || decide (tp < b) then (2, tc', tp)
    else if (aware && pre == 1) || decide (tc' < b) then (1, tc', tp - b)
    else (0, tc' - b, tp - b)

/-- What a policer makes of a frame: the colour, the red drop, and yel_dscp where it remarks. -/
structure PolOut where
  colour : Nat
  redDrop : Bool
  remark : Option Nat
  deriving DecidableEq, Repr

/-- A store error of the Vitrine at a policer record (R255): the record's table address is recorded. -/
def polStoreErr (w p a : Nat) (s : State) : State :=
  let s1 := if rdStat s a = .never then uninitAt a s else reportFault (pageVIT w) 0x01 (polAddr w p) (eccOf s a).inj s
  raise (pageVIT w) 0 (bump (VIT_CNT w 14) (recordErr (pageVIT w) 0x03 0 (polAddr w p) s1))

/-- Policer `p` of wing `w` meters a frame of `len` bytes that the policers before it left as `o`; the time is E (R421). A record
that cannot be read is skipped (R255). -/
def police (w p len : Nat) (o : PolOut) (s : State) : PolOut × State :=
  let a := polAddr w p
  let s0 := noteCes [a, a + 16] (settle s)
  match [a, a + 16].find? fun x => !readable s0 x with
  | some x => (o, polStoreErr w p x s0)
  | none =>
    let w0 := tw s0 a
    let mode := fld w0 31 30
    let cir := fld w0 20 0
    let now := eNs s0
    let last := (tw s0 (a + 24)).toNat + (tw s0 (a + 28)).toNat * 2 ^ 32
    let r := if mode = 0 ∨ mode = 3 ∨ cir = 0 then (0, s0)
      else
        let t := policeTokens mode (bit w0 29) cir (fld (tw s0 (a + 4)) 20 0) (fld (tw s0 (a + 8)) 23 0)
          (fld (tw s0 (a + 12)) 23 0) (now - last) (polTokens s0 w p 0) (polTokens s0 w p 1) len o.colour
        (t.1, putPol w p t.2.1 t.2.2 now s0)
    let s1 := bump (VIT_CNT w (7 + r.1)) r.2
    let red := r.1 == 2 && bit w0 28
    (⟨r.1, o.redDrop || red, if r.1 == 1 && bit w0 27 then some (fld w0 26 21) else none⟩,
      if red then bump (VIT_CNT w 10) s1 else s1)

/-- Policers applied in order, each seeing the colour of the one before: the colour, any red drop, and the remark of the last
(R235, R239). -/
def policeAll (w len : Nat) : List Nat → PolOut → State → PolOut × State
  | [], o, s => (o, s)
  | p :: r, o, s =>
    let x := police w p len o s
    policeAll w len r x.1 x.2

/-! ## Stream filtering (R433) -/

/-- The stream handle of a frame: lookup A's before lookup B's; SRC lookups have no STREAM effect (R155). -/
def streamHandle (s : State) (f : Frame) : Option Nat :=
  let h := fun (r : Option CatRes) b => match r with
    | some (.hit _ v) => if kindOf v = 8 ∧ catRole s f b ≠ 1 then some (valueOf v % 2 ^ 14) else none
    | _ => none
  (h f.catA false).or (h f.catB true)

/-- Outcome of stream filtering: drop or pass, the colour after its meter, whether the meter's red drops the frame, and the recovery
function and number passed. -/
structure SfOut where
  drop : Bool
  pol : PolOut
  meterDrop : Bool
  srf : Option (Nat × Nat)
  deriving DecidableEq, Repr

/-- The recovery check of a stream filter (R436, R437, R442). -/
def sfRecover (r n : Nat) (s : State) : SrfRes × Option (Nat × Nat) × State :=
  match srfBad s r with
  | some a => (.pass, none, tsnErr a s)
  | none =>
    let s1 := noteCes [srfAddr r, srfAddr r + 16] s
    if !bit (tw s1 (srfAddr r)) 31 then (.pass, none, s1)
    else
      let x := recover r n s1
      (x.1, if x.1 = .pass then some (r, n) else none, x.2)

/-- The checks of R433 in order, stopping at the first drop. -/
def streamFilter (f : Frame) (len : Nat) (o : PolOut) (s : State) : SfOut × State :=
  match streamHandle s f with
  | none => (⟨false, o, false, none⟩, s)
  | some h =>
    if !isOn s pageTSN then (⟨false, o, false, none⟩, bump (TSN_CNT 11) s)
    else
      let s0 := settle s
      let a := sfAddr h
      if !readable s0 a then (⟨false, o, false, none⟩, bump (TSN_CNT 11) (tsnErr a s0))
      else
        let w0 := tw s0 a
        let s0' := noteCe a s0
        if !bit w0 31 then (⟨false, o, false, none⟩, s0')
        else
          let s1 := bump (TSN_CNT 0) s0'
          let sdu := fld w0 25 12
          if rb s1 (TSN_SF_BLOCKED (h / 32)) (h % 32) then (⟨true, o, false, none⟩, bump (TSN_CNT 1) s1)
          else if sdu ≠ 0 ∧ sdu < len then
            let s2 := bump (TSN_CNT 1) s1
            (⟨true, o, false, none⟩, if bit w0 30 then raise pageTSN 4 (wf (TSN_SF_BLOCKED (h / 32)) (h % 32) (h % 32) 1 s2) else s2)
          else
            let g := if bit w0 29 then streamGate (fld (tw s1 (a + 4)) 9 0) f.ts s1 else (true, s1)
            if !g.1 then (⟨true, o, false, none⟩, bump (TSN_CNT 2) g.2)
            else
              let m := if bit w0 28 then police (portWing f.port) (fld (tw s1 (a + 4)) 31 16) len { o with redDrop := false } g.2
                else ({ o with redDrop := false }, g.2)
              if m.1.redDrop then (⟨false, m.1, true, none⟩, m.2)
              else if bit w0 27 then
                let x := sfRecover (fld w0 11 0) (slotOf f (fld (tw s1 (a + 8)) 6 0)) m.2
                (⟨x.1 != .pass, m.1, false, x.2.1⟩, x.2.2)
              else (⟨false, m.1, false, none⟩, m.2)

/-! ## Learns (R163, R164, R181) -/

/-- Learn queue and pending-key filter of wing `w`. -/
def learnQ (s : State) (w : Nat) : List Learn := sGet [] w s.cat.learnQ
def keyFilter (s : State) (w : Nat) : List (List Byte) := sGet [] w s.cat.filter

/-- A learn refused for want of room: counted, learn_q_full on the first since neither was full (R181). -/
def learnFull (w : Nat) (s : State) : State :=
  let s1 := bump (CAT_CNT w 6) s
  if s1.cat.qWasFull.contains w then s1
  else raise (pageCAT w) 1 { s1 with cat := { s1.cat with qWasFull := s1.cat.qWasFull ++ [w] } }

/-- A learn enters its wing's queue, its key the filter, or is discarded (R164). -/
def placeLearn (w : Nat) (l : Learn) (s : State) : State :=
  if !rb s (CAT_CFG w) 1 then s
  else if (keyFilter s w).contains l.key then bump (CAT_CNT w 7) s
  else if 4096 ≤ (learnQ s w).length ∨ 1024 ≤ (keyFilter s w).length then learnFull w s
  else { s with cat := { s.cat with
      learnQ := sPut [] w (learnQ s w ++ [l]) s.cat.learnQ
      filter := sPut [] w (keyFilter s w ++ [l.key]) s.cat.filter } }

/-- Learns placed in the order in which the lookups raised them. -/
def placeLearns (w : Nat) (ls : List Learn) (s : State) : State := ls.foldl (fun a l => placeLearn w l a) s

/-- Learns cancelled (R163); with learn_en 0 they are discarded uncounted (the CAT_CFG card). -/
def cancelLearns (w : Nat) (ls : List Learn) (s : State) : State :=
  if rb s (CAT_CFG w) 1 then bumpN (CAT_CNT w 4) ls.length s else s

/-- A frame's pending learns cancelled. -/
def cancelLearn (f : Frame) (s : State) : State := cancelLearns (portWing f.port) f.learn s

/-- A frame's pending learns settled where its last byte has arrived: committed when its FCS was good. -/
def commitLearn (f : Frame) (s : State) : State :=
  if f.bad then cancelLearn f s else placeLearns (portWing f.port) f.learn s

/-! ## Requests for copies -/

/-- A copy that ingress resolution asks the Depot for. -/
structure CopyReq where
  kind : CopyKind
  cls : Nat
  port : Nat
  queue : Nat
  nh : Option Nat
  template : Nat
  plain : Bool
  trunc : Nat
  reason : Nat
  sess : Nat
  deriving DecidableEq, Repr

/-- Can a frame be sent to a port: present and not reserved (R71)? -/
def destOk (s : State) (i : Nat) : Bool := decide (i < 522) && portPresent s i

/-- A copy to a queue of port 512. -/
def hostReq (q reason : Nat) : CopyReq :=
  { kind := .punt, cls := 3, port := 512, queue := q, nh := none, template := 0, plain := true, trunc := 0,
    reason := reason, sess := 0 }

/-- Kind of a forwarding copy to port `i` (R289). -/
def kindTo (i : Nat) : CopyKind := if 514 ≤ i ∧ i < 522 then .recirc else .forwarded

/-- A unicast forwarding copy. -/
def uniReq (s : State) (f : Frame) (d : Decision) (i : Nat) (nh : Option Nat) (t : Nat) : CopyReq :=
  { kind := kindTo i, cls := if i = 512 ∨ i = 513 then 3 else 0, port := i,
    queue := match d.q with
      | some q => q
      | none => d.vq.getD (classify s f),
    nh := nh, template := t, plain := d.plain, trunc := 0, reason := 0, sess := 0 }

/-- Table addresses of list header `l` and member `m` in wing `w`'s region (chapter 11). -/
def listAddr (w l : Nat) : Nat := (8 + w) * 0x4000000 + 4 * l
def memberAddr (w m : Nat) : Nat := (8 + w) * 0x4000000 + 0x40000 + 8 * m

/-- The copies of one member (R361), with the counts of a member that makes none. -/
def expandMember (f : Frame) (d : Decision) (nh : Option Nat) (m : Nat) (s : State) : Option CopyReq × State :=
  let w := portWing f.port
  let a := memberAddr w m
  if 131072 ≤ m then (none, s)
  else if !readable s a then (none, noteRead a s)
  else
    let s := noteCe a s
    let w0 := tw s a
    let i := fld w0 9 0
    if !bit w0 31 then (none, s)
    else if bit w0 30 && i == f.port then (none, bump (DPT_RPL_CNT 2) s)
    else if !destOk s i then (none, bump (DPT_RPL_CNT 4) s)
    else
      let q := match d.vq with
        | some v => 12 + v % 4
        | none => 12 + fld w0 29 28
      if !portUp s i || portFenced s i then (none, dropCap f.gal 9 f i q (countDown i s))
      else
        (some { kind := kindTo i, cls := 1, port := i, queue := q, nh := nh, template := fld (tw s (a + 4)) 12 0,
                plain := false, trunc := 0, reason := 0, sess := 0 }, s)

/-- The copies of a list in member order. -/
def expandMembers (f : Frame) (d : Decision) (nh : Option Nat) : List Nat → State → List CopyReq × State
  | [], s => ([], s)
  | m :: r, s =>
    let x := expandMember f d nh m s
    let y := expandMembers f d nh r x.2
    (x.1.toList ++ y.1, y.2)

/-- List `l` expanded (R356, R361, R363): an invalid, empty or unreadable header gives no copy. -/
def expandList (f : Frame) (d : Decision) (l : Nat) (nh : Option Nat) (s : State) : List CopyReq × State :=
  let s0 := settle s
  let a := listAddr (portWing f.port) l
  if !readable s0 a then ([], noteRead a s0)
  else
    let s0 := noteCe a s0
    let h := tw s0 a
    let n := min 512 (fld h 26 17)
    if !bit h 31 || n == 0 then ([], s0)
    else expandMembers f d nh ((List.range n).map fun j => fld h 16 0 + j) (bump (DPT_RPL_CNT 0) s0)

/-- The mirror copies and captures of the sessions a frame names, in ascending session number (R365-R369): a mirror copy, or
the ring of a capture. While the Archive stops it makes no capture and counts each as lost (R377). -/
def mirrorReqs (f : Frame) : List Nat → State → List (Sum CopyReq (Nat × Nat)) × State
  | [], s => ([], s)
  | n :: r, s =>
    let c := rd s (ARC_SESS_CFG n)
    if !bit c 31 then mirrorReqs f r s
    else
      let m := rd s (ARC_SESS_SAMP n)
      let x := sampled (fld m 15 0) (sGet 0 (16 * f.gal + n) s.arc.sessCnt)
      let s1 := { s with arc := { s.arc with sessCnt := sPut 0 (16 * f.gal + n) x.2 s.arc.sessCnt } }
      if !x.1 then mirrorReqs f r s1
      else if bit c 30 then
        if isOn s1 pageARC then
          let y := mirrorReqs f r s1
          (.inr (fld c 29 27, n) :: y.1, y.2)
        else mirrorReqs f r (if blkState s1 pageARC = 3 then arcLose (fld c 29 27) s1 else s1)
      else
        let i := fld c 22 13
        if !destOk s1 i then mirrorReqs f r (dropCap f.gal 6 f 0x3FF 0 (portCnt f.port 13 1 s1))
        else if !portUp s1 i || portFenced s1 i then
          mirrorReqs f r (dropCap f.gal 9 f i (fld c 26 23) (countDown i s1))
        else
          let y := mirrorReqs f r s1
          (.inl { kind := .mirror, cls := 2, port := i, queue := fld c 26 23, nh := none, template := fld c 12 0, plain := false,
                  trunc := fld m 31 24, reason := 0, sess := n } :: y.1, y.2)

/-! ## Admission (R334-R337) -/

/-- Outcome of an admission test. -/
inductive Adm where
  | ok (a : Area)
  | refuse
  | guard
  | overflow
  deriving DecidableEq, Repr

/-- Cells a copy is tested and charged with (R334). -/
def testCells (s : State) (f : Frame) : Nat :=
  if f.whole ∧ f.bytes.length ≤ 256 then cellsFor f.bytes.length
  else ceilDiv (maxFrame s f.port + 1) 256

/-- floor(2^alpha_exp * x) for the signed 4-bit exponent of HAL_DT_CFG: 0x8 acts as -7, 0x4-0x7 as +3. -/
def alphaTimes (e x : Nat) : Nat :=
  if e < 4 then x * 2 ^ e else if e < 8 then x * 8 else if e = 8 then x / 2 ^ 7 else x / 2 ^ (16 - e)

/-- Threshold T of queue profile `prof` in pool `k` for a colour (R335). -/
def threshold (s : State) (k prof col : Nat) : Nat :=
  let c := rd s (HAL_DT_CFG prof)
  let t := alphaTimes (fld c 3 0) (rf s (DPT_POOL_SIZE k) 20 0 - rf s (DPT_POOL_STAT k) 20 0)
  if col = 1 then t / 2 ^ fld c 6 4 else if col = 2 then t / 2 ^ fld c 10 8 else t

/-- The shared step of R335 against pool `k`: the yellow_drop refusal, T, the pool's size, and the guard. -/
def sharedStep (s : State) (k prof col shared n : Nat) (a : Area) : Adm :=
  if col == 1 && reactedBefore s k 3 then .refuse
  else if threshold s k prof col < shared + n ∨ rf s (DPT_POOL_SIZE k) 20 0 < rf s (DPT_POOL_STAT k) 20 0 + n then .refuse
  else if rf s DPT_FREE_STAT 20 0 < rf s DPT_CFG 20 0 + n then .guard
  else .ok a

/-- The headroom step of R335. -/
def headroomStep (s : State) (i n : Nat) : Adm :=
  if rf s (DPT_PFC_HDRM i) 31 16 + n ≤ rf s (DPT_PFC_HDRM i) 15 0 then .ok (.headroom i) else .overflow

/-- admit_unicast(Q, P, I, p, col, n) of R335, with whether it put the pair in XOFF. -/
def admitUni (s : State) (f : Frame) (col q n : Nat) : Adm × Bool :=
  let c := rd s (HAL_Q_CFG q)
  let o := q / 16
  let p := queuePri s (q % 16)
  let ll := lossless s f.port p
  let k := fld c 13 12
  if rf s (HAL_Q_USE q) 20 0 + n ≤ fld c 31 20 then (.ok (.queue q), false)
  else if sGet 0 o s.dpt.portUse + n ≤ rf s (HAL_PORT_CFG o) 15 0 then (.ok (.port o), false)
  else if ll && inXoff s f.port p then (headroomStep s f.port n, true)
  else
    let yd := col == 1 && reactedBefore s k 3
    match sharedStep s k (fld c 19 16) col (sGet 0 q s.dpt.qShared) n (.pool k (some q)) with
    | .ok a => (.ok a, false)
    | r => if ll && !yd then (headroomStep s f.port n, true) else (r, false)

/-- The test of a multicast or mirror copy (R336, R367). -/
def admitMulti (s : State) (col q n k : Nat) : Adm :=
  sharedStep s k (rf s (HAL_Q_CFG q) 19 16) col (rf s (HAL_Q_USE q) 20 0) n (.pool k none)

/-- A refused copy counted (R337). -/
def countRefusal (r : Adm) (col q : Nat) (s : State) : State :=
  let s1 := wr (HAL_Q_DROP q) (rd s (HAL_Q_DROP q) + 1) (bump (HAL_CNT 3) s)
  let s2 := if col = 1 then bump (HAL_CNT 4) s1 else if col = 2 then bump (HAL_CNT 5) s1 else s1
  match r with
  | .guard => bump (HAL_CNT 6) s2
  | .overflow => raiseFirst pageDPT 5 (bump (DPT_CNT 9) (bump (HAL_CNT 7) s2))
  | _ => s2

/-- Copies admitted so far with their copy index, the captures among the holders, the frame's charge and area, its pair's
priority, and whether a copy asked for an ECN mark. -/
structure Adms where
  copies : List (CopyReq × Nat)
  caps : List (Nat × Nat × Nat)
  next : Nat
  charge : Nat
  area : Area
  pri : Nat
  ce : Bool
  deriving DecidableEq, Repr

/-- Descriptor cells of a frame with `n` copies (R318). -/
def descCells (n : Nat) : Nat := if n ≤ 1 then 0 else ceilDiv n 8

/-- One copy tested and charged in its turn (R338): only the first admitted copy charges the frame's cells to an area and to
the pair (R333, R336); every one charges its queue. `need` cells of the frame, and its descriptor cells, must be free. -/
def admitOne (f : Frame) (col n need : Nat) (r : CopyReq) (x : Adms) (s : State) : Adms × State :=
  let q := 16 * r.port + r.queue
  let p := queuePri s r.queue
  let t := if r.cls = 1 then (admitMulti s col q n (rf s DPT_CFG 29 28), false)
    else if r.cls = 2 then (admitMulti s col q n (rf s (HAL_Q_CFG q) 13 12), false)
    else admitUni s f col q n
  let stopped := !isOn s pageHAL || !isOn s pageDPT
  let s1 := if t.2 && !stopped then enterXoff f.port p s else s
  let off := stopped || decide (allocatable s < need + descCells (x.copies.length + 1))
  match (if off then Adm.refuse else t.1) with
  | .ok a =>
    if 1023 ≤ x.next then
      (x, dropCap f.gal 7 f r.port r.queue (raise pageDPT 2 (bump (DPT_CNT 5) s1)))
    else
      let ecnQ := rb s (HAL_ECN_CFG (rf s (HAL_Q_CFG q) 19 16)) 31 &&
        decide (rf s (HAL_ECN_CFG (rf s (HAL_Q_CFG q) 19 16)) 20 0 < rf s (HAL_Q_USE q) 20 0 + n)
      let ecnP := match a with
        | .pool k _ => reactedBefore s k 0
        | _ => false
      let firstOne := x.copies.isEmpty
      let s2 := bump (HAL_CNT 2) (addWrap (HAL_Q_USE q) 20 0 n s1)
      let s3 := if firstOne then
          let y := setPair f.port p (pairCells s2 f.port p + n) (areaAdd a n s2)
          (match a with
            | .pool k _ =>
              if lossless s f.port p && reactedBefore s k 1 then
                let z := enterXoff f.port p y
                { z with dpt := { z.dpt with
                  xoffBy := (z.dpt.xoffBy.filter fun e => e.1 != 8 * f.port + p || e.2.1 != k) ++ [(8 * f.port + p, k, xoffLevel s k)] } }
              else y
            | _ => y)
        else s2
      let s4 := if r.cls = 1 then bump (DPT_RPL_CNT 1) s3 else if r.cls = 2 then bump (ARC_CNT 2) s3 else s3
      ({ x with
          copies := x.copies ++ [(r, x.next)]
          next := x.next + 1
          charge := if firstOne then n else x.charge
          area := if firstOne then a else x.area
          pri := if firstOne then p else x.pri
          ce := x.ce || ecnQ || ecnP }, s4)
  | w => (x, dropCap f.gal (if w = .overflow then 8 else 7) f r.port r.queue (countRefusal w col q s1))

/-- Copies and captures in the order of R365. -/
def admitAll (f : Frame) (col n need : Nat) : List (Sum CopyReq (Nat × Nat)) → Adms → State → Adms × State
  | [], x, s => (x, s)
  | .inl r :: l, x, s =>
    let y := admitOne f col n need r x s
    admitAll f col n need l y.1 y.2
  | .inr (ring, sess) :: l, x, s => admitAll f col n need l { x with caps := x.caps ++ [(ring, sess, x.next)], next := x.next + 1 } s

/-! ## The ECN mark (R341) -/

/-- Incremental update of an IPv4 header checksum when a 16-bit word changes (RFC 1624). -/
def rfc1624 (sum old new : Nat) : Nat :=
  let t := (0xFFFF - sum) + (0xFFFF - old) + new
  let u := t % 65536 + t / 65536
  0xFFFF - (u % 65536 + u / 65536)

/-- CE written into the ECN field of the L3 header at `o` of a frame's bytes, when the field is ECT(0) or ECT(1). -/
def ecnMark (bs : List Byte) (o : Nat) : Option (List Byte) :=
  let b0 := (byteAt bs o).toNat
  let b1 := (byteAt bs (o + 1)).toNat
  if b0 / 16 = 4 then
    if b1 % 4 = 1 ∨ b1 % 4 = 2 then
      let old := b0 * 256 + b1
      let new := b0 * 256 + (b1 / 4 * 4 + 3)
      let sum := rfc1624 (beNat (slice bs (o + 10) 2)) old new
      some (overwrite (overwrite bs (o + 1) [byte new]) (o + 10) (beBytes 2 sum))
    else none
  else if b0 / 16 = 6 then
    if b1 / 16 % 4 = 1 ∨ b1 / 16 % 4 = 2 then some (overwrite bs (o + 1) [byte (b1 / 64 * 64 + 48 + b1 % 16)]) else none
  else none

/-- Offset Oi of a frame; `none` while invalid. -/
def offsetOf (f : Frame) (i : Nat) : Option Nat := if sGet 512 i f.ofs = 512 then none else some (sGet 512 i f.ofs)

/-- The stored bytes of a flagged frame, marked where R341 says so. -/
def markCe (f : Frame) (s : State) : Frame × State :=
  match offsetOf f (rf s (EDT_CFG f.gal) 4 0) with
  | none => (f, s)
  | some o => match ecnMark f.bytes o with
    | some bs => ({ f with bytes := bs }, bump (HAL_CNT 8) s)
    | none => (f, s)

/-! ## Storing the frame -/

/-- One admitted copy enqueued: at its queue's tail, in the Tail segment of a queue in vault mode (R454); cut through where
every condition holds, which counts as a selection in the clock of its enqueue (R395). `len` is the length charged. The port's other nodes are judged before its
virtual times move (R391), and the empty queue and its group start at them (R390). -/
def enqueueCopy (f : Frame) (n len : Nat) (r : CopyReq × Nat) (s : State) : State :=
  let q := 16 * r.1.port + r.1.queue
  let c : Copy :=
    { id := s.nextCopy, frame := f.id, holder := holderId r.1.cls r.2, port := r.1.port, queue := r.1.queue, kind := r.1.kind,
      plain := r.1.plain, nh := r.1.nh, template := r.1.template, trunc := r.1.trunc, qCells := n,
      seg := if inVault s q then .tail else .head, stage := .queued, cut := false, rdNext := 0, rdWait := false, vault := none, buf := 0,
      spoiled := false, reason := r.1.reason, sess := r.1.sess, edit := none, overrun := false }
  let cut := cutOk s f c
  let c' := { c with cut := cut }
  let s0 := if cut then judgePort r.1.port s else s
  let s1 := { s0 with copies := s0.copies ++ [c'], nextCopy := s0.nextCopy + 1 }
  let g := grpNode (4 * r.1.port + rf s (TMG_Q_CFG q) 5 4)
  if cut then
    judgePort r.1.port (selectCopy c' len (judgeNode g true (judgeNode q true (bump (HAL_CNT 10) s1))))
  else s1

/-- XOR of the identifiers of a frame's holders (R326). -/
def residualOf (hs : List Nat) : Nat := hs.foldl (fun a h => a ^^^ h) 0

/-- The admitted frame stored (R326, R364): its cells so far, its descriptor cells, its record, its copies and captures. -/
def storeFrame (f : Frame) (len n : Nat) (x : Adms) (s : State) : State :=
  let hs := x.copies.map (fun r => holderId r.1.cls r.2) ++ x.caps.map (fun c => holderId 4 c.2.2)
  let m := if x.ce then markCe { f with ce := true } s else (f, s)
  let cells := allocCells hs.length (residualOf hs) f.id (cellsFor m.1.bytes.length) [] m.2
  let nd := descCells x.copies.length
  let pool := rf s DPT_CFG 29 28
  let desc := allocCells 1 0 f.id nd [] cells.2
  let s1 := areaAdd (.pool pool none) nd desc.2
  let f' := { m.1 with
    stage := .hall, cells := cells.1, desc := desc.1, descPool := pool, tested := n, charge := x.charge, area := x.area,
    pri := x.pri, nextHolder := x.next, stampUs := eUs s % 2 ^ 32 }
  let s2 := putFrame f' s1
  let s3 := x.caps.foldl (fun a c =>
    offerCap (mkCap a f'.gal f' c.1 0 0 c.2.1 len 0x3FF 0 (some (f'.id, holderId 4 c.2.2))) a) s2
  x.copies.foldl (fun a r => enqueueCopy f' n len r a) s3

/-- A frame that no copy stored: its captures are taken from the header window (R370), and it leaves, an admission drop or
another discard before the first Hall write (R280). -/
def discardUnstored (f : Frame) (len : Nat) (caps : List (Sum CopyReq (Nat × Nat))) (s : State) : State :=
  let s1 := caps.foldl (fun a c => match c with
    | .inr (ring, sess) => offerCap (mkCap a f.gal f ring 0 0 sess len 0x3FF 0 none) a
    | .inl _ => a) s
  discardFrame f s1

/-- Is a frame discarded before admission (R54, R280): by a drop, or for an invalid destination? Its pending learn is then
cancelled; a frame whose copies alone are dropped is not discarded (DEDUCED, log 41). -/
def discarded (s : State) (d : Decision) : Bool :=
  d.drop.isSome || (match d.fwd with
    | .drop _ => true
    | .port i | .nextHop _ i _ => !destOk s i
    | .none | .punt _ _ | .list _ _ => false)

/-- The forwarding copies of a decision, with the drops they make (R71, R59, R363); a drop by a default action or by a lookup's result or
miss action counts against the input port (R127, R156, R197, R198). -/
def forwardReqs (f : Frame) (d : Decision) (s : State) : List CopyReq × State :=
  let uni := fun (i : Nat) (nh : Option Nat) (t : Nat) =>
    if !destOk s i then ([], dropCap f.gal 6 f 0x3FF 0 (portCnt f.port 13 1 s))
    else
      let r := uniReq s f d i nh t
      if !portUp s i || portFenced s i then ([], dropCap f.gal 9 f i r.queue (countDown i s))
      else ([r], s)
  match d.drop with
  | some reason => ([], if reason = 15 then s else dropCap f.gal reason f 0x3FF 0 (if reason = 1 then portDropped f.port s else s))
  | none =>
    match d.fwd with
    | .none => ([], s)
    | .drop reason => ([], dropCap f.gal reason f 0x3FF 0 (if reason = 4 then portDropped f.port s else s))
    | .punt q reason => ([hostReq q reason], s)
    | .port i => uni i none 0
    | .nextHop n i t => uni i (some n) t
    | .list l nh => expandList f d l nh s

/-- Does a decision forward by a replication list? -/
def byList (d : Decision) : Bool :=
  d.drop.isNone && (match d.fwd with | .list _ _ => true | _ => false)

/-- Ingress resolution of a frame under a decision, once its policers and stream filter have been applied: the copies are
formed, tested, and stored; its learn is committed or cancelled. `len` is its length. -/
def resolveFrame (f : Frame) (d : Decision) (len : Nat) (s : State) : State :=
  let fw := forwardReqs f d s
  let hosts := d.hosts.map fun q => hostReq q 8
  let mr := mirrorReqs f d.mirrors fw.2
  let reqs : List (Sum CopyReq (Nat × Nat)) := fw.1.map .inl ++ hosts.map .inl ++ mr.1
  let asked := !discarded s d
  let n := testCells mr.2 f
  let need := cellsFor f.bytes.length
  let x := admitAll f f.colour n need reqs ⟨[], [], 0, 0, .none, 0, false⟩ mr.2
  let fruitless := byList d && !(x.1.copies.any fun c => c.1.cls == 1)
  let s1 := if fruitless then bump (DPT_RPL_CNT 5) x.2 else x.2
  let s2 := if f.whole then (if asked then commitLearn f s1 else cancelLearn f s1) else if asked then s1 else cancelLearn f s1
  let f1 := { f with learn := if f.whole || !asked then [] else f.learn }
  if x.1.copies.isEmpty then discardUnstored f1 len reqs (putFrame f1 s2)
  else storeFrame f1 len n x.1 s2

/-- May ingress resolution take a frame: released, its lookups done, and no earlier frame of its port still before it
(R126)? -/
def resolvable (s : State) (f : Frame) : Bool :=
  f.stage == .lookup &&
  !(s.frames.any fun x => x.gal == f.gal && x.port == f.port && decide (x.seq < f.seq) &&
      (x.stage == .core || x.stage == .ring || x.stage == .lookup)) &&
  (f.defAct || f.exc != 0 ||
    (catDone s f && ((routeProf s f).isNone || f.route.isSome) &&
      (List.range 4).all fun n => (vitProf s f n).isNone || f.vit.any fun e => e.1 == n))

/-- Place of gallery `g` in the order that rotates every clock, starting at gallery (clock mod 9), GS counted as 8 (R46). -/
def galTurn (clock g : Nat) : Nat := (g + 9 - clock % 9) % 9

/-- Does no other frame that ingress resolution could take come before frame `f` in the arbiter's order: by gallery, and within one
gallery in reorder-ring order (R46)? -/
def itsTurn (s : State) (f : Frame) : Bool :=
  !(s.frames.any fun x => x.id != f.id && resolvable s x &&
    (decide (galTurn s.time.clock x.gal < galTurn s.time.clock f.gal) || (x.gal == f.gal && decide (x.seq < f.seq))))

/-- INGRESS_RESOLUTION of frame `id`, in its turn. A frame whose FCS was bad is discarded with its learn (R54); another is decided, policed,
filtered, replicated, admitted and stored. -/
def execIngressResolution (id : Nat) (s : State) : Res :=
  match frameOf s id with
  | none => .next s
  | some f =>
    if !resolvable s f || !itsTurn s f then .next s
    else if f.whole && f.bad then .next (discardFrame f (cancelLearn f s))
    else
      let x := decideFrame f s
      let l := frameLen f
      let p := policeAll (portWing f.port) l x.1.pols ⟨0, false, none⟩ x.2
      let q := if f.exc != 0 || f.defAct then ((⟨false, p.1, false, none⟩ : SfOut), p.2) else streamFilter f l p.1 p.2
      let d := { x.1 with
        drop := x.1.drop.or (if q.1.drop || q.1.meterDrop then some 2 else if p.1.redDrop then some 3 else none)
        dscp := q.1.pol.remark.or x.1.dscp
        mirrors := if q.1.drop then [] else x.1.mirrors
        hosts := if q.1.drop then [] else x.1.hosts }
      let hash := match profOf f with
        | none => if d.seed.isSome then groupHash q.2 f none (d.seed.getD 0) else 0
        | some pr => groupHash q.2 f (some pr) (d.seed.getD 0)
      let f1 := { f with
        colour := q.1.pol.colour, flowHash := hash, dscp := d.dscp, pcp := d.pcp, srf := q.1.srf,
        learn := if d.veto then [] else f.learn }
      let s1 := if d.veto && !f.learn.isEmpty then bump (VIT_CNT (portWing f.port) 11) (cancelLearn f q.2) else q.2
      .next (resolveFrame f1 d l (putFrame f1 s1))

/-- LAST_CELL_WRITTEN: once the whole frame has arrived, its remaining cells are written (R319) with the holders that still
hold it, and the unused part of its charge returns (R334). It waits while no cell is free. Where no holder is left, no cell is taken. -/
def execLastCellWritten (id : Nat) (s : State) : Res :=
  match frameOf s id with
  | none => .next s
  | some f =>
    if f.stage != .hall || !f.whole || f.lastDone then .next s
    else
      let hs := (copiesOf s id).map (fun c => c.holder) ++
        (s.arc.pend.filterMap fun k => match k.stored with | some y => if y.1 = id ∧ k.kind = 0 then some y.2 else none | none => none)
      let more := if hs.isEmpty then 0 else cellsFor f.bytes.length - f.cells.length
      if allocatable s < more then .next s
      else
        let a := allocCells hs.length (residualOf hs) id more f.cells s
        let s1 := putFrame { f with cells := a.1, lastDone := true } a.2
        let extra := min f.charge (f.tested - cellsFor f.bytes.length)
        let s2 := uncharge id extra s1
        let s3 := { s2 with copies := s2.copies.map fun c => if c.frame = id then { c with qCells := c.qCells - extra } else c }
        .next (tryEnd id ((copiesOf s id).foldl (fun b c => queueDec (16 * c.port + c.queue) (min extra c.qCells) b) s3))

end Sys2Proof.Machine
end

