-- ==== Sys2Proof/Machine/Hall.lean ====
section
/-!
DEFINITION. Reads of Hall cells (R320, R321) and spare banks (R322-R324).
-/
namespace Sys2Proof.Machine

/-! ## The spill writer's data path (R455, R456, R466) -/

/-- The frame's Hall cells released at its spill: no free by a holder, no drain event (R456). -/
def releaseCells (f : Frame) (c : Copy) (s : State) : State :=
  let s1 := f.cells.foldl (fun a x => cellBack x a) s
  let s2 := uncharge f.id f.charge s1
  let s3 := match frameOf s2 f.id with
    | some g => putFrame { g with cells := [] } s2
    | none => s2
  queueDec (16 * c.port + c.queue) c.qCells s3

/-- Every codeword of the spilled copy has entered the write queue: its cells are released. -/
def finishSpill (f : Frame) (c : Copy) (s : State) : State :=
  let s1 := putCopy { c with rdNext := 0, qCells := 0 } (releaseCells f c s)
  bump (VLT_CNT 0) { s1 with vlt := { s1.vlt with spilling := s1.vlt.spilling.filter fun e => e.1 != c.id } }

/-- The codewords of a spilled copy enter its pseudo-channel's write queue of 64, the record first, as far as its cells have been read and the
queue has room. -/
def enterWords (id : Nat) (s : State) : State :=
  match copyOf s id, s.vlt.spilling.find? fun e => e.1 == id with
  | some c, some (_, n) =>
    match c.vault, frameOf s c.frame with
    | some (k, pc), some f =>
      let total := frameWords f.bytes.length
      let q := sGet [] pc s.vlt.wq
      let m := min (min total (1 + 4 * c.rdNext) - n) (64 - q.length)
      let new := (List.range m).map fun i => (bufBase s k c.buf + n + i, 16 * c.port + c.queue)
      let s1 := bumpN (VLT_CNT 2) (64 * m) { s with vlt := { s.vlt with
        wq := sPut [] pc (q ++ new) s.vlt.wq
        spilling := s.vlt.spilling.map fun e => if e.1 = id then (id, n + m) else e } }
      if n + m = total then finishSpill f c s1 else s1
    | _, _ => s
  | _, _ => s

/-! ## Reads -/

/-- A copy put in its place in a list in the order of enqueue. -/
def enqueueOrder (c : Copy) : List Copy → List Copy
  | [] => [c]
  | x :: r => if c.id < x.id then c :: x :: r else x :: enqueueOrder c r

/-- Copies whose next cell lies in bank `b` and has not been asked for: selected, edited, in transmission or being spilled, oldest
enqueue first. -/
def wantRead (s : State) (b : Nat) : List Copy :=
  (s.copies.filter fun c => (c.stage != .queued || isSpilling s c.id) && !c.rdWait && !c.spoiled && decide (c.rdNext < cellsWanted s c) &&
    (match (chainOfCopy s c)[c.rdNext]? with
      | some x => bankOf x == b
      | none => false)).foldr enqueueOrder []

/-- One reader's read put into its bank's queue, or a retry counted when the queue holds 32 (R320). -/
def askRead (b : Nat) (c : Copy) (s : State) : State :=
  let q := sGet [] b s.hal.readQ
  if 32 ≤ q.length then bump (HAL_CNT 12) s
  else putCopy { c with rdWait := true } { s with hal := { s.hal with readQ := sPut [] b (q ++ [c.id]) s.hal.readQ } }

/-- The read a bank serves: that of the oldest enqueue, the lowest copy number (R33, R320). -/
def nextRead (s : State) (b : Nat) : Option Nat :=
  (sGet [] b s.hal.readQ).foldl (fun a c => match a with
    | some x => if c < x then some c else some x
    | none => some c) none

/-- An unreadable or poisoned cell spoils a copy (R321): dropped before its transmission has started, else stomped. -/
def spoilCopy (cell : Nat) (c : Copy) (s : State) : State :=
  let s1 := reportFault pageHAL 0x01 cell false (recordErr pageHAL 0x03 0 cell (raise pageHAL 0 (bump (HAL_CNT 11) s)))
  if c.stage = .sending then putCopy { c with spoiled := true, rdWait := false } s1 else dropCopy 0x0D c s1

/-- Bank `b` read an uncorrectable cell. -/
def bankUe (b : Nat) (s : State) : State := incSat (HAL_BANK_UE b) 7 0 s

/-- A served read: counted; a good cell is freed by its holder (R327), or goes to the write queue of a copy being spilled; another spoils the
copy. -/
def serveRead (b : Nat) (out : RdOutcome) (id : Nat) (s : State) : State :=
  let s0 := { s with hal := { s.hal with readQ := sPut [] b ((sGet [] b s.hal.readQ).filter (· != id)) s.hal.readQ } }
  match copyOf s0 id with
  | none => s0
  | some c =>
    match (chainOfCopy s0 c)[c.rdNext]? with
    | none => putCopy { c with rdWait := false } s0
    | some cell =>
      let s1 := bump (HAL_CNT 1) s0
      if out = .ue then spoilCopy cell c (bankUe b s1)
      else if (cellOf s1 cell).poison then spoilCopy cell c s1
      else
        let s2 := if out = .corrected then correctedAt pageHAL s1 else s1
        if isSpilling s2 id then enterWords id (putCopy { c with rdNext := c.rdNext + 1, rdWait := false } s2)
        else
        let s3 := putCopy { c with rdNext := c.rdNext + 1, rdWait := false, qCells := c.qCells - 1 } s2
        freeCell cell c.holder (queueDec (16 * c.port + c.queue) 1 s3)

/-- HALL_READ: one clock of bank `b`: the copies whose next cell it holds queue their reads, and it serves one, whose outcome
the array gives (log 2). -/
def execHallRead (b : HallBank) (out : RdOutcome) (s : State) : Res :=
  let s1 := (wantRead s b).foldl (fun a c => askRead b c a) s
  match nextRead s1 b with
  | none => .next s1
  | some id => .next (serveRead b out id s1)

/-- Is a spare bank free? -/
def spareFree (s : State) : Bool := rf s HAL_SPARE_STAT 15 8 == 0xFF || rf s HAL_SPARE_STAT 23 16 == 0xFF

/-- Logical bank `b` is declared failed (R322): a takeover starts under auto with a spare free; with no spare left the bank is
fenced (R324). -/
def bankFails (b : Nat) (s : State) : State :=
  let s1 := raise pageHAL 1 { s with hal := { s.hal with failed := if s.hal.failed.contains b then s.hal.failed else s.hal.failed ++ [b] } }
  let s2 := reportFault pageHAL 0x03 b false s1
  if !spareFree s2 then
    if s2.hal.fenced.contains b then s2
    else
      let free := bankFree s2 b
      let s3 := raise pageHAL 3 (incSat HAL_SPARE_STAT 7 0 s2)
      let s4 := fieldDec DPT_FREE_STAT 20 0 free (fieldDec DPT_CAP_STAT 20 0 8192 s3)
      judgeCommit { s4 with hal := { s4.hal with fenced := s4.hal.fenced ++ [b] } }
  else if rb s2 HAL_SPARE_CFG 8 then wf HAL_SPARE_STAT 31 31 1 { s2 with hal := { s2.hal with taking := some b } }
  else s2

/-- HALL_BANK_FAIL: bank `b`'s uncorrectable reads have reached fail_ue (0 acts as 1); it waits while a copy runs. -/
def execHallBankFail (b : HallBank) (s : State) : Res :=
  if decide (max 1 (rf s HAL_SPARE_CFG 7 0) ≤ rf s (HAL_BANK_UE b) 7 0) && s.hal.taking.isNone && !s.hal.failed.contains b.val then
    .next (bankFails b s)
  else .next s

/-- A write of HAL_SPARE_CMD; go declares the bank failed, and is ignored while a copy runs. -/
def hallSpareCmd (v : W32) (s : State) : State :=
  let s1 := wf HAL_SPARE_CMD 6 0 (fld v 6 0) s
  if bit v 31 && s1.hal.taking.isNone then bankFails (fld v 6 0) s1 else s1

/-- HALL_SPARE_CMD (R322). -/
def execHallSpareCmd (v : W32) (s : State) : Res := .next (hostDo HAL_SPARE_CMD (hallSpareCmd v) s)

/-- HALL_BANK_SPARED: the copy has ended; the bank is mapped to the spare, with the rows that read as uncorrectable marked
poisoned, and allocation resumes (R323). PB128 is used before PB129. -/
def execHallBankSpared (bad : List (Fin 8192)) (s : State) : Res :=
  match s.hal.taking with
  | none => .next s
  | some b =>
    let s1 := bad.foldl (fun a r =>
      let c := r.val * 128 + b
      if (cellOf a c).alloc then putCell c { cellOf a c with poison := true } a else a) s
    let s2 := if rf s1 HAL_SPARE_STAT 15 8 = 0xFF then wf HAL_SPARE_STAT 15 8 b s1 else wf HAL_SPARE_STAT 23 16 b s1
    .next (raise pageHAL 2 (wf HAL_SPARE_STAT 31 31 0 { s2 with hal := { s2.hal with taking := none } }))

end Sys2Proof.Machine
end

