-- ==== Sys2Proof/Machine/Editor.lean ====
section
/-!
DEFINITION. The Egress Editor (chapter 09): template versions, splice, field operations, remarks, padding and the length
check.
-/
namespace Sys2Proof.Machine

/-! ## The frame under edit -/

/-- A frame under edit: its bytes without FCS (those present, when it is still arriving), the limit min(new length, 384) of
R303, and how positions of the original map (R300): the splice point, the pop length and the push length. -/
structure Edit where
  buf : List Byte
  lim : Nat
  a : Nat
  p : Nat
  push : Nat
  mark : Option PtpMark
  ttls : Nat
  deriving DecidableEq, Repr

/-- Position named by a base, an offset index and an adjustment (R300); `none` for an invalid offset or a removed byte. -/
def editPos (f : Frame) (e : Edit) (base : Bool) (idx adj : Nat) : Option Nat :=
  if base then some (e.a + adj)
  else match offsetOf f idx with
    | none => none
    | some o =>
      let x := o + adj
      if x < e.a then some x else if e.a + e.p ≤ x then some (x - e.p + e.push) else none

/-- `bs` written at position `d`, when they end within the limit (R303). -/
def editPut (e : Edit) (d : Nat) (bs : List Byte) : Option Edit :=
  if d + bs.length ≤ e.lim then some { e with buf := overwrite e.buf d bs } else none

/-- `n` bytes read at position `x`, when they end within the limit. -/
def editGet (e : Edit) (x n : Nat) : Option (List Byte) := if x + n ≤ e.lim then some (slice e.buf x n) else none

/-- What the operations read beside the frame: the next hop's dmac and ttl_dec, the output port's source MAC, the template's
data and the flow hash. -/
structure EditEnv where
  nh : Option (Nat × Bool)
  smac : Nat
  data : List Byte
  hash : Nat
  newLen : Nat
  deriving DecidableEq, Repr

/-- The IPv4 header checksum over a header's bytes with its checksum field taken as zero. -/
def v4Sum (bs : List Byte) : Nat := 0xFFFF - onesSum (overwrite bs 10 [0, 0])

/-- TTL_DEC of a header of kind `k` at `d` (R302): IPv4 with its checksum by RFC 1624, IPv6 hop limit, MPLS entry. -/
def ttlDec (e : Edit) (d k : Nat) : Option Edit :=
  let one := fun (e : Edit) => { e with ttls := e.ttls + 1 }
  let dec := fun (b : List Byte) => byte (beNat b + 255)
  match k with
  | 0 =>
    match editGet e (d + 8) 4 with
    | none => none
    | some bs =>
      let t := dec (bs.take 1)
      let sum := rfc1624 (beNat (slice bs 2 2)) (beNat (slice bs 0 2)) (t.toNat * 256 + (byteAt bs 1).toNat)
      (editPut e (d + 8) ([t, byteAt bs 1] ++ beBytes 2 sum)).map one
  | 1 => match editGet e (d + 7) 1 with
    | none => none
    | some bs => (editPut e (d + 7) [dec bs]).map one
  | 2 => match editGet e (d + 3) 1 with
    | none => none
    | some bs => (editPut e (d + 3) [dec bs]).map one
  | _ => some e

/-- One field operation (R301, R302); `none` is an edit fault (R303). A reserved code writes nothing. -/
def editOp (f : Frame) (v : EditEnv) (op : Nat) (e : Edit) : Option Edit :=
  let arg := bitsOf op 15 0
  let n := bitsOf op 31 28 + 1
  match editPos f e (op.testBit 59) (bitsOf op 58 54) (bitsOf op 53 46) with
  | none => none
  | some d =>
    let src := editPos f e (op.testBit 45) (bitsOf op 44 40) (bitsOf op 39 32)
    match op / 2 ^ 60 with
    | 1 => (match v.nh with
      | some (dmac, _) => editPut e d (beBytes 6 dmac)
      | none => some e)
    | 2 => editPut e d (beBytes 6 v.smac)
    | 3 => (match v.nh with
      | some (_, true) => ttlDec e d (arg % 4)
      | _ => some e)
    | 4 => (match src with
      | some x => editPut e d (beBytes 2 (unsigned 16 ((v.newLen : Int) - x - arg)))
      | none => none)
    | 5 => (match editGet e d 1 with
      | none => none
      | some b =>
        match editGet e d (beNat b % 16 * 4) with
        | none => none
        | some h => editPut e (d + 10) (beBytes 2 (v4Sum h)))
    | 6 => editPut e d (slice v.data (arg % 128) n)
    | 7 => (match src with
      | some x => (match editGet e x n with
        | some bs => editPut e d bs
        | none => none)
      | none => none)
    | 8 => editPut e d (beBytes 2 (0xC000 + v.hash % 2 ^ 14))
    | 9 => some { e with mark := some ⟨d, true, none⟩ }
    | 10 => some { e with mark := some ⟨d, false, none⟩ }
    | _ => some e

/-- Operations in order, up to the first END. -/
def editOps (f : Frame) (v : EditEnv) : List Nat → Edit → Option Edit
  | [], e => some e
  | op :: r, e =>
    if op / 2 ^ 60 = 0 then some e
    else match editOp f v op e with
      | some e' => editOps f v r e'
      | none => none

/-! ## Splice (R299, R303) -/

/-- Splice of the body by the control words of a template version at table address `t`. `long` says that the frame goes on
beyond the body. -/
def spliceAt (s : State) (f : Frame) (t : Nat) (body : List Byte) (long : Bool) : Option Edit :=
  let w1 := tw s (t + 4)
  let push := fld (tw s (t + 8)) 31 24
  let lim := if long then 256 else min body.length 256
  match offsetOf f (fld w1 31 27) with
  | none => none
  | some o =>
    let a := o + fld w1 26 19
    let pl : Option Nat := if bit w1 11 then
        (match offsetOf f (fld w1 10 6) with
          | some e => if a ≤ e then some (e - a) else none
          | none => none)
      else some (fld w1 18 12)
    match pl with
    | none => none
    | some p =>
      if lim < a ∨ lim < a + p ∨ 64 < p then none
      else
        let data := slice (wordBytes (tws s (t + 80) 32)) 0 push
        let buf := body.take a ++ data ++ body.drop (a + p)
        some { buf := buf, lim := if long then 384 else min buf.length 384, a := a, p := p, push := push, mark := none, ttls := 0 }

/-! ## Remarks (R304, R305) -/

/-- DSCP written into the L3 header at `o` of a buffer; `none` when the version is neither 4 nor 6. -/
def putDscp (bs : List Byte) (o dscp : Nat) : Option (List Byte) :=
  let b0 := (byteAt bs o).toNat
  let b1 := (byteAt bs (o + 1)).toNat
  if bs.length < o + 2 then none
  else if b0 / 16 = 4 then
    let new := dscp * 4 + b1 % 4
    let sum := rfc1624 (beNat (slice bs (o + 10) 2)) (b0 * 256 + b1) (b0 * 256 + new)
    some (overwrite (overwrite bs (o + 1) [byte new]) (o + 10) (beBytes 2 sum))
  else if b0 / 16 = 6 then
    some (overwrite bs o [byte (b0 / 16 * 16 + dscp / 4), byte (dscp % 4 * 64 + b1 % 64)])
  else none

/-- Both remarks of a frame's edit record, with the counts of those skipped. -/
def remarks (g : Nat) (f : Frame) (e : Edit) (s : State) : Edit × State :=
  let x := match f.dscp with
    | none => (e, s)
    | some v =>
      match editPos f e false (rf s (EDT_CFG g) 4 0) 0 with
      | none => (e, bump (EDT_CNT g 8) s)
      | some o => match putDscp e.buf o v with
        | some bs => ({ e with buf := bs }, s)
        | none => (e, bump (EDT_CNT g 8) s)
  match f.pcp with
  | none => x
  | some v =>
    let t := beNat (slice x.1.buf 12 2)
    if (t = 0x8100 ∨ t = 0x88A8) ∧ 15 ≤ x.1.buf.length then
      ({ x.1 with buf := overwrite x.1.buf 14 [byte (v * 32 + (byteAt x.1.buf 14).toNat % 32)] }, x.2)
    else (x.1, bump (EDT_CNT g 9) x.2)

/-! ## The edit of a copy (R298) -/

/-- Bytes of a copy that the Editor sees: without the FCS when the whole frame is there, cut to 64 * trunc for a mirror
(R368), the first 508 of a frame still arriving; and whether the frame goes on beyond them. -/
def editBody (f : Frame) (c : Copy) : List Byte × Bool :=
  if f.whole then
    let b := f.bytes.take (f.bytes.length - 4)
    (if c.kind == .mirror && c.trunc != 0 then b.take (64 * c.trunc) else b, false)
  else if c.kind == .mirror && c.trunc != 0 && decide (64 * c.trunc ≤ 508) then (f.bytes.take (64 * c.trunc), false)
  else (f.bytes.take 508, true)

/-- The edited copy handed to the MAC: padded to 60 bytes (step 5). -/
def padTo60 (g : Nat) (bs : List Byte) (s : State) : List Byte × State :=
  if bs.length < 60 then (bs ++ List.replicate (60 - bs.length) 0, bump (EDT_CNT g 7) s) else (bs, s)

/-- Step 6: a stored copy that exceeds the output port's limit with its FCS is dropped (R307); the rest is ready for the
MAC, which takes the frame on from stored byte `cont`. -/
def finishEdit (g : Nat) (c : Copy) (bs : List Byte) (cont : Nat) (long : Bool) (mark : Option PtpMark) (s : State) : State :=
  if !long && !c.cut && decide (maxFrame s c.port < bs.length + 4) then
    dropCopy 0x0C c (raiseFirst (pageEDT g) 3 (bump (EDT_CNT g 5) s))
  else putCopy { c with stage := .edited, edit := some ⟨bs, cont, mark⟩ } s

/-- The stored byte from which the frame of an edited body goes on: past its end where the body is all of it. -/
def contOf (f : Frame) (long : Bool) : Nat := if long then 508 else max 508 f.total

/-- The PTP mark with the place of the frame's L3 header (EDT_CFG.l3_idx). -/
def markL3 (g : Nat) (f : Frame) (e : Edit) (s : State) : Option PtpMark :=
  e.mark.map fun m => { m with l3 := editPos f e false (rf s (EDT_CFG g) 4 0) 0 }

/-- A copy dropped by the Editor for an edit fault (R303). -/
def editFault (g : Nat) (c : Copy) (s : State) : State := dropCopy 0x0B c (raiseFirst (pageEDT g) 1 (bump (EDT_CNT g 4) s))

/-- The words of the template version, and of the next hop, that an edit reads. -/
def editReads (w t nh : Nat) (v : Option Nat) (useNh : Bool) : List Nat :=
  let hs := [tplAddr w t 0, tplAddr w t 1]
  let body := match v with
    | some v => [tplAddr w t v + 64, tplAddr w t v + 128, tplAddr w t v + 192]
    | none => []
  let ns := if useNh then [nhAddr w nh 0, nhAddr w nh 1] else []
  hs ++ body ++ ns

/-- The first unreadable word among them (R296). -/
def editBad (s : State) (w t nh : Nat) (v : Option Nat) (useNh : Bool) : Option Nat :=
  (editReads w t nh v useNh).find? fun a => !readable s a

/-- dmac and ttl_dec of next hop `n` as a frame's epoch sees it (R200, R290). -/
def nhEdit (s : State) (w n e : Nat) : Option (Nat × Bool) :=
  let v := if nhVis s w n e 0 then some 0 else if nhVis s w n e 1 then some 1 else none
  v.map fun v =>
    let a := nhAddr w n v
    ((tw s (a + 4)).toNat + fld (tw s (a + 8)) 15 0 * 2 ^ 32, bit (tw s (a + 8)) 16)

/-- The edit of a copy with template `t` (R292-R305). -/
def editWith (g : Nat) (f : Frame) (c : Copy) (t : Nat) (s : State) : State :=
  let w := galWing s g
  let v := tplVersion s w t f.epoch
  let nh := if c.kind = .mirror then none else c.nh
  let s := noteCes (editReads w t (nh.getD 0) v nh.isSome) s
  match editBad s w t (nh.getD 0) v nh.isSome with
  | some a =>
    let s1 := if rdStat s a = .never then uninitAt a s else reportFault (pageEDT g) 0x01 a (eccOf s a).inj s
    dropCopy 0x0B c (raise (pageEDT g) 0 (bump (EDT_CNT g 12) (recordErr (pageEDT g) 0x03 0 a s1)))
  | none =>
    match v with
    | none => dropCopy 0x0B c (raiseFirst (pageEDT g) 2 (bump (EDT_CNT g 2) s))
    | some v =>
      let s1 := if tplVis s w t f.epoch 0 && tplVis s w t f.epoch 1 then raise (pageEDT g) 0 (bump (EDT_CNT g 3) s) else s
      let a := tplAddr w t v
      let body := editBody f c
      match spliceAt s1 f a body.1 body.2 with
      | none => editFault g c s1
      | some e =>
        let env : EditEnv :=
          { nh := match nh with
              | some n => nhEdit s1 w n f.epoch
              | none => none,
            smac := (rd s1 (EDT_PORT_SMAC_LO g (portIndex c.port))).toNat + rf s1 (EDT_PORT_SMAC_HI g (portIndex c.port)) 15 0 * 2 ^ 32,
            data := wordBytes (tws s1 (a + 80) 32), hash := f.flowHash, newLen := e.buf.length }
        match editOps f env ((List.range 8).map fun n => tplOp s1 a n) e with
        | none => editFault g c s1
        | some e' =>
          let s2 := bumpN (EDT_CNT g 10) e'.ttls (bump (EDT_CNT g 0) s1)
          let r := if c.kind = .mirror then (e', s2) else remarks g f e' s2
          let pd := if body.2 then (r.1.buf, r.2) else padTo60 g r.1.buf r.2
          finishEdit g c pd.1 (contOf f body.2) body.2 (markL3 g f r.1 pd.2) pd.2

/-- The edit of a copy with the null template: remarks, padding and the length check (R295). -/
def editNull (g : Nat) (f : Frame) (c : Copy) (s : State) : State :=
  let body := editBody f c
  let e : Edit := { buf := body.1, lim := min body.1.length 384, a := 0, p := 0, push := 0, mark := none, ttls := 0 }
  let s1 := bump (EDT_CNT g 1) s
  let r := if c.kind = .mirror then (e, s1) else remarks g f e s1
  let pd := if body.2 then (r.1.buf, r.2) else padTo60 g r.1.buf r.2
  finishEdit g c pd.1 (contOf f body.2) body.2 none pd.2

/-- Cells of a copy's frame whose reads the Editor needs first: two, or all of a shorter frame (R347). -/
def headCells (s : State) (f : Frame) (c : Copy) : Nat := if f.whole then min 2 (cellsWanted s c) else 2

/-- EDITOR_EDIT of a selected copy once its head cells have been read, in the Editor of the gallery that carries its port: a
copy of kind punt, or forwarded by a default action, takes steps 1, 6 and 7 only (R298). A STOPPING Editor finishes the copies
already selected (R64). A copy that is not cut through waits until its frame is stored and good (R41). -/
def execEditorEdit (id : Nat) (s : State) : Res :=
  match copyOf s id with
  | none => .next s
  | some c =>
    match frameOf s c.frame with
    | none => .next s
    | some f =>
      let g := galOf s c.port
      if c.stage != .selected || (!c.cut && !stored s c) || decide (c.rdNext < headCells s f c) || (!isOn s (pageEDT g) && blkState s (pageEDT g) != 3) then .next s
      else
        let s0 := settle s
        if c.plain then
          let body := editBody f c
          .next (finishEdit g c body.1 (contOf f body.2) body.2 none s0)
        else if c.template = 0 then .next (editNull g f c s0)
        else if 8192 ≤ c.template then .next (dropCopy 0x0B c (raiseFirst (pageEDT g) 2 (bump (EDT_CNT g 2) s0)))
        else .next (editWith g f c c.template s0)

end Sys2Proof.Machine
end

