-- ==== Sys2Proof/Machine/Mac.lean ====
section
/-!
DEFINITION. The MACs (R73-R87): reception, the hold buffer, pause, transmission and egress timestamps.
-/
namespace Sys2Proof.Machine

/-! ## Lanes -/

/-- A lane by its chiplet and number. -/
def laneNo (k l : Nat) : Nat := 64 * k + l

/-- A lane with no coefficients kept. -/
def laneNone : LaneSt := ⟨0, 0, false, 0⟩

/-- The lane's coefficients. -/
def laneSt (s : State) (k l : Nat) : LaneSt := sGet laneNone (laneNo k l) s.lnk.lanes

/-- The reading of the sensor at lane chiplet `k` (R713). -/
def chipTemp (s : State) (k : Nat) : Nat := rf s (PWR_TEMP (16 + k)) 7 0

/-- The lane's coefficients stored. -/
def putLane (k l : Nat) (v : LaneSt) (s : State) : State :=
  { s with lnk := { s.lnk with lanes := sPut laneNone (laneNo k l) v s.lnk.lanes } }

/-- A retune in progress is aborted: the saved coefficients return (R96, R97), and the decision log has a record of it (R492). -/
def abortRetune (k l reason meas : Nat) (s : State) : State :=
  let c := laneSt s k l
  logRecord 0x09 reason (laneNo k l) 4 3 meas (putLane k l { c with coef := c.saved } s)

/-- An uncorrectable codeword on a lane in RETUNE aborts the retune (R96): the saved coefficients return and the lane is UP. The record's
measurement is a free value (log 33). -/
def codewordAborts (k l : Nat) (s : State) : State :=
  if laneState s (laneNo k l) = 4 then
    let x := drawFree s
    raise (pageLNK k) 0 (wf (LNK_LANE_STAT k l) 2 0 3 (abortRetune k l 0x07 x.1.toNat x.2))
  else s

/-! ## Reception -/

/-- Does a frame's MAC condition make it bad, and under which port counter (R73, R74)? FEC errors come first. A runt or an oversize frame
whose FCS fails as well counts as what its length makes it (DESIGN CHOICE, log 42). -/
def rxCause (max len : Nat) (fecErr fcsOk : Bool) : Option Nat :=
  if fecErr then some 3 else if len < 64 then some 4 else if max < len then some 5 else if !fcsOk then some 2 else none

/-- Ingress timestamp of a frame whose SFD is detected now (R79, R80): the fixed delay and the trim are subtracted. -/
def rxStamp (s : State) (i : Nat) : Nat :=
  if i < 512 then
    let trim := signed 8 (rf s (LNK_TS_TRIM (i / 64) (i % 64)) 7 0)
    (((nowQ s : Int) - Config.rxDelay (octetMode s (i / 8)) - trim) % (2 ^ 48 * 4000000000 : Int)).toNat
  else nowQ s

/-- Largest occupancy of one port in the hold buffer, in bytes (LNK_HB_CFG). -/
def portCap (s : State) (k : Nat) : Nat := max 12 (min 2048 (rf s (LNK_HB_CFG k) 11 0)) * 1024

/-- May the hold buffer take a frame whose first byte arrives on port `i` (R86)? -/
def hbAdmits (s : State) (i : Nat) : Bool :=
  let k := i / 64
  decide (hbBytes s k + 12288 ≤ 2097152) && decide (hbDesc s k < 32768) && decide (hbPort s i < portCap s k)

/-- Does the MAC of port `i` pass frames: the port present, up and enabled, its chiplet ON? -/
def macOn (s : State) (i : Nat) : Bool :=
  decide (i < 512) && portPresent s i && portUp s i && rb s (LNK_PORT_CFG (i / 64) (i % 64)) 0 && isOn s (pageLNK (i / 64))

/-- Does the MAC of port `i` go on with what it has begun: as above, with its chiplet ON or STOPPING, which drains its work (R64,
R686; DEDUCED, log 20)? -/
def macLive (s : State) (i : Nat) : Bool :=
  decide (i < 512) && portPresent s i && portUp s i && rb s (LNK_PORT_CFG (i / 64) (i % 64)) 0 &&
  (isOn s (pageLNK (i / 64)) || blkState s (pageLNK (i / 64)) == 3)

/-- One codeword received on lane `l` of chiplet `k` while the lane is UP or in RETUNE, in a mode with FEC (R78): `none` where it
could not be corrected, which also ends a retune of the lane (R96), else how many symbols were, 15 standing for 15 or more. -/
def countCodeword (k : Nat) (cw : Lane × Option (Fin 16)) (s : State) : State :=
  let m := octetMode s ((64 * k + cw.1) / 8)
  if m = 0 ∨ m = 8 ∨ !laneUp s (64 * k + cw.1) then s
  else match cw.2 with
    | none => codewordAborts k cw.1 (bump (LNK_LANE_CNT k cw.1 1) s)
    | some n => bump (LNK_LANE_CNT k cw.1 (2 + n)) (if n = 0 then s else bump (LNK_LANE_CNT k cw.1 0) s)

/-- The codewords of a frame that reaches port `i`, counted lane by lane. -/
def rxCodewords (i : Nat) (cws : List (Lane × Option (Fin 16))) (s : State) : State :=
  if i < 512 then cws.foldl (fun a cw => countCodeword (i / 64) cw a) s else s

/-- Is the port's link cut off: its gallery fenced (R29), or its link being switched (R92, R623)? -/
def linkCut (s : State) (i : Nat) : Bool :=
  portFenced s i || (match s.rgr.switching with
    | some (g, _) => portGal i == g
    | none => false)

/-- Do a frame's first bytes show an 802.3 pause or PFC frame (type 0x8808, opcode 0x0001 or 0x0101; PRESUMED, log 5)? -/
def pauseLike (bs : List Byte) : Bool :=
  decide (16 ≤ bs.length) && beNat (slice bs 12 2) == 0x8808 && (beNat (slice bs 14 2) == 1 || beNat (slice bs 14 2) == 0x0101)

/-- The first bytes of a frame of length `len` reach port `i`: it is dropped in a takeover, refused by the hold buffer, or stored; a pause
frame goes no further than the MAC (R76). Answers the number of the stored frame. -/
def rxStart (i : Nat) (bytes : List Byte) (len : Nat) (s : State) : Option Nat × State :=
  if pauseLike bytes then (none, s)
  else if linkCut s i then (none, portCnt i 12 1 s)
  else if !hbAdmits s i then (none, raise (pageLNK (i / 64)) 1 (portCnt i 11 1 s))
  else
    let f := { newFrame s i (bytes.take (maxFrame s i + 1)) false false (rxStamp s i) with total := min len (maxFrame s i + 1) }
    (some f.id, judgePressure (galOf s i) (wakeGal (galOf s i) (addFrame f s)))

/-- Flow records that waited for a frame's length are counted (R567). -/
def countFlows (xs : List Nat) (len : Nat) (s : State) : State := xs.foldl (fun a x => flowAdd x len a) s

/-- A frame in the Hall proves bad (R54, R55): copies in transmission will be stomped, those not started are dropped, its
learn is cancelled and its recovery bit cleared (R440). -/
def hallBad (f : Frame) (s : State) : State :=
  let s1 := srfUnpass f.srf (cancelLearn f s)
  let s2 := putFrame { f with bad := true, whole := true, learn := [] } s1
  tryEnd f.id (((copiesOf s2 f.id).filter fun c => c.stage != .sending).foldl (fun a c => endCopy c a) s2)

/-- The last byte of a stored frame has arrived with its outcome: the bytes are complete, and what waited for them is
settled. -/
def rxSettle (id : Nat) (bytes : List Byte) (bad : Bool) (s : State) : State :=
  match frameOf s id with
  | none => s
  | some f =>
    let s0 := countFlows f.counted bytes.length s
    let f' := { f with bytes := if f.ce then overwrite bytes 0 f.bytes else bytes, whole := true, bad := bad }
    if f.stage = .hall then
      if bad then hallBad f' s0
      else putFrame { f' with learn := [] } (commitLearn f' s0)
    else putFrame f' s0

/-- What a frame that has already left left behind at its MAC: its learns stand for a good frame (R54), its recovery bit falls
with a bad one, its flow records are counted. -/
def rxGone (i : Nat) (r : RxOpen) (len : Nat) (bad : Bool) (s : State) : State :=
  let s0 := countFlows r.counted len s
  if bad then srfUnpass r.srf (cancelLearns (portWing i) r.learn s0) else placeLearns (portWing i) r.learn s0

/-- The pause state of a received frame (R76, R396): bit 8 for 802.3 pause, bit p for PFC priority p; quanta 0 ends it. -/
def applyPause (i : Nat) (pf : PauseFrame) (s : State) : State :=
  let old := sGet 0 i s.tmg.paused
  let put := fun (m b : Nat) (on : Bool) => if on then m ||| 2 ^ b else m - (if m.testBit b then 2 ^ b else 0)
  let new := match pf with
    | .pause q => put old 8 (q != 0)
    | .pfc en qs => (List.range 8).foldl (fun m p =>
        if en.toNat.testBit p then put m p ((qs.getD p 0) != 0) else m) old
  portCnt i 6 1 { s with tmg := { s.tmg with paused := sPut 0 i new s.tmg.paused } }

/-- What a pause frame says. -/
def asPause (bs : List Byte) : Option PauseFrame :=
  if !pauseLike bs then none
  else if beNat (slice bs 14 2) = 1 then some (.pause (BitVec.ofNat 16 (beNat (slice bs 16 2))))
  else some (.pfc (BitVec.ofNat 8 (beNat (slice bs 17 1))) ((List.range 8).map fun p => BitVec.ofNat 16 (beNat (slice bs (18 + 2 * p) 2))))

/-- A frame that has left the hold buffer's hands before its type was seen, and proves a pause frame. -/
def dropHeld (r : RxOpen) (s : State) : State := match r.frame with | some id => delFrame id s | none => s

/-- A frame ends on port `i`: a good pause frame is consumed (R76), a bad one counts under its cause alone (DEDUCED, log 5); every other
frame is counted by the MAC, and settled inside. -/
def rxEnd (i : Nat) (r : RxOpen) (bytes : List Byte) (cause : Option Nat) (s : State) : State :=
  let s0 := { s with lnk := { s.lnk with rx := sPut none i none s.lnk.rx } }
  match asPause bytes, cause with
  | some pf, none => applyPause i pf (dropHeld r s0)
  | some _, some n => portCnt i n 1 (dropHeld r s0)
  | none, _ =>
    let s1 := match cause with
      | some n => portCnt i n 1 s0
      | none => portCnt i 1 bytes.length (portCnt i 0 1 s0)
    let kept := bytes.take (maxFrame s i + 1)
    match r.frame with
    | some id => rxSettle id kept cause.isSome s1
    | none => rxGone i r bytes.length cause.isSome s1

/-- A whole frame on port `i`. The MAC never passes a runt on (chapter 04, the header window). -/
def rxWhole (i : Nat) (bytes : List Byte) (fecErr : Bool) (s : State) : State :=
  let x := if bytes.length < 64 then (none, s) else rxStart i bytes bytes.length s
  rxEnd i ⟨bytes, x.1, [], none, [], bytes.length⟩ bytes (rxCause (maxFrame s i) bytes.length fecErr (fcsGood bytes)) x.2

/-- The rest of a frame on port `i`: nothing where none is arriving, or where it is not the rest of that one. -/
def rxTail (i : Nat) (more : List Byte) (fecErr : Bool) (s : State) : State :=
  match sGet none i s.lnk.rx with
  | none => s
  | some r =>
    let bytes := r.bytes ++ more
    if bytes.length ≠ r.len then s
    else rxEnd i r bytes (rxCause (maxFrame s i) bytes.length fecErr (fcsGood bytes)) s

/-- PAUSE_FRAME_RX: the MAC consumes a pause frame and passes its state on (R76); in loopback it hears its own transmitter alone. -/
def execPauseFrameRx (i : Port) (pf : PauseFrame) (s : State) : Res :=
  .next (if macLive s i && !rb s (LNK_PORT_CFG (i / 64) (i % 64)) 1 then applyPause i pf s else s)

/-- PAUSE_QUANTA_EXPIRY: the pause time of priority `p` (8 for 802.3 pause) runs out (R396). -/
def execPauseQuantaExpiry (i : NetPort) (p : Fin 9) (s : State) : Res :=
  let old := sGet 0 i.val s.tmg.paused
  .next (if old.testBit p then { s with tmg := { s.tmg with paused := sPut 0 i.val (old - 2 ^ p.val) s.tmg.paused } } else s)

/-- A frame still arriving on port `i` is cut off: a lane has left UP (R73, counted under rx_fcs_err). -/
def rxTruncate (i : Nat) (s : State) : State :=
  match sGet none i s.lnk.rx with
  | none => s
  | some r => rxEnd i r r.bytes (some 2) s

/-- A frame, its first bytes, or its rest at the MAC of port `i`; in loopback the MAC hears its own transmitter alone. -/
def rxEvent (i : Nat) (ev : RxEvent) (s : State) : State :=
  if rb s (LNK_PORT_CFG (i / 64) (i % 64)) 1 then s
  else
    match ev with
    | .whole bytes fecErr => if !macOn s i || (sGet none i s.lnk.rx).isSome then s else rxWhole i bytes fecErr s
    | .head bytes len =>
      if !macOn s i || (sGet none i s.lnk.rx).isSome || decide (len ≤ bytes.length) then s
      else
        let x := rxStart i bytes len s
        { x.2 with lnk := { x.2.lnk with rx := sPut none i (some ⟨bytes, x.1, [], none, [], len⟩) x.2.lnk.rx } }
    | .tail more fecErr => if macLive s i then rxTail i more fecErr s else s

/-- RX_FRAME: the codewords that carried a frame are counted, and the frame, its first bytes, or its rest reaches the MAC of port
`i`. -/
def execRxFrame (i : Port) (ev : RxEvent) (cws : List (Lane × Option (Fin 16))) (s : State) : Res :=
  .next (rxEvent i ev (rxCodewords i cws s))

/-! ## Transmission -/

/-- Egress timestamp of a frame whose SFD leaves port `i` now (R80). -/
def txStamp (s : State) (i : Nat) : Nat :=
  let trim := signed 8 (rf s (LNK_TS_TRIM (i / 64) (i % 64)) 15 8)
  (((nowQ s : Int) + Config.txDelay (octetMode s (i / 8)) + trim) % (2 ^ 48 * 4000000000 : Int)).toNat

/-- One's complement sum of two 16-bit words. -/
def onesAdd (a b : Nat) : Nat := (a + b) % 65536 + (a + b) / 65536

/-- Where the UDP header lies that the next-header value `h` at `o` leads to, through at most `n` IPv6 extension headers (PRESUMED, log 6). -/
def udpAfter (bs : List Byte) : Nat → Nat → Nat → Option Nat
  | 0, _, _ => none
  | n + 1, h, o =>
    if h = 17 then some o
    else if h = 0 ∨ h = 43 ∨ h = 60 ∨ h = 135 then udpAfter bs n (byteAt bs o).toNat (o + 8 * ((byteAt bs (o + 1)).toNat + 1))
    else if h = 44 then udpAfter bs n (byteAt bs o).toNat (o + 8)
    else if h = 51 then udpAfter bs n (byteAt bs o).toNat (o + 4 * ((byteAt bs (o + 1)).toNat + 2))
    else none

/-- IP version and UDP header of the header at `h`. -/
def udpOf (bs : List Byte) (h : Nat) : Option (Nat × Nat) :=
  let v := (byteAt bs h).toNat / 16
  if v = 4 then (if (byteAt bs (h + 9)).toNat = 17 then some (4, h + (byteAt bs h).toNat % 16 * 4) else none)
  else if v = 6 then (udpAfter bs 8 (byteAt bs (h + 6)).toNat (h + 40)).map fun u => (6, u)
  else none

/-- IP version of the packet whose UDP payload is the PTP message at `d`: by the L3 header that the Editor knows, or by a header without
options right before it. -/
def ptpOver (bs : List Byte) (d : Nat) (l3 : Option Nat) : Option Nat :=
  let at' := fun (h : Nat) => (udpOf bs h).bind fun x => if x.2 + 8 = d then some x.1 else none
  (l3.bind at').or ((if 28 ≤ d then at' (d - 28) else none).or (if 48 ≤ d then at' (d - 48) else none))

/-- One-step operation (R82) on a frame's bytes, the PTP message at `d`: the correction field (bytes 8-15 of the message,
PRESUMED IEEE 1588, log 6) takes `corr`; over IPv4 the UDP checksum becomes zero, over IPv6 the last two bytes of the UDP
payload take up the change. -/
def oneStep (bs : List Byte) (d : Nat) (l3 : Option Nat) (corr : Nat) : List Byte :=
  let old := slice bs (d + 8) 8
  let b1 := overwrite bs (d + 8) (beBytes 8 corr)
  match ptpOver bs d l3 with
  | some 4 => overwrite b1 (d - 2) [0, 0]
  | some 6 =>
    let e := d - 8 + beNat (slice bs (d - 4) 2) - 2
    let t := onesAdd (beNat (slice bs e 2)) (onesAdd (onesSum old) (0xFFFF - onesSum (beBytes 8 corr)))
    overwrite b1 e (beBytes 2 t)
  | _ => b1

/-- Two-step operation (R83, R84): a capture into the chiplet's timestamp FIFO, or its loss when the FIFO is full. -/
def twoStep (i q seqId : Nat) (s : State) : State :=
  let k := i / 64
  let l := sGet [] k s.lnk.fifo
  if 256 ≤ l.length then raise (pageLNK k) 3 s
  else { s with lnk := { s.lnk with fifo := sPut [] k (l ++ [⟨q, i % 64, seqId⟩]) s.lnk.fifo } }

/-- The egress timestamp's use by a marked frame (R82, R83): how it stands in the correction field is open (log 6). -/
def stampTx (i : Nat) (e : Edited) (s : State) : Edited × State :=
  match e.mark with
  | none => (e, s)
  | some m =>
    if m.oneStep then ({ e with pre := oneStep e.pre m.pos m.l3 (Config.corrField (txStamp s i)).toNat }, s)
    else (e, twoStep i (txStamp s i) (beNat (slice e.pre (m.pos + 30) 2)) s)

/-- The copy a port sends next: the one selected first. -/
def nextTx (s : State) (i : Nat) : Option Copy := s.copies.find? fun c => c.port == i && (c.stage == .selected || c.stage == .edited)

/-- One byte at 400 Gbit/s in units of E. -/
def paceUnit : Nat := 4096000000

/-- A copy in transmission runs past the closing of its gate: counted once (R430). -/
def overrun (c : Copy) (s : State) : State :=
  if c.overrun then s else putCopy { c with overrun := true } (raise pageTSN 5 (bump (TSN_CNT 8) s))

/-- The start of a transmission on port `i`: pending pause frames go first (R77); the copy must have been edited. A frame that
will run past the closing of its gate is an overrun (R430). A recirculation port keeps its pacing (R72). -/
def txStart (i : Nat) (s : State) : State :=
  if s.copies.any (fun c => c.port == i && c.stage == .sending) || s.lnk.pauseReq.any (fun r => r.1 == i) || !paceOpen s i then s
  else
    match nextTx s i with
    | none => s
    | some c =>
      match c.stage, c.edit with
      | .edited, some e =>
        let x := if i < 512 then stampTx i e s else (e, s)
        let c1 := { c with stage := .sending, edit := some x.1 }
        let s1 := setPace i s.time.e (putCopy c1 x.2)
        if gateOpen s1 i c.queue (chargeOf s1 c (lenNow s1 c)).toNat then s1 else overrun c1 s1
      | _, _ => s

/-- Bytes a copy sends, without FCS: the edited bytes, then the stored frame from where the edit ended, a truncated mirror only its first
64 * trunc bytes (R368). -/
def txBytes (f : Frame) (c : Copy) (e : Edited) : List Byte :=
  let all := f.bytes.take (f.bytes.length - 4)
  if c.cut then e.pre ++ (if c.kind == .mirror && c.trunc != 0 then all.take (64 * c.trunc) else all).drop e.cont else e.pre

/-- A frame leaves a recirculation port and arrives again with its edited bytes (R45, R311), bad where it was stomped. -/
def recirculate (i : Nat) (bytes : List Byte) (bad : Bool) (s : State) : State :=
  setPace i (sGet 0 i s.tmg.pace + (bytes.length + 20) * paceUnit) (addFrame (newFrame s i bytes true bad (nowQ s)) s)

/-- What port `i` puts out: kept as its last frame, heard again where the port loops (LNK_PORT_CFG), or presented again from a recirculation
port. -/
def putOut (i : Nat) (out : List Byte) (bad : Bool) (s : State) : State :=
  if i < 512 then
    let s1 := { s with lnk := { s.lnk with txLast := sPut [] i out s.lnk.txLast } }
    if rb s1 (LNK_PORT_CFG (i / 64) (i % 64)) 1 then rxWhole i out false s1 else s1
  else if i < 514 then s else recirculate i out bad s

/-- The FCS of a stomped frame: inverted (R54). -/
def stompFcs (bs : List Byte) : List Byte := (fcsBytes bs).map fun b => ~~~b

/-- The end of a transmission with a stomp (R54, R56): what the Editor has handed over, cut at the port's limit, with its FCS inverted (how
far it got is DESIGN CHOICE, log 42). -/
def txStomp (i : Nat) (c : Copy) (s : State) : State :=
  let s1 := endCopy c (portCnt i 9 1 s)
  match frameOf s c.frame, c.edit with
  | some f, some e =>
    let out := (txBytes f c e).take (maxFrame s i - 4)
    putOut i (out ++ stompFcs out) true s1
  | _, _ => s1

/-- A frame sent whole and good, and counted. -/
def txGood (i : Nat) (c : Copy) (bytes : List Byte) (s : State) : State :=
  let out := bytes ++ fcsBytes bytes
  putOut i out false (endCopy c (portCnt i 8 out.length (portCnt i 7 1 s)))

/-- The copy that ends its transmission on port `i` now, with an overrun where its gate has closed meanwhile (R430). -/
def closing (i : Nat) (c : Copy) (s : State) : State := if gateOpen s i c.queue 0 then s else overrun c s

/-- The end of a transmission on port `i`: stomped when the edited frame exceeds the limit (R307), the frame has proved bad, a cell of it
is spoiled or, in cut-through, is not yet written (R347); else sent good. A frame whose cells have not all been read goes on. -/
def txFinish (i : Nat) (s : State) : State :=
  match s.copies.find? fun c => c.port == i && c.stage == .sending with
  | none => s
  | some c =>
    match frameOf s c.frame, c.edit with
    | some f, some e =>
      let written := f.lastDone || (c.kind == .mirror && c.trunc != 0 && decide (cellsFor (64 * c.trunc) ≤ (chainOfCopy s c).length))
      let out := txBytes f c e
      let s1 := closing i c s
      if c.cut && decide (maxFrame s i < out.length + 4) then
        txStomp i c (raiseFirst (pageEDT (galOf s i)) 3 (bump (EDT_CNT (galOf s i) 6) s1))
      else if f.bad || c.spoiled then txStomp i c s1
      else if written && decide (cellsWanted s c ≤ c.rdNext) then txGood i c out s1
      else if c.cut && !written then txStomp i c (bump (HAL_CNT 13) s1)
      else s
    | _, _ => s

/-- FRAME_TRANSMIT on a network or recirculation port: the start of a frame, or its end (R75, R82, R83). -/
def execFrameTransmit (i : Port) (ev : TxEvent) (s : State) : Res :=
  if macLive s i || (decide (514 ≤ i.val) && portPresent s i && !portFenced s i) then
    match ev with
    | .start => .next (txStart i s)
    | .finish => .next (txFinish i s)
  else .next s

/-! ## Pause frames (R77) -/

/-- The pause or PFC frame of a request, priority `p` (8: 802.3 pause) and quanta, from the address `sa` (PRESUMED IEEE 802.3, log 5). -/
def pauseBytes (sa : List Byte) (p quanta : Nat) : List Byte :=
  let head := beBytes 6 0x0180C2000001 ++ sa ++ beBytes 2 0x8808
  let body := if p = 8 then beBytes 2 1 ++ beBytes 2 quanta
    else beBytes 2 0x0101 ++ beBytes 2 (2 ^ p) ++ (List.range 8).flatMap fun n => beBytes 2 (if n = p then quanta else 0)
  let bs := head ++ body
  let full := bs ++ List.replicate (60 - bs.length) 0
  full ++ fcsBytes full

/-- PAUSE_FRAME_TX: at a frame boundary the MAC sends the pause or PFC frame requested first (R77). Its source address is a free value
(log 5). -/
def execPauseFrameTx (i : NetPort) (s : State) : Res :=
  if !macLive s i || s.copies.any (fun c => c.port == i.val && c.stage == .sending) then .next s
  else
    match s.lnk.pauseReq.find? fun r => r.1 == i.val with
    | none => .next s
    | some r =>
      let x := drawFree { s with lnk := { s.lnk with pauseReq := s.lnk.pauseReq.erase r } }
      let y := drawFree x.2
      .next (putOut i (pauseBytes (beBytes 4 x.1.toNat ++ beBytes 2 y.1.toNat) r.2.1 r.2.2) false (portCnt i 10 1 y.2))

end Sys2Proof.Machine
end

