-- ==== Sys2Proof/Machine/Hif.lean ====
section
/-!
DEFINITION. The host interface's rings (R502-R514), inject jobs (R529), punt delivery (R524-R527), interrupts (R530), host
sleep (R532-R534) and the PCIe resets (R499).
-/
namespace Sys2Proof.Machine

/-! ## Doorbells and scans (R507, R508) -/

/-- Is submission ring `r` scanned at all: enabled, with a role other than the reserved one? -/
def sqLive (s : State) (r : Nat) : Bool := rb s (HIF_SQ_CFG r) 31 && sqRole s r != 3

/-- A scan of ring `r` begins. -/
def startScan (r : Nat) (s : State) : State :=
  if sqLive s r then { s with hif := { s.hif with scan := s.hif.scan.filter (· != r) ++ [r], took := s.hif.took.filter (· != r) } }
  else s

/-- DOORBELL: a write of HIF_SQ_DB starts a scan, or latches one further scan. A doorbell met while the block is not ON is
latched for its start (DEDUCED, log 22). -/
def ringDoorbell (r : Nat) (s : State) : State :=
  let s1 := bump (HIF_CNT 1) s
  if s1.hif.scan.contains r || !isOn s1 pageHIF then
    if s1.hif.again.contains r then s1 else { s1 with hif := { s1.hif with again := s1.hif.again ++ [r] } }
  else startScan r s1

def execDoorbell (r : RingIx) (s : State) : Res := .next (hostDo (HIF_SQ_DB r.val) (ringDoorbell r.val) s)

/-- A scan stops at an entry the engine does not own; a latched doorbell runs one further scan. -/
def stopScan (r : Nat) (s : State) : State :=
  let s1 := if s.hif.took.contains r then s else bump (HIF_CNT 2) s
  let s2 := { s1 with hif := { s1.hif with scan := s1.hif.scan.filter (· != r), took := s1.hif.took.filter (· != r) } }
  if s2.hif.again.contains r then startScan r { s2 with hif := { s2.hif with again := s2.hif.again.filter (· != r) } } else s2

/-- The job ring `r` has ready. -/
def readyJob (s : State) (r : Nat) : Option Job := sGet none r s.hif.ready

/-- The ring's ready job set. -/
def putReady (r : Nat) (j : Option Job) (s : State) : State := { s with hif := { s.hif with ready := sPut none r j s.hif.ready } }

/-- The ring's open chain. -/
def openChain (s : State) (r : Nat) : Option Cmd := sGet none r s.hif.chains

/-- The ring's open chain set. -/
def putChain (r : Nat) (c : Option Cmd) (s : State) : State := { s with hif := { s.hif with chains := sPut none r c s.hif.chains } }

/-- The ring skips entries up to the next with last = 1, or stops skipping. -/
def putSkip (r : Nat) (b : Bool) (s : State) : State :=
  { s with hif := { s.hif with skip := s.hif.skip.filter (· != r) ++ (if b then [r] else []) } }

/-- The first malformed chain after a clock without one (R510). -/
def chainErr (s : State) : State := raiseFirst pageHIF 0 s

/-- An entry skipped as malformed. -/
def skipEntry (s : State) : State := bump (HIF_CNT 3) s

/-- An entry of a ring as a DMA job (R516). -/
def dmaOf (r : Nat) (e : List W32) (bad : Bool) : Dma :=
  let w := fun n => e.getD n 0
  { ring := r, op := fld (w 0) 23 20, irq := bit (w 0) 19, tag := fld (w 0) 15 0,
    src := (w 1).toNat + (w 2).toNat * 2 ^ 32, dst := (w 3).toNat + (w 4).toNat * 2 ^ 32, len := (w 5).toNat, bad := bad }

/-- An entry of a ring as an inject job (R529). Its irq bit is taken to lie where a DMA job has it (DEDUCED, log 22). -/
def injectOf (r : Nat) (e : List W32) (bad : Bool) : Inject :=
  let w := fun n => e.getD n 0
  { ring := r, direct := bit (w 0) 16, irq := bit (w 0) 19, tag := fld (w 0) 15 0,
    addr := (w 1).toNat + (w 2).toNat * 2 ^ 32, len := fld (w 3) 13 0, queue := fld (w 4) 19 16, port := fld (w 4) 9 0, bad := bad }

/-- The bytes of words 1-7 of an entry (R270). -/
def entryPayload (e : List W32) : List Byte := wordBytes ((List.range 7).map fun j => e.getD (j + 1) 0)

/-- An entry of a table ring (R509, R510). A first entry that meets an open chain ends that chain BAD_OP and is looked at again once
the dispatcher has taken it. -/
def tableEntry (r : Nat) (e : List W32) (s : State) : State :=
  let w0 := e.getD 0 0
  let last := bit w0 29
  let one : Cmd :=
    { ring := r, op := fld w0 23 16, tag := fld w0 15 0, payload := entryPayload e, entries := 1, bad := false, orphan := false }
  let chain : Cmd := match (if bit w0 30 then none else openChain s r) with
    | some c => { c with payload := c.payload ++ entryPayload e, entries := c.entries + 1 }
    | none => one
  if fld w0 27 24 ≠ 1 ∨ 128 < chain.entries then
    chainErr (putSkip r (!last) (putChain r none (putReady r (some (.table { chain with bad := true })) s)))
  else if last then putChain r none (putReady r (some (.table chain)) s)
  else putChain r (some chain) s

/-- Event rings whose fetched buffers come from buffer ring `b`. -/
def bufUsers (s : State) (b : Nat) : List Nat := (List.range 32).filter fun e => rf s (HIF_EQ_CFG e) 20 16 == b && rb s (HIF_EQ_CFG e) 31

/-- A buffer post taken for event ring `e`, or skipped where it breaks its limits (R526). -/
def bufferEntry (e : Nat) (ws : List W32) (s : State) : State :=
  let addr := (ws.getD 1 0).toNat + (ws.getD 2 0).toNat * 2 ^ 32
  let len := fld (ws.getD 3 0) 15 0
  if addr % 64 ≠ 0 ∨ len % 64 ≠ 0 ∨ len < 256 ∨ 16384 < len then skipEntry s
  else { s with hif := { s.hif with bufs := sPut [] e (sGet [] e s.hif.bufs ++ [⟨fld (ws.getD 0 0) 15 0, addr, len⟩]) s.hif.bufs } }

/-- The event ring that takes the next buffer of buffer ring `b`: the lowest with fewer than four (R526). -/
def bufWant (s : State) (b : Nat) : Option Nat := (bufUsers s b).find? fun e => decide ((sGet [] e s.hif.bufs).length < 4)

/-- An owned entry of ring `r` of role `role` taken (R509, R510); a buffer goes to event ring `q`. -/
def takeEntry (r role : Nat) (q : Option Nat) (e : List W32) (s : State) : State :=
  let w0 := e.getD 0 0
  let first := bit w0 30
  let last := bit w0 29
  if s.hif.skip.contains r && !first then putSkip r (!last) (skipEntry s)
  else
    let s0 := putSkip r false s
    if !first && (openChain s0 r).isNone then chainErr (skipEntry s0)
    else if role = 4 then tableEntry r e s0
    else
      let want := [2, 3, 4].getD role 0
      if !first || !last || fld w0 27 24 != want then
        let s1 := chainErr (putSkip r (!last) s0)
        match role with
        | 0 => putReady r (some (.dma (dmaOf r e true))) s1
        | 1 => putReady r (some (.inject (injectOf r e true))) s1
        | _ => skipEntry s1
      else match role with
        | 0 => putReady r (some (.dma (dmaOf r e false))) s0
        | 1 => putReady r (some (.inject (injectOf r e false))) s0
        | _ => match q with
          | some q => bufferEntry q e s0
          | none => s0

/-- An entry that a scan has fetched from ring `r`. -/
def handleEntry (r : Nat) (e : List W32) (s : State) : State := takeEntry r (sqRole s r) (bufWant s r) e s

/-- Does the engine own an entry: its phase is the expected one (R505)? -/
def owned (s : State) (r : Nat) (w0 : W32) : Bool := bit w0 31 == rb s (HIF_SQ_HEAD r) 16

/-- The ring's index moves on, with its phase at the wrap (R505). -/
def advanceSq (r : Nat) (s : State) : State :=
  let h := rd s (HIF_SQ_HEAD r)
  let s1 := if fld h 15 0 + 1 < ringSize (rd s (HIF_SQ_CFG r)) then wf (HIF_SQ_HEAD r) 15 0 (fld h 15 0 + 1) s
    else wr (HIF_SQ_HEAD r) (if bit h 16 then 0 else 0x10000) s
  bump (HIF_CNT 0) s1

/-- May a scan fetch from ring `r` now: being scanned, HIF ON, requests allowed, and no earlier job of the ring still to be
taken (R507, R533, R535)? -/
def mayFetch (s : State) (r : Nat) : Bool :=
  s.hif.scan.contains r && isOn s pageHIF && memOk s && sqLive s r && (readyJob s r).isNone &&
    (sqRole s r != 2 || (bufWant s r).isSome)

/-- BUFFER_POST: event ring `q` takes the next posted buffer of its buffer ring (R526). -/
def execBufferPost (q : RingIx) (e : List W32) (s : State) : Res :=
  let b := rf s (HIF_EQ_CFG q) 20 16
  if puntOk s q && hostAwake s && decide ((sGet [] q.val s.hif.bufs).length < 4) && owned s b (e.getD 0 0) then
    .next (takeEntry b 2 (some q.val) e (advanceSq b s))
  else .next s

/-! ## Ring registers (R504, R514) -/

/-- Kinds of descriptor ring. -/
def ringPage (k : RingKind) : Nat := match k with | .sq => pageHIF + 1 | .cq => pageHIF + 2 | .eq => pageHIF + 3
def ringCfg (k : RingKind) (r : Nat) : Nat := match k with | .sq => HIF_SQ_CFG r | .cq => HIF_CQ_CFG r | .eq => HIF_EQ_CFG r
def ringBase (k : RingKind) (r : Nat) : Nat := match k with | .sq => HIF_SQ_BASE_LO r | .cq => HIF_CQ_BASE_LO r | .eq => HIF_EQ_BASE_LO r
/-- Writable bits of a ring's CFG register. -/
def ringMask (k : RingKind) : W32 := match k with | .sq => 0xF01F0F1F | .cq => 0x8000001F | .eq => 0x801F001F

/-- Completions of a ring that has been disabled are discarded (R514). -/
def dropCpls (r : Nat) (s : State) : State :=
  let mine := fun (c : Cpl) => cqOf s c.ring == r
  let n := (s.hif.waiting.filter mine).length + (s.hif.held.filter mine).length
  bumpN (HIF_CNT 7) n { s with hif := { s.hif with
    waiting := s.hif.waiting.filter (fun c => !mine c), held := s.hif.held.filter (fun c => !mine c) } }

/-- A ring is enabled: the engine's index and lap become 0 (R504). -/
def ringOn (k : RingKind) (r : Nat) (s : State) : State :=
  match k with
  | .sq => putSkip r false (wr (HIF_SQ_HEAD r) 0x10000 s)
  | .cq => wr (HIF_CQ_PROD r) 0 s
  | .eq => wr (HIF_EQ_PROD r) 0 s

/-- Frames kept on port 512 through a reset move again once the rings of their queue are enabled (R499). -/
def unkeep (s : State) : State :=
  let still := s.hif.kept.filter fun id => s.copies.any fun c => c.id == id && !puntOk s (puntRing s c.queue)
  { s with hif := { s.hif with kept := still } }

/-- A ring is disabled: a submission ring is fetched no more and drops its open chain (DEDUCED, log 22); the completions of a
completion ring are discarded (R514). -/
def ringOff (k : RingKind) (r : Nat) (s : State) : State :=
  match k with
  | .sq => putSkip r false (putChain r none { s with hif := { s.hif with
      scan := s.hif.scan.filter (· != r), again := s.hif.again.filter (· != r), took := s.hif.took.filter (· != r) } })
  | .cq => dropCpls r s
  | .eq => s

/-- A bus error on a fetch from a submission ring, or on the write of an entry of a completion or event ring (R522, kind 0x0D): counted,
recorded with the ring's number, and the ring disabled. -/
def ringBusErr (k : RingKind) (r : Nat) (s : State) : State :=
  let s1 := raise pageHIF 1 (recordErr pageHIF 0x07 r 0 (bump (HIF_CNT 4) s))
  reportFault pageHIF 0x0D r false (ringOff k r (wf (ringCfg k r) 31 31 0 s1))

/-- ENTRY_FETCH: the entry at the ring's index, as host memory holds it (log 2). A first = 1 entry
that meets an open chain ends the chain first (R510). With `busErr` the step is the report of a bus error on ring `r` of that kind:
on this fetch, or on the write of an entry to an enabled ring (log 2). -/
def execEntryFetch (r : RingIx) (e : List W32) (busErr : Option RingKind) (s : State) : Res :=
  match busErr with
  | some .sq => .next (if mayFetch s r then ringBusErr .sq r s else s)
  | some .cq => .next (if rb s (HIF_CQ_CFG r) 31 then ringBusErr .cq r s else s)
  | some .eq => .next (if rb s (HIF_EQ_CFG r) 31 then ringBusErr .eq r s else s)
  | none =>
    if !mayFetch s r then .next s
    else if !owned s r (e.getD 0 0) then .next (stopScan r s)
    else
      let s1 := { s with hif := { s.hif with took := s.hif.took.filter (· != r.val) ++ [r.val] } }
      match (if bit (e.getD 0 0) 30 && sqRole s r == 4 then openChain s r else none) with
      | some c => .next (chainErr (putChain r none (putReady r (some (.table { c with bad := true })) s1)))
      | none => .next (handleEntry r e (advanceSq r s1))

/-- A write to a ring's BASE_LO (0), BASE_HI (1) or CFG (2): refused while the ring is enabled, but for a CFG write that changes
en alone (R504). -/
def writeRing (k : RingKind) (r : Nat) (w : Nat) (v : W32) (s : State) : State :=
  let cfg := rd s (ringCfg k r)
  let en := bit cfg 31
  let refuse := recordErr (ringPage k) 0x01 (0x100 + 0x20 * r + 4 * w) 0 s
  match w with
  | 0 => if en then refuse else wr (ringBase k r) (v &&& 0xFFFFFFE0) s
  | 1 => if en then refuse else wr (ringBase k r + 4) v s
  | _ =>
    let new := v &&& ringMask k
    if en && (cfg ^^^ new) &&& 0x7FFFFFFF != 0 then refuse
    else
      let s1 := wr (ringCfg k r) new s
      if bit new 31 && !en then unkeep (ringOn k r s1) else if !bit new 31 && en then ringOff k r s1 else s1

/-- RING_CFG_WRITE. -/
def execRingCfgWrite (k : RingKind) (r : RingIx) (w : Fin 3) (v : W32) (s : State) : Res :=
  .next (hostDo ((if w = 2 then ringCfg k r else ringBase k r + 4 * w.val)) (writeRing k r.val w.val v) s)

/-! ## Interrupt messages (R530) -/

/-- IRQ_TIMER: a ring's moderation timer expires. -/
def execIrqTimer (eq : Bool) (r : RingIx) (s : State) : Res :=
  let k := outKey eq r
  .next (if s.hif.irqTimer.contains k then sendMsix (rf s (outIrq eq r) 31 24) (putIrq k 0 s) else s)

/-- The pending message of a vector is sent if it may be: unmasked, and requests allowed (R530). -/
def sendPending (v : Nat) (s : State) : State :=
  if rb s (HIF_MSIX_PBA (v / 32)) (v % 32) && !rb s (HIF_MSIX_TABLE (4 * v + 3)) 0 && memOk s then
    sendMsix v (wf (HIF_MSIX_PBA (v / 32)) (v % 32) (v % 32) 0 s)
  else s

/-- MSIX_VECTOR_UNMASK: a write of the vector's control word with its mask bit 0. -/
def unmaskVector (v : Nat) (s : State) : State := sendPending v (wf (HIF_MSIX_TABLE (4 * v + 3)) 0 0 0 s)

def execMsixVectorUnmask (v : Fin 256) (s : State) : Res := .next (hostDo (HIF_MSIX_TABLE (4 * v.val + 3)) (unmaskVector v.val) s)

/-! ## Inject jobs (R529) -/

/-- A frame presented as an arrival on port 512 or 513: parsed and looked up, or direct with its output port and queue (R529, R549). -/
def presentFrame (i : Nat) (direct : Option (Nat × Nat)) (data : List Byte) (s : State) : State :=
  let bytes := data ++ fcsBytes data
  let s1 := wakeGal (galOf s i) s
  addFrame { newFrame s1 i bytes true false (nowQ s1) with direct := direct } s1

/-- An inject completion (R520). -/
def injectCpl (j : Inject) (status bytes addr : Nat) (s : State) : State :=
  let ws := [w32 (0x60000000 + 0xA * 2 ^ 24 + status * 65536 + j.tag), 0, w32 bytes, w32 addr, w32 (addr / 2 ^ 32), 0]
  complete ⟨32 + j.ring, j.ring, ws ++ timeWords s, j.irq⟩ s

/-- The ring's inject job, if one is ready and nothing of the ring waits. -/
def injectReady (s : State) (r : Nat) : Option Inject :=
  match readyJob s r with
  | some (.inject j) => if noWait s (32 + r) then some j else none
  | _ => none

/-- INJECT_JOB: the engine reads the frame (`bytes`, as host memory answers; fewer than asked is a bus error, log 2), presents
it, and completes the job. -/
def execInjectJob (r : RingIx) (bytes : List Byte) (s : State) : Res :=
  match injectReady s r with
  | none => .next s
  | some j =>
    let s0 := putReady r none s
    if j.bad then .next (injectCpl j 8 0 0 s0)
    else if j.len < 60 ∨ 12284 < j.len then .next (injectCpl j 7 0 0 s0)
    else if !memOk s then .next s
    else if bytes.length < j.len then
      .next (injectCpl j 0x10 bytes.length (j.addr + bytes.length) (raise pageHIF 1 (bump (HIF_CNT 4) s0)))
    else .next (injectCpl j 0 j.len 0 
      (presentFrame 512 (if j.direct then some (j.port, j.queue) else none) (bytes.take j.len) (bump (HIF_CNT 11) s0)))

/-! ## Punt delivery (R524, R527) -/

/-- The 32-byte header of R527. -/
def puntHeader (f : Frame) (c : Copy) (len : Nat) : List Byte :=
  wordBytes [w32 (f.port % 1024 * 2 ^ 22 + c.queue % 16 * 2 ^ 18 + c.reason % 256 * 256 + f.epoch),
    w32 (sGet 0 7 f.fv % 65536 * 65536 + f.colour % 4 * 16384 + len % 16384), w32 (f.flowHash % 65536 * 65536), 0,
    w32 (qNs f.ts), w32 (qNs f.ts / 2 ^ 32), 0, 0]

/-- The frame a copy of port 512 or 513 carries, with its header and FCS. -/
def puntBytes (f : Frame) (c : Copy) (e : Edited) : List Byte :=
  let body := txBytes f c e ++ fcsBytes (txBytes f c e)
  puntHeader f c body.length ++ body

/-- The copy of port 512 that event ring `q` delivers next: the one selected first. -/
def puntNext (s : State) (q : Nat) : Option Copy :=
  s.copies.find? fun c => c.port == 512 && c.stage != .queued && puntRing s c.queue == q

/-- A punt has ended: its copy frees what it holds. -/
def puntEnd (c : Copy) (s : State) : State := endCopy c { s with hif := { s.hif with punt := sPut 0 c.id 0 s.hif.punt } }

/-- PUNT_DELIVERY: one buffer of event ring `q` takes the next bytes of its frame, with a punt entry; a ring that is not there
discards the frame (R524). -/
def execPuntDelivery (q : RingIx) (s : State) : Res :=
  match puntNext s q with
  | none => .next s
  | some c =>
    if !hostAwake s then .next s
    else if !puntOk s q then .next (if s.hif.kept.contains c.id then s else puntEnd c (bump (HIF_CNT 10) s))
    else
      match c.edit, frameOf s c.frame, sGet [] q.val s.hif.bufs with
      | some e, some f, b :: rest =>
        if (c.stage != .edited && c.stage != .sending) || outFull s true q || decide (c.rdNext < cellsWanted s c) then .next s
        else
          let all := puntBytes f c e
          let pos := sGet 0 c.id s.hif.punt
          let n := min b.len (all.length - pos)
          let ends := decide (all.length ≤ pos + n)
          let s1 := hostWrite b.addr (slice all pos n) { s with hif := { s.hif with bufs := sPut [] q.val rest s.hif.bufs } }
          let s2 := putEvent q [w32 (b2n (pos == 0) * 2 ^ 30 + b2n ends * 2 ^ 29 + 0xC * 2 ^ 24 + b.tag), w32 n] s1
          .next (if ends then puntEnd c (bump (HIF_CNT 9) s2)
            else putCopy { c with stage := .sending } { s2 with hif := { s2.hif with punt := sPut 0 c.id (pos + n) s2.hif.punt } })
      | _, _, _ => .next s

/-! ## Host sleep (R532-R534) -/

/-- Power-management bits of the same configuration write: PME_En, and a 1 that clears PME_Status (R533). -/
def writePme (pmeEn clear : Bool) (s : State) : State :=
  { s with hif := { s.hif with pmeEn := pmeEn, pmeStatus := s.hif.pmeStatus && !clear } }

/-- The message of a ring whose pending count is above 0 (R532). -/
def flushIrq (k : Nat) (s : State) : State :=
  if sGet 0 k s.hif.irqCnt = 0 then s
  else sendMsix (rf s (outIrq (decide (32 ≤ k)) (k % 32)) 31 24) (putIrq k 0 s)

/-- D3HOT_ENTRY: fetching stops, pending messages go, and the function sleeps (R532). -/
def execD3hotEntry (pmeEn clear : Bool) (s : State) : Res :=
  if rf s HIF_PCIE_STAT 11 10 = 3 then .next (writePme pmeEn clear s)
  else .next (wf HIF_PCIE_STAT 11 10 3 ((List.range 64).foldl (fun a k => flushIrq k a) (writePme pmeEn clear s)))

/-- One held completion written without its moderation, or else offered as any other; the rings that got an entry that counts. -/
def releaseHeldOne (x : State × List Nat) (c : Cpl) : State × List Nat :=
  let r := cqOf x.1 c.ring
  if cplRoom x.1 c then (writeEntry c x.1, if c.counts && !x.2.contains r then x.2 ++ [r] else x.2)
  else (offerCpl c x.1, x.2)

/-- The held completions are written in the order they fell due, then the message of each ring that got one goes at once, whatever its
moderation, with its pending count 0 (R534). An entry that does not count towards moderation calls for no message (DEDUCED, log 22). -/
def releaseHeld (s : State) : State :=
  let x := s.hif.held.foldl releaseHeldOne ({ s with hif := { s.hif with held := [] } }, [])
  x.2.foldl (fun a r => sendMsix (rf a (HIF_CQ_IRQ r) 31 24) (putIrq r 0 a)) x.1

/-- FINDs whose records waited are written, then completed (R273). -/
def releaseFinds (s : State) : State :=
  s.hif.finds.foldl (fun a f => complete f.cpl (hostWrite f.addr f.bytes a)) { s with hif := { s.hif with finds := [] } }

/-- D0_RESUME: the function is in D0 with Bus Master Enable 1 (R534); messages that waited as pending bits go. -/
def execD0Resume (pmeEn clear : Bool) (s : State) : Res :=
  let s1 := wf HIF_PCIE_STAT 12 12 1 (wf HIF_PCIE_STAT 11 10 0 (writePme pmeEn clear s))
  if !memOk s1 then .next s1
  else .next ((List.range 256).foldl (fun a v => sendPending v a) (releaseFinds (flushCpls (releaseHeld s1))))

/-- BUS_MASTER_ENABLE_CLEAR: no memory request may be issued (R533). -/
def execBusMasterEnableClear (s : State) : Res := .next (wf HIF_PCIE_STAT 12 12 0 s)

/-! ## PCIe resets (R499) -/

/-- Is register address `a` on a HIF page? -/
def onHif (a : Nat) : Bool := decide (8 ≤ a / 0x10000) && decide (a / 0x10000 < 0x10)

/-- The HIF pages at their Reset values, every ring disabled, DMA and inject jobs abandoned; completions that waited are
discarded and counted (R499). Table commands already taken stay, without a completion, and so do the frames queued on port 512. -/
def hifReset (s : State) : State :=
  let n := s.hif.waiting.length + s.hif.held.length + s.hif.finds.length
  let lone : Cmd → Cmd := fun c => { c with orphan := true }
  let keep := s.hif.ready.filterMap fun e => match e.2 with
    | some (.table c) => some (e.1, some (.table (lone c)))
    | _ => none
  let s1 := { s with
    bus := { s.bus with
      regs := s.bus.regs.filter fun e => !onHif e.1
      ctr := s.bus.ctr.filter fun e => !onHif e.1
      latch := s.bus.latch.filter fun e => !onHif e.1 }
    hif := { s.hif with
      scan := [], took := [], again := [], chains := [], skip := [], ready := keep, chanRr := [], runs := [],
      waiting := [], held := [], irqCnt := [], irqTimer := [], bufs := [], punt := [], finds := [], pmeEn := false, pmeStatus := false,
      kept := (s.copies.filter fun c => c.port == 512).map (·.id) }
    prv := { s.prv with exq := s.prv.exq.map fun e => (e.1, e.2.map lone), held := s.prv.held.map lone }
    vit := { s.vit with move := s.vit.move.map fun m => { m with cmd := lone m.cmd } }
    copies := s.copies.map fun c => if c.port = 512 ∧ c.stage = .sending then { c with stage := .edited } else c }
  bumpN (HIF_CNT 7) n s1

/-- What the one PCIe function shows in its configuration space (R497). The vendor identifier has no number in the spec. -/
structure PcieFunction where
  device : Nat := 0x1024
  classCode : Nat := 0x028000
  maxPayload : Nat := 512
  maxReadRequest : Nat := 4096
  tagBits : Nat := 10
  outstanding : Nat := 256
  msixVectors : Nat := 256
  noSoftReset : Bool := true
  aspmL0s : Bool := false
  aspmL1 : Bool := true
  aer : Bool := true
  /-- HIF_PCIE_STAT speed codes of 8, 16 and 32 GT/s. -/
  speeds : List Nat := [3, 4, 5]
  widths : List Nat := [1, 2, 4, 8]
  deriving DecidableEq, Repr

/-- The function of every order code. -/
def pcieFunction : PcieFunction := {}

/-- May the link train at a speed code and width (R497)? -/
def linkTrains (speed width : Nat) : Bool := pcieFunction.speeds.contains speed && pcieFunction.widths.contains width

/-- PCIE_PERST_N: the pages and the link are reset; the link then trains to `width` lanes at a speed code, or not at all where the
function has no such width or speed (log 2). -/
def execPciePerstN (speed : Fin 6) (width : Fin 17) (s : State) : Res :=
  let s1 := hifReset s
  .next (if linkTrains speed.val width.val then
    wf HIF_PCIE_STAT 9 9 1 (wf HIF_PCIE_STAT 8 4 width.val (wf HIF_PCIE_STAT 3 0 speed.val s1)) else s1)

/-- FUNCTION_LEVEL_RESET: the link stays. -/
def execFunctionLevelReset (s : State) : Res :=
  .next (wf HIF_PCIE_STAT 9 0 (rf s HIF_PCIE_STAT 9 0) (hifReset s))

/-- PCIE_REFCLK_LOSS: the link goes down (R642). -/
def execPcieRefclkLoss (s : State) : Res := .next (wf HIF_PCIE_STAT 9 0 0 s)

end Sys2Proof.Machine
end

