-- ==== Sys2Proof/Machine/Lnk.lean ====
section
/-!
DEFINITION. Lane chiplets: lane states (R94-R97), octet modes (R68, R69), die-to-die links (R89-R91), the module bus (R98),
the timestamp FIFO (R100) and the lane reference clocks (R646).
-/
namespace Sys2Proof.Machine

/-! ## Lanes -/

/-- LNK_LANE_CTRL.state_req of a lane: 0 OFF, 1 HOLD, 2 UP; the reserved code acts as OFF. -/
def laneReq (s : State) (k l : Nat) : Nat := let r := rf s (LNK_LANE_CTRL k l) 1 0; if r = 3 then 0 else r

/-- What a port that goes down leaves (R73, R95): a frame arriving is truncated, and a copy selected for it or in transmission
is dropped against the port (R59; DEDUCED, log 20). -/
def portFalls (i : Nat) (s : State) : State :=
  let s1 := rxTruncate i s
  (s1.copies.filter fun c => c.port == i && c.stage != .queued).foldl (fun a c => dropCopy 0x09 c (countDown i a)) s1

/-- A lane moves to state `v` (R94): the bit error estimate is 0 unless it is UP, the change is an event, and a lane that
leaves UP and RETUNE takes its port down (R95). -/
def setLaneState (k l v : Nat) (s : State) : State :=
  let old := laneState s (laneNo k l)
  if old = v then s else
    let port := lanePort s (laneNo k l)
    let was := portUp s port
    let s1 := wf (LNK_LANE_STAT k l) 2 0 v s
    let s2 := if v = 3 then s1 else wf (LNK_LANE_STAT k l) 15 8 0 s1
    let s3 := raise (pageLNK k) 0 s2
    if was && !portUp s3 port then portFalls port s3 else s3

/-- The retune that a host request ends (R97): the measurement of its record is a free value (log 33). -/
def hostAborts (k l : Nat) (s : State) : State :=
  let x := drawFree s
  abortRetune k l 0x0A x.1.toNat x.2

/-- A lane moves as its request asks (R94). OFF asked to HOLD stays OFF, for no coefficients are kept there, and TRAIN asked
to HOLD goes to HOLD (DEDUCED, log 20). -/
def applyLaneReq (k l : Nat) (s : State) : State :=
  let st := laneState s (laneNo k l)
  let s1 := if st = 4 then hostAborts k l s else s
  let c := laneSt s1 k l
  match laneReq s1 k l with
  | 0 => setLaneState k l 0 (putLane k l laneNone s1)
  | 1 => if st = 0 then s1 else setLaneState k l 1 (putLane k l { c with restoring := false } s1)
  | _ =>
    if st = 0 then setLaneState k l 2 s1
    else if st = 1 then putLane k l { c with restoring := true } s1
    else if st = 4 then setLaneState k l 3 s1
    else s1

/-- LANE_STATE_REQ: a write of LNK_LANE_CTRL (R94, R97); a chiplet that is not ON keeps the request for its start. -/
def writeLaneCtrl (k l : Nat) (v : W32) (s : State) : State :=
  let s1 := wr (LNK_LANE_CTRL k l) (v &&& 0x30F) s
  if isOn s (pageLNK k) then applyLaneReq k l s1 else s1

def execLaneStateReq (k : Chiplet) (l : Lane) (v : W32) (s : State) : Res :=
  .next (hostDo (LNK_LANE_CTRL k.val l.val) (writeLaneCtrl k.val l.val v) s)

/-- May the lanes of chiplet `k` come UP: its reference clock runs, and its gallery is not DORMANT (R637, R646). -/
def mayLock (s : State) (k : Nat) : Bool :=
  !(s.pwr.lnrefLost.contains k) && galState s (servingGal s k) != 2

/-- TRAIN_COMPLETE: a lane in TRAIN, or restoring from HOLD, comes UP with its adapted coefficients (R94). -/
def execTrainComplete (k : Chiplet) (l : Lane) (coef : Nat) (ber : Byte) (s : State) : Res :=
  let st := laneState s (laneNo k l)
  let c := laneSt s k l
  if isOn s (pageLNK k) && mayLock s k.val && laneReq s k l == 2 && (st == 2 || (st == 1 && c.restoring)) then
    .next (wf (LNK_LANE_STAT k l) 15 8 ber.toNat (setLaneState k.val l.val 3 (putLane k.val l.val ⟨coef, c.saved, false, chipTemp s k⟩ s)))
  else .next s

/-- A lane in UP or RETUNE loses lock and returns to TRAIN (R94). -/
def loseLock (k l : Nat) (s : State) : State := if laneUp s (laneNo k l) then setLaneState k l 2 s else s

/-- LOSS_OF_LOCK (R94). -/
def execLossOfLock (k : Chiplet) (l : Lane) (s : State) : Res := .next (loseLock k.val l.val s)

/-- HOLD_RESTORE_TIMEOUT: the partner of a lane leaving HOLD did not answer (R94). -/
def execHoldRestoreTimeout (k : Chiplet) (l : Lane) (s : State) : Res :=
  let c := laneSt s k l
  .next (if laneState s (laneNo k l) == 1 && c.restoring then
      setLaneState k.val l.val 2 (putLane k.val l.val { c with restoring := false } s) else s)

/-! ## Octet modes -/

/-- OCTET_MODE_WRITE (R68, R69). A write that carries a reserved code while lanes are not OFF is recorded for its code (DESIGN CHOICE,
log 42). -/
def writeOctetMode (k o : Nat) (v : W32) (s : State) : State :=
  if 8 < fld v 3 0 then recordErr (pageLNK k) 0x02 (0x100 + 4 * o) 0 s
  else if (List.range 8).all fun j => laneState s (laneNo k (8 * o + j)) == 0 then wr (LNK_OCTET_MODE k o) (w32 (fld v 3 0)) s
  else recordErr (pageLNK k) 0x01 (0x100 + 4 * o) 0 s

def execOctetModeWrite (k : Chiplet) (o : Fin 8) (v : W32) (s : State) : Res :=
  .next (hostDo (LNK_OCTET_MODE k.val o.val) (writeOctetMode k.val o.val v) s)

/-! ## Die-to-die links -/

/-- STANDBY_RETRAIN: the idle standby link is retrained (R91); a link that was ready and fails to train is lost (R615). With
standby_train_en 0 no training takes place, and a link that was trained stays ready (DESIGN CHOICE, log 42). -/
def execStandbyRetrain (k : Chiplet) (ok : Bool) (s : State) : Res :=
  if !isOn s (pageLNK k) || !rb s (LNK_D2D_CTRL k) 0 || rb s (LNK_D2D_STAT k) 0 then .next s
  else if ok then .next (wf (LNK_D2D_STAT k) 2 2 1 s)
  else if rb s (LNK_D2D_STAT k) 2 then
    .next (reportFault (pageLNK k) 0x08 0 false (raise (pageLNK k) 5 (wf (LNK_D2D_STAT k) 2 2 0 s)))
  else .next s

/-- D2D_STAT_READ: the retry count is cleared by reading (LNK_D2D_STAT). -/
def execD2dStatRead (k : Chiplet) (s : State) : Res :=
  .next (hostAsk (LNK_D2D_STAT k) (fun a => wf (LNK_D2D_STAT k) 31 16 0 (answer (rd a (LNK_D2D_STAT k)).toNat a)) s)

/-- The chiplet's start ends (R91, R94): its links are trained, and its lanes that are asked UP begin to train. -/
def lnkStart (k : Nat) (s : State) : State :=
  let s1 := wf (LNK_D2D_STAT k) 2 1 (1 + 2 * b2n (rb s (LNK_D2D_CTRL k) 0)) s
  (List.range 64).foldl (fun a l => if laneReq a k l = 2 then applyLaneReq k l a else a) s1

/-- The chiplet stops or is fenced (R615): all its lanes OFF, its links down, its module bus idle; what its hold buffer still
holds is discarded. -/
def lnkStop (k : Nat) (s : State) : State :=
  let s1 := (List.range 64).foldl (fun a l => setLaneState k l 0 (putLane k l laneNone a)) s
  let s2 := (s1.frames.filter fun f => f.stage == .hold && decide (f.port < 512) && f.port / 64 == k).foldl
    (fun a f => delFrame f.id a) s1
  wf (LNK_MOD_CMD k) 30 30 0 (wf (LNK_D2D_STAT k) 2 1 0 s2)

/-! ## Module bus -/

/-- MOD_CMD_GO: a write of LNK_MOD_CMD; go starts a transaction unless one runs (R98). -/
def writeModCmd (k : Nat) (v : W32) (s : State) : State :=
  let keep := rd s (LNK_MOD_CMD k) &&& 0x60000000
  let s1 := wr (LNK_MOD_CMD k) ((v &&& 0x1C7FFFFF) ||| keep) s
  if bit v 31 && !rb s (LNK_MOD_CMD k) 30 && isOn s (pageLNK k) then wf (LNK_MOD_CMD k) 30 30 1 s1 else s1

def execModCmdGo (k : Chiplet) (v : W32) (s : State) : Res := .next (hostDo (LNK_MOD_CMD k.val) (writeModCmd k.val v) s)

/-- MOD_DONE: the transaction ends (R98), as a read or a write by the read bit as it then stands (DESIGN CHOICE, log 42). -/
def execModDone (k : Chiplet) (nack : Bool) (data : Byte) (s : State) : Res :=
  let a := LNK_MOD_CMD k
  if !rb s a 30 then .next s
  else
    let s1 := wf a 29 29 (b2n nack) (wf a 30 30 0 s)
    .next (raise (pageLNK k) 4 (if rb s a 28 && !nack then wf a 7 0 data.toNat s1 else s1))

/-! ## Timestamp FIFO -/

/-- Word `i` of the timestamp FIFO of chiplet `k`: its head entry, zero while it is empty. -/
def tsWord (s : State) (k i : Nat) : Nat :=
  match sGet [] k s.lnk.fifo with
  | [] => 0
  | t :: _ =>
    match i with
    | 0 => qSub t.q
    | 1 => qSec t.q % 2 ^ 32
    | 2 => t.seqId * 65536 + qSec t.q / 2 ^ 32
    | _ => 2 ^ 31 + t.lane

/-- TS_FIFO_POP: a read of word 3 removes the head entry (R100). -/
def execTsFifoPop (k : Chiplet) (s : State) : Res :=
  .next (hostAsk (LNK_TS_FIFO k.val 3) (fun a =>
    let b := answer (tsWord a k.val 3) a
    { b with lnk := { b.lnk with fifo := sPut [] k.val (sGet [] k.val b.lnk.fifo).tail b.lnk.fifo } }) s)

/-! ## Lane reference clocks -/

/-- LANE_REFCLK_LOSS: the lanes lose lock (R646). -/
def execLaneRefclkLoss (k : Chiplet) (s : State) : Res :=
  if !lnkPresent s.part k || s.pwr.lnrefLost.contains k.val then .next s
  else
    let s0 := { s with pwr := { s.pwr with lnrefLost := s.pwr.lnrefLost ++ [k.val] } }
    let s1 := raise pagePWR 1 (wf PWR_CLK_STAT (8 + k) (8 + k) 0 s0)
    .next ((List.range 64).foldl (fun a l => loseLock k.val l a) s1)

/-- LANE_REFCLK_RETURN: the lanes can train again (R646). -/
def execLaneRefclkReturn (k : Chiplet) (s : State) : Res :=
  if !lnkPresent s.part k then .next s
  else
    let s1 := { s with pwr := { s.pwr with lnrefLost := s.pwr.lnrefLost.filter fun x => x != k.val } }
    .next (if isOn s pagePWR then wf PWR_CLK_STAT (8 + k) (8 + k) 1 s1 else s1)

end Sys2Proof.Machine
end

