-- ==== Sys2Proof/Machine/Anx.lean ====
section
/-!
DEFINITION. The Annex stream port (chapter 17): segments in both directions, credits, link states and resets.
-/
namespace Sys2Proof.Machine

/-- Link state: 0 OFF, 1 TRAIN, 2 INIT, 3 UP. -/
def anxLink (s : State) : Nat := rf s ANX_LINK_STAT 1 0

/-- Use of a channel. -/
def anxUse (s : State) (c : Nat) : Nat := rf s (ANX_CHAN_CFG c) 31 30

/-! ## Link resets (R552) -/

/-- A record lost counts in its source (R552). -/
def loseRec (src : Nat) (s : State) : State :=
  if src = 0x11 then loseLog s
  else if src = 0x10 then raiseFirst pageTMG 2 (bump (TMG_CNT 6) s)
  else if 8 ≤ src ∧ src < 16 then arcLose (src - 8) s
  else s

/-- What a channel was sending is lost. -/
def dropTx (t : AnxTx) (s : State) : State :=
  let s1 := bump (ANX_CNT 7) s
  match t.copy with
  | none => loseRec t.src s1
  | some id => (match copyOf s1 id with
    | some c => endCopy c s1
    | none => s1)

/-- The receive buffer's frames that dispatch has not taken, discarded. -/
def dropRx (s : State) : State :=
  let hs := s.anx.rxHeld.filter fun x => match frameOf s x.1 with | some f => f.stage == .hold | none => false
  hs.foldl (fun a x => bump (ANX_CNT 7) (delFrame x.1 a)) s

/-- The link reset into state `dest` (R552): the receive buffer and every partial frame or record in either direction lost, and
every credit and sequence number zero. -/
def anxReset (dest : Nat) (s : State) : State :=
  let parts := s.anx.rxPart.length
  let s1 := dropRx (bumpN (ANX_CNT 7) parts s)
  let s2 := s1.anx.tx.foldl (fun a e => match e.2 with | some t => dropTx t a | none => a) s1
  let s3 := (List.range 16).foldl (fun a c => wf (ANX_CHAN_STAT c) 31 16 0 a) s2
  wf ANX_LINK_STAT 1 0 dest { s3 with anx := { s3.anx with
    rxLeft := [], gath := [], rxSeq := [], txSeq := [], rxPart := [], tx := [], grant := [], rxHeld := [], linkSeen := false } }

/-- A reset of the link from INIT or UP with its counter and event bit. -/
def anxFault (k b : Nat) (s : State) : State :=
  reportFault pageANX 0x13 0 false (raise pageANX b (bump (ANX_CNT k) (anxReset 1 s)))

/-- The link leaves OFF while the block is ON and link_en is 1 (R551); a sum of rx_credits above 4,096 keeps it there (R553). -/
def anxRise (s : State) : State :=
  if isOn s pageANX && rb s ANX_CFG 31 && anxLink s == 0 then
    if 4096 < (List.range 16).foldl (fun a c => a + rf s (ANX_CHAN_CFG c) 11 0) 0 then recordErr pageANX 0x05 0x100 0 s
    else wf ANX_LINK_STAT 1 0 1 s
  else s

/-- A write of ANX_CFG: link_en brings the link up or takes it to OFF. -/
def writeAnxCfg (v : W32) (s : State) : State :=
  let s1 := wr ANX_CFG (v &&& 0x83FFFFFF) s
  if bit v 31 then anxRise s1
  else if anxLink s1 = 0 then s1 else wf ANX_LINK_STAT 15 8 0 (anxReset 0 s1)

/-- ANX_LINK_EN_WRITE: a write of ANX_CFG. -/
def execAnxLinkEnWrite (v : W32) (s : State) : Res := .next (hostDo ANX_CFG (writeAnxCfg v) s)

/-- Address and writable bits of channel `k`'s configuration, or of ANX_TX_MAP0 and 1 at 16 and 17. -/
def anxCfgReg (k : Nat) : Nat := if k < 16 then ANX_CHAN_CFG k else ANX_TX_MAP (k - 16)

/-- A write of a channel or queue map: only while link_en is 0 and the link is OFF (R553). -/
def writeAnxChan (k : Nat) (v : W32) (s : State) : State :=
  if !rb s ANX_CFG 31 && anxLink s == 0 then wr (anxCfgReg k) (if k < 16 then v &&& 0xC0000FFF else v) s
  else recordErr pageANX 0x01 (anxCfgReg k % 65536) 0 s

/-- ANX_CHAN_CFG_WRITE. -/
def execAnxChanCfgWrite (k : Fin 18) (v : W32) (s : State) : Res := .next (hostDo (anxCfgReg k.val) (writeAnxChan k.val v) s)

/-- ANNEX_TRAIN_DONE: all eight lanes locked and the PCS aligned (R551). -/
def execAnnexTrainDone (s : State) : Res :=
  .next (if anxLink s = 1 then wf ANX_LINK_STAT 15 8 0xFF (wf ANX_LINK_STAT 1 0 2 s) else s)

/-- ANNEX_LOCK_LOSS: the lanes still locked. -/
def execAnnexLockLoss (locked : Byte) (s : State) : Res :=
  let s1 := if 2 ≤ anxLink s then anxFault 5 1 s else s
  .next (if anxLink s = 0 then s1 else wf ANX_LINK_STAT 15 8 locked.toNat s1)

/-- PORT513_DOWN_TIMER: the link has not been UP for longer than down_us: port 513 goes down (R550). -/
def execPort513DownTimer (s : State) : Res :=
  if s.anx.portDown || anxLink s == 3 then .next s
  else .next (portFalls 513 { s with anx := { s.anx with portDown := true } })

/-! ## Receiving -/

/-- Value `v` at channel `c` of one of the per-channel stores. -/
def addAt (l : List (Nat × Nat)) (c n : Nat) : List (Nat × Nat) := sPut 0 c (sGet 0 c l + n) l

/-- `n` received segments of channel `c` freed: their credits gather for return (R545). -/
def freeSegs (c n : Nat) (s : State) : State := { s with anx := { s.anx with gath := addAt s.anx.gath c n } }

/-- Segments of frames that G4 dispatch has taken meanwhile are freed. -/
def collectRx (s : State) : State :=
  let gone := s.anx.rxHeld.filter fun x => match frameOf s x.1 with | some f => f.stage != .hold | none => true
  gone.foldl (fun a x => freeSegs x.2.1 x.2.2 a)
    { s with anx := { s.anx with rxHeld := s.anx.rxHeld.filter fun x => !(gone.contains x) } }

/-- Received segments of channel `c` not yet freed (ANX_CHAN_STAT.rx_used). -/
def rxUsed (s : State) (c : Nat) : Nat :=
  (match sGet none c s.anx.rxPart with | some p => p.2 | none => 0) +
    ((s.anx.rxHeld.filter fun x => x.2.1 == c).foldl (fun a x => a + x.2.2) 0)

/-- A frame discarded on arrival: counted, its segments freed. -/
def discardRx (c n : Nat) (s : State) : State := freeSegs c n (bump (ANX_CNT 7) s)

/-- A whole frame of `n` segments has arrived on channel `c` (R549, R546). -/
def rxFrame513 (c : Nat) (bs : List Byte) (n : Nat) (s : State) : State :=
  let h := bytesWords (slice bs 0 16)
  let w0 := h.getD 0 0
  let len := fld (h.getD 1 0) 13 0
  let data := bs.drop 16
  if bs.length < 16 ∨ len < 60 ∨ 12284 < len ∨ data.length ≠ len then raise pageANX 4 (discardRx c n s)
  else if galFenced s (galOf s 513) || blkState s pageANX == 3 then discardRx c n s
  else
    let id := s.nextId
    let s1 := presentFrame 513 (if bit w0 31 then some (fld w0 9 0, fld w0 19 16) else none) data (bump (ANX_CNT 6) s)
    { s1 with anx := { s1.anx with rxHeld := s1.anx.rxHeld ++ [(id, c, n)] } }

/-- A DATA segment in order and with credit: its channel's frame grows, and ends with last (R540, R541). A first segment ends
whatever the channel had begun, and a segment that continues nothing is discarded (log 25). -/
def rxPayload (c : Nat) (first last : Bool) (bs : List Byte) (s : State) : State :=
  let old := sGet none c s.anx.rxPart
  let put := fun (p : Option (List Byte × Nat)) (t : State) => { t with anx := { t.anx with rxPart := sPut none c p t.anx.rxPart } }
  let s1 := if first then (match old with
    | some p => discardRx c p.2 s
    | none => s) else s
  let cur := if first then some ([], 0) else old
  match cur with
  | none => discardRx c 1 s1
  | some p =>
    if last then rxFrame513 c (p.1 ++ bs) (p.2 + 1) (put none s1) else put (some (p.1 ++ bs, p.2 + 1)) s1

/-- The link comes UP: the grants of R544 are due, and port 513 is up (R550, R551). -/
def anxUp (s : State) : State :=
  let cs := (List.range 16).filter fun c => anxUse s c == 1 && rf s (ANX_CHAN_CFG c) 11 0 != 0
  let s1 := raise pageANX 0 (wf ANX_LINK_STAT 1 0 3 s)
  cs.foldl (fun a c => freeSegs c (rf a (ANX_CHAN_CFG c) 11 0) a)
    { s1 with anx := { s1.anx with portDown := false, grant := cs } }

/-- A segment received in INIT or UP (R540, R552): the first cause of the table that applies resets the link. -/
def rxSegment (hdr : BitVec 64) (payload : List Byte) (crcOk : Bool) (s : State) : State :=
  let h := hdr.toNat
  let c := bitsOf h 59 56
  let kind := bitsOf h 63 60
  let len := bitsOf h 53 45
  let lenOk := if kind = 1 then 1 ≤ len && len ≤ 256 else if kind = 2 then len == 0 else len == 2
  if anxLink s < 2 then s
  else if !crcOk then anxFault 2 2 s
  else if kind = 0 ∨ 3 < kind ∨ !lenOk ∨ payload.length ≠ len then anxFault 4 3 s
  else if kind = 3 then
    let s1 := if byteAt payload 0 = 1 then { s with anx := { s.anx with linkSeen := true } } else s
    if anxLink s = 2 ∧ (byteAt payload 1).toNat.testBit 0 then anxUp s1 else s1
  else if kind = 2 then wf (ANX_CHAN_STAT c) 31 16 (min 65535 (rf s (ANX_CHAN_STAT c) 31 16 + bitsOf h 15 0)) s
  else if bitsOf h 31 16 ≠ sGet 0 c s.anx.rxSeq then anxFault 3 2 s
  else if sGet 0 c s.anx.rxLeft = 0 then anxFault 4 3 s
  else
    let a := { s.anx with
      rxSeq := sPut 0 c ((sGet 0 c s.anx.rxSeq + 1) % 65536) s.anx.rxSeq
      rxLeft := sPut 0 c (sGet 0 c s.anx.rxLeft - 1) s.anx.rxLeft }
    rxPayload c (h.testBit 55) (h.testBit 54) payload (bump (ANX_CNT 1) { s with anx := a })

/-- DATA_SEGMENT_RX. -/
def execDataSegmentRx (hdr : BitVec 64) (payload : List Byte) (crcOk : Bool) (s : State) : Res :=
  .next (rxSegment hdr payload crcOk s)

/-- CREDIT_SEGMENT_RX. -/
def execCreditSegmentRx (hdr : BitVec 64) (payload : List Byte) (crcOk : Bool) (s : State) : Res :=
  .next (rxSegment hdr payload crcOk s)

/-- LINK_SEGMENT_RX. -/
def execLinkSegmentRx (hdr : BitVec 64) (payload : List Byte) (crcOk : Bool) (s : State) : Res :=
  .next (rxSegment hdr payload crcOk s)

/-! ## Sending -/

/-- A segment header (R540). -/
def segHeader (kind c : Nat) (first last : Bool) (len src seq credits : Nat) : Nat :=
  kind * 2 ^ 60 + c * 2 ^ 56 + b2n first * 2 ^ 55 + b2n last * 2 ^ 54 + len * 2 ^ 45 + src * 2 ^ 40 + seq * 65536 + credits

/-- The segment on the link. -/
def sendSeg (h : Nat) (bs : List Byte) (s : State) : State := { s with anx := { s.anx with sent := some (h, bs) } }

/-- LINK_SEGMENT_TX: one a microsecond in INIT (R551). -/
def execLinkSegmentTx (s : State) : Res :=
  .next (if anxLink s = 2 then sendSeg (segHeader 3 0 false false 2 0 0 0) [1, byte (b2n s.anx.linkSeen)] s else s)

/-- Is a CREDIT segment of channel `c` due without its timer: the first grant, or cr_batch gathered (R544, R545)? -/
def creditDue (s : State) (c : Nat) : Bool :=
  s.anx.grant.contains c || decide (max 1 (rf s ANX_CFG 7 0) ≤ sGet 0 c s.anx.gath)

/-- CREDIT_RETURN: a CREDIT segment for channel `c`; `timer` says that its oldest credit has waited cr_timer. -/
def execCreditReturn (c : Chan) (timer : Bool) (s : State) : Res :=
  let s1 := collectRx s
  let n := sGet 0 c.val s1.anx.gath
  if anxLink s1 = 3 ∧ n ≠ 0 ∧ (creditDue s1 c.val || timer) then
    let a := { s1.anx with
      gath := sPut 0 c.val 0 s1.anx.gath
      rxLeft := addAt s1.anx.rxLeft c.val n
      grant := s1.anx.grant.filter (· != c.val) }
    .next (sendSeg (segHeader 2 c.val false false 0 0 0 (n % 65536)) [] { s1 with anx := a })
  else .next s1

/-- The copy of port 513 that channel `c` sends next: the one selected first, edited and wholly read (R548). -/
def next513 (s : State) (c : Nat) : Option (AnxTx × Copy) :=
  match s.copies.find? fun k => k.port == 513 && k.stage != .queued && anxChan s k.queue == c with
  | none => none
  | some k =>
    match k.edit, frameOf s k.frame with
    | some e, some f =>
      if k.stage != .edited || decide (k.rdNext < cellsWanted s k) then none else some (⟨0, some k.id, puntBytes f k e, true⟩, k)
    | _, _ => none

/-- The record that channel `c` sends next: sources in rotating order of src (R542). -/
def nextRec (s : State) (c : Nat) : Option AnxRec :=
  let last := sGet 0 c s.anx.srcRr
  ((List.range 32).map fun i => (last + 1 + i) % 32).findSome? fun src => s.anx.recs.find? fun r => r.chan == c && r.src == src

/-- What channel `c` has to send: what it has begun, else a new frame or record by its use; nothing new while the block is
STOPPING (R554). Answers the state in which it has been taken. -/
def chanTx (s : State) (c : Nat) : Option (AnxTx × State) :=
  match sGet none c s.anx.tx with
  | some t => some (t, s)
  | none =>
    if !isOn s pageANX then none
    else if anxUse s c = 1 then (next513 s c).map fun x => (x.1, putCopy { x.2 with stage := .sending } s)
    else if anxUse s c = 2 then
      (nextRec s c).map fun r => (⟨r.src, none, r.bytes, true⟩,
        { s with anx := { s.anx with recs := s.anx.recs.erase r, srcRr := sPut 0 c r.src s.anx.srcRr } })
    else none

/-- One segment of at most 256 bytes of what channel `c` sends. -/
def sendData (c : Nat) (t : AnxTx) (s : State) : State :=
  let bs := t.rest.take 256
  let more := t.rest.drop 256
  let seq := sGet 0 c s.anx.txSeq
  let a := { s.anx with
    tx := sPut none c (if more.isEmpty then none else some { t with rest := more, first := false }) s.anx.tx
    txSeq := sPut 0 c ((seq + 1) % 65536) s.anx.txSeq
    chanRr := c }
  let s1 := fieldDec (ANX_CHAN_STAT c) 31 16 1 (bump (ANX_CNT 0) { s with anx := a })
  let s2 := sendSeg (segHeader 1 c t.first more.isEmpty bs.length t.src seq 0) bs s1
  if !more.isEmpty then s2
  else match t.copy with
    | none => s2
    | some id => (match copyOf s2 id with
      | some k => endCopy k s2
      | none => s2)

/-- SEGMENT_TX: one DATA segment of the next channel, in rotating order, with data and credit (R541, R543); CREDIT segments
that are due go first (R545). -/
def execSegmentTx (s : State) : Res :=
  let s0 := collectRx s
  if anxLink s0 ≠ 3 ∨ (List.range 16).any (creditDue s0) then .next s0
  else
    let order := (List.range 16).map fun i => (s0.anx.chanRr + 1 + i) % 16
    match order.findSome? fun c => if rf s0 (ANX_CHAN_STAT c) 31 16 = 0 then none else (chanTx s0 c).map fun x => (c, x) with
    | none => .next s0
    | some (c, x) => .next (sendData c x.1 x.2)

/-! ## Stops (R554) -/

/-- Has the Annex nothing in flight? -/
def anxIdle (s : State) : Bool :=
  let s1 := collectRx s
  s1.anx.tx.isEmpty && s1.anx.rxPart.isEmpty && s1.anx.rxHeld.isEmpty && (s1.anx.gath.isEmpty || anxLink s1 != 3)

/-- A stop completes: the link goes OFF. -/
def anxStop (s : State) : State := wf ANX_LINK_STAT 15 8 0 (anxReset 0 s)

end Sys2Proof.Machine
end

