-- ==== Sys2Proof/Machine/Arc.lean ====
section
/-!
DEFINITION. The Archive's captures, staging and records (R366-R381), and header commands for replication lists (R359).
-/
namespace Sys2Proof.Machine

/-! ## Replication headers (R359) -/

/-- A write of DPT_RPL_CMD: go writes DPT_RPL_HDR to the list in both replicas; ignored while busy. -/
def writeRplCmd (v : W32) (s : State) : State :=
  let s1 := wf DPT_RPL_CMD 15 0 (fld v 15 0) s
  if bit v 31 && !rb s1 DPT_RPL_STAT 0 then
    wf DPT_RPL_STAT 0 0 1 (bump (DPT_RPL_CNT 6) (engWriteBoth 8 (4 * fld v 15 0) [rd s1 DPT_RPL_HDR] s1))
  else s1

/-- RPL_HEADER_CMD. -/
def execRplHeaderCmd (v : W32) (s : State) : Res := .next (hostDo DPT_RPL_CMD (writeRplCmd v) s)

/-- RPL_BUSY_CLEAR: every expansion of the old header has ended: an expansion is part of one command here. -/
def execRplBusyClear (s : State) : Res := .next (wf DPT_RPL_STAT 0 0 0 s)

/-! ## Staging (R373, R376) -/

/-- Records staged for ring `r`, oldest first. -/
def stagedOf (s : State) (r : Nat) : List Cap := sGet [] r s.arc.staged

/-- Records staged for ring `r` replaced. -/
def putStaged (r : Nat) (l : List Cap) (s : State) : State := { s with arc := { s.arc with staged := sPut [] r l s.arc.staged } }

/-- ring_fill_r when a count of records rises from `a` to `b` past fill_level (R379). -/
def fillEdge (r a b : Nat) (s : State) : State :=
  let l := rf s (ARC_RING_CFG r) 11 0
  if a < l ∧ l ≤ b then raise pageARC r s else s

/-- A capture reaches its ring's staging buffer of 256 records: lost while en is 0; with the buffer full, full_act of an Annex
ring chooses which record goes. -/
def stageCap (c : Cap) (s : State) : State :=
  let cfg := rd s (ARC_RING_CFG c.ring)
  let l := stagedOf s c.ring
  let fill := fun (a b : Nat) (t : State) => if bit cfg 30 then fillEdge c.ring a b t else t
  if !bit cfg 31 then arcLose c.ring s
  else if l.length < 256 then fill l.length (l.length + 1) (putStaged c.ring (l ++ [c]) s)
  else if bit cfg 30 && bit cfg 29 then putStaged c.ring (l.drop 1 ++ [c]) (arcLose c.ring s)
  else arcLose c.ring s

/-- The Archive has read the first cell of a stored frame: a session's capture hands the rest of the chain to the walker (R370), that of a
dropped copy holds no more. -/
def readFirst (f : Frame) (kind h : Nat) (s : State) : State :=
  match f.cells with
  | [] => tryEnd f.id s
  | c :: r =>
    let s1 := { s with dpt := { s.dpt with walk := s.dpt.walk ++ (if kind = 0 then r else []).map fun x => ⟨x, h, none⟩ } }
    tryEnd f.id (freeCell c h s1)

/-- Has the first cell of a frame been written? -/
def firstWritten (f : Frame) : Bool := f.whole || decide (256 ≤ f.bytes.length)

/-- The capture that the Archive takes next: of those made in the earliest clock, in the rotating order of galleries of R46, and for one
gallery in the order made (R373). -/
def nextCap (l : List Cap) : Option Cap :=
  l.foldl (fun b c => match b with
    | none => some c
    | some x =>
      if c.clock < x.clock ∨ (c.clock = x.clock ∧ galTurn c.clock c.gal < galTurn x.clock x.gal) then some c else some x) none

/-- ARCHIVE_CAPTURE: the next capture is taken (R370, R373); `out` is what the Hall gives for a stored frame's first cell
(log 2). An unreadable or poisoned first cell sets store_err and loses the record. -/
def execArchiveCapture (out : RdOutcome) (s : State) : Res :=
  match nextCap s.arc.pend with
  | none => .next s
  | some c =>
    let s0 := { s with arc := { s.arc with pend := s.arc.pend.erase c } }
    let done := fun (k : Cap) (t : State) => stageCap k (bump (ARC_CNT (if k.kind = 0 then 0 else 1)) t)
    match c.stored with
    | none => .next (done c s0)
    | some x =>
      match frameOf s x.1 with
      | none => .next (done { c with stored := none } s0)
      | some f =>
        if !firstWritten f then .next s
        else
          let cell := f.cells.headD 0
          let bad := out == .ue || (cellOf s cell).poison
          let s1 := if out = .ue then bankUe (bankOf cell) s0 else if out = .corrected then correctedAt pageHAL s0 else s0
          let s2 := readFirst f c.kind x.2 (bump (HAL_CNT 1) s1)
          if bad then
            let s3 := reportFault pageHAL 0x01 cell false (recordErr pageHAL 0x03 0 cell (raise pageHAL 0 (bump (HAL_CNT 11) s2)))
            .next (arcLose c.ring (raise pageARC 16 s3))
          else .next (done { c with stored := none, bytes := slice f.bytes 0 128, len := frameLen f } s2)



/-- The 160 bytes of a record. -/
def recordBytes (c : Cap) (seq lost : Nat) : List Byte :=
  slice c.bytes 0 128 ++ wordBytes
    [w32 c.ns, w32 (c.ns / 2 ^ 32), w32 seq,
      w32 (c.inPort % 1024 * 2 ^ 22 + c.outPort % 1024 * 2 ^ 12 + c.queue % 16 * 256 + c.reason % 256),
      w32 (c.len % 2 ^ 14 * 2 ^ 18 + c.kind % 4 * 65536 + c.sess % 16 * 4096 + c.wing % 2 * 256 + c.epoch % 256),
      w32 (c.colour % 4 * 2 ^ 30 + c.f7 % 65536), w32 (c.hash % 65536 * 65536), w32 (lost % 65536)]

/-- Records of a host ring (R374). -/
def arcSize (s : State) (r : Nat) : Nat := 2 ^ max 6 (rf s (ARC_RING_CFG r) 19 16)

/-- Unconsumed records of a host ring. -/
def arcUnread (s : State) (r : Nat) : Nat := (rd s (ARC_RING_PROD r) - rd s (ARC_RING_CONS r)).toNat

/-- A record leaves staging: it takes the next sequence number and the losses so far (R371). -/
def takeRecord (r : Nat) (c : Cap) (s : State) : List Byte × State :=
  let n := sGet 0 r s.arc.seq
  (recordBytes c n (sGet 0 r s.arc.lost), bump (ARC_CNT 3) { s with arc := { s.arc with
    seq := sPut 0 r ((n + 1) % 2 ^ 32) s.arc.seq, lost := sPut 0 r 0 s.arc.lost } })

/-- A record written to the host ring. -/
def writeRecord (r : Nat) (c : Cap) (s : State) : State :=
  let p := rd s (ARC_RING_PROD r)
  let a := rd64 s (ARC_RING_BASE_LO r) / 64 * 64 + 160 * (p.toNat % arcSize s r)
  let x := takeRecord r c s
  let s1 := wr (ARC_RING_PROD r) (p + 1) (hostWrite a x.1 x.2)
  fillEdge r (arcUnread s r) (arcUnread s1 r) s1

/-- ARCHIVE_RECORD_WRITE: ring `r`'s oldest staged record goes to its host ring, or to its Annex channel when that has credit
(R374-R376). -/
def execArchiveRecordWrite (r : Fin 8) (s : State) : Res :=
  match stagedOf s r with
  | [] => .next s
  | c :: rest =>
    let cfg := rd s (ARC_RING_CFG r)
    let s0 := putStaged r rest s
    if bit cfg 30 then
      if anxRoom s (fld cfg 15 12) then
        let x := takeRecord r c s0
        .next (anxSend (8 + r.val) (fld cfg 15 12) x.1 x.2)
      else .next s
    else if !memOk s then .next s
    else if arcUnread s r = arcSize s r then
      if bit cfg 29 then .next (writeRecord r c (arcLose r (wr (ARC_RING_CONS r) (rd s (ARC_RING_CONS r) + 1) s0)))
      else .next (arcLose r s0)
    else .next (writeRecord r c s0)

/-- Staged records of every ring lost: a stop that has run out of time (R377). -/
def arcAbort (s : State) : State :=
  let s1 := (List.range 8).foldl (fun a r => (stagedOf a r).foldl (fun b _ => arcLose r b) (putStaged r [] a)) s
  let ps := s1.arc.pend
  ps.foldl (fun a c =>
    let b := arcLose c.ring a
    match c.stored with
    | some x => (match frameOf b x.1 with
      | some f => readFirst f c.kind x.2 b
      | none => b)
    | none => b) { s1 with arc := { s1.arc with pend := [] } }

/-- Has the Archive nothing left to write? -/
def arcIdle (s : State) : Bool := s.arc.pend.isEmpty && s.arc.staged.isEmpty

/-! ## Configuration (R381) -/

/-- A write of ring `r`'s BASE_LO (0), BASE_HI (1) or CFG (2). -/
def writeArcRing (r w : Nat) (v : W32) (s : State) : State :=
  let cfg := rd s (ARC_RING_CFG r)
  let free := !bit cfg 31 || blkState s pageARC == 0
  let refuse := recordErr pageARC 0x01 (0x600 + 0x20 * r + 4 * w) 0 s
  match w with
  | 0 => if free then wr (ARC_RING_BASE_LO r) (v &&& 0xFFFFFFC0) s else refuse
  | 1 => if free then wr (ARC_RING_BASE_HI r) v s else refuse
  | _ =>
    let new := v &&& 0xE00FFFFF
    if free || (cfg ^^^ new) &&& 0x7FFFFFFF == 0 then wr (ARC_RING_CFG r) new s else refuse

/-- ARC_RING_CFG_WRITE. -/
def execArcRingCfgWrite (r : Fin 8) (w : Fin 3) (v : W32) (s : State) : Res :=
  .next (hostDo (if w = 2 then ARC_RING_CFG r else ARC_RING_BASE_LO r + 4 * w.val) (writeArcRing r.val w.val v) s)

end Sys2Proof.Machine
end

