-- ==== Sys2Proof/Machine/Dma.lean ====
section
/-!
DEFINITION. DMA channels and their jobs (R515-R523).
-/
namespace Sys2Proof.Machine

/-! ## Ranges (R517) -/

/-- End of the mapped range of the table address space that holds `a` (R500, R501); 0 where nothing is mapped. -/
def mappedEnd (part : OrderCode) (a : Nat) : Nat :=
  let r := a / 0x4000000
  let o := a % 0x4000000
  let top := if r ≤ 1 then 0x2040000
    else if r ≤ 3 then (if o < 0xEC0000 then 0xEC0000 else if o < 0x1840000 then 0x1840000 else 0x1A00000)
    else if r ≤ 5 then (if o < 0x280000 then 0x280000 else 0x600000)
    else if r ≤ 7 then 0x400000
    else if r ≤ 9 then 0x140000
    else if r = 0xA then (if o < 0x420000 then 0x420000 else 0x570000)
    else if r = 0xB then (if o < 0x1020000 then 0x1020000 else 0x1400000)
    else 0x28000
  if mapped part a then r * 0x4000000 + top else 0

/-- Is a table range whole: aligned to `k`, and inside one mapped range? -/
def rangeOk (part : OrderCode) (k a len : Nat) : Bool :=
  a % k == 0 && len % k == 0 && decide (a + len ≤ mappedEnd part a)

/-- Does an op read, or write, table space? -/
def dmaSrcTable (op : Nat) : Bool := op == 1 || op == 2
def dmaDstTable (op : Nat) : Bool := op == 0 || op == 2 || op == 3

/-- The check of a job before it writes a byte (R517). -/
def dmaArgsOk (part : OrderCode) (d : Dma) : Bool :=
  let k := if d.op = 3 then 8 else 4
  d.len != 0 && (!dmaSrcTable d.op || rangeOk part k d.src d.len) && (!dmaDstTable d.op || rangeOk part k d.dst d.len)

/-- Galleries whose DOC region a job touches (R523). -/
def dmaGals (d : Dma) : List Nat :=
  let g := fun (a : Nat) => let r := a / 0x4000000; if 0x10 ≤ r ∧ r ≤ 0x18 then [r - 0x10] else []
  (if dmaSrcTable d.op then g d.src else []) ++ (if dmaDstTable d.op then g d.dst else [])

/-! ## Reads and writes of a job -/

/-- Reading stops at the failing address (R521, R522): the words read before it, and the status and address of the failure. -/
def readWords : Nat → Nat → State → (List W32 × Option (Nat × Nat)) × State
  | 0, _, s => (([], none), s)
  | n + 1, a, s =>
    match rdStat s a with
    | .never => (([], some (0x11, a)), uninitAt a s)
    | .ue => (([], some (0x12, a)), ueAt a s)
    | .good => let v := readTab a s; let x := readWords n (a + 4) v.2; ((v.1 :: x.1.1, x.1.2), x.2)
    | .corrected =>
      let v := readTab a s
      let x := readWords n (a + 4) (if a % eccSize a = 0 then noteRead a v.2 else v.2)
      ((v.1 :: x.1.1, x.1.2), x.2)

/-- The same from the top down: the words read after the failing address, in rising order. -/
def readWordsDown : Nat → Nat → List W32 → State → (List W32 × Option (Nat × Nat)) × State
  | 0, _, acc, s => ((acc, none), s)
  | n + 1, a, acc, s =>
    match rdStat s (a + 4 * n) with
    | .never => ((acc, some (0x11, a + 4 * n)), uninitAt (a + 4 * n) s)
    | .ue => ((acc, some (0x12, a + 4 * n)), ueAt (a + 4 * n) s)
    | .good => let v := readTab (a + 4 * n) s; readWordsDown n a (v.1 :: acc) v.2
    | .corrected =>
      let v := readTab (a + 4 * n) s
      readWordsDown n a (v.1 :: acc) (if (a + 4 * n) % eccSize a = 0 then noteRead (a + 4 * n) v.2 else v.2)

/-- Words written to table space from `a`. -/
def writeSpan (a : Nat) (ws : List W32) (s : State) : State := writeTable (ws.length + 1) a ws s

/-- Must a copy run from the highest address down (R518)? -/
def copiesDown (d : Dma) : Bool := decide (d.src < d.dst) && decide (d.dst < d.src + d.len)

/-! ## Channels (R515) -/

/-- The channel's finished job. -/
def runOf (s : State) (c : Nat) : Option DmaRun := sGet none c s.hif.runs

/-- The channel's finished job set. -/
def putRun (c : Nat) (r : Option DmaRun) (s : State) : State := { s with hif := { s.hif with runs := sPut none c r s.hif.runs } }

/-- A DMA job a ring has ready for channel `c`. -/
def ringDma (s : State) (c r : Nat) : Option Dma :=
  match readyJob s r with
  | some (.dma d) => if rf s (HIF_SQ_CFG r) 11 8 = c then some d else none
  | _ => none

/-- The job channel `c` takes next: one job per ring in turn, in rising ring number (R515); none while its last job is not
completed. -/
def nextJob (s : State) (c : Nat) : Option Dma :=
  if (runOf s c).isSome || !noWait s (16 + c) then none
  else
    let last := sGet 31 c s.hif.chanRr
    ((List.range 32).map fun i => (last + 1 + i) % 32).findSome? fun r => ringDma s c r

/-- The channel takes a job, and the job has run. -/
def jobDone (c : Nat) (d : Dma) (status bytes addr : Nat) (readBack : Bool) (s : State) : State :=
  let s1 := putReady d.ring none { s with hif := { s.hif with chanRr := sPut 31 c d.ring s.hif.chanRr } }
  let s2 := if status = 0x10 then raise pageHIF 1 (bump (HIF_CNT 4) s1) else if status = 9 then bump (HIF_CNT 13) s1 else s1
  putRun c (some ⟨d, status, bytes, addr, readBack⟩) s2

/-- A job that reaches its work: refused by its arguments, or by the power state of a gallery it names (R517, R523); else `f`. -/
def runJob (op c : Nat) (needHost : Bool) (s : State) (f : Dma → State → State) : State :=
  match nextJob s c with
  | none => s
  | some d =>
    if d.op ≠ op ∨ d.bad ∨ (blkState s pageHIF ≠ 2 ∧ blkState s pageHIF ≠ 3) then s
    else if !dmaArgsOk s.part d then jobDone c d 7 0 0 false s
    else if (dmaGals d).any fun g => galState s g == 2 || galState s g == 3 || galFenced s g then jobDone c d 9 0 0 false s
    else if needHost && !memOk s then s
    else f d ((dmaGals d).foldl (fun a g => wakeGal g a) (settle s))

/-- Bytes a job ends with, and where it failed. -/
def failAt (x : Option (Nat × Nat)) : Nat × Nat := x.getD (0, 0)

/-- H2T: host memory answers with `bytes`; fewer than asked is a bus error at the next address (log 2). -/
def execH2t (c : Chan) (bytes : List Byte) (s : State) : Res :=
  .next (runJob 0 c.val true s fun d a =>
    let n := min bytes.length d.len / 4 * 4
    let b := writeSpan d.dst (bytesWords (bytes.take n)) a
    if n = d.len then jobDone c.val d 0 n 0 false b else jobDone c.val d 0x10 n (d.src + n) false b)

/-- T2H: table space to host memory. -/
def execT2h (c : Chan) (s : State) : Res :=
  .next (runJob 1 c.val true s fun d a =>
    let x := readWords (d.len / 4) d.src a
    let e := failAt x.1.2
    jobDone c.val d e.1 (4 * x.1.1.length) e.2 (!x.1.1.isEmpty) (hostWrite d.dst (wordBytes x.1.1) x.2))

/-- T2T: table space to table space, as memmove does (R518). -/
def execT2t (c : Chan) (s : State) : Res :=
  .next (runJob 2 c.val false s fun d a =>
    if copiesDown d then
      let x := readWordsDown (d.len / 4) d.src [] a
      let e := failAt x.1.2
      jobDone c.val d e.1 (4 * x.1.1.length) e.2 false (writeSpan (d.dst + d.len - 4 * x.1.1.length) x.1.1 x.2)
    else
      let x := readWords (d.len / 4) d.src a
      let e := failAt x.1.2
      jobDone c.val d e.1 (4 * x.1.1.length) e.2 false (writeSpan d.dst x.1.1 x.2))

/-- FILL: the 64-bit pattern, repeated. -/
def execFill (c : Chan) (s : State) : Res :=
  .next (runJob 3 c.val false s fun d a =>
    let ws := (List.range (d.len / 4)).map fun i => w32 (d.src / 2 ^ (32 * (i % 2)))
    jobDone c.val d 0 d.len 0 false (writeSpan d.dst ws a))

/-- H2H: host memory to host memory; `bytes` as the source answers, from the end the copy starts at. -/
def execH2h (c : Chan) (bytes : List Byte) (s : State) : Res :=
  .next (runJob 4 c.val true s fun d a =>
    let n := min bytes.length d.len
    let down := copiesDown d
    let b := hostWrite (if down then d.dst + d.len - n else d.dst) (bytes.take n) a
    if n = d.len then jobDone c.val d 0 n 0 true b
    else jobDone c.val d 0x10 n (if down then d.src + d.len - n - 1 else d.src + n) (decide (0 < n)) b)

/-! ## Completions (R519, R520) -/

/-- A DMA completion, with the channel's status register. -/
def dmaCpl (c : Nat) (d : Dma) (status bytes addr : Nat) (s : State) : State :=
  let ws := [w32 (0x60000000 + 0x9 * 2 ^ 24 + status * 65536 + d.tag), w32 c, w32 bytes, w32 addr, w32 (addr / 2 ^ 32), 0]
  let s1 := addWrap (HIF_DMA_STAT c) 15 0 1 (wf (HIF_DMA_STAT c) 23 16 status s)
  complete ⟨16 + c, d.ring, ws ++ timeWords s, d.irq⟩ s1

/-- Address of the last four bytes that a job wrote to host memory: the lowest ones of a copy that ran down (R518). -/
def lastFour (d : Dma) (bytes : Nat) : Nat := if d.op = 4 ∧ copiesDown d then d.dst + d.len - bytes else d.dst + bytes - 4

/-- DMA_COMPLETE: after the last write, or in native mode after the read-back of the last four bytes written to host memory,
whose failure is a bus error (R519). A malformed job or a reserved op completes BAD_OP (R510, R517). -/
def execDmaComplete (c : Chan) (readFails : Bool) (s : State) : Res :=
  match runOf s c with
  | some r =>
    let native := r.readBack && !rb s HIF_CFG 0
    if !noWait s (16 + c) || (native && !memOk s) then .next s
    else if native && readFails then
      .next (dmaCpl c.val r.job 0x10 r.bytes (lastFour r.job r.bytes) (raise pageHIF 1 (bump (HIF_CNT 4) (putRun c.val none s))))
    else .next (dmaCpl c.val r.job r.status r.bytes r.addr (putRun c.val none s))
  | none =>
    match nextJob s c with
    | none => .next s
    | some d =>
      if d.bad || decide (5 ≤ d.op) then
        .next (dmaCpl c.val d 8 0 0 (putRun c.val none (jobDone c.val d 8 0 0 false s)))
      else .next s

/-! ## A stop of the host interface (R535) -/

/-- The jobs that have run and not completed end DOMAIN_PARKED, with the bytes they have moved. -/
def abortRuns (s : State) : State :=
  (List.range 16).foldl (fun a c => match runOf a c with
    | some r => dmaCpl c r.job 9 r.bytes r.addr (bump (HIF_CNT 13) (putRun c none a))
    | none => a) s

/-- The DMA and inject jobs that remain end DOMAIN_PARKED. -/
def abortJobs (s : State) : State :=
  (List.range 32).foldl (fun a r =>
    match readyJob a r with
    | some (.dma d) =>
      let c := rf a (HIF_SQ_CFG r) 11 8
      dmaCpl c d 9 0 0 (bump (HIF_CNT 13) (putReady r none a))
    | some (.inject j) => injectCpl j 9 0 0 (bump (HIF_CNT 13) (putReady r none a))
    | _ => a) (abortRuns s)

/-- The DMA jobs that write into the DOC region of gallery `g` end DOMAIN_PARKED (R523, R64). -/
def abortGalJobs (g : Nat) (s : State) : State :=
  (List.range 32).foldl (fun a r =>
    match readyJob a r with
    | some (.dma d) =>
      if (dmaGals d).contains g then dmaCpl (rf a (HIF_SQ_CFG r) 11 8) d 9 0 0 (bump (HIF_CNT 13) (putReady r none a)) else a
    | _ => a) s

/-- Has HIF nothing in flight (R535)? -/
def hifIdle (s : State) : Bool :=
  s.hif.runs.isEmpty && s.hif.waiting.isEmpty && s.hif.held.isEmpty && (s.hif.ready.all fun e => match e.2 with
    | some (.table _) | none => true
    | _ => false)

end Sys2Proof.Machine
end

