-- ==== Sys2Proof/Machine/Csv.lean ====
section
/-!
DEFINITION. The Conservator (chapter 19): merges, leaks of the correctable-error buckets, scrubbing, the image comparison, the
shadow comparison with its repairs, and fault injection.
-/
namespace Sys2Proof.Machine

/-- NARROW_WRITE_MERGE: the oldest pending merge of the buffer writes its word (R585). -/
def execNarrowWriteMerge (s : State) : Res :=
  match s.tab.merges with
  | [] => .next s
  | m :: r => .next (runMerge m { s with tab := { s.tab with merges := r } })

/-- CE_LEAK: one leak of page `p`'s bucket; at half of depth it may report again (R589). -/
def execCeLeak (p : Page) (s : State) : Res :=
  let s1 := fieldDec (H_CE_BUCKET p.val) 31 20 1 s
  if rf s1 (H_CE_BUCKET p.val) 31 20 ≤ rf s1 (H_CE_BUCKET p.val) 19 8 / 2 then
    .next { s1 with csv := { s1.csv with stormed := s1.csv.stormed.filter (· != p.val) } }
  else .next s1

/-! ## Scrubbing (R590-R592) -/

/-- A Hall cell's place in the write-back queue. -/
def hallKey (c : Nat) : Nat := 2 ^ 32 + c

/-- store_err of the block that owns page `p`, where its INT_STAT has that bit. -/
def storeErrBit (part : OrderCode) (p : Nat) : Option Nat :=
  match pageBlk part p with
  | some (.doc, _, _) | some (.lpm, _, _) | some (.vit, _, _) | some (.edt, _, _) | some (.hal, _, _) | some (.tmg, _, _) => some 0
  | some (.cat, _, _) => some 3
  | some (.tsn, _, _) => some 6
  | _ => none

/-- store_err of page `p` set, where it has that bit. -/
def raiseStoreErr (p : Nat) (s : State) : State :=
  match storeErrBit s.part p with
  | some b => raise p b s
  | none => s

/-- The Conservator reports the word at `a` to its owning block as an uncorrectable read (R592, R595). -/
def reportUe (a : Nat) (s : State) : State := raiseStoreErr (tabOwner a) (ueAt a s)

/-- A word beyond correction found by a scrub: poisoned, counted and reported to its owner (R592). -/
def scrubUe (a : Nat) (s : State) : State :=
  reportUe a (raiseFirst pageCSV 1 (bump (CSV_CNT 1) (putEcc a ⟨.poisoned, 0, (eccOf s a).inj⟩ s)))

/-- A scrub's read of the table word at base `a`: only GOOD words are read. -/
def scrubWord (a : Nat) (s : State) : State :=
  if (eccOf s a).st != .good then s
  else match rdStat s a with
    | .corrected => noteRead a s
    | .ue => scrubUe a s
    | .never | .good => s

/-- A scrub's read of an allocated Hall cell, and what the array answered. -/
def scrubCell (ue : Bool) (c : Nat) (s : State) : State :=
  if !(cellOf s c).alloc then s
  else if ue then
    let s1 := raise pageHAL 0 (raiseFirst pageCSV 1 (bump (CSV_CNT 1) (putCell c { cellOf s c with poison := true } s)))
    bankUe (bankOf c) (reportFault pageHAL 0x01 c false (recordErr pageHAL 0x03 0 c s1))
  else
    let s1 := correctedAt pageHAL s
    { s1 with csv := { s1.csv with backQ := s1.csv.backQ ++ [hallKey c] } }

/-- Has the block of home page `p` a memory of R578 outside the Hall and the table address space: a hold buffer, the Curator's memory, the
traffic manager's state, or the Ledger's memory? -/
def ownMemory (part : OrderCode) (p : Nat) : Bool :=
  home p == p && (match pageBlk part p with
    | some (.lnk, _, _) | some (.cur, _, _) | some (.tmg, _, _) | some (.ldg, _, _) => true
    | _ => false)

/-- A scrub's read of a word of the memory that page `p`'s block keeps for itself, and what the array answered. The spec gives such a word no
address: the record's is 0, and a corrected word is written back at once (log 45). -/
def scrubOwn (ue : Bool) (p : Nat) (s : State) : State :=
  if !ownMemory s.part p then s
  else if ue then
    let s1 := raiseStoreErr p (raiseFirst pageCSV 1 (bump (CSV_CNT 1) s))
    reportFault p 0x01 0 false (recordErr p 0x03 0 0 s1)
  else bump (CSV_CNT 0) (correctedAt p s)

/-- A scrub's read of a word outside the table address space. -/
def scrubAt (ue : Bool) (x : ScrubWord) (s : State) : State :=
  match x with
  | .cell c => scrubCell ue c.val s
  | .own p => scrubOwn ue p.val s

/-- SCRUB_PASS: a pass over every memory; `ce` and `ue` are the words outside the table address space that their arrays gave as
correctable and beyond correction (log 2), and `late` says that the pass overran its interval. -/
def execScrubPass (late : Bool) (ce : List ScrubWord) (ue : List ScrubWord) (s : State) : Res :=
  if isOn s pageCSV && rb s CSV_CFG 0 then
    let s1 := s.tab.ecc.foldl (fun a e => scrubWord e.1 a) s
    let s2 := ue.foldl (fun a x => scrubAt true x a) (ce.foldl (fun a x => scrubAt false x a) s1)
    .next (if late then raiseFirst pageCSV 5 s2 else s2)
  else .next s

/-- The Conservator may write back queued word `a` in this clock: a Hall cell (at `2^32` and above) waits while the Depot allocates a
cell in its bank (R591). -/
def mayWriteBack (s : State) (a : Nat) : Bool := decide (a < 2 ^ 32) || !s.hal.wrote.contains (bankOf (a - 2 ^ 32))

/-- SCRUB_WRITE_BACK: the oldest queued word, if it is still in error, is written with its errors gone; else the write-back is
dropped (R591). -/
def execScrubWriteBack (s : State) : Res :=
  match s.csv.backQ with
  | [] => .next s
  | a :: r =>
    if !isOn s pageCSV || !mayWriteBack s a then .next s
    else
      let s1 := { s with csv := { s.csv with backQ := r } }
      if 2 ^ 32 ≤ a then .next (bump (CSV_CNT (if (cellOf s (a - 2 ^ 32)).alloc then 0 else 6)) s1)
      else match rdStat s1 a with
        | .corrected => .next (bump (CSV_CNT 0) (putEcc a ⟨.good, 0, false⟩ s1))
        | .ue => .next (if (eccOf s1 a).st = .good then scrubUe a s1 else bump (CSV_CNT 6) s1)
        | .never | .good => .next (bump (CSV_CNT 6) s1)

/-! ## The image comparison (R593-R595) -/

/-- A row of bank `b` of wing `w` that differs from its image is rewritten from it and counted; one cleared to match nothing matches
again. -/
def repairRow (w b r : Nat) (s : State) : State :=
  if readable s (vitAddr w b r) && readable s (vitAddr w b r + 16) then
    let n := sGet 0 (16 * w + b) s.vit.differ + 1
    raise (pageVIT w) 1 (bump (VIT_CNT w 6) { s with vit := { s.vit with
      differ := sPut 0 (16 * w + b) n s.vit.differ, cleared := s.vit.cleared.filter (· != 65536 * w + 4096 * b + r) } })
  else s

/-- Rows of wing `w` cleared to match nothing whose image, readable again, holds a valid entry: they differ from it (R593, R595). -/
def clearedRows (w : Nat) (s : State) : List (Nat × Nat) :=
  (s.vit.cleared.filter fun k => k / 65536 == w && readable s (vitAddr w 0 0 + 32 * (k % 65536)) &&
    readable s (vitAddr w 0 0 + 32 * (k % 65536) + 16) && bit (tw s (vitAddr w 0 0 + 32 * (k % 65536) + 20)) 31).map fun k =>
    (k % 65536 / 4096, k % 4096)

/-- Overflow keys of wing `w` cleared to match nothing whose image, readable again, holds a valid entry. -/
def clearedKeys (w : Nat) (s : State) : List Nat :=
  (s.cat.cleared.filter fun k => k / 8192 == w && readable s (catAddr w (0x100000 + k % 8192)) &&
    bit (tw s (catAddr w (0x100000 + k % 8192) + 28)) 31).map (· % 8192)

/-- An image word at base `a` as the comparison of wing `w` reads it: one beyond correction clears its row or keys to match
nothing (R595). -/
def compareImage (w a : Nat) (s : State) : State :=
  let r := a / 0x4000000
  let o := a % 0x4000000
  let row := decide (r = 4 + w) && decide (o < 0x200000)
  let key := decide (r = w) && decide (0x2000000 ≤ o)
  if !(row || key) then s
  else
    let s1 := if rdStat s a = .corrected then noteRead a s else s
    if rdStat s a != .ue then s1
    else
      let s2 := reportUe a s1
      if row then
        let k := 65536 * w + o / 32
        { s2 with vit := { s2.vit with cleared := if s2.vit.cleared.contains k then s2.vit.cleared else s2.vit.cleared ++ [k] } }
      else
        let k := 8192 * w + (o - 0x2000000) / 32
        { s2 with cat := { s2.cat with cleared := s2.cat.cleared ++ [k, k + 1].filter fun x => !(s2.cat.cleared.contains x) } }

/-- IMAGE_COMPARE_PASS: a pass over wing `w`: the match rows (bank, row) and overflow keys that differ from their images are
what the arrays show (log 2), and those cleared to match nothing whose image is readable again. -/
def execImageComparePass (w : Wing) (rows : List (Fin 16 × Fin 4096)) (keys : List (Fin 8192)) (s : State) : Res :=
  if isOn s pageCSV then
    let s0 := settle s
    let s1 := { s0 with vit := { s0.vit with differ := s0.vit.differ.filter fun e => e.1 / 16 != w.val } }
    let s2 := ((rows.map fun x => (x.1.val, x.2.val)) ++ clearedRows w.val s1).eraseDups.foldl (fun a x => repairRow w.val x.1 x.2 a) s1
    let good := (keys.map (·.val) ++ clearedKeys w.val s2).eraseDups.filter fun k => readable s2 (catAddr w.val (0x100000 + k))
    let s3 := { s2 with cat := { s2.cat with cleared := s2.cat.cleared.filter fun k => !(k / 8192 == w.val && good.contains (k % 8192)) } }
    .next (s3.tab.ecc.foldl (fun a e => compareImage w.val e.1 a) (bumpN (CSV_CNT 13) good.length s3))
  else .next s

/-! ## The shadow comparison (R596-R602) -/

/-- Bytes of a record of table `t` (one version of a next hop or of a group), where its replicas begin, and the chunks of a
pass. -/
def recBytes (t : Nat) : Nat := [32, 16, 8, 4].getD t 32
def recBase (w t : Nat) : Nat :=
  if t = 0 then w * 0x4000000 else (2 + w) * 0x4000000 + [0, 0x1000000, 0x1800000, 0x1900000].getD t 0
def shadowChunks (t : Nat) : Nat := [8256, 2048, 64, 256].getD t 1

/-- Address of record `x` of table `t` in wing `w`. -/
def recAddr (w t x : Nat) : Nat := recBase w t + recBytes t * x

/-- A record's words as its replica holds them; none where a word cannot be read. -/
def recWords (s : State) (w t x : Nat) : Option (List W32) :=
  let a := recAddr w t x
  if readable s a then some (tws s a (recBytes t / 4)) else none

/-- The word of a record that holds valid in bit 31: the last of a Catalogue entry, else the first. -/
def recCtl (t : Nat) (ws : List W32) : W32 := ws.getD (if t = 0 then 7 else 0) 0

/-- Does a copy of a record, with valid = 1, bar the comparison: mortal = 1, settled = 0, or a learned entry under
skip_learned (R597)? A bucket has none of these fields. -/
def recMoving (s : State) (t : Nat) (ws : List W32) : Bool :=
  let c := recCtl t ws
  bit c 31 && (if t = 0 then bit c 27 || !bit c 26 || (rb s CSV_CFG 3 && bit c 28)
    else if t = 3 then false else bit c 30 || !bit c 29)

/-- A record's words without hit and age (R597). -/
def recCompared (t : Nat) (ws : List W32) : List W32 :=
  if t = 0 then ws.set 7 (setFld (setFld (ws.getD 7 0) 29 29 0) 21 16 0) else ws

/-- Does a replica's record equal the shadow's? -/
def recSame (t : Nat) (sh : List W32) (r : Option (List W32)) : Bool :=
  match r with
  | none => false
  | some ws => (!bit (recCtl t ws) 31 && !bit (recCtl t sh) 31) || recCompared t ws == recCompared t sh

/-- Which replicas differ from the shadow record `sh`: bit 0 Wing E, bit 1 Wing W; 0 where the record is skipped. -/
def recDiff (s : State) (t x : Nat) (sh : List W32) : Nat :=
  let e := recWords s 0 t x
  let w := recWords s 1 t x
  if recMoving s t sh || (e.any (recMoving s t)) || (w.any (recMoving s t)) then 0
  else b2n (!recSame t sh e) + 2 * b2n (!recSame t sh w)

/-- The ECC words of a chunk as the Conservator's reads find them: corrected and uncorrectable words are recorded. -/
def noteSpan : Nat → Nat → State → State
  | 0, _, s => s
  | n + 1, a, s => noteSpan n (a + eccSize a) (if rdStat s a = .never then s else noteRead a s)

/-- The prefix structure's replicas compared word by word (R601): an uncorrectable word takes the other replica's; other
differences are counted. -/
def comparePrefix (s : State) : State :=
  let bases := (s.tab.ecc.filter fun e =>
    decide (2 * 0x4000000 ≤ e.1) && decide (e.1 < 4 * 0x4000000) && decide (e.1 % 0x4000000 < 0xEC0000)).map fun e => e.1 % 0x4000000
  let all := bases.foldl (fun (l : List Nat) b => if l.contains b then l else l ++ [b]) []
  all.foldl (fun a o =>
    let e := 2 * 0x4000000 + o
    let w := 3 * 0x4000000 + o
    match rdStat a e, rdStat a w with
    | .never, _ | _, .never => a
    | .ue, .ue => reportUe w (reportUe e a)
    | .ue, _ => putEcc e ⟨.good, 0, false⟩ (putWords e (tws a w 16) (noteCe w (reportUe e a)))
    | _, .ue => putEcc w ⟨.good, 0, false⟩ (putWords w (tws a e 16) (noteCe e (reportUe w a)))
    | _, _ => if tws a e 16 = tws a w 16 then a else bump (CSV_CNT 14) a) s

/-- The chunk index of table `t` moves on; the end of a pass counts it, and table 1's pass takes the prefix structure with
it (R601). -/
def nextChunk (t : Nat) (s : State) : State :=
  let st := CSV_SHADOW_STAT t
  if rf s st 15 0 + 1 < shadowChunks t then addWrap st 15 0 1 s
  else
    let s1 := addWrap st 31 16 1 (wf st 15 0 0 s)
    if t = 1 then comparePrefix s1 else s1

/-- SHADOW_CHUNK_COMPARE: the next chunk of table `t`, read from host memory as `bytes`, is compared with both replicas; a
bus error or a sleeping host leaves it to the next pass (R602). -/
def execShadowChunkCompare (t : Fin 4) (bytes : List Byte) (busErr : Bool) (s : State) : Res :=
  if !isOn s pageCSV || !rb s CSV_CFG 1 then .next s
  else if !memOk s then .next (nextChunk t.val s)
  else if busErr then .next (nextChunk t.val (raiseFirst pageCSV 4 (bump (CSV_CNT 12) s)))
  else
    let t := t.val
    let n := 4096 / recBytes t
    let x0 := rf s (CSV_SHADOW_STAT t) 15 0 * n
    let s0 := settle s
    let k := 4096 / eccSize (recAddr 0 t x0)
    let s1 := noteSpan k (recAddr 1 t x0) (noteSpan k (recAddr 0 t x0) s0)
    let found := (List.range n).filter fun i => recDiff s1 t (x0 + i) (bytesWords (slice bytes (recBytes t * i) (recBytes t))) != 0
    let s2 := bumpN (CSV_CNT 8) found.length (bump (CSV_CNT 7) s1)
    let s3 := { s2 with csv := { s2.csv with rechecks := s2.csv.rechecks ++ found.map fun i => ⟨t, x0 + i⟩ } }
    .next (nextChunk t s3)

/-- The shadow record written into wing `w`'s replica, which keeps its own hit and age (R599). -/
def repairRec (w t x : Nat) (sh : List W32) (s : State) : State :=
  let a := recAddr w t x
  if t = 0 then
    let own := tw s (a + 28)
    let v := setFld (setFld (sh.getD 7 0) 29 29 (fld own 29 29)) 21 16 (fld own 21 16)
    engWrite a (sh.set 7 v) s
  else engWrite a sh s

/-- SHADOW_RECHECK: settle_us later the shadow record is read again, as `bytes`: a difference still there is confirmed, and
repaired when one replica equals the shadow and repair_en is 1 (R598, R599). -/
def execShadowRecheck (bytes : List Byte) (s : State) : Res :=
  match s.csv.rechecks with
  | [] => .next s
  | r :: rest =>
    if !isOn s pageCSV || !memOk s then .next s
    else
      let x := fun (w : Nat) => eccBase (recAddr w r.table r.index)
      let s0 := noteSpan 1 (x 1) (noteSpan 1 (x 0) (settle { s with csv := { s.csv with rechecks := rest } }))
      let sh := bytesWords (slice bytes 0 (recBytes r.table))
      let d := recDiff s0 r.table r.index sh
      if d = 0 then .next s0
      else
        let fix := decide (d ≠ 3) && rb s0 CSV_CFG 2
        let ix := if r.table = 1 ∨ r.table = 2 then r.index / 2 else r.index
        let s1 := wr CSV_MISMATCH_LAST (w32 (r.table * 2 ^ 28 + d * 2 ^ 26 + b2n fix * 2 ^ 25 + ix)) (bump (CSV_CNT 9) s0)
        let s2 := raiseFirst pageCSV 2 s1
        .next (if fix then raiseFirst pageCSV 3 (bump (CSV_CNT 10) (repairRec (d - 1) r.table r.index sh s2)) else bump (CSV_CNT 11) s2)

/-! ## Fault injection -/

/-- A write of CSV_INJ_CMD: go inverts bit 0 of nsym symbols from symbol 0 of the stored word that holds CSV_INJ_ADDR; a word
of RS(20,16) takes at most 4. -/
def injectEcc (v : W32) (s : State) : State :=
  let s1 := wf CSV_INJ_CMD 3 0 (fld v 3 0) s
  if !bit v 31 then s1
  else
    let a := (rd s1 CSV_INJ_ADDR).toNat
    let n := max 1 (fld v 3 0)
    let n := if eccSize a = 64 then n else min 4 n
    let e := eccOf s1 a
    let s2 := bump (CSV_CNT 15) s1
    if mapped s.part a && e.st == .good then
      putEcc (eccBase a) ⟨.good, e.errs ^^^ (2 ^ n - 1), true⟩ s2
    else s2

/-- ECC_INJECT: a write of CSV_INJ_CMD. -/
def execEccInject (v : W32) (s : State) : Res := .next (hostDo CSV_INJ_CMD (injectEcc v) s)

end Sys2Proof.Machine
end

