-- ==== Sys2Proof/Machine/PrvOps.lean ====
section
/-!
DEFINITION. What every table command shares (chapter 08): executors, the order of statuses, completions, unreadable words, and
the version fields of every table's records with their births, deaths, frees and marks.
-/
namespace Sys2Proof.Machine

/-! ## Status codes (R275) -/

def stOK : Nat := 0x00
def stEXISTS : Nat := 0x01
def stNOT_FOUND : Nat := 0x02
def stNO_ROOM : Nat := 0x03
def stBUSY : Nat := 0x04
def stBAD_KEY : Nat := 0x05
def stBAD_RESULT : Nat := 0x06
def stBAD_ARG : Nat := 0x07
def stBAD_OP : Nat := 0x08
def stPARKED : Nat := 0x09
def stTABLE_OFF : Nat := 0x0A
def stSTORE_ERR : Nat := 0x0B

/-! ## Payloads (R270-R272) -/

/-- A little-endian field of a command's payload. -/
def leAt (c : Cmd) (i n : Nat) : Nat := leNat (slice c.payload i n)

/-- A byte of the payload. -/
def byteOf (c : Cmd) (i : Nat) : Nat := (byteAt c.payload i).toNat

/-- Entries R272 asks of an opcode; `none` where it checks no count (a Vitrine width code outside 0-2). -/
def entriesOf (c : Cmd) : Option Nat :=
  if c.op = 1 ∨ c.op = 2 then some 2
  else if c.op = 0x16 then some (ceilDiv (8 + 4 * leAt c 6 2) 28)
  else if c.op = 0x20 ∨ c.op = 0x21 ∨ c.op = 0x22 then
    (match byteOf c 1 with | 0 | 1 => some 2 | 2 => some 4 | _ => none)
  else if c.op = 0x30 then some 8
  else some 1

/-- The executor of an opcode of R272 or R312; 5 for one that no command has. -/
def executorOf (op : Nat) : Nat :=
  if 1 ≤ op ∧ op ≤ 4 then 0 else if 0x10 ≤ op ∧ op ≤ 0x19 then 1 else if 0x20 ≤ op ∧ op ≤ 0x25 then 2
  else if 0x30 ≤ op ∧ op ≤ 0x32 then 3 else if op = 0x40 ∨ op = 0x41 then 4 else 5

/-- A prefix as a route command names it: family, VRF, length, address left-aligned. -/
structure Pfx where
  fam : Nat
  vrf : Nat
  len : Nat
  addr : Nat
  deriving DecidableEq, Repr

/-- Prefix of a route command's payload. -/
def pfxOf (c : Cmd) : Pfx :=
  let fam := byteOf c 3
  ⟨fam, leAt c 0 2, byteOf c 2, if fam = 0 then beNat (slice c.payload 4 4) else beNat (slice c.payload 4 16)⟩

/-- Is it held in the Catalogue (R187)? -/
def longPfx (p : Pfx) : Bool := p.fam == 1 && decide (64 < p.len)

/-- Is it a route command on a prefix of length 65-128, which the Catalogue holds? -/
def longCmd (c : Cmd) : Bool := decide (0x10 ≤ c.op ∧ c.op ≤ 0x13) && longPfx (pfxOf c)

/-- Is it a change command of R262? -/
def changes (op : Nat) : Bool :=
  decide (executorOf op < 4) && op != 0x04 && op != 0x13 && op != 0x24 && op != 0x25 && op != 0x32

/-- Epoch of a completion (R274). -/
def cplEpoch (s : State) (op : Nat) : Nat := if changes op then nextEpoch s else s.prv.c

/-! ## Completions (R274) -/

/-- What a command ends with: status, first and second index, hit bits, and the record of a FIND with its host address. -/
structure CmdEnd where
  status : Nat
  first : Nat := 0xFFFFFFFF
  second : Nat := 0xFFFFFFFF
  hits : Nat := 0
  find : Option (Nat × List Byte) := none
  deriving DecidableEq, Repr

/-- The counters of R288 for a completion, and bad_op. -/
def countStatus (st : Nat) (s : State) : State :=
  if st = stBUSY then bump (PRV_CNT 0 2) s
  else if st = stBAD_OP then raise (pagePRV 0) 4 (bump (PRV_CNT 0 3) s)
  else if st = stBAD_KEY ∨ st = stBAD_RESULT ∨ st = stBAD_ARG ∨ st = stSTORE_ERR then bump (PRV_CNT 0 3) s
  else if st = stNO_ROOM then bump (PRV_CNT 0 4) s
  else if st = stTABLE_OFF ∨ st = stPARKED then bump (PRV_CNT 0 5) s
  else s

/-- A command ends: counted, and completed, or its completion discarded where the host interface has been reset since it was taken
(R499); a FIND's completion waits for its record to be written to host memory (R273). -/
def finish (c : Cmd) (r : CmdEnd) (s : State) : State :=
  let s1 := countStatus r.status s
  let w1 := r.status * 2 ^ 24 + cplEpoch s1 c.op * 65536 + s1.prv.o * 256 + liveCount s1
  let words := [w32 (0x68000000 + c.op * 65536 + c.tag), w32 w1, w32 r.first, w32 r.second, w32 r.hits, 0, 0, 0]
  let cpl : Cpl := ⟨executorOf c.op, c.ring, words, true⟩
  if c.orphan then loseCpl s1
  else match r.find with
  | none => complete cpl s1
  | some x =>
    if memOk s1 then complete cpl (hostWrite x.1 x.2 s1)
    else { s1 with hif := { s1.hif with finds := s1.hif.finds ++ [⟨cpl, x.1, x.2⟩] } }

/-! ## Executors (R269, R719) -/

/-- Commands handed to executor `e`. -/
def exqOf (s : State) (e : Nat) : List Cmd := sGet [] e s.prv.exq

/-- Commands handed to executor `e` replaced. -/
def putExq (e : Nat) (l : List Cmd) (s : State) : State := { s with prv := { s.prv with exq := sPut [] e l s.prv.exq } }

/-- The command executor `e` runs next, when it is one of opcode `op` and no completion keeps the executor waiting (R513). -/
def nextCmd (s : State) (e op : Nat) : Option Cmd :=
  if !noWait s e then none
  else match exqOf s e with
    | c :: _ => if c.op = op then some c else none
    | [] => none

/-- Are the blocks of a table ON in both wings (TABLE_OFF, R275)? -/
def tableOn (s : State) (e : Nat) : Bool :=
  match e with
  | 0 => isOn s (pageCAT 0) && isOn s (pageCAT 1)
  | 1 => isOn s (pageLPM 0) && isOn s (pageLPM 1)
  | 2 => isOn s (pageVIT 0) && isOn s (pageVIT 1)
  | 3 => (List.range 9).all fun g => !(galPresent s.part g) || (carries s g).isNone || isOn s (pageEDT g)
  | _ => true

/-- The status that a command of executor `e` gets before its own table is read: BAD_OP, TABLE_OFF or BUSY (R275). -/
def earlyEnd (s : State) (e : Nat) (c : Cmd) : Option Nat :=
  if c.bad || (match entriesOf c with | some n => n != c.entries | none => false) then some stBAD_OP
  else if !tableOn s e || (longCmd c && !tableOn s 0) then some stTABLE_OFF
  else if changes c.op && liveCount s == 4 then some stBUSY
  else none

/-- The next command of executor `e` with opcode `op` starts: BAD_OP, TABLE_OFF and BUSY first, else what `f` answers,
with no completion where the command goes on. A table read waits for the merges (R588). -/
def startCmd (e op : Nat) (s : State) (f : Cmd → State → Option CmdEnd × State) : State :=
  match nextCmd s e op with
  | none => s
  | some c =>
    let s1 := settle (putExq e ((exqOf s e).drop 1) s)
    match earlyEnd s e c with
    | some st => finish c { status := st } s1
    | none => match f c s1 with
      | (some r, s2) => finish c r s2
      | (none, s2) => s2

/-- A command that ends within one step. -/
def runCmd (e op : Nat) (s : State) (f : Cmd → State → CmdEnd × State) : State :=
  startCmd e op s fun c a => ((f c a).1, (f c a).2)

/-- A command that ends with a status and no effect. -/
def fails (st : Nat) (s : State) : CmdEnd × State := ({ status := st }, s)

/-- A deciding read met an unreadable word at table address `a` (R720). -/
def storeErr (a : Nat) (s : State) : CmdEnd × State :=
  let p := tabOwner a
  let k := if p = pageCAT 0 ∨ p = pageCAT 1 then (3, CAT_CNT 0 14)
    else if p = pageLPM 0 ∨ p = pageLPM 1 then (0, LPM_CNT (a / 0x4000000 - 2) 10)
    else if p = pageVIT 0 ∨ p = pageVIT 1 then (0, VIT_CNT (a / 0x4000000 - 4) 14)
    else (0, EDT_CNT (4 * (a / 0x4000000 - 6)) 12)
  let s1 := if rdStat s a = .never then uninitAt a s else reportFault p 0x01 a (eccOf s a).inj s
  ({ status := stSTORE_ERR }, raise p k.1 (bump k.2 (recordErr p 0x03 0 a s1)))

/-- The first of some addresses, taken in both replicas' regions `r` and `r + 1`, whose word is unreadable. -/
def firstBad (s : State) (r : Nat) (offs : List Nat) : Option Nat :=
  (offs.flatMap fun o => [r * 0x4000000 + o, (r + 1) * 0x4000000 + o]).find? fun a => !readable s a

/-- Some words read in both replicas' regions `r` and `r + 1` (R580). -/
def readBoth (r : Nat) (offs : List Nat) (s : State) : State :=
  noteCes (offs.flatMap fun o => [r * 0x4000000 + o, (r + 1) * 0x4000000 + o]) s

/-! ## Version fields of records (R142, R200, R203, R220, R293) -/

/-- Where a record's version fields lie: the word of valid, mortal and settled, and the word and bits of death and birth. -/
structure VerLoc where
  ctl : Nat
  mortal : Nat
  settled : Nat
  ver : Nat
  death : Nat
  birth : Nat
  deriving DecidableEq, Repr

/-- Record `i` of a table in wing `w`: entry x (0), version 2n + v of a next hop (2) or group (3), row 4096 b + r (4), version
2t + v of a template (5). -/
def verLoc (t w i : Nat) : VerLoc :=
  match t with
  | 0 => ⟨catAddr w i + 28, 27, 26, catAddr w i + 28, 8, 0⟩
  | 2 => ⟨nhAddr w (i / 2) (i % 2), 30, 29, nhAddr w (i / 2) (i % 2), 8, 0⟩
  | 3 => ⟨grpAddr w (i / 2) (i % 2), 30, 29, grpAddr w (i / 2) (i % 2) + 4, 24, 16⟩
  | 4 => ⟨vitAddr w (i / 4096) (i % 4096) + 20, 30, 29, vitAddr w (i / 4096) (i % 4096) + 24, 8, 0⟩
  | _ => ⟨tplAddr w (i / 2) (i % 2), 30, 29, tplAddr w (i / 2) (i % 2), 8, 0⟩

/-- Records of a chunk of 64 entries (R266): two versions to a next hop, group and template. -/
def chunkRecs (t : Nat) : Nat := if t = 0 then 64 else 128

/-- The chunk of record `i` of table `t`; a Vitrine entry of width w takes w rows, and its bank has 64 chunk numbers. -/
def chunkOf (s : State) (t i : Nat) : Nat :=
  if t = 4 then 64 * (i / 4096) + i % 4096 / max 1 (bankWidth s (i / 4096)) / 64 else i / chunkRecs t

/-- valid of a record, and its version fields. -/
def recValid (s : State) (t w i : Nat) : Bool := bit (tw s (verLoc t w i).ctl) 31
def recVer (s : State) (t w i : Nat) : Ver :=
  let l := verLoc t w i
  ⟨fld (tw s l.ver) (l.birth + 7) l.birth, fld (tw s l.ver) (l.death + 7) l.death, bit (tw s l.ctl) l.mortal, bit (tw s l.ctl) l.settled⟩

/-- Is the record valid, visible under the next epoch and not mortal (R260)? -/
def recCurrent (s : State) (t i : Nat) : Bool :=
  recValid s t 0 i && visible s (recVer s t 0 i) (nextEpoch s) && !(recVer s t 0 i).mortal

/-- One word of a record changed in both replicas, each from its own word. -/
def editBoth (f : Nat → Nat) (g : W32 → W32) (s : State) : State :=
  let s1 := engWrite (f 0) [g (tw s (f 0))] s
  engWrite (f 1) [g (tw s1 (f 1))] s1

/-- A control bit of a record set or cleared in some replicas, each from its own word. -/
def setCtlIn (ws : List Nat) (t i b v : Nat) (s : State) : State :=
  ws.foldl (fun a w => let x := (verLoc t w i).ctl; engWrite x [setFld (tw a x) b b v] a) s

/-- A record's control bit set or cleared in both replicas. -/
def setCtl (t i b v : Nat) (s : State) : State := setCtlIn [0, 1] t i b v s

/-- A chunk marked for an epoch in both replicas (R266). -/
def markChunk (t k epoch : Nat) (s : State) : State :=
  let l := [0, 1].map fun w => (⟨t, w, k, epoch⟩ : Mark)
  { s with prv := { s.prv with marks := s.prv.marks ++ l.filter fun m => !(s.prv.marks.contains m) } }

/-- The chunk of record `i` of table `t` marked. -/
def markRec (t i epoch : Nat) (s : State) : State := markChunk t (chunkOf s t i) epoch s

/-- A record freed by R261 or the walker: its slot returns. -/
def freeRec (t i : Nat) (s : State) : State := bump (PRV_CNT 0 7) (setCtl t i 31 0 s)

/-- A record retired: death = N and mortal = 1, or freed at once when it was born in N and is not settled (R261). -/
def retireRec (t i : Nat) (s : State) : State :=
  let v := recVer s t 0 i
  let n := nextEpoch s
  if v.birth = n ∧ !v.settled then freeRec t i s
  else
    let l := verLoc t 0 i
    let s1 := editBoth (fun w => (verLoc t w i).ver) (fun x => setFld x (l.death + 7) l.death n) (setCtl t i l.mortal 1 s)
    markRec t i n s1

/-! ## Walker and DISCARD on one record (R265, R278) -/

/-- The replicas whose own control word of record `i` can be read, is valid, and has version fields that meet `p`. -/
def recWhere (s : State) (t i : Nat) (p : Ver → Bool) : List Nat :=
  [0, 1].filter fun w => readable s (verLoc t w i).ctl && recValid s t w i && p (recVer s t w i)

/-- A record freed in some replicas, counted once. -/
def freeIn (ws : List Nat) (t i : Nat) (s : State) : State := if ws.isEmpty then s else bump (PRV_CNT 0 7) (setCtlIn ws t i 31 0 s)

/-- The walker's work on a record of epoch `e`, in each replica by its own words: a free or a settle, counted once. -/
def walkRec (t e i : Nat) (s : State) : State :=
  let s0 := [0, 1].foldl (fun a w => let x := (verLoc t w i).ctl; if rdStat a x = .ue then noteRead x a else a) s
  let dead := recWhere s0 t i fun v => v.mortal && v.death == e
  let born := recWhere s0 t i fun v => !(v.mortal && v.death == e) && !v.settled && v.birth == e
  let s1 := freeIn dead t i s0
  if born.isEmpty then s1 else bump (PRV_CNT 0 6) (setCtlIn born t i (verLoc t 0 i).settled 1 s1)

/-- DISCARD's work on a record, in each replica by its own words: staged births freed, staged deaths undone. -/
def discardRec (t n i : Nat) (s : State) : State :=
  let born := recWhere s t i fun v => !v.settled && v.birth == n
  let dead := recWhere s t i fun v => !(!v.settled && v.birth == n) && v.mortal && v.death == n
  setCtlIn dead t i (verLoc t 0 i).mortal 0 (freeIn born t i s)

/-- Is a record staged under `n` in a replica? -/
def recStaged (s : State) (t n i : Nat) : Bool :=
  !(recWhere s t i fun v => (!v.settled && v.birth == n) || (v.mortal && v.death == n)).isEmpty

/-- Records of a chunk. -/
def chunkList (s : State) (t k : Nat) : List Nat :=
  if t = 4 then
    let w := max 1 (bankWidth s (k / 64))
    ((List.range 64).map fun j => 4096 * (k / 64) + w * (64 * (k % 64) + j)).filter fun i => i / 4096 == k / 64
  else (List.range (chunkRecs t)).map fun j => chunkRecs t * k + j

/-! ## Prefix versions (R194) -/

/-- Version fields of a prefix version. -/
def routeVer (r : Route) : Ver := ⟨r.birth, r.death, r.mortal, r.settled⟩

/-- Units of a prefix version (R185). -/
def routeUnits (r : Route) : Nat := if r.fam = 0 then 1 else 2

/-- Units in use. -/
def unitsUsed (s : State) : Nat := s.lpm.routes.foldl (fun a r => a + routeUnits r) 0

/-- Prefix versions replaced, with those freed counted. -/
def putRoutes (l : List Route) (freed : Nat) (s : State) : State :=
  bumpN (PRV_CNT 0 7) freed { s with lpm := { s.lpm with routes := l } }

/-- The chunk of a prefix version (R266). -/
def routeChunk (r : Route) : Nat := r.slot / 64

/-- The walker's work on the prefix versions of chunk `k`. -/
def walkRoutes (e k : Nat) (s : State) : State :=
  let dead := fun (r : Route) => routeChunk r == k && r.mortal && r.death == e
  let born := fun (r : Route) => routeChunk r == k && !r.settled && r.birth == e
  let keep := s.lpm.routes.filter fun r => !dead r
  let n := (keep.filter born).length
  bumpN (PRV_CNT 0 6) n (putRoutes (keep.map fun r => if born r then { r with settled := true } else r)
    (s.lpm.routes.length - keep.length) s)

/-- DISCARD's work on the prefix versions of chunk `k`. -/
def discardRoutes (n k : Nat) (s : State) : State :=
  let keep := s.lpm.routes.filter fun r => !(routeChunk r == k && !r.settled && r.birth == n)
  putRoutes (keep.map fun r => if routeChunk r == k && r.mortal && r.death == n then { r with mortal := false } else r)
    (s.lpm.routes.length - keep.length) s

/-- Is any change staged under N (PRV_EPOCH.staged)? -/
def anyStaged (s : State) : Bool :=
  let n := nextEpoch s
  (s.lpm.routes.any fun r => (!r.settled && r.birth == n) || (r.mortal && r.death == n)) ||
  (s.prv.marks.any fun m => m.epoch == n && m.table != 1 && (chunkList s m.table m.chunk).any (recStaged s m.table n))

end Sys2Proof.Machine
end

