-- ==== Sys2Proof/Machine/CatCmd.lean ====
section
/-!
DEFINITION. The Catalogue's writers (chapter 05): host commands, Accession, Deaccession, and the configuration writes with
conditions.
-/
namespace Sys2Proof.Machine

/-! ## Placement and writes -/

/-- The lowest free slot of a key's bucket in wing `w`'s replica, else the lowest free overflow entry (R166). -/
def freeSlot (s : State) (w : Nat) (key : List Byte) : Option Nat :=
  let b := catBucket s key
  match [4 * b, 4 * b + 1, 4 * b + 2, 4 * b + 3].find? fun x => !catValid s w x with
  | some x => some x
  | none =>
    let used := ovfValid s w
    if 8192 ≤ used.length then none
    else (firstBelow (used.length + 1) fun k => !(used.contains (0x100000 + k))).map fun k => 0x100000 + k

/-- The eight words of an entry. -/
def catWords (key : List Byte) (result ctl : Nat) : List W32 :=
  bytesWords (slice key 0 20) ++ [w32 result, w32 (result / 2 ^ 32), w32 ctl]

/-- An entry written in both replicas. -/
def putEntryBoth (x : Nat) (key : List Byte) (result ctl : Nat) (s : State) : State :=
  engWriteBoth 0 (32 * x) (catWords key result ctl) s

/-- The first unreadable word among a key's candidates in either replica (R169). -/
def catBadAny (s : State) (key : List Byte) : Option Nat :=
  match catUnreadable s 0 key with
  | some x => some (catAddr 0 x)
  | none => (catUnreadable s 1 key).map (catAddr 1)

/-- A command's reads of a key's candidates in both replicas (R580). -/
def catReadsBoth (key : List Byte) (s : State) : State := catReads 1 key (catReads 0 key s)

/-- The current entry of a key: visible under N with mortal = 0, lowest index first (R260). -/
def catCurrent (s : State) (key : List Byte) : Option Nat := (catMatches s 0 key).find? fun x => recCurrent s 0 x

/-- A key a Catalogue command may not name (R169). -/
def badKey (key : List Byte) : Bool :=
  let t := (byteAt key 0).toNat
  t == 0 || t == 3 || (7 ≤ t && t ≤ 0x7F)

/-- A staged entry: valid, static as given, birth = N. -/
def stagedCtl (s : State) (static : Bool) : Nat := 2 ^ 31 + b2n static * 2 ^ 30 + nextEpoch s

/-- INSERT of R169 on any key (`st` counts a NO_ROOM); `replace` retires the current entry. -/
def catPut (replace : Bool) (key : List Byte) (result : Nat) (static : Bool) (noRoom : State → State) (s : State) :
    CmdEnd × State :=
  match catBadAny s key with
  | some a => storeErr a s
  | none =>
    let s := catReadsBoth key s
    let old := catCurrent s key
    if !replace && old.isSome then fails stEXISTS s
    else if replace && old.isNone then fails stNOT_FOUND s
    else match freeSlot s 0 key with
      | none => fails stNO_ROOM (noRoom s)
      | some x =>
        if !readable s (catAddr 0 x) then storeErr (catAddr 0 x) s
        else if !readable s (catAddr 1 x) then storeErr (catAddr 1 x) s
        else
          let s1 := markRec 0 x (nextEpoch s) (putEntryBoth x key result (stagedCtl s static) s)
          ({ status := stOK, first := x }, match old with
            | some y => retireRec 0 y s1
            | none => s1)

/-- DELETE of R169 on any key. -/
def catRemove (key : List Byte) (s : State) : CmdEnd × State :=
  match catBadAny s key with
  | some a => storeErr a s
  | none =>
    let s := catReadsBoth key s
    match catCurrent s key with
    | none => fails stNOT_FOUND s
    | some x => ({ status := stOK, first := x }, retireRec 0 x s)

/-- FIND of R169 on any key: `rec` makes the record from the entry. -/
def catFind (key : List Byte) (addr : Nat) (rec : State → Nat → List Byte) (hits : Bool) (s : State) : CmdEnd × State :=
  match catBadAny s key with
  | some a => storeErr a s
  | none =>
    let s := catReadsBoth key s
    match catCurrent s key with
    | none => fails stNOT_FOUND s
    | some x =>
      let h := if hits then b2n (bit (catCtl s 0 x) 29) + 2 * b2n (bit (catCtl s 1 x) 29) else 0
      ({ status := stOK, first := x, hits := h, find := some (addr, rec s x) }, s)

/-- A NO_ROOM of the Catalogue, on the Wing E page (R170). -/
def catNoRoom (s : State) : State := bump (CAT_CNT 0 11) s

/-- The table image of an entry in replica E (R273). -/
def catRecord (s : State) (x : Nat) : List Byte := wordBytes (tws s (catAddr 0 x) 8)

/-! ## Host commands (R169) -/

/-- CAT_INSERT. -/
def execCatInsert (s : State) : Res :=
  .next (runCmd 0 0x01 s fun c a =>
    let key := slice c.payload 0 20
    if badKey key then fails stBAD_KEY a else catPut false key (leAt c 20 8) ((byteAt c.payload 28).toNat % 2 == 1) catNoRoom a)

/-- CAT_REPLACE. -/
def execCatReplace (s : State) : Res :=
  .next (runCmd 0 0x02 s fun c a =>
    let key := slice c.payload 0 20
    if badKey key then fails stBAD_KEY a else catPut true key (leAt c 20 8) ((byteAt c.payload 28).toNat % 2 == 1) catNoRoom a)

/-- CAT_DELETE. -/
def execCatDelete (s : State) : Res :=
  .next (runCmd 0 0x03 s fun c a =>
    let key := slice c.payload 0 20
    if badKey key then fails stBAD_KEY a else catRemove key a)

/-- CAT_FIND. -/
def execCatFind (s : State) : Res :=
  .next (runCmd 0 0x04 s fun c a =>
    let key := slice c.payload 0 20
    if badKey key then fails stBAD_KEY a else catFind key (leAt c 20 8) catRecord true a)

/-! ## Events (R168) -/

/-- An event of kind 0 LEARN, 1 MOVE or 2 AGE of entry `x`, while CAT_EVT_CFG reports its kind; lost where the ring cannot take
it. -/
def catEvent (w kind x : Nat) (key : List Byte) (result : Nat) (s : State) : State :=
  let cfg := rd s (CAT_EVT_CFG 0)
  if !bit cfg (8 + kind) then s
  else if eqOpen s (fld cfg 4 0) then
    putEvent (fld cfg 4 0) (w32 (0x6D000000 + w * 2 ^ 23 + kind * 2 ^ 21 + x) :: bytesWords (slice key 0 20) ++
      [w32 result, w32 (result / 2 ^ 32)]) s
  else raise (pageCAT w) 5 (bump (CAT_CNT w 13) s)

/-! ## Accession (R163-R167, R176-R178) -/

/-- A learn ends: its key leaves the pending-key filter. Where neither queue nor filter is full then, a later discard sets
learn_q_full again (R181). -/
def endLearn (w : Nat) (l : Learn) (s : State) : State :=
  let left := (sGet [] w s.cat.filter).erase l.key
  { s with cat := { s.cat with
      filter := sPut [] w left s.cat.filter
      qWasFull := if left.length < 1024 ∧ (sGet [] w s.cat.learnQ).length < 4096 then s.cat.qWasFull.filter (· != w)
        else s.cat.qWasFull } }

/-- accession(L) of R166, up to finish. The unit reads its own wing's replica and writes both. -/
def accession (w : Nat) (l : Learn) (s0 : State) : State :=
  let res := l.result.toNat
  let s := catReads w l.key s0
  match catUnreadable s w l.key with
  | some x => catStoreErr w x s
  | none =>
    let ms := catMatches s w l.key
    if ms.any fun x => (recVer s 0 w x).mortal || !(recVer s 0 w x).settled then bump (CAT_CNT w 8) s
    else match ms with
      | x :: _ =>
        if catResult s w x = l.result then
          bump (CAT_CNT w 7) (engWrite (catAddr w x + 28) [setFld (catCtl s w x) 29 29 1] s)
        else if bit (catCtl s w x) 30 then bump (CAT_CNT w 10) s
        else
          let c := setFld (setFld (catCtl s w x) 29 29 1) 21 16 0
          let s1 := engWriteBoth 0 (32 * x + 20) [w32 res, w32 (res / 2 ^ 32), c] s
          catEvent w 1 x l.key res (bump (CAT_CNT w 3) s1)
      | [] =>
        match freeSlot s w l.key with
        | none => raise (pageCAT w) 0 (bump (CAT_CNT w 5) s)
        | some x =>
          let s1 := putEntryBoth x l.key res (2 ^ 31 + 2 ^ 29 + 2 ^ 28 + 2 ^ 26) s
          catEvent w 0 x l.key res (bump (CAT_CNT w 2) s1)

/-- The Catalogue key a command names: that of a Catalogue command, or of a route command of a prefix that the Catalogue holds. -/
def cmdKey (c : Cmd) : Option (List Byte) :=
  if executorOf c.op = 0 then some (slice c.payload 0 20)
  else if longCmd c then let p := pfxOf c; some (longKey p.vrf p.len p.addr) else none

/-- The slot a command writes a new entry to, where it will write one (R169). -/
def cmdSlot (s : State) (c : Cmd) : Option Nat :=
  match cmdKey c with
  | none => none
  | some key =>
    if ((c.op = 1 ∨ c.op = 0x10) ∧ (catCurrent s key).isNone) ∨ ((c.op = 2 ∨ c.op = 0x11) ∧ (catCurrent s key).isSome) then freeSlot s 0 key
    else none

/-- Does a learn of wing `w` meet a host command: one that an executor runs next names its key or takes its slot (R176)? -/
def meetsCmd (s : State) (w : Nat) (l : Learn) : Bool :=
  let slot := if (catMatches s w l.key).isEmpty then freeSlot s w l.key else none
  (((exqOf s 0).take 1) ++ ((exqOf s 1).take 1)).any fun c =>
    cmdKey c == some (slice l.key 0 20) || (slot.isSome && cmdSlot s c == slot)

/-- May the Accession unit of wing `w` run: the block ON, or STOPPING with learns queued (R179), and learn_en 1? -/
def accessionOn (s : State) (w : Nat) : Bool :=
  (blkState s (pageCAT w) == 2 || blkState s (pageCAT w) == 3) && rb s (CAT_CFG w) 1

/-- ACCESSION_LEARN: wing `w`'s Accession unit takes the next learn of its queue; one that meets a host command waits for its
retry (R177). -/
def execAccessionLearn (w : Wing) (s : State) : Res :=
  match sGet [] w.val s.cat.learnQ with
  | [] => .next s
  | l :: rest =>
    if !accessionOn s w.val then .next s
    else
      let s0 := settle { s with cat := { s.cat with learnQ := sPut [] w.val rest s.cat.learnQ } }
      if meetsCmd s w.val l then
        if (sGet none w.val s.cat.retry).isSome then .next s
        else .next { s0 with cat := { s0.cat with retry := sPut none w.val (some l) s0.cat.retry } }
      else .next (endLearn w.val l (accession w.val l s0))

/-- LEARN_RETRY: the one retry of a learn that lost to a host command (R177). -/
def execLearnRetry (w : Wing) (s : State) : Res :=
  match sGet none w.val s.cat.retry with
  | none => .next s
  | some l =>
    let s0 := settle { s with cat := { s.cat with retry := sPut none w.val none s.cat.retry } }
    if meetsCmd s w.val l then .next (endLearn w.val l (bump (CAT_CNT w.val 8) s0))
    else .next (endLearn w.val l (accession w.val l s0))

/-! ## Deaccession (R173-R175) -/

/-- Deaccession's action on entry `x`. -/
def deaccess (x : Nat) (s : State) : State :=
  let c0 := catCtl s 0 x
  let c1 := catCtl s 1 x
  if !readable s (catAddr 0 x) || !readable s (catAddr 1 x) then
    noteCe (catAddr 1 x) (if rdStat s (catAddr 0 x) = .ue then noteRead (catAddr 0 x) s else s)
  else if !bit c0 31 || bit c0 30 || bit c0 27 || !bit c0 26 then s
  else
    let age := max (fld c0 21 16) (fld c1 21 16)
    let lim := max 1 (rf s (CAT_AGE_CFG 0) 5 0)
    let at28 := fun w => catAddr w x + 28
    if bit c0 29 || bit c1 29 then editBoth at28 (fun v => setFld (setFld v 29 29 0) 21 16 0) s
    else if age + 1 < lim then editBoth at28 (fun v => setFld v 21 16 (age + 1)) s
    else
      let s1 := bump (CAT_CNT 0 9) (editBoth at28 (fun v => setFld v 31 31 0) s)
      catEvent 0 2 x (catKey s 0 x) (catResult s 0 x).toNat s1

/-- Entries of replica E with valid = 1, in rising order. -/
def catListed (s : State) : List Nat :=
  (s.tab.words.filter fun e => decide (e.1 < catAddr 0 0x102000) && e.1 % 32 == 28 && bit e.2 31).map fun e => e.1 / 32

/-- DEACCESSION_PASS: one pass over both replicas while age_en is 1. With one wing's CAT block ON the spec does not say whether a pass
runs or where sweep_done is set; the model asks Wing E's block alone and sets it there (DESIGN CHOICE, log 42). -/
def execDeaccessionPass (s : State) : Res :=
  if isOn s (pageCAT 0) && rb s (CAT_CFG 0) 0 then
    let s0 := settle s
    let s1 := (catListed s0).foldl (fun a x => deaccess x a) s0
    .next (raise (pageCAT 0) 6 (wr (CAT_AGE_STAT 0) (rd s1 (CAT_AGE_STAT 0) + 1) s1))
  else .next s

/-! ## Configuration writes -/

/-- Are the CAT blocks of both wings OFF (R148)? -/
def catOff (s : State) : Bool := blkState s (pageCAT 0) == 0 && blkState s (pageCAT 1) == 0

/-- A write of CAT_CFG of wing `w`'s page: learn_en is the page's own, the rest governs from Wing E, and seed_sel changes only
while both CAT blocks are OFF (R148, R149). -/
def writeCatCfg (w : Nat) (v : W32) (s : State) : State :=
  let s1 := wf (CAT_CFG w) 1 1 (fld v 1 1) s
  if w ≠ 0 then s1
  else
    let s2 := wf (CAT_CFG 0) 0 0 (fld v 0 0) s1
    if fld v 17 16 = rf s (CAT_CFG 0) 17 16 then s2
    else if catOff s then wf (CAT_CFG 0) 17 16 (fld v 17 16) s2
    else recordErr (pageCAT 0) 0x01 0x100 0 s2

/-- CAT_CFG_WRITE. -/
def execCatCfgWrite (w : Wing) (v : W32) (s : State) : Res := .next (hostDo (CAT_CFG w.val) (writeCatCfg w.val v) s)

/-- A write of a hash seed (R148). -/
def writeCatSeed (n : Nat) (v : W32) (s : State) : State :=
  if catOff s then wr (CAT_HASH_SEED 0 n) v s else recordErr (pageCAT 0) 0x01 (0x130 + 4 * n) 0 s

/-- A write of CAT_AGE_CFG (R173). -/
def writeAgeCfg (v : W32) (s : State) : State := wr (CAT_AGE_CFG 0) (v &&& 0xFFFF003F) s

/-- CAT_AGE_CFG_WRITE: the Wing E page governs; the interval to the next pass starts again, which is the pass command's own
timing (log 4). -/
def execCatAgeCfgWrite (w : Wing) (v : W32) (s : State) : Res :=
  .next (hostDo (CAT_AGE_CFG w.val) (fun a => if w.val = 0 then writeAgeCfg v a else a) s)

/-- A start of wing `w`'s CAT block loads the overflow match keys, and clears those whose image cannot be read (R584). -/
def catStart (w : Nat) (s : State) : State :=
  let bad := (s.tab.ecc.filter fun e => decide (catAddr w 0x100000 ≤ e.1) && decide (e.1 < catAddr w 0x102000) && !readable s e.1).flatMap
    fun e => let k := 8192 * w + (e.1 - catAddr w 0x100000) / 32; [k, k + 1]
  { s with cat := { s.cat with cleared := (s.cat.cleared.filter fun k => k / 8192 != w) ++ bad } }

/-- Has wing `w`'s CAT block no learn left (R179)? -/
def catIdle (s : State) (w : Nat) : Bool := (sGet [] w s.cat.learnQ).isEmpty && (sGet none w s.cat.retry).isNone

end Sys2Proof.Machine
end

