-- ==== Sys2Proof/Machine/LpmCmd.lean ====
section
/-!
DEFINITION. Route, next-hop and group commands (R207-R210).
-/
namespace Sys2Proof.Machine

/-- A NO_ROOM of a route, next-hop or group command (R209), on both wings' pages: the command acts on both replicas (log 27). -/
def lpmNoRoom (s : State) : State := bump (LPM_CNT 1 9) (bump (LPM_CNT 0 9) s)

/-! ## Prefixes (R208) -/

/-- The checks of R208 on a prefix. -/
def badPfx (s : State) (p : Pfx) : Bool :=
  let bits := if p.fam = 0 then 32 else 128
  decide (1 < p.fam) || decide (bits < p.len) || decide (p.addr % 2 ^ (bits - p.len) ≠ 0) ||
  (p.fam == 1 && decide (64 < p.len) && !((longLens s).contains p.len))

/-- A result kind of R197. -/
def routeKind (result : Nat) : Bool := let k := result / 2 ^ 60; k == 2 || k == 3 || k == 5 || k == 6

/-- Is a version of prefix `p`? -/
def samePfx (p : Pfx) (r : Route) : Bool := r.fam == p.fam && r.vrf == p.vrf && r.len == p.len && r.addr == p.addr

/-- Is a version of prefix `p` the current one: visible under N with mortal = 0 (R260)? -/
def routeCurrent (s : State) (p : Pfx) (r : Route) : Bool := samePfx p r && visible s (routeVer r) (nextEpoch s) && !r.mortal

/-- occ_high where the units in use have risen to warn_units (R212). -/
def occEdge (old s : State) : State :=
  [0, 1].foldl (fun a w =>
    let l := min 2097152 (rf s (LPM_OCC_CFG w) 21 0)
    if unitsUsed old < l ∧ l ≤ unitsUsed s then raise (pageLPM w) 1 a else a) s

/-- The current version of `p` retired (R261). -/
def retireRoute (p : Pfx) (s : State) : State :=
  let n := nextEpoch s
  let gone := fun (r : Route) => routeCurrent s p r && r.birth == n && !r.settled
  let l := (s.lpm.routes.filter fun r => !gone r).map fun r => if routeCurrent s p r then { r with mortal := true, death := n } else r
  let s1 := putRoutes l (s.lpm.routes.filter gone).length s
  (s.lpm.routes.filter fun r => routeCurrent s p r && !gone r).foldl (fun a r => markChunk 1 (routeChunk r) n a) s1

/-- The lowest number of the version store that no prefix version has. Where a version stands in it is the engine's own matter (R188);
the lowest free number is the model's choice (DESIGN CHOICE, log 42). -/
def freeRouteSlot (s : State) : Nat :=
  (firstBelow (s.lpm.routes.length + 1) fun k => !(s.lpm.routes.any fun r => r.slot == k)).getD s.lpm.routes.length

/-- A prefix version staged. -/
def addRoute (p : Pfx) (result : Nat) (s : State) : State :=
  let r : Route := ⟨p.fam, p.vrf, p.len, p.addr, BitVec.ofNat 64 result, nextEpoch s, 0, false, false, freeRouteSlot s⟩
  occEdge s (markChunk 1 (routeChunk r) (nextEpoch s) { s with lpm := { s.lpm with routes := s.lpm.routes ++ [r] } })

/-- Words of 64 bytes in a replica's prefix region (R185: 15,104 KiB). -/
def prefixCount : Nat := 241664

/-- Address of word `n` of the prefix regions, Wing E's first. -/
def prefixAddr (n : Nat) : Nat := (2 + n / prefixCount) * 0x4000000 + 64 * (n % prefixCount)

/-- Is a listed word one of the prefix regions that can be read? -/
def prefixGood (e : Nat × Ecc) : Bool :=
  decide (2 * 0x4000000 ≤ e.1) && decide (e.1 < 4 * 0x4000000) && decide (e.1 % 0x4000000 < 0xEC0000) && e.1 % 64 == 0 &&
  e.2.st == .good && decide (symErrs e.2 ≤ eccLimit e.1)

/-- Can every word of both prefix regions be read? -/
def prefixClean (s : State) : Bool := (s.tab.ecc.filter prefixGood).length == 2 * prefixCount

/-- The unreadable word that a route command's reads of the prefix structure meet (R720). The spec does not say which words the command
reads: where some word cannot be read, which word it reads is a free choice (log 3). -/
def prefixMet (s : State) : Option Nat × State :=
  if prefixClean s then (none, s)
  else
    let d := drawChoice (2 * prefixCount) s
    (if readable s (prefixAddr d.1) then none else some (prefixAddr d.1), d.2)

/-- What a command on a prefix of the structure does once its reads have met no unreadable word. -/
def prefixDo (s : State) (f : State → CmdEnd × State) : CmdEnd × State :=
  let m := prefixMet s
  match m.1 with
  | some a => storeErr a m.2
  | none => f m.2

/-- ROUTE_ADD, or with `replace` ROUTE_REPLACE, of a prefix of the structure. -/
def structPut (replace : Bool) (p : Pfx) (result : Nat) (s : State) : CmdEnd × State :=
  let found := s.lpm.routes.any (routeCurrent s p)
  if !replace && found then fails stEXISTS s
  else if replace && !found then fails stNOT_FOUND s
  else if 2097152 < unitsUsed s + (if p.fam = 0 then 1 else 2) then fails stNO_ROOM (lpmNoRoom s)
  else
    let s1 := if replace then retireRoute p s else s
    ({ status := stOK }, addRoute p result s1)

/-- The checks and the effect of ROUTE_ADD and ROUTE_REPLACE. -/
def routePut (replace : Bool) (c : Cmd) (s : State) : CmdEnd × State :=
  let p := pfxOf c
  let result := leAt c 20 8
  if badPfx s p then fails stBAD_KEY s
  else if !routeKind result then fails stBAD_RESULT s
  else if longPfx p then
    catPut replace (longKey p.vrf p.len p.addr) result false lpmNoRoom s
  else prefixDo s (structPut replace p result)

/-- ROUTE_ADD. -/
def execRouteAdd (s : State) : Res := .next (runCmd 1 0x10 s fun c a => routePut false c a)

/-- ROUTE_REPLACE. -/
def execRouteReplace (s : State) : Res := .next (runCmd 1 0x11 s fun c a => routePut true c a)

/-- ROUTE_DELETE. -/
def execRouteDelete (s : State) : Res :=
  .next (runCmd 1 0x12 s fun c a =>
    let p := pfxOf c
    if badPfx a p then fails stBAD_KEY a
    else if longPfx p then catRemove (longKey p.vrf p.len p.addr) a
    else prefixDo a fun b =>
      if b.lpm.routes.any (routeCurrent b p) then ({ status := stOK }, retireRoute p b) else fails stNOT_FOUND b)

/-- The record of a ROUTE_FIND (R273): the command's first 28 payload bytes with the result found. -/
def routeRecord (c : Cmd) (result : Nat) : List Byte := slice c.payload 0 20 ++ leBytes 8 result

/-- ROUTE_FIND. -/
def execRouteFind (s : State) : Res :=
  .next (runCmd 1 0x13 s fun c a =>
    let p := pfxOf c
    if badPfx a p then fails stBAD_KEY a
    else if longPfx p then
      catFind (longKey p.vrf p.len p.addr) (leAt c 20 8) (fun b x => routeRecord c (catResult b 0 x).toNat) true a
    else prefixDo a fun b => match b.lpm.routes.find? (routeCurrent b p) with
      | none => fails stNOT_FOUND b
      | some r => ({ status := stOK, find := some (leAt c 20 8, routeRecord c r.result.toNat) }, b))

/-! ## Versions of next hops and groups (R208) -/

/-- The current version of record pair `i` of table `t`: valid with mortal = 0. -/
def curVersion (s : State) (t i : Nat) : Option Nat :=
  [0, 1].find? fun v => recValid s t 0 (2 * i + v) && !(recVer s t 0 (2 * i + v)).mortal

/-- The other version: the lowest whose valid bit is 0. -/
def otherVersion (s : State) (t i : Nat) : Option Nat := [0, 1].find? fun v => !recValid s t 0 (2 * i + v)

/-- Retire the current version of a pair, if any. -/
def retireCur (t i : Nat) (cur : Option Nat) (s : State) : State :=
  match cur with
  | some v => retireRec t (2 * i + v) s
  | none => s

/-- NH_DELETE and GROUP_DELETE: the visible version with mortal = 0 retired. -/
def deletePair (t i : Nat) (s : State) : CmdEnd × State :=
  match [0, 1].find? fun v => recCurrent s t (2 * i + v) with
  | none => fails stNOT_FOUND s
  | some v => ({ status := stOK, first := i }, retireRec t (2 * i + v) s)

/-! ## Next hops -/

/-- The first unreadable word of next hop `n` in either replica. -/
def nhBadAny (s : State) (n : Nat) : Option Nat := firstBad s 2 [0x1000000 + 32 * n, 0x1000000 + 32 * n + 16]

/-- The reads of next hop `n` that decide a command. -/
def nhReads (n : Nat) (s : State) : State := readBoth 2 [0x1000000 + 32 * n, 0x1000000 + 32 * n + 16] s

/-- NH_SET. -/
def execNhSet (s : State) : Res :=
  .next (runCmd 1 0x14 s fun c a =>
    let n := leAt c 0 4
    if 262144 ≤ n then fails stBAD_ARG a
    else match nhBadAny a n with
      | some x => storeErr x a
      | none =>
        let a := nhReads n a
        match otherVersion a 2 n with
        | none => fails stNO_ROOM (lpmNoRoom a)
        | some v =>
          let cur := curVersion a 2 n
          let w0 := 2 ^ 31 + leAt c 4 4 / 65536 % 8192 * 65536 + nextEpoch a
          let ws := [w32 w0, w32 (leAt c 8 4), w32 (leAt c 12 4), w32 (leAt c 16 4)]
          let s1 := markRec 2 (2 * n + v) (nextEpoch a) (engWriteBoth 2 (0x1000000 + 32 * n + 16 * v) ws a)
          ({ status := stOK, first := n }, retireCur 2 n cur s1))

/-- NH_DELETE. -/
def execNhDelete (s : State) : Res :=
  .next (runCmd 1 0x15 s fun c a =>
    let n := leAt c 0 4
    if 262144 ≤ n then fails stBAD_ARG a
    else match nhBadAny a n with
      | some x => storeErr x a
      | none => deletePair 2 n (nhReads n a))

/-! ## Groups and member blocks (R207, R209) -/

/-- Member blocks allocated, as base and size: those of the valid group versions. -/
def memberBlocks (s : State) : List (Nat × Nat) :=
  (s.tab.words.filter fun e => decide (grpAddr 0 0 0 ≤ e.1) && decide (e.1 < grpAddr 0 16384 0) && e.1 % 8 == 0 && bit e.2 31).map
    fun e => (fld e.2 17 0, 2 ^ min 9 (fld e.2 27 24))

/-- Does a block of `size` buckets at `base` overlap none that is allocated? -/
def blockFree (bs : List (Nat × Nat)) (base size : Nat) : Bool :=
  bs.all fun b => decide (b.1 + b.2 ≤ base) || decide (base + size ≤ b.1)

/-- An aligned free block of `size` buckets; which one the engine takes is a free choice (log 3). -/
def allocBlock (size : Nat) (s : State) : Option Nat × State :=
  let bs := memberBlocks s
  let n := 262144 / size
  let d := drawChoice n s
  let lim := min n (bs.foldl (fun a b => a + max 1 (b.2 / size) + 1) 1)
  match firstBelow lim fun i => blockFree bs ((d.1 + i) % n * size) size with
  | some i => (some ((d.1 + i) % n * size), d.2)
  | none => (none, s)

/-- Buckets in rounds (R207): every member whose count is not used up takes the next bucket, in listed order. -/
def fillRounds : Nat → List (Nat × Nat) → List Nat
  | 0, _ => []
  | n + 1, ms =>
    let live := ms.filter fun m => m.2 != 0
    if live.isEmpty then [] else live.map (·.1) ++ fillRounds n (live.map fun m => (m.1, m.2 - 1))

/-- Words written in both replicas from offset `o` of the LPM region, whole ECC words at a time where they fit. -/
def engSpan : Nat → Nat → List W32 → State → State
  | 0, _, _, s => s
  | n + 1, o, ws, s =>
    if ws.isEmpty then s
    else
      let k := (16 - o % 16) / 4
      engSpan n (o + 4 * k) (ws.drop k) (engWriteBoth 2 o (ws.take k) s)

/-- A new version of group `g` with a new member block; `none` where no version or no block is available. -/
def putGroup (g size : Nat) (skip : Bool) (seed : Nat) (bk : List (Option Nat)) (s : State) : CmdEnd × State :=
  match otherVersion s 3 g with
  | none => fails stNO_ROOM (lpmNoRoom s)
  | some v =>
    match allocBlock (2 ^ size) s with
    | (none, _) => fails stNO_ROOM (lpmNoRoom s)
    | (some base, s0) =>
      let cur := curVersion s 3 g
      let ws := bk.map fun x => match x with | some nh => w32 (2 ^ 31 + nh % 2 ^ 18) | none => 0
      let s1 := engSpan (ws.length + 1) (0x1900000 + 4 * base) ws s0
      let d := [w32 (2 ^ 31 + b2n skip * 2 ^ 28 + size * 2 ^ 24 + base), w32 (nextEpoch s * 65536 + seed % 65536)]
      let s2 := markRec 3 (2 * g + v) (nextEpoch s) (engWriteBoth 2 (0x1800000 + 16 * g + 8 * v) d s1)
      ({ status := stOK, first := g }, retireCur 3 g cur s2)

/-- The unreadable word of a group descriptor in either replica. -/
def grpBadAny (s : State) (g : Nat) : Option Nat := firstBad s 2 [0x1800000 + 16 * g]

/-- The reads of group `g`'s descriptor that decide a command. -/
def grpReads (g : Nat) (s : State) : State := readBoth 2 [0x1800000 + 16 * g] s

/-- GROUP_SET. -/
def execGroupSet (s : State) : Res :=
  .next (runCmd 1 0x16 s fun c a =>
    let g := leAt c 0 2
    let size := min 9 (byteOf c 2)
    let m := leAt c 6 2
    let ms := (List.range (min m 513)).map fun j => let r := leAt c (8 + 4 * j) 4; (r % 2 ^ 18, r / 2 ^ 18 % 1024)
    if 16384 ≤ g ∨ 512 < m ∨ ms.foldl (fun x y => x + y.2) 0 ≠ 2 ^ size then fails stBAD_ARG a
    else match grpBadAny a g with
      | some x => storeErr x a
      | none => putGroup g size (byteOf c 3 % 2 == 1) (leAt c 4 2) ((fillRounds 512 ms).map some) (grpReads g a))

/-- The current version of a group: base, size, skip_down, seed and its buckets' next hops. -/
structure Grp where
  base : Nat
  size : Nat
  skip : Bool
  seed : Nat
  deriving DecidableEq, Repr

/-- Current version of group `g`. -/
def grpCur (s : State) (g : Nat) : Option Grp :=
  (curVersion s 3 g).map fun v =>
    let w0 := tw s (grpAddr 0 g v)
    ⟨fld w0 17 0, min 9 (fld w0 27 24), bit w0 28, rf16 (tw s (grpAddr 0 g v + 4))⟩
where
  /-- Bits [15:0] of a word. -/
  rf16 (x : W32) : Nat := fld x 15 0

/-- Offsets of the buckets of a block in the LPM region. -/
def bucketOffs (g : Grp) : List Nat := (List.range (2 ^ g.size)).map fun k => 0x1900000 + 4 * ((g.base + k) % 262144)

/-- Next hops of the buckets of a block; `none` where a bucket's valid is 0. -/
def bucketNhs (s : State) (g : Grp) : List (Option Nat) :=
  (bucketOffs g).map fun o => let x := tw s (2 * 0x4000000 + o); if bit x 31 then some (fld x 17 0) else none

/-- Members of a block in listed order: the order of their first buckets (R207). -/
def membersOf (bk : List (Option Nat)) : List Nat :=
  bk.foldl (fun l x => match x with
    | some n => if l.contains n then l else l ++ [n]
    | none => l) []

/-- The buckets of `old` given round-robin, in rising order, to the remaining members. -/
def giveAway (old : Nat) (rest : List Nat) : Nat → List (Option Nat) → List (Option Nat)
  | _, [] => []
  | k, x :: r => if x = some old then rest[k % max rest.length 1]? :: giveAway old rest (k + 1) r else x :: giveAway old rest k r

/-- GROUP_REPLACE_MEMBER and GROUP_REMOVE_MEMBER: the block of the current version with `old`'s buckets changed by `f`. -/
def changeMember (c : Cmd) (only : Bool) (f : Nat → List (Option Nat) → List (Option Nat)) (s : State) : CmdEnd × State :=
  let g := leAt c 0 2
  let old := leAt c 4 4
  match grpBadAny s g with
  | some x => storeErr x s
  | none =>
    let s := grpReads g s
    match grpCur s g with
    | none => fails stNOT_FOUND s
    | some d =>
      match firstBad s 2 (bucketOffs d) with
      | some x => storeErr x s
      | none =>
        let s := readBoth 2 (bucketOffs d) s
        let bk := bucketNhs s d
        if only && membersOf bk == [old] then fails stBAD_ARG s
        else if !(bk.contains (some old)) then fails stNOT_FOUND s
        else putGroup g d.size d.skip d.seed (f old bk) s

/-- GROUP_REPLACE_MEMBER. -/
def execGroupReplaceMember (s : State) : Res :=
  .next (runCmd 1 0x17 s fun c a =>
    let new := leAt c 8 4
    if 16384 ≤ leAt c 0 2 ∨ 262144 ≤ leAt c 4 4 ∨ 262144 ≤ new then fails stBAD_ARG a
    else changeMember c false (fun old bk => bk.map fun x => if x = some old then some new else x) a)

/-- GROUP_REMOVE_MEMBER. -/
def execGroupRemoveMember (s : State) : Res :=
  .next (runCmd 1 0x18 s fun c a =>
    if 16384 ≤ leAt c 0 2 ∨ 262144 ≤ leAt c 4 4 then fails stBAD_ARG a
    else changeMember c true (fun old bk => giveAway old ((membersOf bk).filter (· != old)) 0 bk) a)

/-- GROUP_DELETE. -/
def execGroupDelete (s : State) : Res :=
  .next (runCmd 1 0x19 s fun c a =>
    let g := leAt c 0 2
    if 16384 ≤ g then fails stBAD_ARG a
    else match grpBadAny a g with
      | some x => storeErr x a
      | none => deletePair 3 g (grpReads g a))

end Sys2Proof.Machine
end

