-- ==== Sys2Proof/Machine/VitCmd.lean ====
section
/-!
DEFINITION. Vitrine commands with their moves (R240-R247), bank configuration (R217, R219), and the spare bank (R249-R252).
-/
namespace Sys2Proof.Machine

/-! ## Entries by position -/

/-- Record index of position `p` of the chain headed by `h`: 4,096 times the bank plus its first row. -/
def posRec (s : State) (h p : Nat) : Nat := 4096 * posBank s h p + posRow s h p

/-- Table address of position `p`'s first row in wing `w`. -/
def posAddr (s : State) (w h p : Nat) : Nat := vitAddr w (posBank s h p) (posRow s h p)

/-- Table address of position `p`'s action in wing `w`. -/
def posAct (s : State) (w h p : Nat) : Nat := vitActAddr w (posBank s h p) (posRow s h p)

/-- valid of position `p` in replica E. -/
def posValid (s : State) (h p : Nat) : Bool := recValid s 4 0 (posRec s h p)

/-- A position whose control word cannot be read in a replica. -/
def posBad (s : State) (h p : Nat) : Option Nat := [0, 1].find? (fun w => !readable s (posAddr s w h p + 16)) |>.map fun w => posAddr s w h p + 16

/-- What the search for a free place finds. -/
inductive Free where
  | at (q : Nat)
  | full
  | bad (a : Nat)
  deriving DecidableEq, Repr

/-- The lowest position from `p` whose valid is 0, reading `n` positions; an unreadable control word ends the search. -/
def freeFrom (s : State) (h : Nat) : Nat → Nat → Free
  | 0, _ => .full
  | n + 1, p =>
    match posBad s h p with
    | some a => .bad a
    | none => if posValid s h p then freeFrom s h n (p + 1) else .at p

/-- The reads of the control words of `n` positions from `p` in both replicas (R580). -/
def posReads (h p n : Nat) (s : State) : State :=
  noteCes ((List.range n).flatMap fun k => [posAddr s 0 h (p + k) + 16, posAddr s 1 h (p + k) + 16]) s

/-- Does one of `n` positions from `p` lie in a bank under a takeover in either wing (R251)? -/
def spanTaking (s : State) (h p n : Nat) : Bool :=
  [0, 1].any fun w => match sGet none w s.vit.taking with
    | some b => decide (posBank s h p ≤ b) && decide (b ≤ posBank s h (p + n - 1))
    | none => false

/-- Positions that the search for a free place reads, of `n` from `p`. -/
def searchLen (s : State) (h : Nat) : Nat → Nat → Nat
  | 0, _ => 0
  | n + 1, p => if (posBad s h p).isSome || !posValid s h p then 1 else 1 + searchLen s h n (p + 1)

/-- A command's position. -/
def posOf (c : Cmd) : Nat := leAt c 4 4

/-- Does a command reach a bank under a takeover: with the positions that its search for a free place reads, or with its own? -/
def cmdTaking (s : State) (c : Cmd) : Bool :=
  let h := byteOf c 0
  let p := posOf c
  if (earlyEnd s 2 c).isSome || c.op == 0x25 || !headBank s h then false
  else if c.op = 0x20 then spanTaking s h 0 (searchLen s h (chainLen s h) 0)
  else if chainLen s h ≤ p then false
  else spanTaking s h p (if c.op = 0x21 ∨ c.op = 0x22 then searchLen s h (chainLen s h - p) p else 1)

/-- Vitrine commands run one at a time: none starts while a move runs, and one that reaches a bank under a takeover waits (R242,
R251). -/
def vitFree (s : State) (op : Nat) : Bool :=
  s.vit.move.isNone && (match nextCmd s 2 op with
    | some c => !cmdTaking s c
    | none => true)

/-- A chain or position no entry command may name (R241). -/
def badPos (s : State) (c : Cmd) (place : Bool) : Bool :=
  let h := byteOf c 0
  decide (16 ≤ h) || !headBank s h || (!place && decide (chainLen s h ≤ posOf c))

/-- A width code that is 3 or not the chain's (R241, R272). -/
def badWidth (s : State) (c : Cmd) : Bool :=
  let k := byteOf c 1
  decide (3 ≤ k) || bankWidth s (byteOf c 0) != 2 ^ k

/-- A reserved fwd code. -/
def badFwd (c : Cmd) : Bool := decide (7 ≤ leAt c 8 8 / 2 ^ 60)

/-! ## Writes -/

/-- The 16-byte words of one row record: unit bytes, control and version words. -/
def rowWords (key : List Byte) (u ctl ver : Nat) : List W32 :=
  bytesWords (slice key (20 * u) 20) ++ (if u = 0 then [w32 ctl, w32 ver, 0] else [0, 0, 0])

/-- A new entry written at position `p` of both replicas with mortal = 0, settled = 0 and birth = N. -/
def vitNew (c : Cmd) (h p : Nat) (s : State) : State :=
  let key := c.payload.drop 16
  let act := leAt c 8 8
  let put := fun (w : Nat) (a : State) =>
    let b := (List.range (bankWidth s h)).foldl (fun x u =>
      let ws := rowWords key u (2 ^ 31 + leAt c 2 2) (nextEpoch s)
      let t := posAddr s w h p + 32 * u
      engWrite (t + 16) (ws.drop 4) (engWrite t (ws.take 4) x)) a
    engWrite (posAct s w h p) [w32 act, w32 (act / 2 ^ 32)] b
  markRec 4 (posRec s h p) (nextEpoch s) (put 1 (put 0 s))

/-- `n` words copied from `a` to `b` of wing `w` in a move step; an unreadable source leaves the target's word POISONED, counted in
VIT_CNT_14 (R720). -/
def moveWord (w n a b : Nat) (s : State) : State :=
  if readable s a then engWrite b (tws s a n) (noteCe a s)
  else
    let s1 := noteRead a s
    bump (VIT_CNT w 14) (putEcc (eccBase b) ⟨.poisoned, 0, (eccOf s a).inj⟩ (putWords b (tws s a n) s1))

/-- A row copied in a move step; its array row follows its image, and matches nothing where the source did or its image cannot
be read (log 27). -/
def moveRow (w b1 r1 b2 r2 : Nat) (s : State) : State :=
  let ok := readable s (vitAddr w b1 r1) && readable s (vitAddr w b1 r1 + 16) && !(s.vit.cleared.contains (65536 * w + 4096 * b1 + r1))
  let s1 := moveWord w 4 (vitAddr w b1 r1 + 16) (vitAddr w b2 r2 + 16) (moveWord w 4 (vitAddr w b1 r1) (vitAddr w b2 r2) s)
  let k := 65536 * w + 4096 * b2 + r2
  if ok || s1.vit.cleared.contains k then s1 else { s1 with vit := { s1.vit with cleared := s1.vit.cleared ++ [k] } }

/-- One step of a move: the entry at position `j - 1` copied to position `j` in both replicas, each with its own hit bit (R243). -/
def moveEntry (h j : Nat) (s : State) : State :=
  let b1 := posBank s h (j - 1)
  let r1 := posRow s h (j - 1)
  let b2 := posBank s h j
  let r2 := posRow s h j
  let one := fun (w : Nat) (a : State) =>
    let x := (List.range (bankWidth s h)).foldl (fun y u => moveRow w b1 (r1 + u) b2 (r2 + u) y) a
    bump (VIT_CNT w 12) (moveWord w 2 (vitActAddr w b1 r1) (vitActAddr w b2 r2) x)
  let s1 := one 1 (one 0 s)
  let v := recVer s 4 0 (4096 * b1 + r1)
  let s2 := if v.settled then s1 else markRec 4 (4096 * b2 + r2) v.birth s1
  if v.mortal then markRec 4 (4096 * b2 + r2) v.death s2 else s2

/-- VIT_MOVE_STAT of both wings (R247). -/
def moveStat (busy : Bool) (h target : Nat) (s : State) : State :=
  let v := w32 (b2n busy * 2 ^ 31 + h * 65536 + target)
  wr (VIT_MOVE_STAT 1) v (wr (VIT_MOVE_STAT 0) v s)

/-- A NO_ROOM, on both wings' pages (log 27). -/
def vitNoRoom (s : State) : State := bump (VIT_CNT 1 13) (bump (VIT_CNT 0 13) s)

/-! ## Commands (R241) -/

/-- VIT_PLACE. -/
def execVitPlace (s : State) : Res :=
  if !vitFree s 0x20 then .next s
  else .next (runCmd 2 0x20 s fun c a =>
    let h := byteOf c 0
    if badPos a c true || badWidth a c then fails stBAD_ARG a
    else if badFwd c then fails stBAD_RESULT a
    else match freeFrom a h (chainLen a h) 0 with
      | .bad x => storeErr x a
      | .full => fails stNO_ROOM (vitNoRoom a)
      | .at q => ({ status := stOK, first := q }, vitNew c h q (posReads h 0 (q + 1) a)))

/-- The start of INSERT, or with `replace` of REPLACE: a write at once, or a move that opens the hole. -/
def vitStartPut (replace : Bool) (c : Cmd) (s : State) : Option CmdEnd × State :=
  let h := byteOf c 0
  let p := posOf c
  if badPos s c false || badWidth s c then (some { status := stBAD_ARG }, s)
  else if badFwd c then (some { status := stBAD_RESULT }, s)
  else match freeFrom s h (chainLen s h - p) p with
    | .bad x =>
      -- REPLACE judges its target before it looks for room
      if replace && (posBad s h p).isNone && !recCurrent s 4 (posRec s h p) then (some { status := stNOT_FOUND }, s)
      else let r := storeErr x s; (some r.1, r.2)
    | .full =>
      if replace && !recCurrent s 4 (posRec s h p) then (some { status := stNOT_FOUND }, s)
      else (some { status := stNO_ROOM }, vitNoRoom s)
    | .at q =>
      let s := posReads h p (q + 1 - p) s
      if replace && !recCurrent s 4 (posRec s h p) then (some { status := stNOT_FOUND }, s)
      else if q = p then (some { status := stOK, first := p }, vitNew c h p s)
      else (none, moveStat true h q { s with vit := { s.vit with move := some ⟨c, h, bankWidth s h, p, q, q, false⟩ } })

/-- A running move goes on by one step, or ends with the new entry at its position; REPLACE then retires the old version below
it (R243). -/
def vitGoOn (replace : Bool) (m : Move) (s : State) : State :=
  if spanTaking s m.head (max m.pos (m.target - 1)) (if m.pos < m.target || replace then 2 else 1) then s
  else
    let s0 := settle s
    if m.pos < m.target then
      let s1 := moveEntry m.head m.target s0
      moveStat true m.head (m.target - 1) { s1 with vit := { s1.vit with move := some { m with target := m.target - 1, twin := true } } }
    else
      let s1 := vitNew m.cmd m.head m.pos { s0 with vit := { s0.vit with move := none } }
      let s2 := if replace then retireRec 4 (posRec s1 m.head (m.pos + 1)) s1 else s1
      finish m.cmd { status := stOK, first := m.pos, second := m.q } (moveStat false 0 0 s2)

/-- INSERT or REPLACE: the running move of that command, else its start. -/
def vitPut (op : Nat) (s : State) : State :=
  match s.vit.move with
  | some m => if m.cmd.op = op then vitGoOn (op == 0x22) m s else s
  | none => if vitFree s op then startCmd 2 op s (vitStartPut (op == 0x22)) else s

/-- VIT_INSERT: the next command starts, or its move goes on by one step. -/
def execVitInsert (s : State) : Res := .next (vitPut 0x21 s)

/-- VIT_REPLACE: the next command starts, or its move goes on by one step. -/
def execVitReplace (s : State) : Res := .next (vitPut 0x22 s)

/-- VIT_DELETE. -/
def execVitDelete (s : State) : Res :=
  if !vitFree s 0x23 then .next s
  else .next (runCmd 2 0x23 s fun c a =>
    let h := byteOf c 0
    if badPos a c false then fails stBAD_ARG a
    else match posBad a h (posOf c) with
      | some x => storeErr x a
      | none =>
        let a := posReads h (posOf c) 1 a
        if !recCurrent a 4 (posRec a h (posOf c)) then fails stNOT_FOUND a
        else ({ status := stOK, first := posOf c }, retireRec 4 (posRec a h (posOf c)) a))

/-- Words of an entry that a FIND reads: its rows and its action, and the other replica's control word. -/
def entryWords (s : State) (h p : Nat) : List Nat :=
  let at_ := fun w => (List.range (bankWidth s h)).flatMap (fun u => [posAddr s w h p + 32 * u, posAddr s w h p + 32 * u + 16])
  at_ 0 ++ [posAct s 0 h p, posAddr s 1 h p + 16]

/-- The first whose unreadability ends it. -/
def entryBad (s : State) (h p : Nat) : Option Nat := (entryWords s h p).find? fun a => !readable s a

/-- VIT_FIND: w row records, then the action. -/
def execVitFind (s : State) : Res :=
  if !vitFree s 0x24 then .next s
  else .next (runCmd 2 0x24 s fun c a =>
    let h := byteOf c 0
    let p := posOf c
    if badPos a c false then fails stBAD_ARG a
    else match entryBad a h p with
      | some x => storeErr x a
      | none =>
        let a := noteCes (entryWords a h p) a
        let i := posRec a h p
        let hit := fun w => b2n (bit (tw a (verLoc 4 w i).ctl) 28)
        let bytes := wordBytes (tws a (posAddr a 0 h p) (8 * bankWidth a h) ++ tws a (posAct a 0 h p) 2)
        let a1 := if byteOf c 1 % 2 = 1 then setCtl 4 i 28 0 a else a
        ({ status := stOK, first := p, hits := hit 0 + 2 * hit 1, find := some (leAt c 8 8, bytes) }, a1))

/-- POL_SET: words 0-3 of a policer of one wing, full buckets with no fraction, last the current time (R240). -/
def execPolSet (s : State) : Res :=
  if !vitFree s 0x25 then .next s
  else .next (runCmd 2 0x25 s fun c a =>
    let w := byteOf c 0
    let p := posOf c
    if 1 < w ∨ 65535 < p ∨ leAt c 8 4 / 2 ^ 30 = 3 then fails stBAD_ARG a
    else
      let now := eNs a
      let t := polAddr w p
      let a1 := engWrite t [w32 (leAt c 8 4), w32 (leAt c 12 4), w32 (leAt c 16 4), w32 (leAt c 20 4)] a
      let a2 := engWrite (t + 16) [w32 (leAt c 16 3), w32 (leAt c 20 3), w32 now, w32 (now / 2 ^ 32)] a1
      let k := 2 * (65536 * w + p)
      ({ status := stOK, first := p }, { a2 with vit := { a2.vit with frac := sPut 0 (k + 1) 0 (sPut 0 k 0 a2.vit.frac) } }))

/-- A running move ends at its step boundary with a status, and every entry moved stays valid: DOMAIN_PARKED when a VIT block's
stop times out (R248), TABLE_OFF when a block is fenced (R615). -/
def vitPark (st : Nat) (s : State) : State :=
  match s.vit.move with
  | none => s
  | some m => finish m.cmd { status := st } (moveStat false 0 0 { s with vit := { s.vit with move := none } })

/-! ## Bank configuration (R216-R219) -/

/-- Are the VIT blocks of both wings OFF? -/
def vitOff (s : State) : Bool := blkState s (pageVIT 0) == 0 && blkState s (pageVIT 1) == 0

/-- Does an enabled profile of either wing name the chain that holds bank `b`? A chain is named by its head bank (R216). -/
def bankNamed (s : State) (b : Nat) : Bool :=
  [0, 1].any fun w => (List.range 32).any fun n =>
    let c := rd s (VIT_PROF_CTRL w n)
    bit c 31 && fld c 30 29 != 3 && headBank s (fld c 27 24) && (chainOf s (fld c 27 24)).contains b

/-- Does a replica hold an entry with valid = 1 in bank `b`? -/
def bankHeld (s : State) (b : Nat) : Bool := [0, 1].any fun w => (vitValid s w).any fun br => br.1 == b

/-- A write of VIT_BANK_CFG_b on the Wing E page (R219); chain_in over two widths is recorded (R217). -/
def writeBankCfg (b : Nat) (v : W32) (s : State) : State :=
  if vitOff s || (!bankHeld s b && !bankNamed s b) then
    let s1 := wr (VIT_BANK_CFG 0 b) (v &&& 0x13) s
    let off := fun k => k != 0 && rb s1 (VIT_BANK_CFG 0 k) 4 && bankWidth s1 k != bankWidth s1 (k - 1)
    [b, b + 1].foldl (fun a k => if k < 16 && off k then recordErr (pageVIT 0) 0x02 (0x110 + 4 * k) 0 a else a) s1
  else recordErr (pageVIT 0) 0x01 (0x110 + 4 * b) 0 s

/-- VIT_BANK_CFG_WRITE: the Wing W page ignores it (R253). -/
def execVitBankCfgWrite (w : Wing) (b : Fin 16) (v : W32) (s : State) : Res :=
  .next (hostDo (VIT_BANK_CFG w.val b.val) (fun a => if w.val = 0 then writeBankCfg b.val v a else a) s)

/-! ## The spare bank (R249-R252) -/

/-- Does the spare of wing `w` serve a bank, or is it being filled? -/
def spareBusy (s : State) (w : Nat) : Bool := rb s (VIT_SPARE_STAT w) 8 || (sGet none w s.vit.taking).isSome

/-- Bank `b` of wing `w` declared failed, reported as kind 0x04 (R249, R615). -/
def bankFailed (w b : Nat) (s : State) : State := reportFault (pageVIT w) 0x04 b false (raise (pageVIT w) 2 s)

/-- A takeover of bank `b` starts. -/
def bankTake (w b : Nat) (s : State) : State :=
  { s with vit := { s.vit with taking := sPut none w (some b) s.vit.taking } }

/-- VIT_BANK_FAIL: the last comparison pass found more than fail_rows differing rows in bank `b`. -/
def execVitBankFail (w : Wing) (b : Fin 16) (s : State) : Res :=
  if sGet 0 (16 * w.val + b.val) s.vit.differ ≤ rf s (VIT_SPARE_CFG w.val) 7 0 then .next s
  else
    let s1 := bankFailed w.val b.val { s with vit := { s.vit with differ := sPut 0 (16 * w.val + b.val) 0 s.vit.differ } }
    if spareBusy s w.val then
      let k := 16 * w.val + b.val
      .next (raise (pageVIT w.val) 4 { s1 with vit := { s1.vit with failed := if s1.vit.failed.contains k then s1.vit.failed else s1.vit.failed ++ [k] } })
    else .next (if rb s (VIT_SPARE_CFG w.val) 8 then bankTake w.val b.val s1 else s1)

/-- A write of VIT_SPARE_CMD. -/
def writeVitSpare (w : Nat) (v : W32) (s : State) : State :=
  let s1 := wf (VIT_SPARE_CMD w) 3 0 (fld v 3 0) s
  if bit v 31 && !spareBusy s w then bankTake w (fld v 3 0) (bankFailed w (fld v 3 0) s1) else s1

/-- VIT_SPARE_CMD. -/
def execVitSpareCmd (w : Wing) (v : W32) (s : State) : Res := .next (hostDo (VIT_SPARE_CMD w.val) (writeVitSpare w.val v) s)

/-- Rows of wing `w` whose image words fail `ok`, as cleared rows: what a load of the arrays leaves matching nothing (R255). -/
def loadRows (w : Nat) (bank : Nat → Bool) (s : State) : State :=
  let bad := (s.tab.ecc.filter fun e => decide (vitAddr w 0 0 ≤ e.1) && decide (e.1 < vitAddr w 16 0) && !readable s e.1 &&
    bank ((e.1 - vitAddr w 0 0) / 0x20000)).map fun e => 65536 * w + (e.1 - vitAddr w 0 0) / 32
  { s with vit := { s.vit with cleared := s.vit.cleared ++ bad.filter fun k => !(s.vit.cleared.contains k) } }

/-- VIT_BANK_SPARED: the copy of the images into the spare is done, and the bank is mapped to it. -/
def execVitBankSpared (w : Wing) (s : State) : Res :=
  match sGet none w.val s.vit.taking with
  | none => .next s
  | some b =>
    let s1 := { s with vit := { s.vit with taking := sPut none w.val none s.vit.taking } }
    .next (raise (pageVIT w.val) 3 (wr (VIT_SPARE_STAT w.val) (w32 (2 ^ 8 + b)) (loadRows w.val (· == b) s1)))

/-- A start of wing `w`'s VIT block loads every array row from its image (R255, R584). -/
def vitStart (w : Nat) (s : State) : State :=
  loadRows w (fun _ => true) { s with vit := { s.vit with cleared := s.vit.cleared.filter fun k => k / 65536 != w } }

end Sys2Proof.Machine
end

