-- ==== Sys2Proof/Machine/EdtCmd.lean ====
section
/-!
DEFINITION. Template commands (R312).
-/
namespace Sys2Proof.Machine

/-- The first unreadable first word of a template's versions in either replica. -/
def tplBadAny (s : State) (t : Nat) : Option Nat := firstBad s 6 [512 * t, 512 * t + 256]

/-- The reads of those words. -/
def tplReads (t : Nat) (s : State) : State := readBoth 6 [512 * t, 512 * t + 256] s

/-- Field operation `n` of TPL_SET's payload. -/
def setOp (c : Cmd) (n : Nat) : Nat := leAt c (16 + 8 * n) 8

/-- The arguments R312 refuses. -/
def badTpl (c : Cmd) : Bool :=
  let t := leAt c 0 4
  decide (t = 0 ∨ 8192 ≤ t) || decide (128 < byteOf c 11) || decide (64 < bitsOf (leAt c 4 4) 18 12) ||
  (List.range 8).any fun n =>
    let o := setOp c n
    decide (0xB ≤ o / 2 ^ 60) || (o / 2 ^ 60 == 6 && decide (128 < bitsOf o 15 0 + (bitsOf o 31 28 + 1)))

/-- The 64 words of a version staged by TPL_SET. -/
def tplWords (s : State) (c : Cmd) : List W32 :=
  w32 (2 ^ 31 + nextEpoch s) :: (bytesWords (slice c.payload 4 204) ++ List.replicate 12 0)

/-- Words written over whole ECC words of 64 bytes from offset `o` of the template regions. -/
def tplWrite : Nat → Nat → List W32 → State → State
  | 0, _, _, s => s
  | n + 1, o, ws, s => tplWrite n (o + 64) (ws.drop 16) (engWriteBoth 6 o (ws.take 16) s)

/-- TPL_SET. -/
def execTplSet (s : State) : Res :=
  .next (runCmd 3 0x30 s fun c a =>
    let t := leAt c 0 4
    if badTpl c then fails stBAD_ARG a
    else match tplBadAny a t with
      | some x => storeErr x a
      | none =>
        let a := tplReads t a
        match otherVersion a 5 t with
        | none => fails stNO_ROOM a
        | some v =>
          let cur := curVersion a 5 t
          let s1 := markRec 5 (2 * t + v) (nextEpoch a) (tplWrite 4 (512 * t + 256 * v) (tplWords a c) a)
          ({ status := stOK, first := t }, retireCur 5 t cur s1))

/-- TPL_DELETE. -/
def execTplDelete (s : State) : Res :=
  .next (runCmd 3 0x31 s fun c a =>
    let t := leAt c 0 4
    if 8192 ≤ t then fails stNOT_FOUND a
    else match tplBadAny a t with
      | some x => storeErr x a
      | none => deletePair 5 t (tplReads t a))

/-- TPL_FIND. -/
def execTplFind (s : State) : Res :=
  .next (runCmd 3 0x32 s fun c a =>
    let t := leAt c 0 4
    if 8192 ≤ t then fails stNOT_FOUND a
    else match tplBadAny a t with
      | some x => storeErr x a
      | none =>
        let a := tplReads t a
        match tplVersion a 0 t (nextEpoch a) with
        | none => fails stNOT_FOUND a
        | some v =>
          let x := tplAddr 0 t v
          match [x + 64, x + 128, x + 192].find? fun y => !readable a y with
          | some y => storeErr y a
          | none => ({ status := stOK, first := t, find := some (leAt c 8 8, wordBytes (tws a x 64)) },
              noteCes [x + 64, x + 128, x + 192] a))

end Sys2Proof.Machine
end

