-- ==== Sys2Proof/Machine/PrvCmd.lean ====
section
/-!
DEFINITION. Provenance: the dispatcher (R268, R719), COMMIT and DISCARD (R276-R278), the walker and the window (R264-R266), and its
stop and reset (R284, R285).
-/
namespace Sys2Proof.Machine

/-! ## Dispatcher -/

/-- The table command a ring of PRV_CMD_RINGS has ready. -/
def readyCmd (s : State) (r : Nat) : Option Cmd :=
  if rb s (PRV_CMD_RINGS 0) r then match readyJob s r with
    | some (.table c) => some c
    | _ => none
  else none

/-- Is a COMMIT taken and not yet completed (R276)? -/
def commitOpen (s : State) : Bool :=
  ((exqOf s 4).any fun c => c.op == 0x40) ||
  (s.hif.waiting.any fun c => c.owner == 4 && fld (c.words.getD 0 0) 23 16 == 0x40) ||
  (match s.prv.held with | some c => c.op == 0x40 | none => false)

/-- A taken command handed to its executor, or held while the executor's queue of 16 is full (R719); one with an opcode that no
command has completes BAD_OP (R272). -/
def handOver (c : Cmd) (s : State) : State :=
  let e := executorOf c.op
  if e = 5 then finish c { status := stBAD_OP } s
  else if (exqOf s e).length < 16 then putExq e (exqOf s e ++ [c]) s
  else { s with prv := { s.prv with held := some c } }

/-- COMMAND_DISPATCH: a held command first, in STOPPING too, else the next ring's in rising ring number (R268, R284). -/
def execCommandDispatch (s : State) : Res :=
  if !isOn s (pagePRV 0) && blkState s (pagePRV 0) != 3 then .next s
  else match s.prv.held with
    | some c => .next (handOver c { s with prv := { s.prv with held := none } })
    | none =>
      if !isOn s (pagePRV 0) || commitOpen s then .next s
      else
        let order := (List.range 32).map fun i => (s.prv.rr + 1 + i) % 32
        match order.find? fun r => (readyCmd s r).isSome with
        | none => .next s
        | some r => match readyCmd s r with
          | none => .next s
          | some c =>
            let s1 := putReady r none { s with prv := { s.prv with rr := r } }
            .next (handOver c (bump (PRV_CNT 0 0) s1))

/-! ## COMMIT and DISCARD -/

/-- Has every command taken before a COMMIT completed, with every move and FIND (R276)? -/
def barrier (s : State) : Bool :=
  ((List.range 4).all fun e => (exqOf s e).isEmpty && noWait s e) && noWait s 5 && s.vit.move.isNone && s.hif.finds.isEmpty

/-- The epoch advances: N becomes current with an empty drain count (R277). -/
def advanceEpoch (s : State) : State :=
  let n := nextEpoch s
  let s1 := { s with prv := { s.prv with c := n, drain := sPut 0 n 0 s.prv.drain } }
  let s2 := raise (pagePRV 0) 0 (bump (PRV_CNT 0 1) s1)
  if liveCount s2 = 4 then raise (pagePRV 0) 1 s2 else s2

/-- COMMIT. -/
def execCommit (s : State) : Res :=
  if !barrier s then .next s
  else .next (runCmd 4 0x40 s fun _ a => if liveCount a = 4 then fails stBUSY a else ({ status := stOK }, advanceEpoch a))

/-- Marks of an epoch. -/
def marksOf (s : State) (e : Nat) : List Mark := s.prv.marks.filter fun m => m.epoch == e

/-- Work on the records of one marked chunk of table `t`: `f` on each record, `g` on the chunk's prefix versions. -/
def chunkWork (f : Nat → State → State) (g : State → State) (t k : Nat) (s : State) : State :=
  if t = 1 then g s else (chunkList s t k).foldl (fun a i => f i a) s

/-- DISCARD; it waits while a move runs (R246, log 27). -/
def execDiscard (s : State) : Res :=
  if s.vit.move.isSome then .next s
  else .next (runCmd 4 0x41 s fun _ a =>
    let n := nextEpoch a
    let s1 := ((marksOf a n).map fun m => (m.table, m.chunk)).eraseDups.foldl
      (fun x m => chunkWork (discardRec m.1 n) (discardRoutes n m.2) m.1 m.2 x) (bump (PRV_CNT 0 9) a)
    ({ status := stOK }, { s1 with prv := { s1.prv with marks := s1.prv.marks.filter fun m => m.epoch != n } }))

/-! ## Walker and window -/

/-- Does a Vitrine chunk meet the block of the running move (R246)? -/
def moveMeets (s : State) (m : Mark) : Bool :=
  match s.vit.move with
  | none => false
  | some v => m.table == 4 && (chunkList s 4 m.chunk).any fun i => decide (posRec s v.head v.pos ≤ i) && decide (i ≤ posRec s v.head v.q)

/-- WALKER_WORK: the next marked chunk of the oldest live epoch is settled and freed in both replicas, and its marks cleared. -/
def execWalkerWork (s : State) : Res :=
  if !isOn s (pagePRV 0) then .next s
  else match (marksOf s s.prv.o).find? fun m => !moveMeets s m with
    | none => .next s
    | some m =>
      let s0 := settle s
      let s1 := chunkWork (walkRec m.table s0.prv.o) (walkRoutes s0.prv.o m.chunk) m.table m.chunk s0
      .next { s1 with prv := { s1.prv with marks := s1.prv.marks.filter fun x => !({ x with wing := m.wing } == m) } }

/-- EPOCH_RETIRE: O moves on once it is not C, has drained and has been walked (R264). -/
def execEpochRetire (s : State) : Res :=
  if isOn s (pagePRV 0) && s.prv.o != s.prv.c && sGet 0 s.prv.o s.prv.drain == 0 && (marksOf s s.prv.o).isEmpty then
    let s1 := { s with prv := { s.prv with o := (s.prv.o + 1) % 256 } }
    .next (if liveCount s = 4 then raise (pagePRV 0) 2 s1 else s1)
  else .next s

/-- Frames of epoch `e` held by queue `q` of port `p`. -/
def queueFrames (s : State) (e p q : Nat) : Nat :=
  (s.frames.filter fun f => f.epoch == e && s.copies.any fun c => c.frame == f.id && c.port == p && c.queue == q && c.stage == .queued).length

/-- DRAIN_SLOW: O has drained for warn_ms; the queue that holds the most of its frames is recorded (among equals a free choice, log
3). -/
def execDrainSlow (s : State) : Res :=
  if s.prv.o = s.prv.c then .next s
  else
    let qs := (s.copies.filter fun c => c.stage == .queued && (match frameOf s c.frame with | some f => f.epoch == s.prv.o | none => false)).map
      fun c => (c.port, c.queue)
    let top := qs.foldl (fun a q => max a (queueFrames s s.prv.o q.1 q.2)) 0
    let best := (qs.filter fun q => queueFrames s s.prv.o q.1 q.2 == top).eraseDups
    let d := drawChoice best.length s
    let s1 := match best[d.1]? with
      | some q => wr (PRV_DRAIN_TOP 0) (w32 (q.1 * 16 + q.2)) d.2
      | none => s
    .next (raise (pagePRV 0) 3 s1)

/-! ## Stop and reset -/

/-- Have the executors finished the commands they hold (R284)? -/
def prvIdle (s : State) : Bool :=
  ((List.range 5).all fun e => (exqOf s e).isEmpty) && s.prv.held.isNone && s.vit.move.isNone

/-- The running Vitrine command and every command not started complete with a status: DOMAIN_PARKED when the stop has timed out
(R284), TABLE_OFF when the block is fenced (R615). -/
def prvPark (st : Nat) (s : State) : State :=
  let all := (List.range 5).flatMap (exqOf s) ++ s.prv.held.toList
  let s1 := vitPark st { s with prv := { s.prv with exq := [], held := none } }
  all.foldl (fun a c => finish c { status := st } a) s1

/-- The window of a reset engine: C and O 0, with no mark and no drain count (R258, R285). -/
def prvReset (s : State) : State := { s with prv := { s.prv with c := 0, o := 0, marks := [], drain := [] } }

end Sys2Proof.Machine
end

