-- ==== Sys2Proof/Machine/Vlt.lean ====
section
/-!
DEFINITION. The Vault (chapter 14): vault mode, the spill writer and the return reader, refresh and row protection, stack
temperature, and pseudo-channel failure.
-/
namespace Sys2Proof.Machine

/-! ## Vault mode (R453, R454, R460) -/

/-- Hall cells that queue `q` holds for frames that may spill: for a queue in DPT_CFG.mc_pool not its multicast frames' (R345). -/
def spillUse (s : State) (q : Nat) : Nat :=
  let multi := if rf s (HAL_Q_CFG q) 13 12 = rf s DPT_CFG 29 28 then
      (s.copies.filter fun c => 16 * c.port + c.queue == q && c.holder / 1024 == 1).foldl (fun n c => n + c.qCells) 0 else 0
  rf s (HAL_Q_USE q) 20 0 - multi

/-- Is queue `q` spill-eligible (R345)? -/
def spillReady (s : State) (q : Nat) : Bool :=
  let c := rd s (HAL_Q_CFG q)
  let p := HAL_SPILL_CFG (fld c 19 16)
  rb s p 31 && (decide (rf s p 20 0 < spillUse s q) ||
    (reacting s (fld c 13 12) 2 && decide (0 < sGet 0 q s.dpt.qShared)))

/-- Are the queue's Vault bytes below its profile's quota? -/
def underQuota (s : State) (q : Nat) : Bool :=
  decide (queueVault s q < rf s (VLT_PROF_CFG (rf s (HAL_Q_CFG q) 19 16)) 16 0 * 2 ^ 20)

/-- The lead of port `i` in bytes (R454). -/
def leadBytes (s : State) (i : Nat) : Nat := portSpeed s i * max 500 (rf s VLT_RET_CFG 15 0) / 8000

/-- Stored bytes of a copy's frame. -/
def storedLen (s : State) (c : Copy) : Nat := match frameOf s c.frame with | some f => f.bytes.length | none => 0

/-- Copies of a queue, oldest first, split into Head and Tail: the Head takes frames until its bytes reach `lead`. -/
def splitQueue (s : State) (lead : Nat) : Nat → List Copy → List Copy
  | _, [] => []
  | n, c :: r =>
    if n < lead then { c with seg := .head } :: splitQueue s lead (n + storedLen s c) r
    else { c with seg := .tail } :: splitQueue s lead n r

/-- Several copies replaced. -/
def putCopies (l : List Copy) (s : State) : State := l.foldl (fun a c => putCopy c a) s

/-- Does any stack accept spill? -/
def anyStack (s : State) : Bool := [0, 1, 2, 3].any (stackTakes s)

/-- VAULT_MODE_ENTRY: queue `q` enters vault mode when every condition of R453 holds. -/
def execVaultModeEntry (q : QueueIx) (s : State) : Res :=
  let i := q.val / 16
  if !inVault s q && spillReady s q && isOn s pageVLT && rb s VLT_CFG 0 && anyStack s && !s.vlt.selfRef &&
      ([0, 1, 2].all fun k => decide (rf s (VLT_POOL_STAT k) 31 30 < 2)) && underQuota s q && portUp s i && !portFenced s i then
    let s1 := putCopies (splitQueue s (leadBytes s i) 0 (queued s q)) s
    .next (addWrap VLT_MODE_STAT 13 0 1 (wf (VLT_Q_STAT q) 31 31 1 (bump (VLT_CNT 7) s1)))
  else .next s

/-- Queue `q` leaves vault mode, its Tail joined behind its Head. -/
def leaveVault (q : Nat) (s : State) : State :=
  let s1 := putCopies ((queued s q).map fun c => { c with seg := .head }) s
  wf VLT_MODE_STAT 13 0 (rf s1 VLT_MODE_STAT 13 0 - 1) (wf (VLT_Q_STAT q) 31 31 0 (bump (VLT_CNT 8) s1))

/-- Has queue `q` a Vault write in flight? A read in flight belongs to an entry of the Middle. -/
def writesInFlight (s : State) (q : Nat) : Bool := s.vlt.wq.any fun e => e.2.any fun w => w.2 == q

/-- VAULT_MODE_EXIT: a queue with an empty Middle and nothing in flight leaves vault mode. -/
def execVaultModeExit (q : QueueIx) (s : State) : Res :=
  if inVault s q && (queued s q).all (fun c => c.seg != .middle) && !writesInFlight s q then .next (leaveVault q s) else .next s

/-! ## Spill writer (R455, R466) -/

/-- Oldest Tail copy of a queue. -/
def tailCopy (s : State) (q : Nat) : Option Copy := (queued s q).find? fun c => c.seg == .tail

/-- The next queue after `last` in rotating order that satisfies `p`. -/
def nextQueue (last : Nat) (p : Nat → Bool) : Option Nat :=
  ((List.range 8448).map fun i => (last + 1 + i) % 8448).find? p

/-- May the writer serve queue `q`? It takes a frame once the frame's last cell is written (log 28). -/
def spillable (s : State) (q : Nat) : Bool :=
  inVault s q && spillReady s q && underQuota s q && (match tailCopy s q with
    | some c => (match frameOf s c.frame with | some f => f.lastDone | none => false)
    | none => false)

/-- A copy whose frame stays in the Hall: of another holder class than 0x00, or with a reference count above 1. -/
def keptInHall (s : State) (c : Copy) : Bool :=
  c.holder / 1024 != 0 || (match (chainOfCopy s c).head? with
    | some x => decide (1 < (cellOf s x).count)
    | none => false)

/-- What lets the writer or the reader move bytes: its cap in units of 100 Gbit/s, and no more than the pseudo-channels in service give
(R462, R476). -/
def capRate (s : State) (hi lo : Nat) : Nat :=
  let n := rf s VLT_SPILL_CFG hi lo
  min (if n = 0 ∨ 128 < n then 128 else n) (pcsServing s)

/-- Units of E that `n` bytes take at a rate in units of 100 Gbit/s. -/
def capTime (n rate : Nat) : Nat := n * 16384000000 / rate

/-- May the writer start a frame now (R462)? -/
def mayWrite (s : State) : Bool := capRate s 7 0 != 0 && decide (s.vlt.wrAt ≤ s.time.e)

/-- A frame placed at the end of the Middle, with its buffer in pool `k`, pseudo-channel `pc`; its Hall cells are read, and its codewords enter
the write queue, from now on. -/
def spillFrame (f : Frame) (x : Copy) (k pc : Nat) (s : State) : State :=
  let b := lowBuf s k pc
  let s1 := putCopy { x with seg := .middle, vault := some (k, pc), buf := b } (vaultTake k pc b s)
  let s2 := { s1 with vlt := { s1.vlt with
    spilling := s1.vlt.spilling ++ [(x.id, 0)]
    wrAt := s1.time.e + capTime (frameVault f.bytes.length) (capRate s1 7 0) } }
  enterWords x.id (vaultBytes (16 * x.port + x.queue) s2)

/-- SPILL_WRITE: one turn of the writer, for the next queue of its rotation. -/
def execSpillWrite (s : State) : Res :=
  if !isOn s pageVLT || !anyStack s || !mayWrite s then .next s
  else match nextQueue s.vlt.lastWr (spillable s) with
    | none => .next s
    | some q =>
      let s0 := { s with vlt := { s.vlt with lastWr := q } }
      match tailCopy s q with
      | none => .next s
      | some c =>
        if keptInHall s c then .next (bump (VLT_CNT 4) (putCopy { c with seg := .middle } s0))
        else match frameOf s c.frame with
          | none => .next s
          | some f => match vaultRoom s f.bytes.length with
            | some b => .next (spillFrame f c b.1 b.2 s0)
            | none => .next (bump (VLT_CNT 15) s0)

/-! ## Return reader (R457-R459) -/

/-- Oldest Middle copy of a queue. -/
def middleCopy (s : State) (q : Nat) : Option Copy := (queued s q).find? fun c => c.seg == .middle

/-- Bytes in a queue's Head. -/
def headBytes (s : State) (q : Nat) : Nat :=
  ((queued s q).filter fun c => c.seg == .head).foldl (fun a c => a + storedLen s c) 0

/-- May the reader serve queue `q`? -/
def returnable (s : State) (q : Nat) : Bool :=
  inVault s q && (middleCopy s q).isSome && decide (headBytes s q < leadBytes s (q / 16))

/-- Corrected codewords of pseudo-channel `c`: counted there and on the page (R580). -/
def vaultCes (c n : Nat) (s : State) : State :=
  (List.range n).foldl (fun a _ => correctedAt pageVLT (incSat (VLT_PC_STAT c) 15 0 a)) s

/-- Uncorrectable codewords of pseudo-channel `c`, recorded with an address the spec gives no form for (log 3). -/
def vaultUes (c n : Nat) (s : State) : State :=
  (List.range n).foldl (fun a _ =>
    let d := drawFree (incSat (VLT_PC_STAT c) 23 16 a)
    reportFault pageVLT 0x01 d.1.toNat false (recordErr pageVLT 0x03 0 d.1.toNat (raise pageVLT 0 d.2))) s

/-- A discarded entry leaves, stale (R349). -/
def staleReturn (c : Copy) (s : State) : State :=
  let q := 16 * c.port + c.queue
  let s1 := wr (HAL_Q_STALE q) (rd s (HAL_Q_STALE q) + 1) (bump (VLT_CNT 5) (bump (HAL_CNT 9) s))
  dropCopy 0x0A c (raiseFirst pageHAL 4 s1)

/-- A discarded entry of a port that is absent, down or fenced leaves (R397). -/
def downReturn (c : Copy) (s : State) : State :=
  let s1 := bump (TMG_CNT 2) s
  if !portPresent s c.port then dropCopy 0x0E c (portCnt c.port 14 1 s1) else dropCopy 0x09 c (countDown c.port s1)

/-- The frame's bytes written to `n` new Hall cells, charged to the shared area of the queue's pool without a test (R459). -/
def rehall (f : Frame) (c : Copy) (n : Nat) (s : State) : State :=
  let q := 16 * c.port + c.queue
  let cells := allocCells 1 c.holder f.id n [] s
  let a := Area.pool (rf s (HAL_Q_CFG q) 13 12) (some q)
  let s1 := putFrame { f with cells := cells.1, charge := n, area := a } cells.2
  let s2 := setPair f.port f.pri (pairCells s1 f.port f.pri + n) (areaAdd a n (addWrap (HAL_Q_USE q) 20 0 n s1))
  putCopy { c with seg := .head, vault := none, qCells := n } s2

/-- The buffer of a copy released at its return. -/
def freeBuf (c : Copy) (s : State) : State :=
  match c.vault with
  | some b => vaultGive b.1 b.2 c.buf (vaultForget c.id s)
  | none => s

/-- Codewords asked for enter the pseudo-channel's read queue of 64 as it has room; one whose address a waiting write holds is counted as
delayed (R467). -/
def feedReads (id : Nat) (s : State) : State :=
  match copyOf s id, s.vlt.reads.find? fun e => e.1 == id with
  | some c, some (_, n, w) =>
    match c.vault with
    | none => s
    | some (k, pc) =>
      let q := sGet [] pc s.vlt.rq
      let new := (List.range (min (w - n) (64 - q.length))).map fun i => (bufBase s k c.buf + n + i, id)
      let late := new.filter fun r => (sGet [] pc s.vlt.wq).any fun x => x.1 == r.1
      bumpN (VLT_CNT 9) late.length { s with vlt := { s.vlt with
        rq := sPut [] pc (q ++ new) s.vlt.rq
        reads := s.vlt.reads.map fun e => if e.1 = id then (id, n + new.length, w) else e } }
  | _, _ => s

/-- The first `w` codewords of a copy asked for, `bytes` of them new: the reader's cap runs (R462). -/
def askWords (c : Copy) (w bytes : Nat) (s : State) : State :=
  let old := s.vlt.reads.filter fun e => e.1 != c.id
  let n := match s.vlt.reads.find? fun e => e.1 == c.id with
    | some e => e.2.1
    | none => 0
  feedReads c.id { s with vlt := { s.vlt with
    reads := old ++ [(c.id, n, w)]
    rdAt := max s.vlt.rdAt s.time.e + capTime bytes (max 1 (capRate s 23 16)) } }

/-- Have all the codewords asked for been read? -/
def readsDone (s : State) (c : Copy) : Bool :=
  (s.vlt.reads.any fun e => e.1 == c.id && e.2.1 == e.2.2) && !(s.vlt.rq.any fun e => e.2.any fun r => r.2 == c.id)

/-- May the reader start a return now (R459, R462)? -/
def mayRead (s : State) : Bool :=
  capRate s 23 16 != 0 && decide (s.vlt.rdAt ≤ s.time.e) && decide (rf s DPT_CFG 20 0 < rf s DPT_FREE_STAT 20 0)

/-- Can the reader go on with the oldest Middle entry of queue `q`: one kept in the Hall; one whose reads may start, all its codewords being in
the write queue or beyond; or one whose codewords asked for have been read? -/
def canTurn (s : State) (q : Nat) : Bool :=
  returnable s q && (match middleCopy s q with
    | none => false
    | some c => c.vault.isNone ||
        (if s.vlt.reads.any fun e => e.1 == c.id then readsDone s c else !isSpilling s c.id && mayRead s))

/-- The record of an entry has been read, with outcome `rec`: the entry is discarded, or its frame bytes are asked for. -/
def recordRead (f : Frame) (c : Copy) (pc : Nat) (rec : RdOutcome) (s : State) : State :=
  let s0 := vaultCes pc (b2n (rec == .corrected)) s
  if rec == .ue then dropCopy 0x0D c (bump (HAL_CNT 11) (bump (VLT_CNT 6) (vaultUes pc 1 s0)))
  else if staleFrame s f (16 * c.port + c.queue) then staleReturn c s0
  else if !portPresent s c.port || !portUp s c.port || portFenced s c.port then downReturn c s0
  else askWords c (frameWords f.bytes.length) (frameVault f.bytes.length - 64) s0

/-- The frame bytes have been read, with `ce` corrected and `ue` uncorrectable codewords: the frame joins the Head. -/
def bytesRead (f : Frame) (c : Copy) (pc ce ue : Nat) (s : State) : State :=
  let s1 := vaultCes pc ce s
  if 0 < ue then dropCopy 0x0D c (bump (HAL_CNT 11) (bump (VLT_CNT 6) (vaultUes pc ue s1)))
  else vaultBytes (16 * c.port + c.queue) (bump (VLT_CNT 1) (freeBuf c (rehall f c (cellsFor f.bytes.length) s1)))

/-- RETURN_READ: one turn of the reader, for the next queue of its rotation that it can go on with: its record is asked for, then its frame
bytes, and then the frame joins the Head; the codewords' outcomes come from the stack (log 2). -/
def execReturnRead (rec : RdOutcome) (ce ue : Fin 193) (s : State) : Res :=
  if blkState s pageVLT != 2 && blkState s pageVLT != 3 then .next s
  else match nextQueue s.vlt.lastRd (canTurn s) with
    | none => .next s
    | some q =>
      match middleCopy s q with
      | none => .next s
      | some c => match frameOf s c.frame with
        | none => .next s
        | some f =>
          let s0 := { s with vlt := { s.vlt with lastRd := q } }
          match c.vault, s.vlt.reads.find? fun e => e.1 == c.id with
          | none, _ => .next (putCopy { c with seg := .head } s0)
          | some _, none => .next (askWords c 1 64 s0)
          | some b, some (_, _, w) =>
            if w = 1 then .next (recordRead f c b.2 rec s0)
            else if allocatable s < cellsFor f.bytes.length then .next s
            else .next (bytesRead f c b.2 ce.val ue.val s0)

/-! ## Refresh and row protection (R468, R472-R474) -/

/-- Is the controller at work: the block started, and the stacks not in self-refresh? -/
def vltRuns (s : State) : Bool := (blkState s pageVLT == 2 || blkState s pageVLT == 3) && !s.vlt.selfRef

/-- The open row of a bank closed. -/
def closeRow (k : Nat) (s : State) : State := { s with vlt := { s.vlt with openRow := sPut 0 k 0 s.vlt.openRow } }

/-- One REFpb to a bank: two rows, and no row of it stays open (R464). -/
def refreshBank (k : Nat) (s : State) : State :=
  closeRow k { s with vlt := { s.vlt with
      owed := sPut 0 k (sGet 0 k s.vlt.owed - 1) s.vlt.owed
      refRow := sPut 0 k ((sGet 0 k s.vlt.refRow + 2) % 16384) s.vlt.refRow } }

/-- REFpb to a bank, `n` of them. -/
def refreshN : Nat → Nat → State → State
  | 0, _, s => s
  | n + 1, k, s => refreshN n k (refreshBank k s)

/-- The targeted refreshes that wait for bank `k` go. -/
def targetedGo (k : Nat) (s : State) : State := { s with vlt := { s.vlt with trq := sPut [] k [] s.vlt.trq } }

/-- REFRESH_PER_BANK: one more refresh of a bank falls due; while its column commands wait (`busy`) it is postponed, up to four
(R468). Else every refresh of the bank goes: the forced one, which is the fourth, then the waiting targeted refreshes, then the unforced
ones (R473). -/
def execRefreshPerBank (c : Fin 128) (b : Fin 32) (busy : Bool) (s : State) : Res :=
  if !vltRuns s then .next s
  else
    let k := bankNo c b
    let n := sGet 0 k s.vlt.owed + 1
    let s1 := { s with vlt := { s.vlt with owed := sPut 0 k n s.vlt.owed } }
    if busy then .next (if n ≤ 4 then s1 else refreshBank k s1)
    else
      let forced := b2n (decide (4 ≤ n))
      .next (refreshN (n - forced) k (targetedGo k (refreshN forced k s1)))

/-- The rows around row `r` that exist in a bank. -/
def rowsAround (r : Nat) : List Nat := ((if 2 ≤ r then [r - 2] else []) ++ (if 1 ≤ r then [r - 1] else []) ++ [r + 1, r + 2]).filter (· < 16384)

/-- A targeted refresh around row `r` queued; `cnt` counts its kind. -/
def targeted (k r cnt : Nat) (s : State) : State :=
  bump (VLT_CNT cnt) { s with vlt := { s.vlt with trq := sPut [] k (sGet [] k s.vlt.trq ++ [rowsAround r]) s.vlt.trq } }

/-- on_activate of R472. The LFSR's polynomial and seed are not given: its ten bits are a free choice (log 3). -/
def onActivate (k r : Nat) (s : State) : State :=
  let t := sGet [] k s.vlt.acts
  let put := fun (l : List (Nat × Nat)) (a : State) => { a with vlt := { a.vlt with acts := sPut [] k l a.vlt.acts } }
  match t.find? fun e => e.1 == r with
  | some e =>
    if e.2 + 1 = 2048 then targeted k r 10 (put (t.map fun x => if x.1 = r then (r, 0) else x) s)
    else put (t.map fun x => if x.1 = r then (r, e.2 + 1) else x) s
  | none =>
    if t.length < 32 then put (t ++ [(r, 1)]) s
    else
      let d := drawChoice 1024 s
      if d.1 = 0 then targeted k r 11 d.2 else d.2

/-- An activate of row `r` of bank `k`: blocked, and counted, while the bank's targeted-refresh queue of 8 is full (R473); the fourth
outstanding refresh is sent first (R468). -/
def activateRow (k r : Nat) (s : State) : State :=
  if 8 ≤ (sGet [] k s.vlt.trq).length then bump (VLT_CNT 13) s
  else
    let s1 := onActivate k r (if 4 ≤ sGet 0 k s.vlt.owed then refreshBank k s else s)
    { s1 with vlt := { s1.vlt with openRow := sPut 0 k (r + 1) s1.vlt.openRow } }

/-- ACTIVATE: the controller opens row `r` of a bank. -/
def execActivate (c : Fin 128) (b : Fin 32) (r : Fin 16384) (s : State) : Res :=
  .next (if vltRuns s then activateRow (bankNo c b) r s else s)

/-- ACT_TABLE_CLEAR: a bank's refresh window starts. -/
def execActTableClear (c : Fin 128) (b : Fin 32) (s : State) : Res :=
  .next { s with vlt := { s.vlt with acts := sPut [] (bankNo c b) [] s.vlt.acts } }

/-- RFM_REQUEST: RFM goes to the bank ahead of its other refreshes (R474). -/
def execRfmRequest (_c : Fin 128) (_b : Fin 32) (s : State) : Res := .next (if vltRuns s then bump (VLT_CNT 12) s else s)

/-! ## Column commands (R464, R465, R467) -/

/-- One waiting targeted refresh of every bank served: what a tick does. -/
def serveTargeted (s : State) : State :=
  s.vlt.trq.foldl (fun a e => closeRow e.1 { a with vlt := { a.vlt with trq := sPut [] e.1 (e.2.drop 1) a.vlt.trq } }) s

/-- Is the row of codeword `n` of pseudo-channel `c` open? -/
def rowOpen (s : State) (c n : Nat) : Bool := sGet 0 (bankNo c (wordBank n)) s.vlt.openRow == wordRow n + 1

/-- Reads of pseudo-channel `c` that no waiting write holds back. -/
def readsFree (s : State) (c : Nat) : List (Nat × Nat) :=
  (sGet [] c s.vlt.rq).filter fun r => !((sGet [] c s.vlt.wq).any fun w => w.1 == r.1)

/-- The direction of pseudo-channel `c` and the bursts it has served since the turn (R465); a read that waits for a write does not count as
waiting (log 44). -/
def turnOf (s : State) (c : Nat) : Bool × Nat :=
  let w := (sGet [] c s.vlt.wq).length
  let r := (readsFree s c).isEmpty
  let t := sGet (false, 64) c s.vlt.turn
  if t.1 then (if !r && (w == 0 || (decide (64 ≤ t.2) && decide (w ≤ 16))) then (false, 0) else t)
  else if w != 0 && (r || (decide (64 ≤ t.2) && decide (48 ≤ w))) then (true, 0) else t

/-- One codeword, two bursts, of pseudo-channel `c` in its direction: the oldest of an open row, else the oldest, whose row is then opened. -/
def serveChannel (c : Nat) (s : State) : State :=
  let t := turnOf s c
  let q := if t.1 then sGet [] c s.vlt.wq else readsFree s c
  match (match q.find? fun e => rowOpen s c e.1 with
    | some e => some e
    | none => q.head?) with
  | none => s
  | some e =>
    let s1 := if rowOpen s c e.1 then s else activateRow (bankNo c (wordBank e.1)) (wordRow e.1) s
    if !rowOpen s1 c e.1 then s1
    else
      let s2 := { s1 with vlt := { s1.vlt with turn := sPut (false, 64) c (t.1, t.2 + 2) s1.vlt.turn } }
      if t.1 then { s2 with vlt := { s2.vlt with wq := sPut [] c ((sGet [] c s2.vlt.wq).erase e) s2.vlt.wq } }
      else bumpN (VLT_CNT 3) 64 { s2 with vlt := { s2.vlt with rq := sPut [] c ((sGet [] c s2.vlt.rq).erase e) s2.vlt.rq } }

/-- A tick of the controllers: each pseudo-channel with a codeword waiting serves one (DESIGN CHOICE, log 4), and what waits for room in a queue
enters it, writes before reads (R467). -/
def serveVault (s : State) : State :=
  if !vltRuns s then s
  else
    let cs := ((s.vlt.wq.map fun e => e.1) ++ s.vlt.rq.map fun e => e.1).eraseDups
    let s1 := cs.foldl (fun a c => serveChannel c a) s
    let s2 := (s1.vlt.spilling.map fun e => e.1).foldl (fun a id => enterWords id a) s1
    (s2.vlt.reads.map fun e => e.1).foldl (fun a id => feedReads id a) s2

/-! ## Temperature (R469-R471) -/

/-- Stack `k`'s hot flag. -/
def setHot (k : Nat) (v : Bool) (s : State) : State :=
  let was := rb s VLT_THERM_FLAGS k
  let s1 := wf VLT_THERM_FLAGS k k (b2n v) s
  if v && !was then raise pageVLT 3 s1 else s1

/-- Stack `k`'s stopped flag; spill_stopped when it is the first to stop. -/
def setStopped (k : Nat) (v : Bool) (s : State) : State :=
  let none_ := rf s VLT_THERM_FLAGS 7 4 = 0
  let s1 := wf VLT_THERM_FLAGS (4 + k) (4 + k) (b2n v) s
  if v ∧ none_ then raise pageVLT 4 s1 else s1

/-- °C above which a stack stops accepting (VLT_THERM_CFG.stop_c). -/
def stopTemp (s : State) : Nat := min 105 (rf s VLT_THERM_CFG 15 8)

/-- The readings in force held against a new stop_c (R470, R481). -/
def judgeStacks (s : State) : State :=
  (List.range 4).foldl (fun a k => if stopTemp a < rf a VLT_THERM_STAT (8 * k + 7) (8 * k) then setStopped k true a else a) s

/-- STACK_TEMP_READ: a reading of stack `k` in °C, or a failed read. -/
def execStackTempRead (k : Fin 4) (reading : Option (BitVec 8)) (s : State) : Res :=
  let k := k.val
  let n := sGet 0 k s.vlt.tempFails
  match reading with
  | none =>
    let s1 := { s with vlt := { s.vlt with tempFails := sPut 0 k (n + 1) s.vlt.tempFails } }
    let s2 := reportFault pageVLT 0x0A k false (raise pageVLT 6 (bump (VLT_CNT 14) (wf VLT_THERM_FLAGS (8 + k) (8 + k) 1 s1)))
    .next (if 3 ≤ n + 1 then setHot k true (setStopped k true s2) else s2)
  | some v =>
    let t := v.toNat
    let hot := min 85 (rf s VLT_THERM_CFG 23 16)
    let stop := stopTemp s
    let resume := min stop (rf s VLT_THERM_CFG 7 0)
    let s1 := { s with vlt := { s.vlt with tempFails := sPut 0 k 0 s.vlt.tempFails } }
    let s2 := wf VLT_THERM_STAT (8 * k + 7) (8 * k) t (wf VLT_THERM_FLAGS (8 + k) (8 + k) 0 s1)
    let s3 := setHot k (decide (hot < t)) s2
    .next (if stop < t then setStopped k true s3 else if t ≤ resume then setStopped k false s3 else s3)

/-! ## Pseudo-channel failure (R475, R476) -/

/-- Pseudo-channel `c` declared failed: it drains under auto. -/
def pcFails (c : Nat) (s : State) : State :=
  let s1 := reportFault pageVLT 0x09 c false (raise pageVLT 1 s)
  if rb s1 VLT_PC_CFG 8 && pcState s1 c == 0 then wf (VLT_PC_STAT c) 31 30 1 s1 else s1

/-- PSEUDO_CHANNEL_FAIL: its uncorrectable codewords have reached fail_ue, or it failed retraining. -/
def execPseudoChannelFail (c : Fin 128) (retrain : Bool) (s : State) : Res :=
  if pcState s c == 0 && (retrain || decide (max 1 (rf s VLT_PC_CFG 7 0) ≤ rf s (VLT_PC_STAT c) 23 16)) then .next (pcFails c s)
  else .next s

/-- A write of VLT_PC_CMD. -/
def writePcCmd (v : W32) (s : State) : State :=
  let s1 := wf VLT_PC_CMD 6 0 (fld v 6 0) s
  if bit v 31 && pcState s1 (fld v 6 0) == 0 then pcFails (fld v 6 0) s1 else s1

/-- PC_FAIL_CMD. -/
def execPcFailCmd (v : W32) (s : State) : Res := .next (hostDo VLT_PC_CMD (writePcCmd v) s)

/-- VLT_POOL_CAP_k brought up to date. -/
def poolCap (k : Nat) (s : State) : State :=
  judgeVault k (wf (VLT_POOL_CAP k) 23 0 (poolCapacity s k) s)

/-- PC_FENCE: a draining pseudo-channel that holds no frame is fenced. -/
def execPcFence (c : Fin 128) (s : State) : Res :=
  if pcState s c == 1 && ([0, 1, 2].all fun k => bufsUsed s k c == 0) then
    let s1 := wf (VLT_PC_STAT c) 31 30 2 s
    .next (raise pageVLT 2 (poolCap 2 (poolCap 1 (poolCap 0 s1))))
  else .next s

/-! ## Self-refresh, configuration, stop -/

/-- Does the Vault hold no frame? -/
def vaultEmpty (s : State) : Bool := s.copies.all fun c => c.vault.isNone

/-- SELF_REFRESH_ENTRY (R477). -/
def execSelfRefreshEntry (s : State) : Res :=
  if rb s (H_CTRL pageVLT) 2 && vaultEmpty s && s.vlt.wq.isEmpty && rf s VLT_MODE_STAT 13 0 == 0 then
    .next { s with vlt := { s.vlt with selfRef := true, acts := [], openRow := [] } }
  else .next s

/-- SELF_REFRESH_EXIT: on the first spill-eligible queue; stacks stay in self-refresh while the block is OFF (R478). -/
def execSelfRefreshExit (s : State) : Res :=
  if s.vlt.selfRef && blkState s pageVLT != 0 && (List.range 8448).any (spillReady s) then
    .next { s with vlt := { s.vlt with selfRef := false } }
  else .next s

/-- A write of VLT_POOL_CFG_k (R450). -/
def writePoolCfg (k : Nat) (v : W32) (s : State) : State :=
  if blkState s pageVLT = 0 then poolCap k (wf (VLT_POOL_CFG k) 17 0 (fld v 17 0) s)
  else recordErr pageVLT 0x01 (0x110 + 4 * k) 0 s

/-- VLT_POOL_CFG_WRITE. -/
def execVltPoolCfgWrite (k : Fin 3) (v : W32) (s : State) : Res := .next (hostDo (VLT_POOL_CFG k) (writePoolCfg k v) s)

/-- Is the carve within 533,659,648 bytes of a pseudo-channel (R449)? -/
def carveOk (s : State) : Bool :=
  decide (([0, 1, 2].foldl (fun a k => a + rf s (VLT_POOL_CFG k) 17 0 * slotSize k) 0) ≤ 533659648)

/-- The stop of the Vault has timed out: every Middle frame is flushed, and every queue leaves vault mode (R478). -/
def vaultFlush (s : State) : State :=
  let mids := s.copies.filter fun c => c.stage == .queued && c.seg == .middle
  let s1 := mids.foldl (fun a c => dropCopy 0x0E c (portCnt c.port 14 1 a)) s
  ((List.range 8448).filter (inVault s1)).foldl (fun a q => leaveVault q a) s1

end Sys2Proof.Machine
end

