-- ==== Sys2Proof/Machine/Samp.lean ====
section
/-!
DEFINITION. The queue sampler (R410-R412).
-/
namespace Sys2Proof.Machine

/-- Is the shaper of queue `q`, of its group or of its port on the wheel? -/
def queueOnWheel (s : State) (q : Nat) : Bool :=
  onWheel s q || onWheel s (grpNode (4 * (q / 16) + rf s (TMG_Q_CFG q) 5 4)) || onWheel s (portNode (q / 16))

/-- Sojourn of the head frame of queue `q`, zero when it is empty. -/
def headSojourn (s : State) (q : Nat) : Nat :=
  match headCopy s q with
  | some c => (match frameOf s c.frame with
    | some f => sojourn s f
    | none => 0)
  | none => 0

/-- The queue-sample record of queue `q` (R411). -/
def sampleRecord (s : State) (q : Nat) : List W32 :=
  [ w32 (nowNs s),
    w32 (16 * q + 8 * b2n (inVault s q) + 4 * b2n (pausedQ s q) + 2 * b2n (!gateOpen s (q / 16) (q % 16) 0) +
      b2n (queueOnWheel s q)),
    w32 (rf s (HAL_Q_USE q) 20 0),
    w32 (headSojourn s q * 65536 + min 0xFFFF (ceilDiv (queueVault s q) 1048576)) ]

/-- The Annex copy of a record, lost when the channel has no credit for it (R412). -/
def sampleToAnx (r : List W32) (s : State) : State :=
  if rb s TMG_SAMP_CFG 30 then
    let c := rf s TMG_SAMP_CFG 23 20
    if anxRoom s c then anxSend 0x10 c (wordBytes r) s else raiseFirst pageTMG 2 (bump (TMG_CNT 6) s)
  else s

/-- The visit of queue `q`: the Curator's copy is delivered while the CUR block is ON (R484). -/
def sampleQueue (s : State) (q : Nat) : State :=
  let r := sampleRecord s q
  let s1 := if isOn s pageCUR then { s with cur := { s.cur with samples := s.cur.samples ++ [r] } } else s
  sampleToAnx r (bump (TMG_CNT 5) s1)

/-- Queues whose port is selected in TMG_SAMP_PORTS, ascending. -/
def sampledQueues (s : State) : List Nat :=
  ((List.range 528).filter fun i => rb s (TMG_SAMP_PORTS (i / 32)) (i % 32)).flatMap fun i => (List.range 16).map fun j => 16 * i + j

/-- The round interval in µs (TMG_SAMP_CFG.period_us). -/
def sampPeriod (s : State) : Nat := max 16 (min 1000000 (rf s TMG_SAMP_CFG 19 0))

/-- SAMPLER_ROUND: one round over the selected queues, once one is due on E, which sets when the next is due (R410, R421); the Curator keeps the
records of the last round. -/
def execSamplerRound (s : State) : Res :=
  .next (if isOn s pageTMG && rb s TMG_SAMP_CFG 31 && decide (s.tmg.sampDue ≤ eUs s) then
    (sampledQueues s).foldl sampleQueue
      { s with tmg := { s.tmg with sampDue := eUs s + sampPeriod s }, cur := { s.cur with samples := [] } } else s)

end Sys2Proof.Machine
end

