-- ==== Sys2Proof/Machine/Tsn.lean ====
section
/-!
DEFINITION. The time counter's commands (R418-R423), gate configurations (R425-R427, R432) and sequence-recovery resets
(R439).
-/
namespace Sys2Proof.Machine

/-! ## Gate configurations -/

/-- The entry of port `i` that the time counter selects, and the gates, in cycle time (R425). -/
def gateEntry (s : State) (i : Nat) (g : Gcl) : Nat :=
  let x := gateOffset s g
  let segs := gateSegs (gclCycle g) 0 (gateRun s i g)
  g.start + ((segs.findIdx? fun e => decide (e.2.1 ≤ x) && decide (x < e.2.2)).getD (g.len - 1))

/-- TSN_GCL_STAT of port `i` follows its list: an unreadable entry opens every gate until the next cycle begins, which a backward step brings
nearer (R442). -/
def gateFollow (i : Nat) (s : State) : State :=
  match operOf s i with
  | none => s
  | some g =>
    let s0 := settle s
    let next := nowNs s0 - gateOffset s0 g + gclCycle g
    let till := fun (t : Nat) => { s0 with tsn := { s0.tsn with openTill := sPut 0 i t s0.tsn.openTill } }
    let s1 := if nowNs s0 < sGet 0 i s0.tsn.openTill then till (min next (sGet 0 i s0.tsn.openTill))
      else match gateBad s0 i g with
      | none => s0
      | some n => tsnErr (gateAddr i (g.start + n)) (till next)
    let n := gateEntry s1 i g
    wf (TSN_GCL_STAT i) 9 0 n (if rf s1 (TSN_GCL_STAT i) 9 0 = n then s1 else noteCe (gateAddr i n) s1)

/-- The pending configuration of port `i` becomes operational (R426). -/
def gclChange (i : Nat) (g : Gcl) (s : State) : State :=
  let s1 := { s with tsn := { s.tsn with
    oper := sPut none i (some g) s.tsn.oper
    pend := sPut none i none s.tsn.pend
    openTill := sPut 0 i 0 s.tsn.openTill } }
  gateFollow i (raise pageTSN 2 (bump (TSN_CNT 9) (wf (TSN_GCL_STAT i) 31 30 1 s1)))

/-- GCL_CHANGE: at the change time (R426). -/
def changeDue (i : Nat) (s : State) : State :=
  match sGet none i s.tsn.pend with
  | none => s
  | some (g, t) => if 4 * t ≤ nowQ s then gclChange i g s else s

def execGclChange (i : Port) (s : State) : Res := .next (changeDue i.val s)

/-- GATE_ENTRY_ADVANCE: the port's list moves on (R425). -/
def execGateEntryAdvance (i : Port) (s : State) : Res := .next (gateFollow i.val s)

/-- The administrative configuration of port `i`. -/
def admGcl (s : State) (i : Nat) : Gcl :=
  { start := rf s (TSN_GCL_ADM_LIST i) 9 0, len := rf s (TSN_GCL_ADM_LIST i) 26 16, cycle := rf s (TSN_GCL_ADM_CYCLE i) 29 0,
    base := ((rd s (TSN_GCL_ADM_BASE_SEC_LO i)).toNat + rf s (TSN_GCL_ADM_BASE_SEC_HI i) 15 0 * 2 ^ 32) * 1000000000
      + rf s (TSN_GCL_ADM_BASE_NS i) 29 0 }

/-- Change time in ns (R426): the first base + k * cycle at or after the go clock plus 1 us. -/
def changeTime (s : State) (g : Gcl) : Nat :=
  g.base + ceilDiv (nowQ s + 4000 - 4 * g.base) (4 * max (gclCycle g) 1) * gclCycle g

/-- A go of port `i`: refused (R427), or scheduled, replacing a pending one (R426). -/
def gclGo (i : Nat) (s : State) : State :=
  let g := admGcl s i
  if g.cycle = 0 ∨ g.len = 0 ∨ 1024 < g.start + g.len then
    raise pageTSN 3 (recordErr pageTSN 0x02 (TSN_GCL_CTRL i % 0x10000) 0 s)
  else
    wf (TSN_GCL_STAT i) 31 31 1
      { s with tsn := { s.tsn with pend := sPut none i (some (g, changeTime s g)) s.tsn.pend } }

/-- GCL_GO: a write of TSN_GCL_CTRL with its en and its go. -/
def writeGclCtrl (i : Nat) (v : W32) (s : State) : State :=
  let s1 := wr (TSN_GCL_CTRL i) (v &&& 1) s
  if bit v 31 then gclGo i s1 else s1

def execGclGo (i : Port) (v : W32) (s : State) : Res := .next (hostDo (TSN_GCL_CTRL i.val) (writeGclCtrl i.val v) s)

/-! ## The time counter -/

/-- A step of `q` quarter-nanoseconds applied to D: every list moves to the entry of the new time, and changes it passed over
are made (R420, R432). -/
def timeStep (q : Int) (s : State) : State :=
  let s1 := bump (TSN_CNT 10) { s with time := { s.time with d := s.time.d + q } }
  let s2 := (s1.tsn.pend.map fun e => e.1).foldl (fun a i => changeDue i a) s1
  (s2.tsn.oper.map fun e => e.1).foldl (fun a i => gateFollow i a) s2

/-- TSN_STEP: a write of TSN_STEP_NS applies TSN_STEP_SEC * 10^9 + ns (R420). -/
def writeStepNs (v : W32) (s : State) : State :=
  timeStep (4 * (signed 32 (rd s TSN_STEP_SEC).toNat * 1000000000 + signed 32 v.toNat)) s

def execTsnStep (v : W32) (s : State) : Res := .next (hostDo TSN_STEP_NS (writeStepNs v) s)

/-- TSN_TIME_SET: a write of TSN_TIME_SET_NS steps the time counter to the set value (R420). -/
def writeTimeSet (v : W32) (s : State) : State :=
  let sec := (rd s TSN_TIME_SET_SEC_LO).toNat + rf s TSN_TIME_SET_SEC_HI 15 0 * 2 ^ 32
  let s1 := wr TSN_TIME_SET_NS v s
  timeStep (((sec * 4000000000 + v.toNat : Nat) : Int) - nowQ s1) s1

def execTsnTimeSet (v : W32) (s : State) : Res := .next (hostDo TSN_TIME_SET_NS (writeTimeSet v) s)

/-- TIME_READ_LATCH: a read of TSN_TIME_NS latches the seconds of the same instant (R422). -/
def readTimeNs (s : State) : State :=
  let q := nowQ s
  answer (qSub q) (wr TSN_TIME_SEC_HI (w32 (qSec q / 2 ^ 32)) (wr TSN_TIME_SEC_LO (w32 (qSec q)) s))

def execTimeReadLatch (s : State) : Res := .next (hostAsk TSN_TIME_NS readTimeNs s)

/-- TIME_INPUT_LOSS: the selected PTP_CLK10_IN is lost (R419). -/
def execTimeInputLoss (s : State) : Res :=
  .next (if rb s TSN_CLK_CFG 0 && rb s TSN_CLK_CFG 1 then
      raise pageTSN 1 (wf TSN_CLK_CFG 2 1 2 s) else s)

/-- TIME_INPUT_LOCK: the tick locks to PTP_CLK10_IN without a step (R419). -/
def execTimeInputLock (s : State) : Res := .next (if rb s TSN_CLK_CFG 0 then wf TSN_CLK_CFG 2 1 1 s else s)

/-- A write of TSN_CLK_CFG.src: source 0 is neither locked nor in holdover (R419). -/
def writeClkCfg (v : W32) (s : State) : State :=
  let s1 := wf TSN_CLK_CFG 0 0 (fld v 0 0) s
  if bit v 0 then s1 else wf TSN_CLK_CFG 2 1 0 s1

/-! ## Pulse per second -/

/-- Quarter-nanoseconds since E + D less the output offset was last a whole second (R423). -/
def ppsPhase (s : State) : Nat := (((nowQ s : Int) - 4 * signed 20 (rf s TSN_PPS_CFG 19 0)) % 4000000000).toNat

/-- PPS_OUT_PULSE: at a whole second, to the tick, the pin rises for width_us (R423). -/
def execPpsOutPulse (s : State) : Res :=
  .next (if rb s TSN_PPS_CFG 31 && decide (ppsPhase s < 6) then
      { s with tsn := { s.tsn with ppsHigh := true, ppsEnd := eNs s + 1000 * max 1 (rf s TSN_PPS_CFG 29 20) } } else s)

/-- The end of the pulse. -/
def ppsFall (s : State) : State :=
  if s.tsn.ppsHigh && decide (s.tsn.ppsEnd ≤ eNs s) then { s with tsn := { s.tsn with ppsHigh := false } } else s

/-- PPS_IN_CAPTURE: a rising edge of PTP_PPS_IN that the filter confirms (R423). -/
def execPpsInCapture (s : State) : Res :=
  .next (if rb s TSN_PPS_CFG 30 then
      raise pageTSN 0 (wr TSN_PPS_CAP_SEC (w32 (qSec (nowQ s))) (wr TSN_PPS_CAP_NS (w32 (qSub (nowQ s))) s)) else s)

/-! ## Recovery resets (R439) -/

/-- take_any set in function `r`, and the reset counted; an unreadable function is left (R442). -/
def srfReset (r : Nat) (s : State) : State :=
  let s0 := settle s
  let a := srfAddr r
  if !readable s0 a then tsnErr a s0
  else bump (TSN_CNT 7) (engWrite (a + 4) [w32 ((tw s0 (a + 4)).toNat ||| 1)] s0)

/-- SRF_TIMEOUT: no frame of the function has passed for reset_ms on E. A function that takes any number already has nothing to
reset (DEDUCED, log 21). -/
def execSrfTimeout (r : Fin 4096) (s : State) : Res :=
  let s0 := settle s
  let a := srfAddr r
  let ms := fld (tw s0 a) 15 0
  .next (if isOn s0 pageTSN && !readable s0 a then tsnErr a s0
    else if isOn s0 pageTSN && bit (tw s0 a) 31 && ms != 0 && !bit (tw s0 (a + 4)) 0 &&
      decide (sGet 0 r.val s0.tsn.srfLast + ms * 1000000 ≤ eNs s0) then srfReset r.val s0 else s)

/-- SRF_RESET_CMD: a write of the function's number to TSN_SRF_RESET. -/
def execSrfResetCmd (v : W32) (s : State) : Res := .next (hostDo TSN_SRF_RESET (srfReset (fld v 11 0)) s)

/-- The TSN block's own state at its Reset values; E and D stay (R418). -/
def tsnReset (s : State) : State :=
  { s with tsn := { oper := [], pend := [], openTill := [], srfLast := [], ppsHigh := false, ppsEnd := 0 } }

end Sys2Proof.Machine
end

