-- ==== Sys2Proof/Machine/Status.lean ====
section
/-!
DEFINITION. What a read of a register returns: fields that follow the machine's state as it stands, mirrored and governed
fields, counters with their latches, and the access codes (R13-R15).
-/
namespace Sys2Proof.Machine

/-! ## Counter pairs (R101, R562, R630) -/

/-- Is the register at `a` a word of a 64-bit counter pair? The _LO words lie at multiples of 8. -/
def counterWord (s : State) (a : Nat) : Bool := isCounter s.part (a / 0x10000) (a % 0x10000)

/-- The word a latch holds for the register at `a`. -/
def latched (s : State) (a : Nat) : Option W32 := sGet none a s.bus.latch

/-- A latch loaded. -/
def putLatch (a : Nat) (v : Option W32) (s : State) : State :=
  { s with bus := { s.bus with latch := sPut none a v s.bus.latch } }

/-! ## Lifecycle views (R665, R670) -/

/-- Minimum image version (R674): the thermometer's height. -/
def minVer (s : State) : Nat := ((List.range 64).filter fun n => blown s.lcs.vers n).length

/-- Do RWL fields accept writes (R665)? -/
def rwlOpen (s : State) : Bool := decide (lcState s < 2)

/-- Number of bits below `n` that satisfy `p`, as a mask. -/
def maskOf (n : Nat) (p : Nat → Bool) : Nat := (List.range n).foldl (fun a i => a + b2n (p i) * 2 ^ i) 0

/-- LCS_ACCESS (R665). -/
def lcAccess (s : State) : Nat :=
  let st := lcState s
  8 * b2n (rwlOpen s) + 4 * b2n (testOpen s) + 2 * b2n (st == 0 || st == 1 || st == 3) + b2n (st == 0 || st == 1 || st == 3)

/-! ## Registers that follow the state -/

/-- Oldest message slot presented: word `n` of RGR_HIST_Wn (R611). -/
def histWord (s : State) (n : Nat) : W32 :=
  let h := sGet ⟨0, 0, 0, 0, false⟩ (rf s RGR_HIST_SEL 5 0) s.rgr.hist
  match n with
  | 0 => h.lo
  | 1 => h.hi
  | 2 => w32 h.ns
  | 3 => w32 (h.ns / 2 ^ 32)
  | _ => w32 (b2n h.inj * 2 ^ 31 + h.lost)

/-- PRV_EPOCH. -/
def prvEpoch (s : State) : Nat := b2n (anyStaged s) * 2 ^ 24 + liveCount s * 65536 + s.prv.o * 256 + s.prv.c

/-- PRV_DRAIN_CNT_k: the drain count of epoch O + k, 0 for an epoch that is not live. -/
def drainCnt (s : State) (k : Nat) : Nat := if k < liveCount s then sGet 0 ((s.prv.o + k) % 256) s.prv.drain else 0

/-- PRV_DRAIN_VLT: frames of O with a part in the Vault. -/
def drainVlt (s : State) : Nat :=
  (s.frames.filter fun f => f.epoch == s.prv.o && s.copies.any fun c => c.frame == f.id && c.vault.isSome).length

/-- CAT_OCC_STAT: bucket slots of wing `w` with valid = 1. -/
def bucketUsed (s : State) (w : Nat) : Nat :=
  (s.tab.words.filter fun e => decide (catAddr w 0 ≤ e.1) && decide (e.1 < catAddr w 0x100000) && e.1 % 32 == 28 && bit e.2 31).length

/-- DOC_POOL_STAT. -/
def poolStat (s : State) (g : Nat) : Nat :=
  countCores s g coreFenced * 65536 + countCores s g (fun t g c => !coreActive t g c && !coreFenced t g c) * 256 +
    countCores s g coreActive

/-- DOC_DISPATCH_STAT. -/
def dispatchStat (s : State) (g : Nat) : Nat :=
  ringUsed s g * 65536 + countCores s g (fun t g c => coreActive t g c && (coreOf t g c).isNone)

/-- HIF_DMA_STAT_c: stalled while the channel's job waits for its completion ring (R513), or needs host memory that may not be
reached (R533); busy while it waits so or has run and is not completed. -/
def dmaStat (s : State) (c : Nat) : Nat :=
  let done := s.hif.waiting.any fun x => x.owner == 16 + c
  let needs := match runOf s c with
    | some r => r.readBack && !rb s HIF_CFG 0
    | none => match nextJob s c with
      | some d => !d.bad && (d.op == 0 || d.op == 1 || d.op == 4)
      | none => false
  let stalled := done || (needs && !memOk s)
  b2n (stalled || (runOf s c).isSome) * 2 ^ 31 + b2n stalled * 2 ^ 30 + rf s (HIF_DMA_STAT c) 23 0

/-- Fields of block registers that follow the state: the register at offset `x` of page `p`. -/
def liveBlock (s : State) (b : Blk) (sub i p x : Nat) : Option Nat :=
  let a := bar0 p x
  match b, sub with
  | .dev, _ => if 0x400 ≤ x ∧ x < 0x480 then
      some (maskOf 32 fun j => (pageBlk s.part (8 * (x - 0x400) + j)).isSome && isOn s (8 * (x - 0x400) + j)) else none
  | .rgr, _ =>
    if 0x120 ≤ x ∧ x < 0x134 then some (histWord s ((x - 0x120) / 4)).toNat
    else if 0x400 ≤ x ∧ x < 0x480 then
      some (maskOf 32 fun j => (pageBlk s.part (8 * (x - 0x400) + j)).isSome && pendBit s (8 * (x - 0x400) + j)) else none
  | .lcs, _ =>
    if x = 0x100 then some (minVer s * 65536 + ((List.range 5).filter fun n => n != 0 && blown s.lcs.pairs n).length * 256 + lcState s)
    else if x = 0x104 then some (Config.uid.toNat % 2 ^ 32)
    else if x = 0x108 then some (Config.uid.toNat / 2 ^ 32)
    else if x = 0x124 then some (maskOf 4 (blown s.lcs.revs) * 16 + maskOf 4 (blown s.lcs.keys))
    else if x = 0x12C then some (lcAccess s) else none
  | .lnk, 0 => if a = LNK_HB_STAT i then some (hbDesc s i * 65536 + hbKib s i) else none
  | .lnk, 3 => if 0x110 ≤ x ∧ x < 0x120 then some (tsWord s i ((x - 0x110) / 4)) else none
  | .doc, _ =>
    if a = DOC_POOL_STAT i then some (poolStat s i) else if a = DOC_DISPATCH_STAT i then some (dispatchStat s i) else none
  | .cat, _ =>
    if a = CAT_LEARN_STAT i then some ((sGet [] i s.cat.filter).length * 65536 + (sGet [] i s.cat.learnQ).length)
    else if a = CAT_OCC_STAT i then some (bucketUsed s i)
    else if a = CAT_OVF_STAT i then some (ovfUsed s i) else none
  | .lpm, _ =>
    if a = LPM_OCC_STAT i then some (unitsUsed s)
    else if a = LPM_POOL_STAT i then some ((memberBlocks s).foldl (fun n m => n + m.2) 0) else none
  | .vit, _ =>
    if VIT_BANK_STAT i 0 ≤ a ∧ a < VIT_BANK_STAT i 16 then
      some ((vitValid s i).filter fun br => br.1 == (a - VIT_BANK_STAT i 0) / 4).length else none
  | .prv, _ =>
    if x = 0x104 then some (prvEpoch s)
    else if 0x110 ≤ x ∧ x < 0x120 then some (drainCnt s ((x - 0x110) / 4))
    else if x = 0x120 then some (drainVlt s)
    else if x = 0x128 then
      let n := (marksOf s s.prv.o).length
      some (b2n (decide (0 < n)) * 2 ^ 31 + s.prv.o * 65536 + min n 0xFFFF) else none
  | .hif, 4 => if HIF_DMA_STAT 0 ≤ a ∧ a ≤ HIF_DMA_STAT 15 then some (dmaStat s ((a - HIF_DMA_STAT 0) / 4)) else none
  | .tmg, 0 => if a = TMG_WHEEL_STAT then some (eNs s / 4 % 16384 * 65536 + s.tmg.wheel.length) else none
  | .anx, _ =>
    if ANX_CHAN_STAT 0 ≤ a ∧ a ≤ ANX_CHAN_STAT 15 ∧ (a - ANX_CHAN_STAT 0) % 8 = 0 then
      let c := (a - ANX_CHAN_STAT 0) / 8
      some (rf s a 31 16 * 65536 + rxUsed (collectRx s) c) else none
  | _, _ => none

/-- The register whose stored word a read of `a` shows: CTRL, STATE and FENCE of a mirroring page are those of its sub-page 0
(R693), and the fields that Wing E governs read the Wing E value in the Wing W page (R149, R211, R253, R286). -/
def shownAt (s : State) (a : Nat) : Nat :=
  let p := a / 0x10000
  let x := a % 0x10000
  if x = 0x8 ∨ x = 0xC ∨ x = 0x1C then bar0 (home p) x
  else match pageBlk s.part p with
    | some (.prv, _, 1) => if 0x100 ≤ x then bar0 (pagePRV 0) x else a
    | some (.cat, _, 1) => if 0x120 ≤ x ∧ x < 0x140 then bar0 (pageCAT 0) x else a
    | some (.lpm, _, 1) => if x = 0x10C then bar0 (pageLPM 0) x else a
    | some (.vit, _, 1) => if 0x110 ≤ x ∧ x < 0x150 then bar0 (pageVIT 0) x else a
    | _ => a

/-- CAT_CFG of Wing W: seed_sel and age_en are Wing E's (R149). -/
def catCfgShown (s : State) (v : W32) : W32 :=
  setFld (setFld v 17 16 (rf s (CAT_CFG 0) 17 16)) 0 0 (rf s (CAT_CFG 0) 0 0)

/-- The word behind the register at `a`, before its access codes: a counter's low word or latch, a live value, or the stored
word. FENCE.fenced follows STATE. -/
def rawValue (s : State) (a : Nat) : W32 :=
  let b := shownAt s a
  let p := b / 0x10000
  let x := b % 0x10000
  if counterWord s b then
    (if x % 8 = 0 then w32 (ctr s b) else (latched s b).getD 0)
  else if x = 0x24 ∨ x = 0x28 then (latched s b).getD (rd s b)
  else if x = 0x1C then setFld (rd s b) 31 31 (b2n (blkState s p == 4))
  else match pageBlk s.part p with
    | none => 0
    | some (k, sub, i) =>
      match (if x < 0x100 then none else liveBlock s k sub i p x) with
      | some v => w32 v
      | none => if a = CAT_CFG 1 then catCfgShown s (rd s a) else rd s b

/-- What a read of the register at `a` returns, where its page answers: zero in a reserved register or field and in write-only
fields (R14, R15). -/
def readValue (s : State) (a : Nat) : W32 :=
  if counterWord s a then rawValue s a
  else match cardOfReg s.part (a / 0x10000) (a % 0x10000) with
    | none => 0
    | some (c, _, _) => cardRead c (rawValue s a)

/-- COUNTER_LO_READ: the low word, with the high word latched for the next read of the pair. A _HI word returns what the last
read of _LO latched. -/
def readCounter (a : Nat) (s : State) : State :=
  let b := shownAt s a
  if !counterWord s b then answer (readValue s a).toNat s
  else if b % 8 = 0 then answer (ctr s b % 2 ^ 32) (putLatch (b + 4) (some (w32 (ctr s b / 2 ^ 32))) s)
  else answer ((latched s b).getD 0).toNat s

def execCounterLoRead (a : Bar0) (s : State) : Res := .next (hostAsk (a.toNat / 4 * 4) (readCounter (a.toNat / 4 * 4)) s)

/-- ERR_CAUSE_READ: a read of ERR_CAUSE latches the addresses of the same record (R692). -/
def readErrCause (p : Nat) (s : State) : State :=
  answer (rd s (H_ERR_CAUSE p)).toNat
    (putLatch (H_ERR_ADDR_HI p) (some (rd s (H_ERR_ADDR_HI p))) (putLatch (H_ERR_ADDR_LO p) (some (rd s (H_ERR_ADDR_LO p))) s))

def execErrCauseRead (p : Page) (s : State) : Res := .next (hostAsk (H_ERR_CAUSE p.val) (readErrCause p.val) s)

/-- ERR_CAUSE_CLEAR: a write of any value clears the record (R692). -/
def clearErr (p : Nat) (s : State) : State :=
  wr (H_ERR_CAUSE p) 0 (wr (H_ERR_ADDR_LO p) 0 (wr (H_ERR_ADDR_HI p) 0
    (putLatch (H_ERR_ADDR_LO p) none (putLatch (H_ERR_ADDR_HI p) none s))))

def execErrCauseClear (p : Page) (s : State) : Res := .next (hostDo (H_ERR_CAUSE p.val) (clearErr p.val) s)

end Sys2Proof.Machine
end

