-- ==== Sys2Proof/Machine/Ldg.lean ====
section
/-!
DEFINITION. The Ledger (chapter 18): event counters, levels, wraps and chains, clears and user pages.
-/
namespace Sys2Proof.Machine

/-- The value of level source `c` of group `g` at instance `i`: what its register would return (R561). -/
def level (s : State) (g c i : Nat) : Nat :=
  match g, c with
  | 0, _ => hbKib s i
  | 1, 0x80 => ringUsed s i
  | 1, _ => countCores s i fun t g c => coreActive t g c && (coreOf t g c).isNone
  | 2, 0x80 => (sGet [] i s.cat.learnQ).length
  | 2, _ => ovfUsed s i
  | 3, _ => unitsUsed s
  | 5, _ => liveCount s
  | 6, 0x80 => rf s HAL_USE_STAT 20 0
  | 6, _ => rf s (HAL_Q_USE i) 20 0
  | 7, 0x80 => rf s DPT_FREE_STAT 20 0
  | 7, _ => rf s (DPT_POOL_STAT i) 20 0
  | 8, _ => s.tmg.wheel.length
  | 10, 0x80 => rf s (VLT_Q_STAT i) 26 0
  | 10, 0x81 => rf s (VLT_POOL_STAT i) 23 0
  | 10, _ => rf s VLT_MODE_STAT 13 0
  | _, _ => 0

/-- Instances that exist of a kind. -/
def instances (part : OrderCode) (k : Inst) : List Nat := (List.range 8448).filter (instOk part k)

/-! ## Counters (R557, R558, R560) -/

/-- What counter `n` of group `g` adds for the waiting events, `core` core clocks, `aon` always-on clocks and `us`
microseconds of E (R558, R559, R561). -/
def addsOf (s : State) (g n core aon us : Nat) : Nat :=
  let cfg := rd s (LDG_CTR_CFG g n)
  let sg := srcGroup g cfg
  let c := fld cfg 23 16
  let i := fld cfg 13 0
  match fld cfg 30 29 with
  | 0 => if sg = 13 then [core, aon, us].getD c 0 else s.bus.ldgQ.foldl (fun a e => a + eventAdds g cfg e) 0
  | 1 => if (rd s (LDG_CTR_THR g n)).toNat < level s sg c i then core else 0
  | 2 =>
    if i = 0x3FFF then
      (match levelInst sg c with
        | some k => core * (instances s.part k).foldl (fun a j => a + level s sg c j) 0
        | none => 0)
    else core * level s sg c i
  | _ => 0

/-- One wrap's consequences (R563, R564): its overflow bit, INT_STAT.ovf and a chained counter. -/
def wrapOne (g n k : Nat) (s : State) : State :=
  let s1 := { s with bus := { s.bus with wraps := sPut 0 (64 * g + n) 0 s.bus.wraps } }
  let s2 := wr (LDG_OVF g (n / 32)) (rd s1 (LDG_OVF g (n / 32)) ||| w32 (2 ^ (n % 32))) s1
  let s3 := raiseFirst (pageLDG g) 0 s2
  if n < 63 ∧ rb s (LDG_CTR_CFG g n) 28 ∧ rb s (LDG_CTR_CFG g (n + 1)) 31 ∧ isOn s (pageLDG g) then ctrAdd g (n + 1) k s3 else s3

/-- LEDGER_WRAP: a counter that has wrapped. -/
def execLedgerWrap (l : Fin 16) (n : Fin 64) (s : State) : Res :=
  let k := sGet 0 (64 * l.val + n.val) s.bus.wraps
  .next (if k = 0 then s else wrapOne l.val n.val k s)

/-- The wraps of the clocks before, processed. -/
def settleWraps (s : State) : State := s.bus.wraps.foldl (fun a e => wrapOne (e.1 / 64) (e.1 % 64) e.2 a) s

/-- The Ledger's part of a clock: waiting events and levels added to every counter that counts, and the events taken
(R561). -/
def ledgerTick (core aon us : Nat) (s : State) : State :=
  let s1 := (List.range 16).foldl (fun a g =>
    if isOn s (pageLDG g) then
      (List.range 64).foldl (fun b n => if counts s g n then ctrAdd g n (addsOf s g n core aon us) b else b) a
    else a) s
  { s1 with bus := { s1.bus with ldgQ := [] } }

/-! ## Registers -/

/-- A write of LDG_CTR_CFG_n or LDG_CTR_THR_n keeps the count; a configuration with en 1 that counts nothing is recorded (R560,
R576; log 30). -/
def writeCtrCfg (g n : Nat) (v : W32) (s : State) : State :=
  let s1 := wr (LDG_CTR_CFG g n) (v &&& 0xFFFF3FFF) s
  if bit v 31 ∧ !chainedCtr s g n ∧ !cfgCounts s.part g v then recordErr (pageLDG g) 0x02 (LDG_CTR_CFG g n % 65536) 0 s1 else s1

/-- Counters of a mask set to zero (R565): LO for counters 0-31, HI for 32-63. -/
def clearCtrs (g : Nat) (hi : Bool) (v : W32) (s : State) : State :=
  (setBits 32 v.toNat).foldl (fun a j =>
    { a with bus := { a.bus with ctr := sPut 0 (LDG_CTR g (32 * b2n hi + j)) 0 a.bus.ctr } }) s

/-- COUNTER_CLEAR: a write of LDG_CTR_CLR. -/
def execCounterClear (l : Fin 16) (hi : Bool) (v : W32) (s : State) : Res :=
  .next (hostDo (LDG_CTR_CLR l.val (b2n hi)) (clearCtrs l.val hi v) s)

/-! ## User pages (R572-R574) -/

/-- Half of LDG_USER_STAT counted up, saturating: 0 denied reads, 16 writes. -/
def userStat (lo : Nat) (s : State) : State := incSat (LDG_USER_STAT 0) (lo + 15) lo s

/-- The word at dword index `k` of user page `g`, a _LO word latching the _HI word of its counter; the rest of the page reads
zero. -/
def userWord (g k : Nat) (s : State) : Nat × State :=
  if 128 ≤ k then (0, s)
  else if k % 2 = 0 then
    let v := ctr s (LDG_CTR g (k / 2))
    (v % 2 ^ 32, { s with ldg := { s.ldg with userLatch := sPut 0 g (w32 (v / 2 ^ 32)) s.ldg.userLatch } })
  else ((sGet 0 g s.ldg.userLatch).toNat, s)

/-- USER_PAGE_READ: a BAR2 read of 4 bytes, or of 8 with `wide`. A read that is not naturally aligned is answered with free values
(log 3): the spec states no result. -/
def execUserPageRead (off : BitVec 16) (wide : Bool) (s : State) : Res :=
  let g := off.toNat / 4096
  let k := off.toNat % 4096 / 4
  if heldPage s (pageLDG g) ∨ blkState s (pageLDG g) = 4 then .next (answer 0 s)
  else if !rb s (LDG_USER_CFG 0) g then .next (answer 0 (userStat 0 s))
  else if off.toNat % (if wide then 8 else 4) ≠ 0 then
    let a := drawFree s
    let b := drawFree a.2
    .next (answer (a.1.toNat + (if wide then b.1.toNat * 2 ^ 32 else 0)) b.2)
  else if wide then .next (answer (if 128 ≤ k then 0 else ctr s (LDG_CTR g (k / 2))) s)
  else .next (let r := userWord g k s; answer r.1 r.2)

/-- USER_PAGE_WRITE: ignored, counted and flagged. -/
def execUserPageWrite (_off : BitVec 16) (s : State) : Res :=
  .next (if heldPage s (pageLDG 0) then s else raise (pageLDG 0) 2 (userStat 16 s))

/-- LDG_USER_STAT_READ: returns and clears the counts. -/
def readUserStat (s : State) : State := wr (LDG_USER_STAT 0) 0 (answer (rd s (LDG_USER_STAT 0)).toNat s)

def execLdgUserStatRead (s : State) : Res := .next (hostAsk (LDG_USER_STAT 0) readUserStat s)

end Sys2Proof.Machine
end

