-- ==== Sys2Proof/Machine/Rgr.lean ====
section
/-!
DEFINITION. The Registrar (chapter 20): coded messages and the history, fences, releases, and the spare gallery.
-/
namespace Sys2Proof.Machine

/-! ## Starting a block (R686, R660, R667) -/

/-- May a block leave OFF: in RETIRED no block of tiers 2-4 may (R667), and CUR waits for Vubex (R660). -/
def mayLeaveOff (s : State) (p : Nat) : Bool :=
  !heldPage s p &&
  (match pageBlk s.part p with
    | some (b, _, _) => !(lcState s == 4 && decide (2 ≤ blkTier b)) && (b != .cur || rf s PWR_BOOT_STAT 3 0 == 0xB)
    | none => false)

/-- An OFF block whose enable is 1 enters STARTING. -/
def startBlk (p : Nat) (s : State) : State := if mayLeaveOff s p then setBlk p 1 s else s

/-- STATE.reenable_pending of page `p` set. -/
def setReenable (p v : Nat) (s : State) : State := wf (H_STATE (home p)) 8 8 v s

/-- A block that comes to OFF, and starts again where an enable is latched (R61, R617). -/
def toOff (p : Nat) (s : State) : State :=
  let s1 := setBlk p 0 s
  if reenable s p then startBlk p (setReenable p 0 s1) else s1

/-! ## Fences (R613-R617) -/

/-- Blocks that are never fenced (R613). -/
def neverFenced : Blk → Bool
  | .dev | .pwr | .lcs | .rgr | .hif => true
  | _ => false

/-- Blocks whose fence sets core_fenced (R615). -/
def coreBlk : Blk → Bool
  | .cat | .lpm | .vit | .prv | .hal | .dpt | .tmg | .lnk => true
  | _ => false

/-- The FENCED state of page `p`'s block with the kind that fenced it. -/
def fencePage (p kind : Nat) (byHost : Bool) (s : State) : State :=
  setBlk p 4 (wf (H_FENCE (home p)) 13 8 kind (wf (H_FENCE (home p)) 2 2 (b2n byHost) s))

/-- The frames that gallery `g` holds between dispatch and the first Hall write are lost, with their pending learns, and leave the
drain counts (R281, R623): those on its cores and in its ring, and, where all its logic goes, those released to the lookups. -/
def loseGalFrames (all : Bool) (g : Nat) (s : State) : State :=
  let fs := s.frames.filter fun f => f.gal == g && (f.stage == .core || f.stage == .ring || (all && f.stage == .lookup))
  let s1 := fs.foldl (fun a f => bump (PRV_CNT 0 8) (discardFrame f a)) s
  { s1 with doc := { s1.doc with cores := s1.doc.cores.filter fun e => e.1 / 168 != g } }

/-- What the chiplet and the traffic manager lose with the gallery that carries `ports` (R92, R623): the hold buffer's contents as
takeover drops, and frames in transmission stomped; copies selected and not yet sent are dropped as to a fenced port (log
31). -/
def cutPorts (ports : List Nat) (s : State) : State :=
  let held := s.frames.filter fun f => f.stage == .hold && decide (f.port < 512) && ports.contains f.port
  let s1 := held.foldl (fun a f => delFrame f.id (portCnt f.port 12 1 a)) s
  let cs := s1.copies.filter fun c => ports.contains c.port && c.stage != .queued
  cs.foldl (fun a c => if c.stage = .sending then txStomp c.port c a else dropCopy 0x09 c (countDown c.port a)) s1

/-- RGR_SPARE_STAT.gs_fenced. -/
def gsFenced (v : Bool) (s : State) : State := wf RGR_SPARE_STAT 30 30 (b2n v) s

/-- Gallery `g` FENCED: its DOC, EDT and GAL pages, its frames and what its ports lose. -/
def fenceGal (g kind : Nat) (byHost : Bool) (s : State) : State :=
  let ports := galPorts s g
  let s1 := cutPorts ports (loseGalFrames true g s)
  let s2 := [pageDOC g, pageEDT g, pageGAL g].foldl (fun a p => fencePage p kind byHost a) s1
  let s3 := bump (RGR_CNT 3) (setGalState g 3 s2)
  if g = 8 then gsFenced true s3 else s3

/-! ## The spare gallery (R618-R626) -/

/-- Is a takeover or give-back under way (RGR_SPARE_STAT.busy)? -/
def spareRuns (s : State) : Bool := rb s RGR_SPARE_STAT 31

/-- Gallery that GS serves, 15 for none. -/
def spareTarget (s : State) : Nat := rf s RGR_SPARE_STAT 19 16

/-- Is GS neither in service nor fenced, and free of a transition? -/
def gsReady (s : State) : Bool := spareTarget s == 15 && !galFenced s 8 && !spareRuns s

/-- A takeover cannot start or complete (R624). -/
def takeoverFails (s : State) : State := raise pageRGR 3 (bump (RGR_CNT 5) s)

/-- Gallery `g` ACTIVE from PARKED or DORMANT (R621, R634, R637). -/
def wakeNow (g : Nat) (s : State) : State :=
  match galState s g with
  | 1 | 4 => bump (PWR_CNT 1) (setGalState g 0 s)
  | 2 => bump (PWR_CNT 3) (setGalState g 0 s)
  | _ => s

/-- One copied field register of page `p` loaded into page `q` (R619): its writable fields. -/
def loadField (p q x : Nat) (s : State) : State :=
  match cardOfReg s.part p x with
  | none => s
  | some (c, _, _) => wr (bar0 q x) (cardWrite c true (rd s (bar0 q x)) (rd s (bar0 p x))) s

/-- The configuration fields that page `p` or `q` holds away from their Reset values, copied from `p` to `q`. -/
def loadPage (p q : Nat) (s : State) : State :=
  let xs := (s.bus.regs.filter fun e => (e.1 / 0x10000 == p || e.1 / 0x10000 == q) && copied s.part p (e.1 % 0x10000)).map fun e => e.1 % 0x10000
  xs.foldl (fun a x => loadField p q x a) s

/-- Gallery `k`'s configuration loaded into the GS pages, and the DOC, EDT and GAL of GS ON (R619, R621). -/
def loadGs (k : Nat) (s : State) : State :=
  let s1 := loadPage (pageGAL k) (pageGAL 8) (loadPage (pageEDT k) (pageEDT 8) (loadPage (pageDOC k) (pageDOC 8) s))
  [pageDOC 8, pageEDT 8, pageGAL 8].foldl (fun a p => wf (H_CTRL p) 0 0 1 (setBlk p 2 a)) s1

/-- GS wakes for a takeover: its ramp goes first (R639), so from DORMANT it waits only for one that runs already. -/
def wakeGs (s : State) : State := if galState s 8 = 2 ∧ ramping s ≠ 15 ∧ ramping s ≠ 8 then s else wakeNow 8 s

/-- The takeover of a fenced gallery `k` proceeds (R621): its primary link stops, GS wakes with `k`'s configuration, in its wing,
and the chiplet's link is being switched. -/
def proceedTakeover (k : Nat) (s : State) : State :=
  let s1 := wf RGR_SPARE_STAT 31 31 1 (wf RGR_SPARE_STAT 19 16 k (wf (LNK_D2D_STAT k) 1 1 0 s))
  loadGs k (wakeGs { s1 with rgr := { s1.rgr with switching := some (k, false), planned := none } })

/-- Takeover of gallery `k` when GS and the standby link allow it; it fails otherwise (R618, R624). -/
def startTakeover (k : Nat) (s : State) : State :=
  if gsReady s && rb s (LNK_D2D_STAT k) 2 then proceedTakeover k s else takeoverFails s

/-- GS has faulted: in standby no spare is left; before link_sel reads 1 its takeover fails (R624); in service the gallery it
replaced has no gallery (R29). -/
def gsFaults (before s : State) : State :=
  if spareTarget before = 15 then raise pageRGR 4 s
  else match before.rgr.switching with
    | some _ => takeoverFails (wf RGR_SPARE_STAT 31 31 0 (wf RGR_SPARE_STAT 19 16 15
        { s with rgr := { s.rgr with switching := none, planned := none } }))
    | none => wf RGR_SPARE_STAT 31 31 0 { s with rgr := { s.rgr with planned := none } }

/-- A planned takeover or give-back of gallery `g` that still waits for a DOC block to stop gives way to a fault of `g`. -/
def dropPlan (g : Nat) (s : State) : State :=
  match s.rgr.planned with
  | some (k, _) => if k = g then wf RGR_SPARE_STAT 31 31 0 { s with rgr := { s.rgr with planned := none } } else s
  | none => s

/-- A fault of gallery `g`: fenced, and a takeover by GS when allowed (R618). -/
def galFault (g kind : Nat) (byHost : Bool) (s : State) : State :=
  if galFenced s g then s
  else
    let carried := (carries s g).isSome
    let s1 := raise pageRGR 1 (fenceGal g kind byHost (dropPlan g s))
    if g = 8 then gsFaults s s1
    else if carried && rb s RGR_SPARE_CFG 0 && (!byHost || rb s RGR_SPARE_CFG 1) then startTakeover g s1
    else s1

/-- A block fenced, with the fence effect of its fault row (R615). -/
def fenceBlock (p kind : Nat) (byHost : Bool) (s : State) : State :=
  match pageBlk s.part p with
  | none => s
  | some (b, _, i) =>
    if neverFenced b ∨ blkState s p = 4 then s
    else if b = .gal then galFault i kind byHost s
    else
      let s1 := bump (RGR_CNT 3) (fencePage p kind byHost s)
      let s2 := if coreBlk b then raise pageRGR 7 s1 else s1
      match b with
      | .lnk => lnkStop i s2
      | .vlt => vaultFlush s2
      | .anx => anxStop s2
      | .vit => vitPark stTABLE_OFF s2
      | .prv => prvPark stTABLE_OFF s2
      | _ => s2

/-- HOST_FENCE: a write of FENCE.fence (R616), reported as kind 0x1E. A mirrored FENCE ignores writes. -/
def hostFence (p : Nat) (s : State) : State :=
  match pageBlk s.part p with
  | some (b, _, _) =>
    if neverFenced b || home p != p || blkState s p == 4 then s
    else fenceBlock p 0x1E true (reportFault p 0x1E 0 false s)
  | none => s

def execHostFence (p : Page) (s : State) : Res := .next (hostDo (H_FENCE p.val) (hostFence p.val) s)

/-- FENCE_RELEASE: a write of FENCE.release (R617). -/
def fenceRelease (p : Nat) (s : State) : State :=
  if home p != p || blkState s p != 4 then s
  else
    let s1 := match pageBlk s.part p with
      | some (.gal, _, g) => (if g = 8 then gsFenced false else id) (setGalState g 0 s)
      | some (.cur, _, _) => wf CUR_STAT 2 1 0 s
      | _ => s
    toOff p s1

def execFenceRelease (p : Page) (s : State) : Res := .next (hostDo (H_FENCE p.val) (fenceRelease p.val) s)

/-- Does page `p` report fault kind `k` as a fault of the whole block (R615)? -/
def reportsBlock (b : Blk) (k : Nat) : Bool :=
  match b with
  | .cat | .lpm | .vit | .prv => k == 0x0F
  | .hal | .dpt | .tmg | .vlt | .tsn | .arc | .ldg | .csv | .anx => k == 0x10
  | .lnk => k == 0x11 || k == 0x12
  | .gal => k == 0x06
  | _ => false

/-- BLOCK_FAULT: a block reports a logic fault (kinds 0x0F-0x11), fencing it, or errored codewords of a lane (kind 0x12, reported
only). -/
def execBlockFault (p : Page) (kind : Fin 64) (addr : BitVec 40) (s : State) : Res :=
  match pageBlk s.part p with
  | some (b, _, _) =>
    if reportsBlock b kind && !heldPage s p then
      let s1 := reportFault p kind addr.toNat false s
      .next (if kind.val = 0x12 then s1 else fenceBlock p kind false s1)
    else .next s
  | none => .next s

/-- GALLERY_FAULT: kind 0x06 of a gallery (R615). An uncorrectable error in its state sets the GAL page's store_err (R662) and is
recorded (R691, code 0x03); the spec gives such state no address. -/
def execGalleryFault (g : Gallery) (ue : Bool) (s : State) : Res :=
  .next (if galPresent s.part g && !heldPage s (pageGAL g) then
    let s1 := if ue then raise (pageGAL g) 0 (recordErr (pageGAL g) 0x03 0 0 s) else s
    galFault g 0x06 false (reportFault (pageGAL g) 0x06 0 false s1)
  else s)

/-- The link of chiplet `k` fails (R90): the primary as a fault of the gallery it serves (kind 0x07), the standby as kind 0x08 with
standby_lost (R615). -/
def linkFails (k : Nat) (standby : Bool) (s : State) : State :=
  let s1 := raise (pageLNK k) 2 s
  if standby then reportFault (pageLNK k) 0x08 0 false (raise (pageLNK k) 5 (wf (LNK_D2D_STAT k) 2 2 0 s1))
  else galFault k 0x07 false (reportFault (pageLNK k) 0x07 0 false (wf (LNK_D2D_STAT k) 1 1 0 s1))

/-- FLIT_RETRY: a flit is resent and counted (R89); sixteen failures in succession are a link fault (R90). -/
def execFlitRetry (k : Chiplet) (standby : Bool) (ok : Bool) (s : State) : Res :=
  let key := 2 * k.val + b2n standby
  if (!isOn s (pageLNK k) && blkState s (pageLNK k) != 3) || !rb s (LNK_D2D_STAT k) (if standby then 2 else 1) then .next s
  else
    let n := if ok then 0 else sGet 0 key s.lnk.fails + 1
    let s1 := incSat (LNK_D2D_STAT k) 31 16 { s with lnk := { s.lnk with fails := sPut 0 key (n % 16) s.lnk.fails } }
    .next (if n = 16 then linkFails k.val standby s1 else s1)

/-! ## Planned takeover and give-back (R626) -/

/-- Are the DOC, EDT and GAL blocks of gallery `g` ON? -/
def galOn (s : State) (g : Nat) : Bool := isOn s (pageDOC g) && isOn s (pageEDT g) && isOn s (pageGAL g)

/-- A DOC block asked to stop as R137 states. -/
def stopDoc (g : Nat) (s : State) : State := if isOn s (pageDOC g) then setBlk (pageDOC g) 3 s else s

/-- A planned takeover of an ON gallery, which wakes it (R634): its DOC stops first. -/
def plannedTakeover (g : Nat) (s : State) : State :=
  if spareRuns s || !galPresent s.part g || !galOn s g || (carries s g).isNone then s
  else if gsReady s && rb s (LNK_D2D_STAT g) 2 then
    stopDoc g (wakeGal g (wf RGR_SPARE_STAT 31 31 1 { s with rgr := { s.rgr with planned := some (g, false) } }))
  else takeoverFails s

/-- A give-back to gallery `g`, which wakes it (R634): the DOC of GS stops first. -/
def giveBack (g : Nat) (s : State) : State :=
  if spareRuns s || spareTarget s != g || !galOn s g then s
  else stopDoc 8 (wakeGal g (wf RGR_SPARE_STAT 31 31 1 { s with rgr := { s.rgr with planned := some (g, true) } }))

/-- The DOC block of gallery `g` has stopped: a plan that waited for it goes on (R621, R626). The gallery of a planned takeover is
FENCED as R621 states, with kind 0x1E and by_host 0 (log 31). -/
def docStopped (g : Nat) (s : State) : State :=
  match s.rgr.planned with
  | some (k, false) =>
    if k = g then
      let s1 := fenceGal k 0x1E false { s with rgr := { s.rgr with planned := none } }
      if !galFenced s 8 && rb s (LNK_D2D_STAT k) 2 then proceedTakeover k s1
      else takeoverFails (wf RGR_SPARE_STAT 31 31 0 s1)
    else s
  | some (k, true) =>
    if g = 8 then { s with rgr := { s.rgr with planned := none, switching := some (k, true) } } else s
  | none => s

/-- RGR_SPARE_CMD written: op and gallery stored, and with go = 1 the operation run unless one runs. -/
def writeSpareCmd (v : W32) (s : State) : State :=
  let s1 := wr RGR_SPARE_CMD (v &&& 0x10000007) s
  if !bit v 31 then s1 else if bit v 28 then giveBack (fld v 2 0) s1 else plannedTakeover (fld v 2 0) s1

/-- PLANNED_TAKEOVER: RGR_SPARE_CMD with op 0. -/
def execPlannedTakeover (g : Fin 8) (s : State) : Res :=
  .next (hostDo RGR_SPARE_CMD (writeSpareCmd (w32 (2 ^ 31 + g.val))) s)

/-- GIVE_BACK: RGR_SPARE_CMD with op 1. -/
def execGiveBack (g : Fin 8) (s : State) : Res :=
  .next (hostDo RGR_SPARE_CMD (writeSpareCmd (w32 (2 ^ 31 + 2 ^ 28 + g.val))) s)

/-- TAKEOVER_LINK_SWITCH: the chiplet's link has switched, `ms` milliseconds (rounded up) after the takeover began: to the standby
link, or back to the primary in a give-back (R621, R626). A GS that waits for its ramp switches nothing yet. -/
def execTakeoverLinkSwitch (ms : BitVec 16) (s : State) : Res :=
  match s.rgr.switching with
  | none => .next s
  | some (k, back) =>
    if !back && galState s 8 == 2 then .next s
    else
    let s1 := wf RGR_SPARE_STAT 31 31 0 { s with rgr := { s.rgr with switching := none } }
    if back then
      .next (bump (RGR_CNT 6) (wf RGR_SPARE_STAT 19 16 15 (wf (LNK_D2D_STAT k) 1 0 2 s1)))
    else .next (raise pageRGR 2 (bump (RGR_CNT 4) (wf RGR_SPARE_STAT 15 0 ms.toNat (wf (LNK_D2D_STAT k) 0 0 1 s1))))

/-! ## Coded messages (R608-R612) -/

/-- The source whose message is taken next: round-robin on source after the one served last (R610). -/
def nextSource (s : State) : Option Nat :=
  ((List.range 1024).map fun i => (s.rgr.rr + 1 + i) % 1024).find? fun p => s.bus.msgQ.any fun m => m.source == p

/-- The 64 bits of a message (R608). -/
def msgBits (m : Msg) : Nat := m.source * 2 ^ 54 + m.kind % 64 * 2 ^ 48 + m.addr % 2 ^ 40 * 256 + m.seq % 256

/-- The RGR event bits that a fault kind of a page raises (R615). "No spare remains" holds while a failed bank has none
(log 31). -/
def kindAlerts (s : State) (m : Msg) : List Nat :=
  let blk := match pageBlk s.part m.source with
    | some (b, _, _) => some b
    | none => none
  let isCore := match blk with | some b => coreBlk b | none => false
  match m.kind with
  | 0x02 => [5]
  | 0x03 => if s.hal.fenced.isEmpty then [] else [4]
  | 0x04 => if s.vit.failed.isEmpty then [] else [4]
  | 0x06 | 0x07 => [1]
  | 0x0E => [6]
  | 0x0F | 0x11 => [7]
  | 0x10 => if isCore then [7] else []
  | 0x16 => [8]
  | 0x1E => if blk = some .gal then [1] else if isCore then [7] else []
  | _ => []

/-- A message recorded in the history (R611, R612). -/
def recordMsg (m : Msg) (s : State) : State :=
  let last := sGet 0 m.source s.rgr.lastSeq
  let lost := if last = 0 then m.seq % 256 else (m.seq + 512 - (last - 1) - 1) % 256
  let tot := rd s RGR_HIST_TOTAL
  let h : Hist := ⟨w32 (msgBits m), w32 (msgBits m / 2 ^ 32), nowNs s, lost, m.inj⟩
  let s1 := wr RGR_HIST_TOTAL (tot + 1) { s with rgr := { s.rgr with
    hist := sPut ⟨0, 0, 0, 0, false⟩ (tot.toNat % 64) h s.rgr.hist
    lastSeq := sPut 0 m.source (m.seq % 256 + 1) s.rgr.lastSeq } }
  let s2 := bump (RGR_CNT 0) (if m.inj then bump (RGR_CNT 2) s1 else s1)
  if lost = 0 then s2 else raise pageRGR 0 (bumpN (RGR_CNT 1) lost s2)

/-- A message of kind 0x20-0x3F from a page that cannot be reached sets its pending bit (R606). -/
def notePending (m : Msg) (s : State) : State :=
  if 0x20 ≤ m.kind && unreachable s m.source && !s.rgr.unrPend.contains m.source then
    pendEdge m.source (pendBit s m.source) { s with rgr := { s.rgr with unrPend := s.rgr.unrPend ++ [m.source] } }
  else s

/-- CODED_MESSAGE: the Registrar takes one message. The reactions that fence have run with the fault (R618, BLOCK_FAULT); what is
left is the history and the Registrar's own events. -/
def execCodedMessage (s : State) : Res :=
  match nextSource s with
  | none => .next s
  | some p => match s.bus.msgQ.find? fun m => m.source == p with
    | none => .next s
    | some m =>
      let s1 := { s with bus := { s.bus with msgQ := s.bus.msgQ.erase m }, rgr := { s.rgr with rr := p } }
      let s2 := notePending m (recordMsg m s1)
      let s3 := if m.kind = 0x02 then bump (RGR_CNT 7) s2 else s2
      .next ((kindAlerts s3 m).foldl (fun a b => raiseAs m.inj pageRGR b a) s3)

/-- INJECT_MESSAGE: a write of RGR_INJ_MSG_HI puts the two words into the arbiter as a message of their source, with inj (R628). -/
def injectMsg (v : W32) (s : State) : State :=
  let lo := rd s RGR_INJ_MSG_LO
  let m : Msg := ⟨fld v 31 22, fld v 21 16, fld v 15 0 * 2 ^ 24 + fld lo 31 8, fld lo 7 0, true⟩
  wr RGR_INJ_MSG_HI v { s with bus := { s.bus with msgQ := s.bus.msgQ ++ [m] } }

def execInjectMessage (v : W32) (s : State) : Res := .next (hostDo RGR_INJ_MSG_HI (injectMsg v) s)

end Sys2Proof.Machine
end

