-- ==== Sys2Proof/Machine/Gal.lean ====
section
/-!
DEFINITION. Gallery power states (R631-R641).
-/
namespace Sys2Proof.Machine

/-- GAL_PARK_CFG.park_allow and dormant_allow. -/
def parkAllow (s : State) (g : Nat) : Bool := rb s (GAL_PARK_CFG g) 0
def dormantAllow (s : State) (g : Nat) : Bool := rb s (GAL_PARK_CFG g) 1

/-- park_allow of gallery `g`, one bit seen in CTRL and in GAL_PARK_CFG (R689); written 0 it wakes a PARKED gallery (R634). -/
def setParkAllow (g : Nat) (v : Bool) (s : State) : State :=
  let s1 := wf (H_CTRL (pageGAL g)) 2 2 (b2n v) (wf (GAL_PARK_CFG g) 0 0 (b2n v) s)
  if v then s1 else dropPark g (wakeGal g s1)

/-- Does a frame of a port that gallery `g` carries wait for dispatch? -/
def framesWait (s : State) (g : Nat) : Bool := s.frames.any fun f => f.stage == .hold && (galPorts s g).contains f.port

/-- Has a port that gallery `g` carries an eligible queue (R387)? -/
def anyEligible (s : State) (g : Nat) : Bool :=
  (galPorts s g).any fun i => (List.range 16).any fun j => queueEligible s (16 * i + j)

/-- Does a DMA job taken from a ring wait to write into gallery `g`'s DOC region (R523)? -/
def dmaInto (s : State) (g : Nat) : Bool :=
  s.hif.ready.any fun e => match e.2 with
    | some (.dma d) => (dmaGals d).contains g
    | _ => false

/-- Is gallery `g` idle, but for DMA jobs that write into its DOC region? -/
def galQuiet (s : State) (g : Nat) : Bool :=
  !framesWait s g &&
  !(s.frames.any fun f => f.gal == g && (f.stage == .core || f.stage == .ring || f.stage == .lookup)) &&
  !(s.copies.any fun c => (galPorts s g).contains c.port && c.stage != .queued) &&
  !anyEligible s g

/-- Is gallery `g` idle (R632)? -/
def galIdle (s : State) (g : Nat) : Bool := galQuiet s g && !dmaInto s g

/-- Do gate lists keep gallery `g` from parking (R633)? -/
def gateKeeps (s : State) (g : Nat) : Bool :=
  !rb s (GAL_PARK_CFG g) 2 && (galPorts s g).any fun i => rb s (TSN_GCL_CTRL i) 0

/-- GALLERY_PARK: a gallery that is idle and may park enters PARKED. Where only DMA jobs into its DOC region keep it from that, the park is
pending until they have drained (R64), and frames that arrive meanwhile are held (R65). -/
def execGalleryPark (g : Gallery) (s : State) : Res :=
  .next (if galPresent s.part g && galState s g == 0 && !galFenced s g && parkAllow s g && !gateKeeps s g && !heldPage s (pageGAL g) &&
      (galQuiet s g || parkPending s g) then
    if dmaInto s g then (if parkPending s g then s else { s with pwr := { s.pwr with parkPend := s.pwr.parkPend ++ [g.val] } })
    else bump (PWR_CNT 0) (setGalState g 1 s)
  else s)

/-- A wake that exceeded its bound (R662). -/
def wakeLate (g : Nat) (late : Bool) (s : State) : State :=
  if late then raise (pageGAL g) 1 (bump (PWR_CNT 4) s) else s

/-- Has gallery `g` a reason of R634 to wake from PARKED? -/
def wakeAsked (s : State) (g : Nat) : Bool :=
  galState s g == 4 || (galState s g == 1 && (framesWait s g || anyEligible s g || !parkAllow s g || dmaInto s g))

/-- GALLERY_WAKE: the wake of a PARKED gallery completes. -/
def execGalleryWake (g : Gallery) (late : Bool) (s : State) : Res :=
  .next (if wakeAsked s g then wakeLate g late (wakeNow g s) else s)

/-- Is port `i` down, disabled or in HOLD, as R31 and R636 judge it? -/
def portAsleep (s : State) (i : Nat) : Bool :=
  if i < 512 then !portUp s i || !rb s (LNK_PORT_CFG (i / 64) (i % 64)) 0
  else if i = 512 then
    !((List.range 32).any fun r => rb s (HIF_SQ_CFG r) 31 || rb s (HIF_CQ_CFG r) 31 || rb s (HIF_EQ_CFG r) 31)
  else if i = 513 then !rb s ANX_CFG 31
  else !(s.copies.any fun c => c.port == i) && !(s.frames.any fun f => f.port == i && f.stage == .hold)

/-- Are all of gallery `g`'s ports asleep (R31)? -/
def allAsleep (s : State) (g : Nat) : Bool := (galPorts s g).all (portAsleep s)

/-- Offsets of a gallery's pages whose words survive in DORMANT: the copied fields, CTRL, STATE, FENCE and GAL_STAT, and the pool of
cores, which only the resets of R136 form anew. -/
def dormantKeeps (part : OrderCode) (p x : Nat) : Bool :=
  copied part p x || (match pageBlk part p with
    | some (.doc, _, g) => (List.range 6).any fun i => bar0 p x == DOC_CORE_ACTIVE g i || bar0 p x == DOC_CORE_FENCED g i
    | _ => false) || x == 0x8 || x == 0xC || x == 0x1C || (x == 0x104 && p % 16 == 2)

/-- The logic state of a gallery lost in DORMANT (R631): all but the Registrar's copy, the stores and the counters. -/
def loseLogic (g : Nat) (s : State) : State :=
  let keep := fun (e : Nat × W32) =>
    pageGallery s.part (e.1 / 0x10000) != some g || dormantKeeps s.part (e.1 / 0x10000) (e.1 % 0x10000)
  { s with
      bus := { s.bus with regs := s.bus.regs.filter keep },
      doc := { s.doc with
        rr := sPut 0 g 0 s.doc.rr,
        pressed := s.doc.pressed.filter (· != g),
        cycSum := sPut 0 g 0 s.doc.cycSum,
        cycCnt := sPut 0 g 0 s.doc.cycCnt } }

/-- GALLERY_DORMANT: a PARKED gallery whose ports all sleep enters DORMANT (R636). -/
def execGalleryDormant (g : Gallery) (s : State) : Res :=
  .next (if galState s g == 1 && dormantAllow s g && parkAllow s g && allAsleep s g then
    bump (PWR_CNT 2) (loseLogic g (setGalState g 2 s)) else s)

/-- Is an enabled network port asked UP on every lane, so that R31 would cease to hold (DEDUCED, log 32: the lanes themselves
are held out of UP, R637)? -/
def portAsksUp (s : State) (i : Nat) : Bool :=
  if i < 512 then
    portPresent s i && rb s (LNK_PORT_CFG (i / 64) (i % 64)) 0 &&
      (List.range (modeLanes (octetMode s (i / 8)))).all fun j => laneReq s ((i + j) / 64) ((i + j) % 64) == 2
  else !portAsleep s i

/-- Has DORMANT gallery `g` a reason of R637 to wake: R31's condition has ceased, an allowance is 0, or a takeover names it? -/
def rampAsked (s : State) (g : Nat) : Bool :=
  galState s g == 2 && (!dormantAllow s g || !parkAllow s g || (galPorts s g).any (portAsksUp s) ||
    (g == 8 && s.rgr.switching.isSome))

/-- The power sequencer: while no ramp runs, that of the first DORMANT gallery which is to wake begins, GS first and the others in ascending
number (R639). -/
def sequencer (s : State) : State :=
  if ramping s ≠ 15 then s
  else match [8, 0, 1, 2, 3, 4, 5, 6, 7].find? (rampAsked s) with
    | some g => wf PWR_GAL_STAT 27 24 g s
    | none => s

/-- DORMANT_WAKE: the gallery whose ramp runs is reloaded from the Registrar's copy and ACTIVE (R637, R641); one that waits for another's ramp
stays DORMANT (R639). -/
def execDormantWake (g : Gallery) (late : Bool) (s : State) : Res :=
  let s1 := sequencer s
  .next (if galState s1 g == 2 && ramping s1 == g.val then wakeLate g late (wakeNow g s1) else s1)

end Sys2Proof.Machine
end

