-- ==== Sys2Proof/Machine/Tmg.lean ====
section
/-!
DEFINITION. The traffic manager's commands: selection, head discards, the calendar wheel, and shaper writes (chapter 12).
-/
namespace Sys2Proof.Machine

/-! ## Selection (R387, R388, R393, R394) -/

/-- Is port `i`'s link being switched in a takeover or a give-back (R622)? -/
def portSwitching (s : State) (i : Nat) : Bool :=
  match s.rgr.switching with
  | some (g, _) => portGal i == g
  | none => false

/-- A port is ready when at most one frame selected for it has not begun transmission, a recirculation port within its pacing of R72
(R393). -/
def portReady (s : State) (i : Nat) : Bool :=
  paceOpen s i &&
  decide ((s.copies.filter fun c => c.port == i && (c.stage == .selected || c.stage == .edited)).length ≤ 1)

/-- May a port's scheduler select (R387, R313, R414, R622): the block ON, the port present, up and not fenced, ready, its
shaper eligible, its gallery ACTIVE with its Editor ON, and its link not being switched? -/
def portOk (s : State) (i : Nat) : Bool :=
  isOn s pageTMG && portPresent s i && portUp s i && !portFenced s i && portReady s i && shaperOk s (portNode i) &&
  isOn s (pageEDT (galOf s i)) && galState s (galOf s i) == 0 && !portSwitching s i

/-- The queue a port's schedulers choose (R388): the group, then its queue. A node takes part from the clock after the one in
which its conditions came to hold (R391): it is judged at the head of a selection, on what the earlier clocks left. -/
def chooseQueue (s : State) (i : Nat) : Option Nat :=
  let okQ := fun q => s.tmg.elig.contains q && queueEligible s q
  let gs := ((List.range 4).map fun g => 4 * i + g).filter fun g =>
    s.tmg.elig.contains (grpNode g) && groupEligible s okQ g
  match chooseChild s (gs.map grpNode) with
  | none => none
  | some n => chooseChild s ((groupQueues s (n - 8448)).filter okQ)

/-- Is some queue of port `i` held back by received pause alone (TMG_CNT_4)? -/
def pauseBlocks (s : State) (i : Nat) : Bool :=
  (List.range 16).any fun j => pausedQ s (16 * i + j) && queueReady s (16 * i + j)

/-- One selection on port `i`: stale heads are discarded first, in the same clock (R349). The Boolean says whether a frame was
selected. -/
def selectPort (i : Nat) (s : State) : Bool × State :=
  let s0 := judgePort i (discardStales i s.copies.length s)
  if !portOk s0 i then (false, s0)
  else
    match chooseQueue s0 i with
    | none => (false, if pauseBlocks s0 i then bump (TMG_CNT 4) s0 else s0)
    | some q => match headCopy s0 q with
      | none => (false, s0)
      | some c => (true, judgePort i (selectCopy c (lenNow s0 c) s0))

/-- Selections on the ports of a list in order, at most `n` of them; the pointer moves past the last port served (R394). -/
def selectPorts (g : Nat) : Nat → List Nat → State → State
  | 0, _, s => s
  | _, [], s => s
  | n + 1, i :: r, s =>
    let x := selectPort i s
    if x.1 then selectPorts g n r { x.2 with tmg := { x.2.tmg with rr := sPut 0 g i x.2.tmg.rr } }
    else selectPorts g (n + 1) r x.2

/-- DEQUEUE_SELECT: one clock of gallery `g`'s dequeue stage: up to four ports, one frame each, in rotating order. -/
def execDequeueSelect (g : Gallery) (s : State) : Res :=
  let ps := galPorts s g
  let last := sGet 0 g.val s.tmg.rr
  .next (selectPorts g 4 (ps.filter (fun i => decide (last < i)) ++ ps.filter (fun i => decide (i ≤ last))) s)

/-- HEAD_DISCARD on port `i` (R397): stale heads, and one head copy while the port is absent, down or fenced. -/
def execHeadDiscard (i : Port) (s : State) : Res := .next (discardDown i (discardStales i s.copies.length s))

/-! ## The calendar wheel (R403, R404) -/

/-- The entry the wheel releases next: the earliest slot, in order of entry within a slot. -/
def wheelNext (s : State) : Option (Nat × Nat) :=
  s.tmg.wheel.foldl (fun b e => match b with
    | some x => if e.1 / 4 < x.1 / 4 then some e else some x
    | none => some e) none

/-- One release of an entry that is due on E: T is updated; a late one is counted (TMG_CNT_3). -/
def releaseWheel (s : State) : State :=
  match wheelNext s with
  | none => s
  | some (te, n) =>
    if eNs s < te then s
    else
      let s1 := offWheel n s
      let s2 := toWheel n (putBucket n ⟨earned s1 n, eNs s1⟩ s1)
      if te / 4 < eNs s / 4 then bump (TMG_CNT 3) s2 else s2

/-- `n` releases. -/
def releaseWheels : Nat → State → State
  | 0, s => s
  | n + 1, s => releaseWheels n (releaseWheel s)

/-- WHEEL_RELEASE: one clock of the wheel, at most 16 entries; wheel_lag when more than 256 due entries wait (R404). -/
def execWheelRelease (s : State) : Res :=
  let s1 := releaseWheels 16 s
  .next (if 256 < (s1.tmg.wheel.filter fun e => decide (e.1 ≤ eNs s1)).length then raise pageTMG 1 s1 else s1)

/-! ## Writes to a shaper (R406-R409) -/

/-- A rate write (R406-R408): T is brought up to date at the old rate; a debt is kept and repaid at the new one, or cleared
by forgive. -/
def writeRate (n rate : Nat) (forgive : Bool) (s : State) : State :=
  let s1 := wf (rateReg n) 20 0 rate (offWheel n (putBucket n ⟨earned s n, eNs s⟩ s))
  let t := (bucketAt s1 n).t
  if t < 0 then
    if forgive then bump (TMG_CNT 8) (putBucket n ⟨0, eNs s⟩ s1)
    else toWheel n (bump (TMG_CNT 7) s1)
  else putBucket n ⟨min t ((burstOf s1 n : Int) * 32000), eNs s⟩ s1

/-- SHAPER_RATE_WRITE: a rate write with forgive = 0. -/
def execShaperRateWrite (n : ShaperIx) (rate : BitVec 21) (s : State) : Res :=
  .next (hostDo (rateReg n) (writeRate n rate.toNat false) s)

/-- SHAPER_FORGIVE: a rate write with forgive = 1. -/
def execShaperForgive (n : ShaperIx) (rate : BitVec 21) (s : State) : Res :=
  .next (hostDo (rateReg n) (writeRate n rate.toNat true) s)

/-- A burst write: T is limited to the new burst (R409). -/
def writeBurst (n burst : Nat) (s : State) : State :=
  let s1 := wf (burstReg n) 23 0 burst (putBucket n ⟨earned s n, eNs s⟩ s)
  putBucket n ⟨min (bucketAt s1 n).t ((burst : Int) * 32000), eNs s⟩ s1

/-- SHAPER_BURST_WRITE. -/
def execShaperBurstWrite (n : ShaperIx) (burst : BitVec 24) (s : State) : Res :=
  .next (hostDo (burstReg n) (writeBurst n burst.toNat) s)

/-- SOJOURN_MAX_READ: the largest sojourn is returned and cleared (R413). -/
def execSojournMaxRead (q : QueueIx) (s : State) : Res :=
  .next (hostAsk (TMG_Q_SOJ_MAX q) (fun a => wr (TMG_Q_SOJ_MAX q) 0 (answer (rd a (TMG_Q_SOJ_MAX q)).toNat a)) s)

/-- Every shaper full to its burst and the wheel empty, every tag and virtual time 0: what a start does (R414). -/
def tmgStart (s : State) : State :=
  let s1 := { s with tmg := { s.tmg with buckets := [], wheel := [], tagS := [], tagF := [], vt := [], elig := [] } }
  (List.range 11088).foldl (fun a n =>
    if burstOf a n = 0x3000 then wr (tokReg n) 0x3000 a else putBucket n ⟨(burstOf a n : Int) * 32000, 0⟩ a) s1

end Sys2Proof.Machine
end

