-- ==== Sys2Proof/Machine/Vubex.lean ====
section
/-!
DEFINITION. What the Curator decides (chapter 15): the knobs and their envelopes (R485-R488), and the triggers of Vubex as shipped over the
measurements it reads.
-/
namespace Sys2Proof.Machine

/-! ## Knobs and envelopes (R485-R488) -/

/-- alpha_exp as a number (HAL_DT_CFG): 0x8 acts as -7, and 0x4-0x7 as +3. -/
def alphaVal (n : Nat) : Int := max (-7) (min 3 (signed 4 n))

/-- The field that knob `n` moves at instance `i`: register, [hi:lo]. Knobs in the order of CUR_CFG.knob_en. -/
def knobField (n i : Nat) : Nat × Nat × Nat :=
  match n with
  | 0 => (HAL_DT_CFG i, 3, 0)
  | 1 => (HAL_ECN_CFG i, 20, 0)
  | 2 => (HAL_SPILL_CFG i, 20, 0)
  | 3 => (VLT_RET_CFG, 15, 0)
  | 4 => (TMG_Q_SHP_RATE i, 20, 0)
  | _ => (H_CTRL (pageGAL i), 2, 2)

/-- A field's bits as the number they stand for, and back. -/
def knobVal (n : Nat) (v : Nat) : Int := if n = 0 then alphaVal v else (v : Int)
def knobBits (n : Nat) (v : Int) : Nat := if n = 0 then unsigned 4 v else v.toNat

/-- The envelope of knob `n` at instance `i`, smallest and largest, with the values that act as others (R485). -/
def envelope (s : State) (n i : Nat) : Int × Int :=
  match n with
  | 0 => (alphaVal (rf s (CUR_ENV_ALPHA i) 3 0), alphaVal (rf s (CUR_ENV_ALPHA i) 7 4))
  | 1 => ((rf s (CUR_ENV_ECN_MIN i) 20 0 : Int), (rf s (CUR_ENV_ECN_MAX i) 20 0 : Int))
  | 2 => ((rf s (CUR_ENV_SPILL_MIN i) 20 0 : Int), (rf s (CUR_ENV_SPILL_MAX i) 20 0 : Int))
  | 3 => ((max 500 (rf s CUR_ENV_LEAD 15 0) : Nat), (rf s CUR_ENV_LEAD 31 16 : Int))
  | 4 => ((min 1600000 (max 1 (rf s (CUR_ENV_SHP_MIN (i % 16)) 20 0)) : Nat),
      (min 1600000 (max 1 (rf s (CUR_ENV_SHP_MAX (i % 16)) 20 0)) : Nat))
  | _ => (0, 1)

/-- Register of the envelope, the smaller bound's where it has two. -/
def envReg (n i : Nat) : Nat :=
  match n with
  | 0 => CUR_ENV_ALPHA i
  | 1 => CUR_ENV_ECN_MIN i
  | 2 => CUR_ENV_SPILL_MIN i
  | 3 => CUR_ENV_LEAD
  | 4 => CUR_ENV_SHP_MIN (i % 16)
  | _ => CUR_ENV_PARK

/-- Is the envelope's minimum at most its maximum (R487)? -/
def envValid (s : State) (n i : Nat) : Bool := decide ((envelope s n i).1 ≤ (envelope s n i).2)

/-- Is knob `n` enabled in CUR_CFG? -/
def knobOn (s : State) (n : Nat) : Bool := rb s CUR_CFG n

/-- May the Curator move knob `n` at instance `i`: the instance exists, is selected, and is not pinned (R485, R488)? -/
def knobFree (s : State) (n i : Nat) : Bool :=
  match n with
  | 0 | 1 | 2 => decide (i < 16) && !rb s CUR_PIN_PROF i
  | 3 => i == 0
  | 4 => decide (i < 8448) && rb s (CUR_SHP_PORTS (i / 16 / 32)) (i / 16 % 32) && !rb s CUR_PIN_SHP (i % 16)
  | _ => galPresent s.part i && rb s CUR_ENV_PARK (if i = 8 then spareTarget s else i)

/-- The furthest values one decision may reach from `old` within envelope (`lo`, `hi`) (R485). -/
def stepDown (n : Nat) (lo hi old : Int) : Int :=
  match n with
  | 0 => old - 1
  | 1 | 2 => old - (hi - lo) / 8
  | 3 => old - 500
  | 4 => (old + 3) / 4
  | _ => 0
def stepUp (n : Nat) (lo hi old : Int) : Int :=
  match n with
  | 0 => old + 1
  | 1 | 2 => old + (hi - lo) / 8
  | 3 => old + 500
  | 4 => old * 4
  | _ => 1

/-- A value brought inside an envelope. -/
def clampTo (lo hi v : Int) : Int := max lo (min hi v)

/-- The value a decision writes over `old`, and whether it was clamped: the target clamped to the envelope and limited to the step;
a value outside the envelope is brought inside it (R486). -/
def decided (n : Nat) (lo hi old target : Int) : Int × Bool :=
  if old < lo ∨ hi < old then (clampTo lo hi old, true)
  else
    let t := clampTo lo hi target
    (max (stepDown n lo hi old) (min (stepUp n lo hi old) t), decide (t ≠ target))

/-- May lane `l` of chiplet `k` be retuned: UP, allowed, no other lane of its chiplet in RETUNE, and its last retune at least
min_interval_s ago (0 acts as 1) (R94, R96, R485)? -/
def mayRetune (s : State) (k l : Nat) : Bool :=
  isOn s (pageLNK k) && laneState s (laneNo k l) == 3 && rb s (LNK_LANE_CTRL k l) 9 &&
  !((List.range 64).any fun j => laneState s (laneNo k j) == 4) &&
  (match s.cur.retuneAt.find? fun e => e.1 == laneNo k l with
    | some e => decide (e.2 + max 1 (rf s CUR_ENV_RETUNE 7 0) * 1000000000 ≤ eNs s)
    | none => true)

/-! ## Triggers of Vubex as shipped (R485) -/

/-- What the measurements ask of an instance: a step at once, a step after ten periods in succession that ask for it, or nothing; with the
reason code of R492 and the measurement. -/
inductive Want where
  | now (up : Bool) (reason meas : Nat)
  | later (up : Bool) (reason meas : Nat)
  | nothing
  deriving DecidableEq, Repr

/-- Pool and profile of queue `q` (HAL_Q_CFG). -/
def queuePool (s : State) (q : Nat) : Nat := rf s (HAL_Q_CFG q) 13 12
def queueProf (s : State) (q : Nat) : Nat := rf s (HAL_Q_CFG q) 19 16

/-- The Hall pools that the queues of profile `k` name. -/
def profPools (s : State) (k : Nat) : List Nat :=
  (List.range 4).filter fun p => (List.range 8448).any fun q => queueProf s q == k && queuePool s q == p

/-- Level and used cells of Hall pool `p`, and of Vault pool `k` its level and used buffers. -/
def hallLevel (s : State) (p : Nat) : Nat := rf s (DPT_POOL_STAT p) 31 30
def hallUsed (s : State) (p : Nat) : Nat := rf s (DPT_POOL_STAT p) 20 0
def vaultLevel (s : State) (k : Nat) : Nat := rf s (VLT_POOL_STAT k) 31 30

/-- alpha: down while a pool of the profile is at red or black; up after ten periods with all of them below amber. -/
def wantAlpha (s : State) (k : Nat) : Want :=
  let ps := profPools s k
  match ps.find? fun p => decide (2 ≤ hallLevel s p) with
  | some p => .now false 0x01 (hallUsed s p)
  | none => match ps with
    | [] => .nothing
    | p :: _ => if ps.all fun p => hallLevel s p == 0 then .later true 0x01 (hallUsed s p) else .nothing

/-- Head sojourns in µs that the last round of samples gives for the queues of profile `k`. -/
def sojourns (s : State) (k : Nat) : List Nat :=
  (s.cur.samples.filter fun r => queueProf s (fld (r.getD 1 0) 17 4) == k).map fun r => fld (r.getD 3 0) 31 16

/-- ecn: down while the profile's mean head sojourn exceeds soj_us; up after ten periods below half of it. -/
def wantEcn (s : State) (k : Nat) : Want :=
  let xs := sojourns s k
  let sum := xs.foldl (· + ·) 0
  let lim := rf s (CUR_ENV_ECN_MAX k) 31 21 * xs.length
  if lim < sum then .now false 0x02 (sum / xs.length)
  else if 2 * sum < lim then .later true 0x02 (sum / xs.length)
  else .nothing

/-- spill: up while a Vault pool is at red; down while a Hall pool of the profile is at amber or above and no Vault pool at red. A pool at
black counts as at red (DEDUCED, log 43). -/
def wantSpill (s : State) (k : Nat) : Want :=
  match [0, 1, 2].find? fun v => decide (2 ≤ vaultLevel s v) with
  | some v => .now true 0x04 (rf s (VLT_POOL_STAT v) 23 0)
  | none => match (profPools s k).find? fun p => decide (1 ≤ hallLevel s p) with
    | some p => .now false 0x01 (hallUsed s p)
    | none => .nothing

/-- Bytes that network port `p` has sent, with the 20 bytes that each frame takes beside its own. -/
def portSent (s : State) (p : Nat) : Nat :=
  ctr s (LNK_PORT_CNT (p / 64) (p % 64) 8) + 20 * ctr s (LNK_PORT_CNT (p / 64) (p % 64) 7)

/-- Did network port `p` send below its rate since the last period? -/
def sentBelow (s : State) (p : Nat) : Bool :=
  decide ((portSent s p - sGet 0 p s.cur.sentBy) * 8000 < portSpeed s p * (eNs s - s.cur.lastNs))

/-- lead: up when the network port of a queue in vault mode sent below its rate in the last period; down after ten periods without that. -/
def wantLead (s : State) : Want :=
  match firstBelow 8192 fun q => inVault s q && sentBelow s (q / 16) with
  | some q => .now true 0x03 (rf s (HAL_Q_USE q) 20 0)
  | none => .later false 0x03 0

/-- shaper: down while the queue's pool is at red and no queue of its port holds more cells; up after ten periods below amber. -/
def wantShaper (s : State) (q : Nat) : Want :=
  let use := fun (x : Nat) => rf s (HAL_Q_USE x) 20 0
  let lvl := hallLevel s (queuePool s q)
  if 2 ≤ lvl ∧ 0 < use q ∧ ((List.range 16).all fun j => decide (use (16 * (q / 16) + j) ≤ use q)) = true then .now false 0x03 (use q)
  else if lvl = 0 then .later true 0x03 (use q)
  else .nothing

/-- park: set while the gallery's load, its busy cores in percent of the active ones, is below load_pct, and cleared while above. -/
def wantPark (s : State) (g : Nat) : Want :=
  let act := countCores s g coreActive
  let free := countCores s g fun t g c => coreActive t g c && (coreOf t g c).isNone
  let lim := rf s CUR_ENV_PARK 14 8 * act
  if (act - free) * 100 < lim then .now true 0x06 free
  else if lim < (act - free) * 100 then .now false 0x06 free
  else .nothing

/-- retune: the lane's error rate is worse than ber_trig, or its chiplet's temperature has moved by more than 10 °C since the lane was last
tuned. ber_exp 0 is no rate (log 43). -/
def wantRetune (s : State) (l : Nat) : Want :=
  let ber := rf s (LNK_LANE_STAT (l / 64) (l % 64)) 15 8
  let now := chipTemp s (l / 64)
  if 0 < ber ∧ ber < rf s CUR_ENV_RETUNE 15 8 then .now true 0x07 ber
  else if 10 < (signed 8 now - signed 8 (laneSt s (l / 64) (l % 64)).temp).natAbs then .now true 0x05 now
  else .nothing

/-- What the measurements ask of knob `n` at instance `i`. -/
def wantOf (s : State) (n i : Nat) : Want :=
  match n with
  | 0 => wantAlpha s i
  | 1 => wantEcn s i
  | 2 => wantSpill s i
  | 3 => wantLead s
  | 4 => wantShaper s i
  | 5 => wantPark s i
  | _ => wantRetune s i

/-- Instances of knob `n`. -/
def knobInsts (s : State) (n : Nat) : List Nat :=
  match n with
  | 0 | 1 | 2 => List.range 16
  | 3 => [0]
  | 4 => ((List.range 528).filter fun i => rb s (CUR_SHP_PORTS (i / 32)) (i % 32)).flatMap fun i =>
      (List.range 16).map fun j => 16 * i + j
  | 5 => List.range 9
  | _ => List.range 512

/-- A decision on knob `n` at instance `i`, whose field reads `seen`. -/
def mkDecision (n i : Nat) (target : Int) (seen reason meas : Nat) : CurDecision :=
  { knob := Fin.ofNat 7 n, inst := Fin.ofNat 8448 i, target := BitVec.ofInt 32 target, seen := BitVec.ofNat 32 seen,
    reason := Fin.ofNat 12 reason, meas := BitVec.ofNat 32 meas }

/-- The decision on a field knob: its field one step down or up as asked, or, where it stands outside its envelope, inside it (R486). -/
def fieldDecision (s : State) (n i : Nat) (w : Want) (tenth : Bool) : Option CurDecision :=
  let f := knobField n i
  let seen := rf s f.1 f.2.1 f.2.2
  let e := envelope s n i
  let old := knobVal n seen
  let step := fun (up : Bool) => if up then stepUp n e.1 e.2 old else stepDown n e.1 e.2 old
  if old < e.1 ∨ e.2 < old then some (mkDecision n i old seen 0x08 seen)
  else match w with
    | .now up r m => some (mkDecision n i (step up) seen r m)
    | .later up r m => if tenth then some (mkDecision n i (step up) seen r m) else none
    | .nothing => none

/-- The decision on lane `l`'s retune. -/
def laneDecision (s : State) (l : Nat) (w : Want) : Option CurDecision :=
  match w with
  | .now _ r m => if mayRetune s (l / 64) (l % 64) then some (mkDecision 6 l 0 0 r m) else none
  | .later .. | .nothing => none

/-- One instance judged: its periods in succession counted, and its decision waits to be issued. Instances that are pinned, or whose envelope
is not valid, have none (R487, R488). -/
def judgeInst (n i : Nat) (s : State) : State :=
  let w := wantOf s n i
  let key := 8448 * n + i
  let k := match w with
    | .later .. => sGet 0 key s.cur.calm + 1
    | .now .. | .nothing => 0
  let d := if n = 6 then laneDecision s i w
    else if knobFree s n i && envValid s n i then fieldDecision s n i w (k == 10) else none
  { s with cur := { s.cur with calm := sPut 0 key (if k = 10 then 0 else k) s.cur.calm, issue := s.cur.issue ++ d.toList } }

/-- The decisions of one period of Vubex as shipped, and what the next period measures from. -/
def shippedPeriod (s : State) : State :=
  let s1 := ((List.range 7).filter (knobOn s)).foldl (fun a n => (knobInsts s n).foldl (fun b i => judgeInst n i b) a) s
  { s1 with cur := { s1.cur with
      lastNs := eNs s
      sentBy := (List.range 512).foldl (fun l p => sPut 0 p (portSent s p) l) [] } }

end Sys2Proof.Machine
end

