-- ==== Sys2Proof/Machine/Cur.lean ====
section
/-!
DEFINITION. The Curator (chapter 15): the decision period and the writes it issues, lockstep, retunes and the log's configuration.
-/
namespace Sys2Proof.Machine

/-- A knob's field written, on the host's path (R489). -/
def putKnob (n i v : Nat) (s : State) : State :=
  if n = 4 then writeRate i v false s
  else if n = 5 then setParkAllow i (v == 1) s
  else let f := knobField n i; wf f.1 f.2.1 f.2.2 v s

/-! ## A decision -/

/-- A write that the decision asks for: dropped where the field no longer holds the value read (R490), else made and then
logged (R489). -/
def curWrite (d : CurDecision) (new : Nat) (clamped outside : Bool) (s : State) : State :=
  let n := d.knob.val
  let i := d.inst.val
  let f := knobField n i
  let s1 := if clamped then bump (CUR_CNT 3) s else s
  if rf s1 f.1 f.2.1 f.2.2 ≠ d.seen.toNat then
    logRecord 0x0A 0x09 i d.seen.toNat new d.meas.toNat (bump (CUR_CNT 2) s1)
  else
    logRecord (n + 1) (if outside then 0x08 else d.reason.val) i d.seen.toNat new d.meas.toNat
      (putKnob n i new (bump (CUR_CNT 1) s1))

/-- A decision on one of the field knobs. A decision that leaves its field as it is writes nothing. -/
def decideField (d : CurDecision) (s : State) : State :=
  let n := d.knob.val
  let i := d.inst.val
  let e := envelope s n i
  let old := knobVal n d.seen.toNat
  let x := decided n e.1 e.2 old (if n = 0 then signed 32 d.target.toNat else (d.target.toNat : Int))
  let new := knobBits n x.1
  if !knobFree s n i || !envValid s n i || reach s (knobField n i).1 != .open || new == d.seen.toNat then s
  else curWrite d new x.2 (decide (old < e.1 ∨ e.2 < old)) s

/-- A retune started: the coefficients are kept, the lane enters RETUNE, and a record is logged. -/
def startRetune (k l : Nat) (d : CurDecision) (s : State) : State :=
  let c := laneSt s k l
  let s1 := setLaneState k l 4 (putLane k l { c with saved := c.coef } s)
  let at' := (laneNo k l, eNs s) :: s1.cur.retuneAt.filter fun e => e.1 != laneNo k l
  logRecord 0x07 d.reason.val (laneNo k l) 3 4 d.meas.toNat
    (bump (CUR_CNT 4) { s1 with cur := { s1.cur with retuneAt := at' } })

/-- One decision of a period: made only for an enabled knob. -/
def applyDecision (d : CurDecision) (s : State) : State :=
  if !knobOn s d.knob then s
  else if d.knob.val = 6 then
    if d.inst.val < 512 && mayRetune s (d.inst.val / 64) (d.inst.val % 64) then startRetune (d.inst.val / 64) (d.inst.val % 64) d s
    else s
  else decideField d s

/-- Envelopes of knob `n`, by an instance under each. -/
def envInsts (n : Nat) : List Nat := if n = 3 then [0] else if n < 5 then List.range 16 else []

/-- Every invalid envelope of an enabled knob is recorded (R487). -/
def checkEnvelopes (s : State) : State :=
  ((List.range 5).filter (knobOn s)).foldl (fun a n =>
    (envInsts n).foldl (fun b i =>
      if envValid b n i then b else raise pageCUR 3 (recordErr pageCUR 0x05 (envReg n i % 0x10000) 0 b)) a) s

/-! ## The period (R482, R483) -/

/-- The pair in service, and whether pair `n` is fenced. -/
def curPair (s : State) : Nat := rf s CUR_STAT 0 0
def pairFenced (s : State) (n : Nat) : Bool := rb s CUR_STAT (1 + n)

/-- The other pair takes over where a mismatch asked for it (R483). -/
def switchPair (s : State) : State :=
  if s.cur.switch then
    let o := curPair s
    let s1 := wf CUR_STAT 0 0 (1 - o) { s with cur := { s.cur with switch := false } }
    let x := drawFree (raise pageCUR 2 s1)
    logRecord 0x0B 0x0B (1 - o) o (1 - o) x.1.toNat x.2
  else s

/-- Decisions held to the envelopes, written and logged. -/
def applyAll (ds : List CurDecision) (s : State) : State := ds.foldl (fun a d => applyDecision d a) s

/-- The writes that wait are issued, in the clock after the decision (R46, R490, R491). -/
def issueWrites (s : State) : State := applyAll s.cur.issue { s with cur := { s.cur with issue := [] } }

/-- CURATOR_PERIOD: the pair in service runs one period. `none` is Vubex as shipped: it decides on the measurements, and its writes are issued in
the next clock, so that a host write that comes between is met (R490). An owner's image may decide otherwise: its decisions come with the
command, each with the value that it read (log 2). -/
def execCuratorPeriod (ds : Option (List CurDecision)) (s : State) : Res :=
  if !isOn s pageCUR then .next s
  else
    let s1 := checkEnvelopes (bump (CUR_CNT 0) (switchPair (issueWrites s)))
    .next (match ds with
      | none => shippedPeriod s1
      | some ds => applyAll ds s1)

/-- A lockstep mismatch while Vubex runs (R483): the writes that wait are suppressed, the pair is fenced and the mismatch counted, and the other pair starts at the next period; with both
fenced the block is FENCED. -/
def lockstep (s : State) : State :=
  if !isOn s pageCUR || pairFenced s (curPair s) then s
  else
    let s0 := { s with cur := { s.cur with issue := [] } }
    let s1 := bump (CUR_CNT 7) (wf CUR_STAT (1 + curPair s) (1 + curPair s) 1 s0)
    let s2 := reportFault pageCUR 0x0B 0 false (raise pageCUR 1 s1)
    if pairFenced s2 (1 - curPair s) then bump (RGR_CNT 3) (fencePage pageCUR 0x0B false s2)
    else { s2 with cur := { s2.cur with switch := true } }

/-! ## Retunes -/

/-- RETUNE_COMPLETE: the lane returns to UP with its new coefficients, and a record is logged. -/
def execRetuneComplete (k : Chiplet) (l : Lane) (coef : Nat) (ber : Byte) (reason : Fin 12) (meas : W32) (s : State) : Res :=
  if laneState s (laneNo k l) ≠ 4 then .next s
  else
    let c := laneSt s k l
    let s1 := wf (LNK_LANE_STAT k l) 15 8 ber.toNat (setLaneState k.val l.val 3 (putLane k.val l.val { c with coef := coef, temp := chipTemp s k } s))
    .next (logRecord 0x08 reason.val (laneNo k l) 4 3 meas.toNat s1)

/-- RETUNE_ABORT: an uncorrectable codeword ends the retune (R96). ber_exp of the lane stays 0 until its next training or retune (DESIGN
CHOICE, log 42). -/
def execRetuneAbort (k : Chiplet) (l : Lane) (reason : Fin 12) (meas : W32) (s : State) : Res :=
  .next (if laneState s (laneNo k l) = 4 then
    setLaneState k.val l.val 3 (abortRetune k.val l.val reason.val meas.toNat s) else s)

/-- The CUR block starts to stop: it completes the writes of the current decision, aborts each retune in progress and logs the abort (R494). The record's reason and
measurement are free values (log 33). -/
def curStop (s : State) : State :=
  ((List.range 512).filter fun n => laneState (issueWrites s) n == 4).foldl (fun a n =>
    let x := drawFree a
    let y := drawFree x.2
    setLaneState (n / 64) (n % 64) 3 (abortRetune (n / 64) (n % 64) (x.1.toNat % 256) y.1.toNat y.2)) (issueWrites s)

/-- Records of the log that a stop leaves unwritten are lost (R494). -/
def curLoseAll (s : State) : State :=
  s.cur.staged.foldl (fun a _ => loseLog a) { s with cur := { s.cur with staged := [] } }

/-! ## Configuration of the log (R495) -/

/-- A write of CUR_LOG_CFG (0), CUR_LOG_BASE_LO (1) or CUR_LOG_BASE_HI (2). -/
def writeLogCfg (w : Nat) (v : W32) (s : State) : State :=
  let cfg := rd s CUR_LOG_CFG
  let free := !bit cfg 31
  let refuse := recordErr pageCUR 0x01 (0x110 + 4 * w) 0 s
  match w with
  | 0 =>
    let new := v &&& 0xE00FF000
    if free || (cfg ^^^ new) &&& 0x7FFFFFFF == 0 then wr CUR_LOG_CFG new s else refuse
  | 1 => if free then wr CUR_LOG_BASE_LO (v &&& 0xFFFFFFE0) s else refuse
  | _ => if free then wr CUR_LOG_BASE_HI v s else refuse

/-- CUR_LOG_CFG_WRITE. -/
def execCurLogCfgWrite (w : Fin 3) (v : W32) (s : State) : Res :=
  .next (hostDo (CUR_LOG_CFG + 4 * w.val) (writeLogCfg w.val v) s)

end Sys2Proof.Machine
end

