-- ==== Sys2Proof/Machine/Inj.lean ====
section
/-!
DEFINITION. Fault injection through INT_SET (R63, R627), and the pins that follow the Registrar (R607).
-/
namespace Sys2Proof.Machine

/-- Event bits that a page names; every other bit of its INT_STAT is reserved (R690). -/
def eventBits (part : OrderCode) (p : Nat) : Nat :=
  match pageBlk part p with
  | some (.arc, _, _) => 0x1FFFF
  | some (.rgr, _, _) => 0x1FF
  | some (.ldg, _, i) => if i = 0 then 7 else 1
  | some (b, 0, _) | some (b, 1, _) =>
    if mirrors b && home p != p then 0
    else match b with
      | .lnk | .doc | .dpt | .pwr => 0x3F
      | .cat | .vit | .tsn | .vlt | .csv => 0x7F
      | .lpm | .edt | .cur | .hif | .lcs => 0xF
      | .prv | .hal | .anx => 0x1F
      | .tmg | .dev => 7
      | .gal => 3
      | _ => 0
  | _ => 0

/-- Fault kind that event bit `n` of page `p` stands for (R615, R627). -/
def bitKind (part : OrderCode) (p n : Nat) : Option Nat :=
  match pageBlk part p with
  | none => none
  | some (b, _, _) => match b, n with
    | .doc, 0 | .cat, 3 | .lpm, 0 | .vit, 0 | .edt, 0 | .hal, 0 | .arc, 16 | .tmg, 0 | .tsn, 6 | .vlt, 0 | .ldg, 1 | .csv, 1 => some 0x01
    | .hal, 1 => some 0x03
    | .vit, 2 => some 0x04
    | .doc, 1 => some 0x05
    | .gal, 0 => some 0x06
    | .lnk, 2 => some 0x07
    | .lnk, 5 => some 0x08
    | .vlt, 1 => some 0x09
    | .vlt, 6 => some 0x0A
    | .cur, 1 => some 0x0B
    | .dpt, 0 | .dpt, 1 => some 0x0C
    | .hif, 1 => some 0x0D
    | .pwr, 4 => some 0x0E
    | .anx, 1 | .anx, 2 | .anx, 3 => some 0x13
    | .dev, 0 => some 0x14
    | .pwr, 5 => some 0x16
    | _, _ => none

/-- A reaction without the report that a real fault of page `p` would send beside it. -/
def muted (p : Nat) (f : State → State) (s : State) : State :=
  let old := rf s (H_MSG_CFG p) 31 31
  wf (H_MSG_CFG p) 31 31 old (f (wf (H_MSG_CFG p) 31 31 0 s))

/-- A free choice of the unit that an injection names nothing of (log 34). -/
def anyUnit (k : Nat) (f : Nat → State → State) (s : State) : State :=
  let x := drawChoice k s
  f x.1 x.2

/-- The reaction to a fault of kind `k` at page `p` as to a real fault (R615, R627). -/
def react (p k : Nat) (s : State) : State :=
  match pageBlk s.part p with
  | none => s
  | some (_, _, i) =>
    if blkState s p = 4 then s
    else match k with
      | 0x03 => anyUnit 128 (fun b a => if a.hal.failed.contains b || a.hal.taking.isSome then a else bankFails b a) s
      | 0x04 => anyUnit 16 (fun b a => if spareBusy a i then a else if rb a (VIT_SPARE_CFG i) 8 then bankTake i b a else a) s
      | 0x05 => anyUnit 168 (coreFault i) s
      | 0x06 => galFault i 0x06 false s
      | 0x07 => galFault i 0x07 false (wf (LNK_D2D_STAT i) 1 1 0 s)
      | 0x08 => wf (LNK_D2D_STAT i) 2 2 0 s
      | 0x09 => anyUnit 128 (fun c a => if pcState a c == 0 then pcFails c a else a) s
      | 0x0B => lockstep s
      | 0x0D => anyUnit 32 (ringBusErr .sq) s
      | 0x13 => if anxLink s == 2 || anxLink s == 3 then anxReset 1 s else s
      | _ => s

/-- Event bit `n` of page `p` injected: the bit set, and for a bit that stands for a fault kind the coded message with inj and,
under RGR_INJ_CFG.react, the reaction (R627). A real event already recorded stays (R63). -/
def injectBit (p : Nat) (s : State) (n : Nat) : State :=
  let s1 := raiseAs true p n s
  match bitKind s.part p n with
  | none => s1
  | some k =>
    let s2 := reportFault p k (rd64 s1 (H_ERR_ADDR_LO p)) true s1
    if rb s2 RGR_INJ_CFG 0 then muted p (react p k) s2 else s2

/-- A write of INT_SET: the bits the page lists. -/
def writeIntSet (p : Nat) (v : W32) (s : State) : State :=
  (setBits 32 (v.toNat &&& eventBits s.part p)).foldl (injectBit p) s

/-- INT_SET_WRITE. -/
def execIntSetWrite (p : Page) (v : W32) (s : State) : Res := .next (hostDo (H_INT_SET p.val) (writeIntSet p.val v) s)

/-! ## Pins (R607) -/

/-- INT_N is driven low: some page's pending bit is 1 while int_n_en is 1. -/
def intLow (s : State) : Bool :=
  rb s RGR_CFG 0 && (List.range 1024).any fun p => (pageBlk s.part p).isSome && pendBit s p

/-- ALERT_N is driven low: a bit that the Alert column marks is 1 while alert_en is 1. -/
def alertLow (s : State) : Bool :=
  rb s RGR_CFG 1 && ([1, 4, 6, 7, 8].any (rb s (H_INT_STAT pageRGR)) || (rb s RGR_CFG 2 && rb s (H_INT_STAT pageRGR) 5))

end Sys2Proof.Machine
end

