-- ==== Sys2Proof/Machine/Pwr.lean ====
section
/-!
DEFINITION. Resets and clock losses (R645-R651, R708), boot (R653-R661, R675), sensors and ageing (R713-R717).
-/
namespace Sys2Proof.Machine

/-! ## Resets (R17, R647-R650) -/

/-- A fuse store with every half-blown fuse completed, and whether there was one (R670, R671). -/
def completeFuses (l : List (Nat × Nat)) : List (Nat × Nat) := l.map fun e => (e.1, if e.2 = 1 then 2 else e.2)
def halfBlown (l : List (Nat × Nat)) : Bool := l.any fun e => e.2 == 1

/-- The fuses read on release of PORESET_N. -/
def readFuses (s : State) : State :=
  let l := s.lcs
  let half := halfBlown l.pairs || halfBlown l.keys || halfBlown l.revs || halfBlown l.vers
  let s1 := { s with lcs := { l with
    pairs := completeFuses l.pairs, keys := completeFuses l.keys, revs := completeFuses l.revs, vers := completeFuses l.vers } }
  if half then raise pageLCS 3 s1 else s1

/-- Everything reset, as PORESET_N held low leaves it: what stays is outside the engine's reset (the fuses, the levels the board
drives, host memory, the lane reference clocks) or is the model's own (the command queue, the free values drawn). -/
def powerOn (s : State) : State :=
  let i := State.initial s.part
  { i with
    bus := { i.bus with free := s.bus.free }
    hif := { i.hif with mem := s.hif.mem }
    pwr := { i.pwr with lnrefLost := s.pwr.lnrefLost }
    lcs := { i.lcs with pairs := s.lcs.pairs, keys := s.lcs.keys, revs := s.lcs.revs, vers := s.lcs.vers, hashes := s.lcs.hashes }
    dev := { i.dev with gpioPins := s.dev.gpioPins }
    pending := s.pending }

/-- PWR_BOOT_STAT.phase, and BOOT_PHASE (R657). -/
def bootPhase (s : State) : Nat := rf s PWR_BOOT_STAT 3 0
def setPhase (v : Nat) (s : State) : State := wf PWR_BOOT_STAT 3 0 v s

/-- The PLLs locked, with every reference clock that runs seen (R643, R646). -/
def clocksUp (s : State) : State :=
  let refs := maskOf 8 fun k => lnkPresent s.part k && !s.pwr.lnrefLost.contains k
  wf PWR_CLK_STAT 15 8 refs (wf PWR_CLK_STAT 3 0 0xF s)

/-- PORESET: the filtered release of PORESET_N, with the rails good (R649, R708). -/
def execPoreset (s : State) : Res := .next (setPhase 3 (clocksUp (readFuses (powerOn s))))

/-- The words that a RESET_N keeps (R17, R648): the always-on pages, the PCIe link and configuration space as HIF_PCIE_STAT shows
them, and link_sel. -/
def resetKeeps (s : State) (a : Nat) : Bool :=
  alwaysOn (a / 0x10000) || a == HIF_PCIE_STAT ||
    ((List.range 8).any fun k => a == LNK_D2D_STAT k && rb s a 0)

/-- Every domain but the always-on one reset, the time counter and PCIe kept (R648). -/
def coreReset (s : State) : State :=
  let i := State.initial s.part
  let keep := fun (e : Nat × W32) => resetKeeps s e.1
  let on := fun (a : Nat) => alwaysOn (a / 0x10000)
  let regs := (s.bus.regs.filter keep).map fun e => if alwaysOn (e.1 / 0x10000) || e.1 == HIF_PCIE_STAT then e else (e.1, e.2 &&& 1)
  let s1 := { i with
    bus := { s.bus with
      regs := regs, ctr := s.bus.ctr.filter fun e => on e.1, latch := s.bus.latch.filter fun e => on e.1, ldgQ := [],
      msgQ := s.bus.msgQ.filter fun m => alwaysOn m.source, wraps := [], evAt := [], portDrop := [] }
    time := { s.time with clock := 0 }
    rgr := { s.rgr with unrPend := [], switching := none, planned := none }
    hif := { i.hif with pmeEn := s.hif.pmeEn, pmeStatus := s.hif.pmeStatus, pmeSent := s.hif.pmeSent, mem := s.hif.mem }
    pwr := { s.pwr with backOff := false, starting := none, other := none, runVer := none, hostGo := false, bootPair := 0, parkPend := [] }
    lcs := { s.lcs with nonce := none }
    dev := { i.dev with gpioPins := s.dev.gpioPins, smbAddr := s.dev.smbAddr, smbNack := s.dev.smbNack }
    pending := s.pending }
  let t := spareTarget s
  let s2 := if t = 15 || rb s (LNK_D2D_STAT t) 0 then s1 else wf RGR_SPARE_STAT 19 16 15 s1
  let s3 := wf RGR_SPARE_STAT 31 30 0 (wr PWR_GAL_STAT (regReset s.part PWR_GAL_STAT) s2)
  wf PWR_BOOT_STAT 31 16 0 (wf PWR_BOOT_STAT 7 6 0 s3)

/-- RESET_N or an equal reset, with its cause bit: boot runs again from round 1 (R648, R655). A domain already held stays so. -/
def resetN (cause : Nat) (s : State) : State :=
  match s.pwr.held with
  | .none => setPhase 3 (wf PWR_RST_CAUSE cause cause 1 (coreReset s))
  | .clock => wf PWR_RST_CAUSE cause cause 1 s
  | .rail | .trip => s

/-- RESET_N: its filtered release (R647). -/
def execResetN (s : State) : Res := .next (resetN 1 s)

/-- A write of PWR_RST_CMD: go with key 0xA5 resets; any other key is ignored (R650). -/
def writeRstCmd (v : W32) (s : State) : State := if bit v 31 && fld v 7 0 == 0xA5 then resetN 2 s else s

def execPwrRstCmd (v : W32) (s : State) : Res := .next (hostDo PWR_RST_CMD (writeRstCmd v) s)

/-- REFCLK_LOSS: REFCLK25 (0), or the core, reference or HBM PLL's lock (1-3), is lost (R645). Without REFCLK25 no PLL keeps lock. -/
def execRefclkLoss (what : Fin 4) (s : State) : Res :=
  let lose := fun (a : State) => if what.val = 0 then wf PWR_CLK_STAT 3 0 0 a else wf PWR_CLK_STAT what.val what.val 0 a
  match s.pwr.held with
  | .none =>
    let s1 := coreReset s
    let s2 := bump (PWR_CNT 6) (wf PWR_RST_CAUSE 3 3 1 (lose { s1 with pwr := { s1.pwr with held := .clock } }))
    .next (setPhase 1 (raise pagePWR 0 s2))
  | .clock => .next (lose s)
  | .rail | .trip => .next s

/-- REFCLK_RECOVER: the PLLs relock and the domains are released as after RESET_N (R645). -/
def execRefclkRecover (s : State) : Res :=
  match s.pwr.held with
  | .clock => .next (setPhase 3 (wf PWR_CLK_STAT 3 0 0xF { s with pwr := { s.pwr with held := .none } }))
  | .none | .rail | .trip => .next s

/-- RAIL_UNDERVOLT: acts as an assertion of PORESET_N until the rails are good again (R708). -/
def execRailUndervolt (s : State) : Res :=
  let s1 := powerOn s
  .next { s1 with pwr := { s1.pwr with held := .rail } }

/-! ## Sensors and ageing (R651, R713-R717) -/

/-- A sensor reading as a signed number. -/
def celsius (b : Nat) : Int := signed 8 b

/-- The thermal trip (R651): PLLs stopped, every domain but the always-on one held in reset until PORESET_N. -/
def thermalTrip (s : State) : State :=
  match s.pwr.held with
  | .trip => s
  | _ =>
    let s1 := wr HIF_PCIE_STAT 0 (coreReset s)
    setPhase 0xE (wf PWR_CLK_STAT 3 1 0 { s1 with pwr := { s1.pwr with held := .trip } })

/-- THERMTRIP_N is driven low. -/
def thermtripLow (s : State) : Bool := s.pwr.held == .trip

/-- SENSOR_READ: sensor `k` reads `temp` °C, signed; a reading above warn_c (110 at most) is a fault-kind event of kind 0x0E, and
115 or more trips the engine. -/
def execSensorRead (k : Fin 24) (temp : BitVec 8) (s : State) : Res :=
  if s.pwr.held = .rail then .next s
  else
    let t := celsius temp.toNat
    let s1 := wr (PWR_TEMP k) (w32 temp.toNat) s
    let s2 := if (min 110 (rf s1 RGR_CFG 15 8) : Nat) < t then reportFault pagePWR 0x0E k false (raise pagePWR 4 s1) else s1
    .next (if 115 ≤ t then thermalTrip s2 else s2)

/-- The hottest sensor. -/
def hottest (s : State) : Int := (List.range 24).foldl (fun m k => max m (celsius (rf s (PWR_TEMP k) 7 0))) (-128)

/-- Terms of the exponential series of `y` / 2^96, in units of 2^-96: `k` terms from number `n`, whose value is `t`. -/
def expTerms (y : Nat) : Nat → Nat → Nat → Nat
  | 0, _, _ => 0
  | k + 1, n, t => t + expTerms y k (n + 1) (t * y / 2 ^ 96 / (n + 1))

/-- exp(8,124 × (1 / 368.15 - 1 / (T + 273.15))) / 3,600 hours in units of 2^-64 hour (R715), by 96 terms of the series in units
of 2^-96, rounded down (DESIGN CHOICE, log 36). -/
def lifeStep (t : Int) : Nat :=
  let den := (36815 * (100 * t + 27315)).toNat
  let num := 812400 * (100 * t - 9500)
  let e := expTerms (num.natAbs * 2 ^ 96 / den) 96 0 (2 ^ 96)
  (if num < 0 then 2 ^ 192 / e else e) / 2 ^ 32 / 3600

/-- An ageing report (R716). -/
def ageReport (s : State) : State := reportFault pagePWR 0x16 0 false (raise pagePWR 5 s)

/-- LIFE_HOURS_TICK: a second's equivalent hours (R715), and the report when they reach the limit (R716). -/
def execLifeHoursTick (s : State) : Res :=
  if s.pwr.held = .rail then .next s
  else
    let f := s.pwr.lifeFrac + lifeStep (hottest s)
    let s1 := addWrap PWR_LIFE_HOURS 31 0 (f / 2 ^ 64) { s with pwr := { s.pwr with lifeFrac := f % 2 ^ 64 } }
    .next (if !s.pwr.hoursSaid && decide (rf s PWR_AGE_CFG 31 16 * 1000 ≤ rf s1 PWR_LIFE_HOURS 31 0) then
      ageReport { s1 with pwr := { s1.pwr with hoursSaid := true } } else s1)

/-- AGE_MONITOR: the monitor with the least margin, and the report when it falls to warn_margin (R716). -/
def execAgeMonitor (worst : Fin 32) (margin : Byte) (s : State) : Res :=
  if s.pwr.held = .rail then .next s
  else
    let s1 := wr PWR_AGE_STAT (w32 (worst.val * 256 + margin.toNat)) s
    .next (if !s.pwr.marginSaid && decide (margin.toNat ≤ rf s PWR_AGE_CFG 7 0) then
      ageReport { s1 with pwr := { s1.pwr with marginSaid := true } } else s1)

/-! ## Images (R653, R675) -/

/-- Are `n` bytes from position `i` zero? -/
def zeroAt (b : List Byte) (i n : Nat) : Bool := (slice b i n).all (· == 0)

/-- The hash against which the key of an image is held: the maker's, or that of an owner slot programmed and not revoked. -/
def keyHash (s : State) (kind slot : Nat) : Option (List Byte) :=
  if kind = 0 then some Config.makerHash
  else if slot < 4 && blown s.lcs.keys slot && !blown s.lcs.revs slot then some (sGet [] slot s.lcs.hashes) else none

/-- Is a key kind accepted in a lifecycle state (R665)? -/
def kindOk (lc kind : Nat) : Bool :=
  match kind with
  | 0 => lc == 0 || lc == 1 || lc == 3
  | 1 => lc == 1 || lc == 2
  | _ => false

/-- The outcome of an image's checks in order, 0 when it verifies (R675); in RETIRED every attempt ends with 0x6 (R667). -/
def verify (s : State) (lc : Nat) (b : List Byte) : Nat :=
  let len := leNat (slice b 4 4)
  let kind := (byteAt b 9).toNat
  let slot := (byteAt b 10).toNat
  let key := slice b 64 97
  if lc = 4 then 6
  else if leNat (slice b 0 4) ≠ 0x56425831 || !zeroAt b 11 5 || !zeroAt b 161 95 || !zeroAt b 352 3744 || (kind == 0 && slot != 0) then 3
  else if len = 0 ∨ 0x180000 < len then 4
  else if !kindOk lc kind || keyHash s kind slot != some (Config.sha384 key) then 6
  else if (byteAt b 8).toNat < minVer s then 6
  else if Config.sha384 (slice b 4096 len) != slice b 16 48 ||
      !Config.ecdsaVerifies key (slice b 256 96) (Config.sha384 (slice b 0 256)) then 5
  else 0

/-! ## Rounds (R654-R661) -/

/-- Outcome of the last attempt on a slot: cause_a for source 1, cause_b for 2. -/
def setCause (src code : Nat) (s : State) : State :=
  if src = 1 then wf PWR_BOOT_STAT 11 8 code s else if src = 2 then wf PWR_BOOT_STAT 15 12 code s else s

/-- A round has failed: counted, and the back-off wait (R655). -/
def failRound (s : State) : State :=
  let s1 := incSat PWR_BOOT_STAT 31 16 { s with pwr := { s.pwr with starting := none, other := none, backOff := true } }
  setPhase 7 (raise pagePWR 3 s1)

/-- Vubex of an image that verified starts. -/
def startVubex (src ver : Nat) (other : Option Nat) (s : State) : State :=
  setPhase 0xA { s with pwr := { s.pwr with starting := some (src, ver), other := other, backOff := false } }

/-- A latched host-fed go takes effect: loading (R659). -/
def takeGo (s : State) : State := setPhase 8 { s with pwr := { s.pwr with starting := none, other := none, backOff := false } }

/-- One attempt on the image of source `src`, with the slot left to try: its outcome, or Vubex starts. `none` is a flash that
does not answer. -/
def attempt (src : Nat) (img : Option (List Byte)) (other : Option Nat) (s : State) : Bool × State :=
  let code := if s.pwr.roundLc = 4 then 6 else match img with
    | none => 2
    | some b => verify s s.pwr.roundLc b
  let s1 := bump (PWR_CNT 5) s
  if code = 0 then
    match img with
    | some b => (true, startVubex src (byteAt b 8).toNat other s1)
    | none => (false, s1)
  else (false, setCause src code s1)

/-- An attempt has ended without Vubex: a latched go comes first (R659), else the slot still to try, else the round has failed. -/
def nextAttempt (img : Option (List Byte)) (other : Option Nat) (s : State) : State :=
  if s.pwr.hostGo then takeGo s
  else match other with
    | some o =>
      let x := attempt o img none { s with pwr := { s.pwr with other := none } }
      if x.1 then x.2 else if x.2.pwr.hostGo then takeGo x.2 else failRound x.2
    | none => failRound s

/-- A round: the preferred slot, then the other (R654). -/
def bootRound (dir : List Byte) (a b : Option (List Byte)) (s : State) : State :=
  let s0 := { s with pwr := { s.pwr with backOff := false, roundLc := lcState s } }
  if s.pwr.hostGo then takeGo s0
  else if rb s PWR_BOOT_CFG 0 then setPhase 7 s0
  else
    let first := if leNat (slice dir 0 4) = 0x56445852 ∧ bit (w32 (leNat (slice dir 4 4))) 0 then 2 else 1
    let img := fun (n : Nat) => if n = 1 then a else b
    let x := attempt first (img first) (some (3 - first)) s0
    if x.1 then x.2 else nextAttempt (img (3 - first)) (some (3 - first)) x.2

/-- Does the boot front end start a round: from phase 3, or from a wait for a host-fed image that flash_dis no longer asks for (R659)? -/
def roundDue (s : State) : Bool :=
  decide (bootPhase s ≤ 3) || (bootPhase s == 7 && !s.pwr.backOff && !rb s PWR_BOOT_CFG 0)

/-- BOOT_ROUND: the directory and the two slots as the flash holds them (log 2); a slot is `none` where no flash answers. -/
def execBootRound (dir : List Byte) (a b : Option (List Byte)) (s : State) : Res :=
  .next (if s.pwr.held = .none ∧ roundDue s = true then bootRound dir a b s else s)

/-- BOOT_BACKOFF_EXPIRY: the wait after a failed round ends, and the next round starts (R655). -/
def execBootBackoffExpiry (dir : List Byte) (a b : Option (List Byte)) (s : State) : Res :=
  .next (if s.pwr.held = .none ∧ bootPhase s = 7 ∧ s.pwr.backOff = true then bootRound dir a b s else s)

/-- A go of PWR_BOOT_HOST_CMD (R658, R659): ignored while Vubex runs, latched during an attempt, else it ends the wait. -/
def hostGo (v : W32) (s : State) : State :=
  if !bit v 0 || s.pwr.held != .none || bootPhase s == 0xB then s
  else
    let s1 := { s with pwr := { s.pwr with hostGo := true } }
    if bootPhase s = 7 then takeGo s1 else s1

/-- The host-fed image read from host memory and verified; a failure is a failed round (R658). -/
def loadHost (bytes : List Byte) (s : State) : State :=
  let img := slice bytes 0 (rf s PWR_BOOT_HOST_LEN 20 0)
  let s0 := { s with pwr := { s.pwr with hostGo := false, roundLc := lcState s } }
  let x := attempt 3 (some img) none s0
  if x.1 then x.2 else failRound x.2

/-- HOST_FED_LOAD: a write of go, and the load once it may run: memory requests allowed and no attempt in progress. -/
def execHostFedLoad (bytes : List Byte) (s : State) : Res :=
  let s1 := hostDo PWR_BOOT_HOST_CMD (hostGo 1) s
  .next (if s1.pwr.hostGo && bootPhase s1 == 8 && memOk s1 then loadHost bytes s1 else s1)

/-- VUBEX_RUNNING: phase 0xB; the CUR block may start (R660). -/
def execVubexRunning (s : State) : Res :=
  match s.pwr.starting with
  | none => .next s
  | some (src, ver) =>
    if bootPhase s ≠ 0xA then .next s
    else
      let s1 := { s with pwr := { s.pwr with starting := none, other := none, hostGo := false, runVer := some ver } }
      let s2 := setCause src 1 (wf PWR_BOOT_STAT 7 6 src (setPhase 0xB s1))
      let s3 := raise pagePWR 2 (wf CUR_STAT 0 0 s.pwr.bootPair s2)
      .next (if rb s3 (H_CTRL pageCUR) 0 && blkState s3 pageCUR == 0 then startBlk pageCUR s3 else s3)

/-- An attempt ends after its image verified: Vubex did not run, or a lockstep mismatch (R656, R661). -/
def attemptEnds (code : Nat) (img : Option (List Byte)) (s : State) : State :=
  match s.pwr.starting with
  | none => s
  | some (src, _) =>
    if bootPhase s ≠ 0xA then s
    else nextAttempt img s.pwr.other (setCause src code { s with pwr := { s.pwr with starting := none } })

/-- VUBEX_START_TIMEOUT: with the other slot's bytes, which this round may still try. -/
def execVubexStartTimeout (other : Option (List Byte)) (s : State) : Res := .next (attemptEnds 7 other s)

/-- LOCKSTEP_MISMATCH: while Vubex runs as R483 states; during boot it ends the attempt, and the next one runs on the other pair
(R661). -/
def execLockstepMismatch (other : Option (List Byte)) (s : State) : Res :=
  .next (if s.pwr.starting.isSome ∧ bootPhase s = 0xA then
    attemptEnds 8 other (bump (CUR_CNT 7) { s with pwr := { s.pwr with bootPair := 1 - s.pwr.bootPair } })
  else lockstep s)

end Sys2Proof.Machine
end

