-- ==== Sys2Proof/Machine/Life.lean ====
section
/-!
DEFINITION. The life of a block (R37, R61-R64, R686-R688, R721): starts, stops, timeouts and soft resets, with what each block does
at its own.
-/
namespace Sys2Proof.Machine

/-! ## General-purpose pins (R695) -/

/-- Levels of GPIO[31:0]: OUT where the engine drives a pin, else what the board drives. -/
def gpioLevels (s : State) : W32 :=
  let oe := if isOn s pageDEV then rd s DEV_GPIO_OE else 0
  (rd s DEV_GPIO_OUT &&& oe) ||| (s.dev.gpioPins &&& ~~~oe)

/-- The pins sampled into DEV_GPIO_IN, with the enabled edges captured. -/
def sampleGpio (capture : Bool) (s : State) : State :=
  if !isOn s pageDEV then s
  else
    let old := rd s DEV_GPIO_IN
    let new := gpioLevels s
    let edges := if capture then (new &&& ~~~old &&& rd s DEV_GPIO_RISE_EN) ||| (old &&& ~~~new &&& rd s DEV_GPIO_FALL_EN) else 0
    let seen := rd s DEV_GPIO_EDGE
    let s1 := wr DEV_GPIO_EDGE (seen ||| edges) (wr DEV_GPIO_IN new s)
    if edges &&& ~~~seen = 0 then s1 else raise pageDEV 1 s1

/-! ## Starts (R584, R687) -/

/-- Every copy ended and every cell freed, each queued copy counted as flushed against its port (R350). -/
def flushCopies (queuedOnly : Bool) (s : State) : State :=
  let cs := s.copies.filter fun c => c.stage == .queued || !queuedOnly
  let s1 := cs.foldl (fun a c => if c.stage = .queued then dropCopy 0x0E c (portCnt c.port 14 1 a) else endCopy c a) s
  walkN s1.dpt.walk.length s1

/-- PWR_GAL_STAT presents the galleries as they stand. -/
def presentGals (s : State) : State :=
  (List.range 9).foldl (fun a g => wf PWR_GAL_STAT (2 * g + 1) (2 * g) (if galState s g = 4 then 0 else galState s g) a) s

/-- What block `b` (instance `i`) does when its start completes: the initialisation of R584 and the block's own start. The Hall's side
words are initialised, so frames that a fence left in it are gone (DEDUCED, log 37). -/
def onStarted (b : Blk) (i : Nat) (s : State) : State :=
  match b with
  | .pwr => if s.pwr.held = .none then (let s1 := presentGals (clocksUp s); if bootPhase s1 < 2 then setPhase 2 s1 else s1) else s
  | .dev => sampleGpio false s
  | .hif =>
    let rs := s.hif.again
    flushCpls (rs.foldl (fun a r => startScan r a) { s with hif := { s.hif with again := [] } })
  | .lnk => lnkStart i s
  | .cat => catStart i s
  | .vit => vitStart i s
  | .hal => flushCopies false s
  | .tmg => tmgStart s
  | .anx => anxRise s
  | _ => s

/-- Home pages: those that hold a block's CTRL and STATE. -/
def homePages (part : OrderCode) : List Nat := (List.range 1024).filter fun p => (pageBlk part p).isSome && home p == p

/-- Is a block of a tier below `t` in STARTING (R37)? -/
def lowerStarting (s : State) (t : Nat) : Bool :=
  (homePages s.part).any fun q => match pageBlk s.part q with
    | some (b, _, _) => decide (blkTier b < t) && blkState s q == 1
    | none => false

/-- Is a stop pending while the block of page `p` is STARTING (R686)? -/
def stopPending (s : State) (p : Nat) : Bool := !rb s (H_CTRL p) 0 || reenable s p

/-! ## Stops -/

/-- The block of page `p` is told to stop: STOPPING, with what ends at once; the Ledger adds the events that wait (R575). -/
def beginStop (p : Nat) (s : State) : State :=
  match pageBlk s.part p with
  | some (.cur, _, _) => setBlk p 3 (curStop s)
  | some (.ldg, _, _) => setBlk p 3 (ledgerFlush s)
  | _ => setBlk p 3 s

/-- Has a frame that arrives or waits at chiplet `k`'s ports, or a copy for them, still work in the chiplet? -/
def lnkBusy (s : State) (k : Nat) : Bool :=
  (s.frames.any fun f => f.stage == .hold && decide (f.port < 512) && f.port / 64 == k) ||
    (s.lnk.rx.any fun e => decide (e.1 / 64 = k)) ||
    s.copies.any fun c => decide (c.port < 512) && c.port / 64 == k && (c.stage == .edited || c.stage == .sending)

/-- Does the Hall hold frame `f`: has it a cell there, quarantined ones aside (R350)? One that lies in the Vault alone it does not. -/
def inHall (s : State) (f : Frame) : Bool := s.hal.cells.any fun e => e.2.alloc && !e.2.quar && e.2.frame == f.id

/-- Has the STOPPING block's work drained, as its chapter states it? -/
def drained (b : Blk) (i : Nat) (s : State) : Bool :=
  match b with
  | .cur => s.cur.staged.isEmpty
  | .hif => hifIdle s
  | .anx => anxIdle s
  | .lnk => !lnkBusy s i
  | .doc => !(s.frames.any fun f => f.gal == i && (f.stage == .core || f.stage == .ring))
  | .edt => !(s.copies.any fun c => (galPorts s i).contains c.port && c.stage == .selected)
  | .gal => !(s.frames.any fun f => f.gal == i && (f.stage == .core || f.stage == .ring || f.stage == .lookup)) &&
      !(s.copies.any fun c => (galPorts s i).contains c.port && c.stage != .queued)
  | .cat => catIdle s i
  | .vit => s.vit.move.isNone
  | .prv => i != 0 || prvIdle s
  | .hal | .dpt => !(s.frames.any fun f => f.stage == .hall && inHall s f)
  | .arc => arcIdle s
  | .tmg => !(s.copies.any fun c => c.stage != .queued)
  | .vlt => vaultEmpty s
  | _ => true

/-- The copies that wait for gallery `g`'s Editor are aborted (R64, R313); R372 has no reason for this, so no capture is made. -/
def abortEdits (g : Nat) (s : State) : State :=
  (s.copies.filter fun c => (galPorts s g).contains c.port && c.stage == .selected).foldl (fun a c => endCopy c a) s

/-- What a stop that has run out of time aborts (R64), block by block. -/
def abortWork (b : Blk) (i : Nat) (s : State) : State :=
  match b with
  | .cur => curLoseAll s
  | .hif => abortJobs s
  | .gal => abortGalJobs i s
  | .cat => { s with cat := { s.cat with
      learnQ := sPut [] i [] s.cat.learnQ, filter := sPut [] i [] s.cat.filter, retry := sPut none i none s.cat.retry,
      qWasFull := s.cat.qWasFull.filter (· != i) } }
  | .vit => vitPark stPARKED s
  | .prv => if i = 0 then prvPark stPARKED s else s
  | .hal | .dpt => flushCopies true s
  | .arc => arcAbort s
  | .vlt => vaultFlush s
  | .doc => loseGalFrames false i s
  | .edt => abortEdits i s
  | _ => s

/-- What a block does as it comes to OFF. -/
def onStopped (b : Blk) (i : Nat) (s : State) : State :=
  match b with
  | .lnk => lnkStop i s
  | .anx => anxStop s
  | _ => s

/-- The block of page `p` comes to OFF, and starts again where an enable is latched (R686); a DOC's stop may be what a planned
takeover or give-back waits for (R626). -/
def stopped (p : Nat) (s : State) : State :=
  match pageBlk s.part p with
  | none => s
  | some (b, _, i) =>
    let s1 := toOff p (onStopped b i s)
    if b = .doc then docStopped i s1 else s1

/-- BLOCK_START_COMPLETE: the start has completed, and no block of a lower tier is STARTING; a stop pending follows it. -/
def execBlockStartComplete (p : Page) (s : State) : Res :=
  match pageBlk s.part p with
  | none => .next s
  | some (b, _, i) =>
    if home p != p.val || blkState s p != 1 || heldPage s p || lowerStarting s (blkTier b) then .next s
    else
      let s1 := onStarted b i (setBlk p 2 s)
      .next (if stopPending s p then beginStop p s1 else s1)

/-- BLOCK_STOP_COMPLETE: a STOPPING block whose work has drained goes to OFF. -/
def execBlockStopComplete (p : Page) (s : State) : Res :=
  match pageBlk s.part p with
  | none => .next s
  | some (b, _, i) => .next (if home p == p.val && blkState s p == 3 && drained b i s then stopped p s else s)

/-- STOP_TIMEOUT: 100 µs of a pending stop, or park, have passed: what remains is aborted and the block stops, or the gallery parks;
reported as kind 0x15 (R64). An LCS programming step always completes (R679). -/
def execStopTimeout (p : Page) (s : State) : Res :=
  match pageBlk s.part p with
  | none => .next s
  | some (b, _, i) =>
    if home p != p.val then .next s
    else if blkState s p = 3 then
      .next (stopped p (abortWork b i (reportFault p 0x15 0 false s)))
    else if b = .gal ∧ parkPending s i then
      .next (bump (PWR_CNT 0) (setGalState i 1 (abortGalJobs i (reportFault p 0x15 0 false s))))
    else .next s

/-! ## CTRL.enable (R686, R721) -/

/-- CTRL.enable of the block of page `p` stored. -/
def putEnable (p : Nat) (en : Bool) (s : State) : State := wf (H_CTRL p) 0 0 (b2n en) s

/-- A write of CTRL.enable. In RETIRED no enable of tiers 2-4 is latched (R667); a Vault carve too large keeps the block OFF
(R449). -/
def writeEnable (p : Nat) (en : Bool) (s : State) : State :=
  match pageBlk s.part p with
  | none => s
  | some (b, _, _) =>
    if home p != p || (en && lcState s == 4 && decide (2 ≤ blkTier b)) then s
    else
      let s1 := putEnable p en s
      match blkState s p with
      | 0 =>
        if !en then s1
        else if b = .vlt ∧ !carveOk s then recordErr pageVLT 0x05 8 0 s1
        else startBlk p s1
      | 1 => if en then (if stopPending s p then setReenable p 1 s1 else s1) else setReenable p 0 s1
      | 2 => if en then s1 else beginStop p s1
      | _ => setReenable p (b2n en) s1

/-- ENABLE_WRITE. -/
def execEnableWrite (p : Page) (en : Bool) (s : State) : Res := .next (hostDo (H_CTRL p.val) (writeEnable p.val en) s)

/-! ## CTRL.soft_reset (R17, R285, R688) -/

/-- Registers, counters and latches of the pages that satisfy `p` at their Reset values, but for the registers in `keep`. -/
def clearPages (p : Nat → Bool) (keep : Nat → Bool) (s : State) : State :=
  let stay := fun (a : Nat) => !p (a / 0x10000) || keep a
  { s with bus := { s.bus with
      regs := s.bus.regs.filter fun e => stay e.1,
      ctr := s.bus.ctr.filter fun e => !p (e.1 / 0x10000),
      latch := s.bus.latch.filter fun e => !p (e.1 / 0x10000) } }

/-- Words of page `p`'s block that a soft reset leaves: fields reset by PORESET_N only, and PWR_BOOT_STAT, which presents the boot as it
stands (DEDUCED, log 37). -/
def softKeeps (b : Blk) (a : Nat) : Bool :=
  match b with
  | .pwr => [PWR_RST_CAUSE, PWR_BOOT_CFG, PWR_LIFE_HOURS, PWR_BOOT_STAT].contains a
  | .lnk => a % 0x10000 == LNK_D2D_STAT 0 % 0x10000
  | .hif => a == HIF_PCIE_STAT
  | _ => false

/-- The state of a block, beside its registers, at its reset values. Tables and their ECC words stay (R582). -/
def clearBlk (b : Blk) (i : Nat) (s : State) : State :=
  let o := State.initial s.part
  let other := fun (k : Nat) => k / 64 != i
  match b with
  | .lcs => { s with lcs := { s.lcs with token := [], hashIn := [] } }
  | .cur => { s with cur := o.cur }
  | .rgr => { s with rgr := { o.rgr with lastSeq := s.rgr.lastSeq } }
  | .hif =>
    let s1 := hifReset s
    { s1 with hif := { s1.hif with pmeEn := s.hif.pmeEn, pmeStatus := s.hif.pmeStatus } }
  | .anx => { s with anx := o.anx }
  | .lnk => { wf (LNK_D2D_STAT i) 31 1 0 s with lnk := { s.lnk with
      lanes := s.lnk.lanes.filter fun e => other e.1,
      fifo := s.lnk.fifo.filter fun e => e.1 != i,
      fails := s.lnk.fails.filter fun e => e.1 / 2 != i,
      rx := s.lnk.rx.filter fun e => other e.1,
      pauseReq := s.lnk.pauseReq.filter fun e => other e.1 } }
  | .doc => { s with doc := {
      cores := s.doc.cores.filter fun e => e.1 / 168 != i,
      rr := sPut 0 i 0 s.doc.rr,
      pressed := s.doc.pressed.filter (· != i),
      cycSum := sPut 0 i 0 s.doc.cycSum,
      cycCnt := sPut 0 i 0 s.doc.cycCnt,
      searches := s.doc.searches.filter fun e => e.1 / 8 != i,
      served := s.doc.served.filter fun e => e.1 / 8 != i } }
  | .gal => setGalState i 0 s
  | .cat => { s with cat := { s.cat with
      learnQ := sPut [] i [] s.cat.learnQ, filter := sPut [] i [] s.cat.filter, retry := sPut none i none s.cat.retry,
      qWasFull := s.cat.qWasFull.filter (· != i) } }
  | .vit => { s with vit := { s.vit with
      taking := sPut none i none s.vit.taking,
      failed := s.vit.failed.filter fun k => k / 16 != i,
      differ := s.vit.differ.filter fun e => e.1 / 16 != i } }
  | .hal => judgeCommit { s with hal := { s.hal with readQ := [], taking := none, failed := [], fenced := [] } }
  | .dpt =>
    let s1 := { s with dpt := o.dpt, hal := { s.hal with cells := [] } }
    let out := 8192 * s.hal.fenced.length
    judgeCommit (fieldDec DPT_FREE_STAT 20 0 out (fieldDec DPT_CAP_STAT 20 0 out s1))
  | .tmg => { s with tmg := o.tmg }
  | .tsn => tsnReset s
  | .vlt => { s with vlt := o.vlt }
  | .arc => { s with arc := o.arc }
  | .csv => { s with csv := o.csv }
  | .ldg => { s with
      bus := { s.bus with wraps := s.bus.wraps.filter fun e => e.1 / 64 != i }
      ldg := { s.ldg with userLatch := sPut 0 i 0 s.ldg.userLatch } }
  | _ => s

/-- May PRV be reset: the CAT, LPM, VIT and EDT blocks OFF (R285)? -/
def prvResetOk (s : State) : Bool :=
  ([0, 1].all fun w => blkState s (pageCAT w) == 0 && blkState s (pageLPM w) == 0 && blkState s (pageVIT w) == 0) &&
    (List.range 9).all fun g => blkState s (pageEDT g) == 0

/-- A soft reset applied to the OFF block of home page `p`: CTRL and STATE take the Reset values of their cards (R17), also on the pages that
release of PORESET_N starts by itself (R687). -/
def softReset (p : Nat) (s : State) : State :=
  match pageBlk s.part p with
  | none => s
  | some (.prv, _, 0) => prvReset (clearPages (fun q => q == pagePRV 0) (fun _ => false) s)
  | some (.prv, _, _) => { s with bus := { s.bus with regs := s.bus.regs.filter fun e => e.1 / 0x10000 != p || 0x100 ≤ e.1 % 0x10000 } }
  | some (b, _, i) => wr (H_STATE p) 0 (wr (H_CTRL p) 0 (clearBlk b i (clearPages (fun q => home q == p) (softKeeps b) s)))

/-- A write of 1 to CTRL.soft_reset: applied while OFF, else recorded with code 0x06 (R688); a mirrored CTRL ignores it. -/
def writeSoftReset (p : Nat) (s : State) : State :=
  if home p != p || (pageBlk s.part p).isNone then s
  else if blkState s p != 0 || (p == pagePRV 0 && !prvResetOk s) then recordErr p 0x06 8 0 s
  else softReset p s

/-- SOFT_RESET. -/
def execSoftReset (p : Page) (s : State) : Res := .next (hostDo (H_CTRL p.val) (writeSoftReset p.val) s)

/-! ## Retirement (R667) -/

/-- A block of tiers 2-4 taken to OFF at once. -/
def forceOff (s : State) (p : Nat) : State :=
  match pageBlk s.part p with
  | none => s
  | some (b, _, i) =>
    if blkTier b < 2 ∨ blkState s p = 0 then s
    else setBlk p 0 (setReenable p 0 (putEnable p false (onStopped b i (abortWork b i s))))

/-- RETIRED entered: every block of tiers 2-4 is OFF and stays so. -/
def retire (s : State) : State := (homePages s.part).foldl forceOff s

end Sys2Proof.Machine
end

