-- ==== Sys2Proof/Machine/Lcs.lean ====
section
/-!
DEFINITION. Lifecycle (chapter 22): transitions, owner keys, the version thermometer and the nonce. How many fuses of a pair a blow
reaches comes with the command (log 2): none is a failure, one leaves the pair half blown (R670).
-/
namespace Sys2Proof.Machine

/-- The result of a command in LCS_TRANS_STAT, busy 0 again. -/
def lcsResult (r : Nat) (s : State) : State := wr LCS_TRANS_STAT (w32 r) s

/-- An owner slot programmed and not revoked. -/
def slotLive (s : State) (k : Nat) : Bool := blown s.lcs.keys k && !blown s.lcs.revs k

/-- A fuse store with fuse `k` blown by `n` of its pair; a blown one stays. -/
def blow (k n : Nat) (l : List (Nat × Nat)) : List (Nat × Nat) := sPut 0 k (max (sGet 0 k l) n) l

/-- Bytes of the token as written to LCS_TOKEN (R676). -/
def tokenBytes (s : State) : List Byte := wordBytes ((List.range 64).map fun k => sGet 0 k s.lcs.token)

/-- The token's check for a target, 0 when it is accepted (R676): 2 TOKEN_BAD, 3 NONCE_BAD. -/
def tokenCheck (s : State) (target : Nat) : Nat :=
  let t := tokenBytes s
  let slot := (byteAt t 21).toNat
  let key := slice t 24 97
  if leNat (slice t 0 4) ≠ 0x544B4E31 || leNat (slice t 4 8) ≠ Config.uid.toNat then 2
  else if s.lcs.nonce ≠ some (BitVec.ofNat 64 (leNat (slice t 12 8))) then 3
  else if (byteAt t 20).toNat ≠ target || 4 ≤ slot || !slotLive s slot || sGet [] slot s.lcs.hashes ≠ Config.sha384 key ||
      !zeroAt t 22 2 || !zeroAt t 121 7 || !zeroAt t 224 32 ||
      !Config.ecdsaVerifies key (slice t 128 96) (Config.sha384 (slice t 0 128)) then 2
  else 0

/-- The check of a requested transition (R668): 0, or the result that refuses it. -/
def transCheck (s : State) (target : Nat) : Nat :=
  match lcState s, target with
  | 0, 1 => 0
  | 1, 2 => if (List.range 4).any (slotLive s) then 0 else 1
  | 2, 3 => tokenCheck s 3
  | 2, 4 => tokenCheck s 4
  | 0, 4 | 1, 4 | 3, 4 => 0
  | _, _ => 1

/-- The owner key slots zeroised: every fuse of the slots and of their revoke fuses blown (R678). -/
def zeroise (s : State) : State :=
  let all := [(0, 2), (1, 2), (2, 2), (3, 2)]
  { s with lcs := { s.lcs with
      keys := all, revs := all, hashes := (List.range 4).map fun k => (k, (List.range 48).map fun _ => 0xFF) } }

/-- A transition requested with go (R669, R677). -/
def transition (target fuses : Nat) (s : State) : State :=
  let r := transCheck s target
  let s1 := { s with lcs := { s.lcs with nonce := none } }
  let fail := fun (n : Nat) => raise pageLCS 1 (lcsResult n s1)
  if r ≠ 0 then fail r
  else if fuses = 0 then fail 4
  else
    let s2 := if target = 3 then zeroise s1 else s1
    let s3 := { s2 with lcs := { s2.lcs with pairs := blow target fuses s2.lcs.pairs } }
    raise pageLCS 0 (lcsResult 0 (if target = 4 then retire s3 else s3))

/-- A write of LCS_TRANS_CMD: ignored with another key than 0x5A. -/
def writeTrans (v : W32) (fuses : Nat) (s : State) : State :=
  if fld v 23 16 ≠ 0x5A then s
  else
    let s1 := wr LCS_TRANS_CMD (w32 (fld v 2 0)) s
    if bit v 31 then transition (fld v 2 0) fuses s1 else s1

/-- LIFECYCLE_TRANSITION. -/
def execLifecycleTransition (v : W32) (fuses : Fin 3) (s : State) : Res :=
  .next (hostDo LCS_TRANS_CMD (writeTrans v fuses.val) s)

/-- A programming command's end: prog_done where it succeeded. -/
def progEnd (r : Nat) (s : State) : State := if r = 0 then raise pageLCS 2 (lcsResult 0 s) else lcsResult r s

/-- An owner key slot programmed (R672): only in PROVISIONED, and only once. -/
def programKey (k fuses : Nat) (s : State) : State :=
  if lcState s ≠ 1 || blown s.lcs.keys k then progEnd 1 s
  else if fuses = 0 then progEnd 4 s
  else
    let h := wordBytes ((List.range 12).map fun j => sGet 0 j s.lcs.hashIn)
    progEnd 0 { s with lcs := { s.lcs with keys := blow k fuses s.lcs.keys, hashes := sPut [] k h s.lcs.hashes } }

/-- An owner key slot revoked (R673): in FIELD not the last one that can boot the unit. -/
def revokeKey (k fuses : Nat) (s : State) : State :=
  let last := lcState s = 2 ∧ slotLive s k ∧ ((List.range 4).filter (slotLive s)).length = 1
  if (lcState s ≠ 1 ∧ lcState s ≠ 2) ∨ last then progEnd 1 s
  else if fuses = 0 ∧ ¬ blown s.lcs.revs k then progEnd 4 s
  else progEnd 0 { s with lcs := { s.lcs with revs := blow k fuses s.lcs.revs } }

/-- A write of LCS_KEY_PROG. -/
def writeKeyProg (v : W32) (fuses : Nat) (s : State) : State :=
  let s1 := wr LCS_KEY_PROG (v &&& 0x40000003) s
  if !bit v 31 then s1 else if bit v 30 then revokeKey (fld v 1 0) fuses s1 else programKey (fld v 1 0) fuses s1

/-- KEY_PROGRAM: LCS_KEY_PROG with go and revoke 0. -/
def execKeyProgram (k : Fin 4) (fuses : Fin 3) (s : State) : Res :=
  .next (hostDo LCS_KEY_PROG (writeKeyProg (w32 (2 ^ 31 + k.val)) fuses.val) s)

/-- KEY_REVOKE: LCS_KEY_PROG with go and revoke 1. -/
def execKeyRevoke (k : Fin 4) (fuses : Fin 3) (s : State) : Res :=
  .next (hostDo LCS_KEY_PROG (writeKeyProg (w32 (2 ^ 31 + 2 ^ 30 + k.val)) fuses.val) s)

/-- The minimum version raised (R674). -/
def raiseVersion (v fuses : Nat) (s : State) : State :=
  let refused := lcState s = 4 ∨ v < minVer s ∨ 64 < v ∨ (match s.pwr.runVer with | none => true | some r => decide (r < v)) = true
  if refused then progEnd 1 s
  else if fuses = 0 ∧ minVer s < v then progEnd 4 s
  else progEnd 0 { s with lcs := { s.lcs with vers := (List.range v).foldl (fun l n => blow n fuses l) s.lcs.vers } }

/-- A write of LCS_VER_PROG. -/
def writeVerProg (v : W32) (fuses : Nat) (s : State) : State :=
  let s1 := wr LCS_VER_PROG (w32 (fld v 6 0)) s
  if bit v 31 then raiseVersion (fld v 6 0) fuses s1 else s1

/-- VERSION_RAISE. -/
def execVersionRaise (v : BitVec 7) (fuses : Fin 3) (s : State) : Res :=
  .next (hostDo LCS_VER_PROG (writeVerProg (w32 (2 ^ 31 + v.toNat)) fuses.val) s)

/-- A read of LCS_NONCE_LO draws a nonce, a free value, and latches its upper half (R677). -/
def readNonce (s : State) : State :=
  let lo := drawFree s
  let hi := drawFree lo.2
  let n := BitVec.ofNat 64 (hi.1.toNat * 2 ^ 32 + lo.1.toNat)
  answer lo.1.toNat (wr LCS_NONCE_HI hi.1 { hi.2 with lcs := { hi.2.lcs with nonce := some n } })

/-- NONCE_READ. -/
def execNonceRead (s : State) : Res := .next (hostAsk LCS_NONCE_LO readNonce s)

end Sys2Proof.Machine
end

