-- ==== Sys2Proof/Machine/BusIo.lean ====
section
/-!
DEFINITION. The host's plain register writes (R12, R14, R15), the table window (R501), the consumer registers of the rings, the
general-purpose pins (R695) and the management slave (R696, R697).
-/
namespace Sys2Proof.Machine

/-! ## Register writes -/

/-- The register at `a` written by its access codes; a counter, and an offset that no register has, ignore writes (R14, R15). -/
def storeReg (a : Nat) (v : W32) (s : State) : State :=
  match cardOfReg s.part (a / 0x10000) (a % 0x10000) with
  | none => s
  | some (c, _, _) => wr a (cardWrite c (rwlOpen s) (rd s a) v) s

/-- A write of INT_STAT: ones clear, but for a bit whose condition lasts, which the engine sets again (R690): cpl_wait of HIF
(R513) and overcommit of DPT (R332). -/
def writeIntStat (p : Nat) (v : W32) (s : State) : State :=
  let s1 := wr (H_INT_STAT p) (rd s (H_INT_STAT p) &&& ~~~v) s
  if p = pageHIF ∧ !s.hif.waiting.isEmpty then raise p 3 s1
  else if p = pageDPT ∧ overCommitted s1 then raise p 4 s1 else s1

/-- A write of INT_EN, which may raise the page's pending bit (R606, R607). -/
def writeIntEn (p : Nat) (v : W32) (s : State) : State := pendEdge p (pendBit s p) (wr (H_INT_EN p) v s)

/-- A write of CTRL: soft_reset acts first, then park_allow is stored, then enable acts (R686, R688, R689); a mirrored CTRL
ignores it. -/
def writeCtrl (p : Nat) (v : W32) (s : State) : State :=
  if home p != p then s
  else
    let s1 := if bit v 1 then writeSoftReset p s else s
    let s2 := match pageBlk s.part p with
      | some (.gal, _, g) => setParkAllow g (bit v 2) s1
      | _ => wf (H_CTRL p) 2 2 (b2n (bit v 2)) s1
    writeEnable p (bit v 0) s2

/-- A write of FENCE: fence, then release (R616, R617). -/
def writeFence (p : Nat) (v : W32) (s : State) : State :=
  let s1 := if bit v 0 then hostFence p s else s
  if bit v 1 then fenceRelease p s1 else s1

/-- A write of a common header register. -/
def writeHeader (p x : Nat) (v : W32) (s : State) : State :=
  match x with
  | 0x8 => writeCtrl p v s
  | 0x10 => writeIntStat p v s
  | 0x14 => writeIntEn p v s
  | 0x18 => writeIntSet p v s
  | 0x1C => writeFence p v s
  | 0x20 => clearErr p s
  | _ => storeReg (bar0 p x) v s

/-- A write of a field that DPT_COMMIT_STAT sums (R332). -/
def writeCommitted (a : Nat) (v : W32) (s : State) : State := judgeCommit (storeReg a v s)

/-- A write of CAT_PROF_CTRL: one that leaves a profile enabled with a type no frame may have is recorded (R691). -/
def writeCatProf (w : Nat) (a : Nat) (v : W32) (s : State) : State :=
  let t := fld v 23 16
  let s1 := storeReg a v s
  if bit v 31 ∧ (t = 0 ∨ t = 3 ∨ (7 ≤ t ∧ t ≤ 0x7F)) then recordErr (pageCAT w) 0x02 (a % 65536) 0 s1 else s1

/-- A write of a node's configuration whose priority field is [hi:lo]: a new priority starts at the virtual time of its level
(R390). -/
def writeNode (n a hi lo : Nat) (v : W32) (s : State) : State :=
  let s1 := storeReg a v s
  if rf s1 a hi lo = rf s a hi lo then s1 else catchUp n s1

/-- A write of the consumer register at `a`: what waited for an entry goes on (R374, R493, R512, R513). -/
def writeCons (a : Nat) (v : W32) (s : State) : State :=
  let s1 := storeReg a v s
  if a = CUR_LOG_CONS then drainLog 257 s1
  else if a / 0x10000 = pageHIF + 2 then flushCpls s1 else s1

/-- A write of a word of the MSI-X table: a control word that unmasks its vector sends the pending message (R530). -/
def writeMsix (k : Nat) (v : W32) (s : State) : State :=
  let s1 := wr (HIF_MSIX_TABLE k) v s
  if k % 4 = 3 ∧ !bit v 0 then sendPending (k / 4) s1 else s1

/-- A fuse operation that a plain register write starts: how many fuses of each pair blow is a free choice (log 3). -/
def withFuses (f : Nat → State → State) (s : State) : State := let x := drawChoice 3 s; f x.1 x.2

/-- A write of a lifecycle register. -/
def writeLcs (x : Nat) (v : W32) (s : State) : State :=
  if x = 0x114 then withFuses (writeTrans v) s
  else if x = 0x120 then withFuses (writeKeyProg v) s
  else if x = 0x128 then withFuses (writeVerProg v) s
  else if 0x200 ≤ x ∧ x < 0x300 then { s with lcs := { s.lcs with token := sPut 0 ((x - 0x200) / 4) v s.lcs.token } }
  else if 0x300 ≤ x ∧ x < 0x330 then { s with lcs := { s.lcs with hashIn := sPut 0 ((x - 0x300) / 4) v s.lcs.hashIn } }
  else s

/-- A write of a DPT register. -/
def writeDpt (x a : Nat) (v : W32) (s : State) : State :=
  if x = 0x100 then writeCommitted a v s
  else if x = 0x124 then releaseQuarantine v s
  else if x = 0x400 then writeRplCmd v s
  else if 0x140 ≤ x ∧ x < 0x1C0 then
    (let s1 := if x % 0x20 = 0 then writeCommitted a v s else storeReg a v s
     judgeLevel ((x - 0x140) / 0x20) s1)
  else if 0x1000 ≤ x ∧ x < 0x2080 ∧ x % 8 = 4 then writeCommitted a v s
  else storeReg a v s

/-- A write of a TMG register, on sub-page `sub`. -/
def writeTmg (sub x a : Nat) (v : W32) (s : State) : State :=
  let k := (x - 0x100) / 4
  let n := (x - 0x100) / 16
  let rate := fun (m : Nat) => writeRate m (fld v 20 0) (bit v 31) s
  let burst := fun (m : Nat) => writeBurst m (fld v 23 0) s
  match sub, x % 16 with
  | 1, 4 => rate (portNode n)
  | 1, 8 => burst (portNode n)
  | 2, 0 => writeNode (grpNode n) a 2 0 v s
  | 2, 4 => rate (grpNode n)
  | 2, 8 => burst (grpNode n)
  | 3, _ => writeNode k a 10 8 v s
  | 4, _ => rate k
  | 5, _ => burst k
  | _, _ => if a = TMG_SAMP_PORTS 16 then storeReg a (v &&& 0xFFFF) s else storeReg a v s

/-- A write of a HIF register, on sub-page `sub`. -/
def writeHif (sub x a : Nat) (v : W32) (s : State) : State :=
  let r := (x - 0x100) / 0x20
  let ring := fun (k : RingKind) (w : Nat) => writeRing k r w v s
  match sub, x % 0x20 with
  | 1, 0x0 => ring .sq 0
  | 1, 0x4 => ring .sq 1
  | 1, 0x8 => ring .sq 2
  | 1, 0xC => ringDoorbell r s
  | 2, 0x0 => ring .cq 0
  | 2, 0x4 => ring .cq 1
  | 2, 0x8 => ring .cq 2
  | 2, 0xC => writeCons a v s
  | 3, 0x0 => ring .eq 0
  | 3, 0x4 => ring .eq 1
  | 3, 0x8 => ring .eq 2
  | 6, _ => if x < 0x2000 then writeMsix ((x - 0x1000) / 4) v s else s
  | _, _ => storeReg a v s

/-- A write of a TSN register, on sub-page `sub`. -/
def writeTsn (sub x a : Nat) (v : W32) (s : State) : State :=
  match sub with
  | 0 =>
    if x = 0x100 then writeClkCfg v s else if x = 0x114 then writeTimeSet v s
    else if x = 0x124 then writeStepNs v s else storeReg a v s
  | 1 => if x % 0x20 = 0 then writeGclCtrl ((x - 0x100) / 0x20) v s else storeReg a v s
  | 3 => srfReset (fld v 11 0) s
  | _ => storeReg a v s

/-- A write of the register at offset `x` ≥ 0x100, BAR0 offset `a`, of sub-page `sub` and instance `i` of block `b`; the register is
one that a card names. -/
def writeBlock (b : Blk) (sub i x a : Nat) (v : W32) (s : State) : State :=
  match b with
  | .lnk =>
    match sub with
    | 0 => if x < 0x120 then writeOctetMode i ((x - 0x100) / 4) v s else if x = 0x140 then writeModCmd i v s else storeReg a v s
    | 1 => if x % 16 = 0 then writeLaneCtrl i ((x - 0x100) / 16) v s else storeReg a v s
    | _ => storeReg a v s
  | .cat =>
    if x = 0x100 then writeCatCfg i v s
    else if x = 0x120 then writeAgeCfg v s
    else if 0x130 ≤ x ∧ x < 0x140 then writeCatSeed ((x - 0x130) / 4) v s
    else if 0x400 ≤ x ∧ x < 0x600 ∧ x % 0x20 = 0 then writeCatProf i a v s
    else storeReg a v s
  | .vit =>
    if 0x110 ≤ x ∧ x < 0x150 then writeBankCfg ((x - 0x110) / 4) v s
    else if x = 0x194 then writeVitSpare i v s else storeReg a v s
  | .hal =>
    match sub with
    | 0 => if x = 0x104 then hallSpareCmd v s else storeReg a v s
    | 2 => writeCommitted a v s
    | 3 => writeCommitted a v s
    | _ => storeReg a v s
  | .dpt => writeDpt x a v s
  | .arc =>
    if 0x600 ≤ x ∧ x < 0x700 then
      (match x % 0x20 with
       | 0x0 => writeArcRing ((x - 0x600) / 0x20) 0 v s
       | 0x4 => writeArcRing ((x - 0x600) / 0x20) 1 v s
       | 0x8 => writeArcRing ((x - 0x600) / 0x20) 2 v s
       | 0x14 => writeCons a v s
       | _ => storeReg a v s)
    else storeReg a v s
  | .tmg => writeTmg sub x a v s
  | .tsn => writeTsn sub x a v s
  | .vlt =>
    if sub = 0 ∧ 0x110 ≤ x ∧ x < 0x11C then writePoolCfg ((x - 0x110) / 4) v s
    else if sub = 0 ∧ 0x120 ≤ x ∧ x < 0x150 then judgeVault ((x - 0x120) / 16) (storeReg a v s)
    else if sub = 0 ∧ x = 0x160 then writePcCmd v s
    else if a = VLT_THERM_CFG then judgeStacks (storeReg a v s) else storeReg a v s
  | .cur =>
    if 0x110 ≤ x ∧ x < 0x11C then writeLogCfg ((x - 0x110) / 4) v s
    else if x = 0x120 then writeCons a v s
    else if a = CUR_SHP_PORTS 16 then storeReg a (v &&& 0xFFFF) s else storeReg a v s
  | .hif => writeHif sub x a v s
  | .anx =>
    if x = 0x100 then writeAnxCfg v s
    else if 0x110 ≤ x ∧ x < 0x118 then writeAnxChan (16 + (x - 0x110) / 4) v s
    else if 0x140 ≤ x ∧ x < 0x1C0 ∧ x % 8 = 0 then writeAnxChan ((x - 0x140) / 8) v s else storeReg a v s
  | .ldg =>
    if x < 0x200 then writeCtrCfg i ((x - 0x100) / 4) v s
    else if 0x608 ≤ x ∧ x < 0x610 then clearCtrs i (x == 0x60C) v s else storeReg a v s
  | .csv =>
    if x = 0x174 then injectEcc v s
    else if 0x120 ≤ x ∧ x < 0x160 ∧ rb s CSV_CFG 1 then s else storeReg a v s
  | .rgr =>
    if x = 0x108 then writeSpareCmd v s else if x = 0x148 then injectMsg v s else storeReg a v s
  | .gal => if x = 0x100 then setParkAllow i (bit v 0) (storeReg a v s) else storeReg a v s
  | .pwr => if x = 0x10C then writeRstCmd v s else if x = 0x124 then hostGo v s else storeReg a v s
  | .lcs => writeLcs x v s
  | .dev =>
    if x = 0x110 ∨ x = 0x114 then sampleGpio true (storeReg a v s) else storeReg a v s
  | _ => storeReg a v s

/-- A write that reaches the register at `a`: fields that another page governs ignore it (R149, R211, R253, R286, R693), as does an
offset that names no register (R15). -/
def writeReg (a : Nat) (v : W32) (s : State) : State :=
  let p := a / 0x10000
  let x := a % 0x10000
  if shownAt s a != a then s
  else match pageBlk s.part p with
    | none => s
    | some (b, sub, i) =>
      if x < 0x100 then writeHeader p x v s
      else if (cardOfReg s.part p x).isNone then s
      else writeBlock b sub i x a v s

/-- REGISTER_WRITE: an aligned 32-bit BAR0 write. -/
def execRegisterWrite (a : Bar0) (v : W32) (s : State) : Res :=
  .next (hostDo (a.toNat / 4 * 4) (writeReg (a.toNat / 4 * 4) v) s)

/-- BAR0_ACCESS_ERROR: an access of another size or alignment is discarded, answered with ones, and recorded (R12, R691, R694). -/
def execBar0AccessError (a : Bar0) (misaligned : Bool) (be : BitVec 4) (read : Bool) (s : State) : Res :=
  let s0 := if read then answer 0xFFFFFFFF s else s
  .next (if heldPage s pageDEV then s0
    else reportFault pageDEV 0x14 0 false (raise pageDEV 0
      (recordErr pageDEV 0x08 ((if misaligned then 2 else 1) * 4096 + be.toNat) a.toNat s0)))

/-- Consumer register of a ring. -/
def consReg : ConsRing → Nat
  | .cq r => HIF_CQ_CONS r.val
  | .eq r => HIF_EQ_CONS r.val
  | .arc r => ARC_RING_CONS r.val
  | .log => CUR_LOG_CONS

/-- RING_CONSUMER_WRITE. -/
def execRingConsumerWrite (k : ConsRing) (v : W32) (s : State) : Res := .next (hostDo (consReg k) (writeCons (consReg k) v) s)

/-! ## The table window (R501) -/

/-- A refused access: counted, with twin_err. -/
def twinErr (s : State) : State := raise pageHIF 2 (bump (HIF_CNT 14) s)

/-- Table address that offset `off` of aperture `ap` selects. -/
def twinAddr (s : State) (ap off : Nat) : Nat := rf s (HIF_TWIN_SEL ap) 4 0 * 0x4000000 + off

/-- Are `n` bytes at table address `a` in a table of a region that is mapped? -/
def twinMapped (s : State) (a n : Nat) : Bool := mapped s.part a && mapped s.part (a + n - 4)

/-- Word `k` of the flow record at index `x`, through aperture `ap`: word 0 latches the record, and words 1-3 of the same index
return what was latched (R570). -/
def flowWord (ap x k : Nat) (s : State) : W32 × State :=
  if k = 0 then
    let ws := tws s (flowAddr x) 4
    (ws.getD 0 0, { s with ldg := { s.ldg with flowLatch := sPut none ap (some (x, ws)) s.ldg.flowLatch } })
  else
    match sGet none ap s.ldg.flowLatch with
    | some (y, ws) => if y = x then (ws.getD k 0, s) else (tw s (flowAddr x + 4 * k), s)
    | none => (tw s (flowAddr x + 4 * k), s)

/-- One word of a good read. -/
def twinWord (ap a : Nat) (s : State) : W32 × State :=
  if a / 0x4000000 = 0xB then flowWord ap (a % 0x4000000 / 16) (a % 16 / 4) s else readTab a s

/-- A read of `n` bytes, 4 or 8, at table address `a`: a word that is never written or uncorrectable answers ones (R583, R718). -/
def twinRead (ap a n : Nat) (s : State) : State :=
  let s0 := settle s
  match rdStat s0 a with
  | .never | .ue => answer (if n = 8 then 2 ^ 64 - 1 else 2 ^ 32 - 1) (noteRead a s0)
  | .good | .corrected =>
    let lo := twinWord ap a (noteRead a s0)
    if n = 8 then
      let hi := twinWord ap (a + 4) lo.2
      answer (lo.1.toNat + hi.1.toNat * 2 ^ 32) hi.2
    else answer lo.1.toNat lo.2

/-- APERTURE_READ: a BAR4 read of `len` bytes. While the domains are held in reset the answer is a free value (log 3). -/
def execApertureRead (ap : Fin 4) (off : BitVec 26) (len : BitVec 13) (s : State) : Res :=
  let a := twinAddr s ap.val off.toNat
  let n := len.toNat
  let ones := if n ≤ 4 then 2 ^ 32 - 1 else 2 ^ 64 - 1
  if heldPage s pageHIF then .next (let x := drawFree s; answer x.1.toNat x.2)
  else if (n ≠ 4 ∧ n ≠ 8) ∨ off.toNat % n ≠ 0 ∨ !twinMapped s a n then .next (answer ones (twinErr s))
  else .next (twinRead ap.val a n s)

/-- APERTURE_WRITE: a BAR4 write of `bytes` from `off`. -/
def execApertureWrite (ap : Fin 4) (off : BitVec 26) (bytes : List Byte) (s : State) : Res :=
  let a := twinAddr s ap.val off.toNat
  let n := bytes.length
  if heldPage s pageHIF then .next s
  else if n = 0 ∨ n % 4 ≠ 0 ∨ off.toNat % 4 ≠ 0 ∨ 64 < off.toNat % 64 + n ∨ !twinMapped s a n then .next (twinErr s)
  else .next (writeSpan a (bytesWords bytes) s)

/-! ## Pins and the management slave -/

/-- GPIO_EDGE: the board moves pin `j` (after the 40 ns filter); the pins are sampled and an enabled edge captured (R695). -/
def execGpioEdge (j : Fin 32) (rising : Bool) (s : State) : Res :=
  let bitj := w32 (2 ^ j.val)
  let pins := if rising then s.dev.gpioPins ||| bitj else s.dev.gpioPins &&& ~~~bitj
  let s1 := { s with dev := { s.dev with gpioPins := pins } }
  .next (if heldPage s pageDEV then s1 else sampleGpio true s1)

/-- Does the slave answer (R697)? From boot phase 0x1. -/
def smbAnswers (s : State) : Bool := s.pwr.held != .rail && bootPhase s != 0

/-- A transaction acknowledged or refused. -/
def smbEnd (nack : Bool) (s : State) : State := { s with dev := { s.dev with smbNack := nack } }

/-- Does the slave reach register offset `a`, for a write or a read (R697)? -/
def smbReach (a : Nat) (write : Bool) : Bool :=
  a % 4 == 0 && (a / 0x10000 == 0 || a / 0x10000 == 1 || a / 0x10000 == 4 || (!write && a / 0x10000 == 2))

/-- SMB_WRITE: command 0x01. -/
def execSmbWrite (a v : W32) (pecOk : Bool) (s : State) : Res :=
  .next (if !smbAnswers s then s
    else if !pecOk then smbEnd true s
    else
      let s1 := smbEnd false s
      if smbReach a.toNat true then hostDo a.toNat (writeReg a.toNat v) s1 else s1)

/-- SMB_SET_ADDRESS: command 0x02. -/
def execSmbSetAddress (a : W32) (pecOk : Bool) (s : State) : Res :=
  .next (if !smbAnswers s then s
    else if !pecOk then smbEnd true s
    else smbEnd false { s with dev := { s.dev with smbAddr := a.toNat } })

/-- A read of the register at `a`, with the latch or clear that a read of it carries out. -/
def readReg (a : Nat) (s : State) : State :=
  if counterWord s (shownAt s a) then readCounter a s
  else if a % 0x10000 = 0x20 then readErrCause (a / 0x10000) s
  else if a = LCS_NONCE_LO then readNonce s
  else answer (readValue s a).toNat s

/-- SMB_READ: command 0x03. -/
def execSmbRead (s : State) : Res :=
  .next (if !smbAnswers s then s
    else
      let s1 := smbEnd false s
      if smbReach s.dev.smbAddr false then hostAsk s.dev.smbAddr (readReg s.dev.smbAddr) s1 else answer 0xFFFFFFFF s1)

end Sys2Proof.Machine
end

