-- ==== Sys2Proof/Machine/Dispatch.lean ====
section
/-!
DEFINITION. One arm per command: the meaning of each.
-/
namespace Sys2Proof.Machine

def exec (i : Instr) (s : State) : Host.Outcome State Fault Refusal :=
  match i with
  | .registerWrite a v => Sys2Proof.Machine.execRegisterWrite a v s
  | .bar0AccessError a misaligned be read => Sys2Proof.Machine.execBar0AccessError a misaligned be read s
  | .counterLoRead a => Sys2Proof.Machine.execCounterLoRead a s
  | .softReset p => Sys2Proof.Machine.execSoftReset p s
  | .enableWrite p en => Sys2Proof.Machine.execEnableWrite p en s
  | .blockStartComplete p => Sys2Proof.Machine.execBlockStartComplete p s
  | .blockStopComplete p => Sys2Proof.Machine.execBlockStopComplete p s
  | .stopTimeout p => Sys2Proof.Machine.execStopTimeout p s
  | .rxFrame p ev cws => Sys2Proof.Machine.execRxFrame p ev cws s
  | .pauseFrameRx k pf => Sys2Proof.Machine.execPauseFrameRx k pf s
  | .pauseFrameTx k => Sys2Proof.Machine.execPauseFrameTx k s
  | .flitRetry k standby ok => Sys2Proof.Machine.execFlitRetry k standby ok s
  | .standbyRetrain k ok => Sys2Proof.Machine.execStandbyRetrain k ok s
  | .octetModeWrite k o v => Sys2Proof.Machine.execOctetModeWrite k o v s
  | .laneStateReq k l v => Sys2Proof.Machine.execLaneStateReq k l v s
  | .trainComplete k l coef ber => Sys2Proof.Machine.execTrainComplete k l coef ber s
  | .lossOfLock k l => Sys2Proof.Machine.execLossOfLock k l s
  | .holdRestoreTimeout k l => Sys2Proof.Machine.execHoldRestoreTimeout k l s
  | .retuneComplete k l coef ber reason meas => Sys2Proof.Machine.execRetuneComplete k l coef ber reason meas s
  | .retuneAbort k l reason meas => Sys2Proof.Machine.execRetuneAbort k l reason meas s
  | .modCmdGo k v => Sys2Proof.Machine.execModCmdGo k v s
  | .modDone k nack data => Sys2Proof.Machine.execModDone k nack data s
  | .tsFifoPop k => Sys2Proof.Machine.execTsFifoPop k s
  | .d2dStatRead k => Sys2Proof.Machine.execD2dStatRead k s
  | .dispatch g => Sys2Proof.Machine.execDispatch g s
  | .docNop g c => Sys2Proof.Machine.execDocNop g c s
  | .docAdd g c => Sys2Proof.Machine.execDocAdd g c s
  | .docSub g c => Sys2Proof.Machine.execDocSub g c s
  | .docAnd g c => Sys2Proof.Machine.execDocAnd g c s
  | .docOr g c => Sys2Proof.Machine.execDocOr g c s
  | .docXor g c => Sys2Proof.Machine.execDocXor g c s
  | .docShl g c => Sys2Proof.Machine.execDocShl g c s
  | .docShr g c => Sys2Proof.Machine.execDocShr g c s
  | .docAddi g c => Sys2Proof.Machine.execDocAddi g c s
  | .docAndi g c => Sys2Proof.Machine.execDocAndi g c s
  | .docOri g c => Sys2Proof.Machine.execDocOri g c s
  | .docXori g c => Sys2Proof.Machine.execDocXori g c s
  | .docShli g c => Sys2Proof.Machine.execDocShli g c s
  | .docShri g c => Sys2Proof.Machine.execDocShri g c s
  | .docLui g c => Sys2Proof.Machine.execDocLui g c s
  | .docExt g c => Sys2Proof.Machine.execDocExt g c s
  | .docLdb g c => Sys2Proof.Machine.execDocLdb g c s
  | .docLdw g c => Sys2Proof.Machine.execDocLdw g c s
  | .docLdd g c => Sys2Proof.Machine.execDocLdd g c s
  | .docLdbx g c => Sys2Proof.Machine.execDocLdbx g c s
  | .docLdwx g c => Sys2Proof.Machine.execDocLdwx g c s
  | .docLddx g c => Sys2Proof.Machine.execDocLddx g c s
  | .docAdv g c => Sys2Proof.Machine.execDocAdv g c s
  | .docAdvr g c => Sys2Proof.Machine.execDocAdvr g c s
  | .docSetc g c => Sys2Proof.Machine.execDocSetc g c s
  | .docGetc g c => Sys2Proof.Machine.execDocGetc g c s
  | .docStf g c => Sys2Proof.Machine.execDocStf g c s
  | .docStf2 g c => Sys2Proof.Machine.execDocStf2 g c s
  | .docCpf g c => Sys2Proof.Machine.execDocCpf g c s
  | .docMark g c => Sys2Proof.Machine.execDocMark g c s
  | .docMarkr g c => Sys2Proof.Machine.execDocMarkr g c s
  | .docLdf g c => Sys2Proof.Machine.execDocLdf g c s
  | .docJmp g c => Sys2Proof.Machine.execDocJmp g c s
  | .docBeq g c => Sys2Proof.Machine.execDocBeq g c s
  | .docBne g c => Sys2Proof.Machine.execDocBne g c s
  | .docBltu g c => Sys2Proof.Machine.execDocBltu g c s
  | .docBgeu g c => Sys2Proof.Machine.execDocBgeu g c s
  | .docBeqi g c => Sys2Proof.Machine.execDocBeqi g c s
  | .docBnei g c => Sys2Proof.Machine.execDocBnei g c s
  | .docBbs g c => Sys2Proof.Machine.execDocBbs g c s
  | .docMatch g y n => Sys2Proof.Machine.execDocMatch g y n s
  | .docSets g c => Sys2Proof.Machine.execDocSets g c s
  | .docCkv4 g c => Sys2Proof.Machine.execDocCkv4 g c s
  | .docDone g c => Sys2Proof.Machine.execDocDone g c s
  | .docFail g c => Sys2Proof.Machine.execDocFail g c s
  | .budgetExpiry g c => Sys2Proof.Machine.execBudgetExpiry g c s
  | .pressureCut g c => Sys2Proof.Machine.execPressureCut g c s
  | .docentCoreFault g c => Sys2Proof.Machine.execDocentCoreFault g c s
  | .reorderRelease g => Sys2Proof.Machine.execReorderRelease g s
  | .catLookup f b => Sys2Proof.Machine.execCatLookup f b s
  | .routeLookup f => Sys2Proof.Machine.execRouteLookup f s
  | .vitSearch f n => Sys2Proof.Machine.execVitSearch f n s
  | .ingressResolution f => Sys2Proof.Machine.execIngressResolution f s
  | .lastCellWritten f => Sys2Proof.Machine.execLastCellWritten f s
  | .cellFree c h => Sys2Proof.Machine.execCellFree c h s
  | .chainWalkerFree => Sys2Proof.Machine.execChainWalkerFree s
  | .quarantineRelease v => Sys2Proof.Machine.execQuarantineRelease v s
  | .hallRead b out => Sys2Proof.Machine.execHallRead b out s
  | .hallBankFail b => Sys2Proof.Machine.execHallBankFail b s
  | .hallSpareCmd v => Sys2Proof.Machine.execHallSpareCmd v s
  | .hallBankSpared bad => Sys2Proof.Machine.execHallBankSpared bad s
  | .xoffExit k p => Sys2Proof.Machine.execXoffExit k p s
  | .pfcRefresh k => Sys2Proof.Machine.execPfcRefresh k s
  | .dequeueSelect g => Sys2Proof.Machine.execDequeueSelect g s
  | .headDiscard k => Sys2Proof.Machine.execHeadDiscard k s
  | .wheelRelease => Sys2Proof.Machine.execWheelRelease s
  | .shaperRateWrite n rate => Sys2Proof.Machine.execShaperRateWrite n rate s
  | .shaperForgive n rate => Sys2Proof.Machine.execShaperForgive n rate s
  | .shaperBurstWrite n burst => Sys2Proof.Machine.execShaperBurstWrite n burst s
  | .editorEdit c => Sys2Proof.Machine.execEditorEdit c s
  | .frameTransmit k ev => Sys2Proof.Machine.execFrameTransmit k ev s
  | .samplerRound => Sys2Proof.Machine.execSamplerRound s
  | .archiveCapture out => Sys2Proof.Machine.execArchiveCapture out s
  | .archiveRecordWrite r => Sys2Proof.Machine.execArchiveRecordWrite r s
  | .arcRingCfgWrite r w v => Sys2Proof.Machine.execArcRingCfgWrite r w v s
  | .rplHeaderCmd v => Sys2Proof.Machine.execRplHeaderCmd v s
  | .rplBusyClear => Sys2Proof.Machine.execRplBusyClear s
  | .catInsert => Sys2Proof.Machine.execCatInsert s
  | .catReplace => Sys2Proof.Machine.execCatReplace s
  | .catDelete => Sys2Proof.Machine.execCatDelete s
  | .catFind => Sys2Proof.Machine.execCatFind s
  | .accessionLearn w => Sys2Proof.Machine.execAccessionLearn w s
  | .learnRetry w => Sys2Proof.Machine.execLearnRetry w s
  | .deaccessionPass => Sys2Proof.Machine.execDeaccessionPass s
  | .routeAdd => Sys2Proof.Machine.execRouteAdd s
  | .routeReplace => Sys2Proof.Machine.execRouteReplace s
  | .routeDelete => Sys2Proof.Machine.execRouteDelete s
  | .routeFind => Sys2Proof.Machine.execRouteFind s
  | .nhSet => Sys2Proof.Machine.execNhSet s
  | .nhDelete => Sys2Proof.Machine.execNhDelete s
  | .groupSet => Sys2Proof.Machine.execGroupSet s
  | .groupReplaceMember => Sys2Proof.Machine.execGroupReplaceMember s
  | .groupRemoveMember => Sys2Proof.Machine.execGroupRemoveMember s
  | .groupDelete => Sys2Proof.Machine.execGroupDelete s
  | .vitPlace => Sys2Proof.Machine.execVitPlace s
  | .vitInsert => Sys2Proof.Machine.execVitInsert s
  | .vitReplace => Sys2Proof.Machine.execVitReplace s
  | .vitDelete => Sys2Proof.Machine.execVitDelete s
  | .vitFind => Sys2Proof.Machine.execVitFind s
  | .polSet => Sys2Proof.Machine.execPolSet s
  | .vitBankFail w b => Sys2Proof.Machine.execVitBankFail w b s
  | .vitSpareCmd w v => Sys2Proof.Machine.execVitSpareCmd w v s
  | .vitBankSpared w => Sys2Proof.Machine.execVitBankSpared w s
  | .tplSet => Sys2Proof.Machine.execTplSet s
  | .tplDelete => Sys2Proof.Machine.execTplDelete s
  | .tplFind => Sys2Proof.Machine.execTplFind s
  | .commandDispatch => Sys2Proof.Machine.execCommandDispatch s
  | .commit => Sys2Proof.Machine.execCommit s
  | .discard => Sys2Proof.Machine.execDiscard s
  | .epochRetire => Sys2Proof.Machine.execEpochRetire s
  | .walkerWork => Sys2Proof.Machine.execWalkerWork s
  | .drainSlow => Sys2Proof.Machine.execDrainSlow s
  | .doorbell r => Sys2Proof.Machine.execDoorbell r s
  | .entryFetch r e busErr => Sys2Proof.Machine.execEntryFetch r e busErr s
  | .ringCfgWrite k r w v => Sys2Proof.Machine.execRingCfgWrite k r w v s
  | .h2t c bytes => Sys2Proof.Machine.execH2t c bytes s
  | .t2h c => Sys2Proof.Machine.execT2h c s
  | .t2t c => Sys2Proof.Machine.execT2t c s
  | .fill c => Sys2Proof.Machine.execFill c s
  | .h2h c bytes => Sys2Proof.Machine.execH2h c bytes s
  | .dmaComplete c readFails => Sys2Proof.Machine.execDmaComplete c readFails s
  | .injectJob r bytes => Sys2Proof.Machine.execInjectJob r bytes s
  | .bufferPost q e => Sys2Proof.Machine.execBufferPost q e s
  | .puntDelivery q => Sys2Proof.Machine.execPuntDelivery q s
  | .irqTimer eq r => Sys2Proof.Machine.execIrqTimer eq r s
  | .apertureRead ap off len => Sys2Proof.Machine.execApertureRead ap off len s
  | .apertureWrite ap off bytes => Sys2Proof.Machine.execApertureWrite ap off bytes s
  | .narrowWriteMerge => Sys2Proof.Machine.execNarrowWriteMerge s
  | .d3hotEntry pmeEn clear => Sys2Proof.Machine.execD3hotEntry pmeEn clear s
  | .d0Resume pmeEn clear => Sys2Proof.Machine.execD0Resume pmeEn clear s
  | .pciePerstN speed width => Sys2Proof.Machine.execPciePerstN speed width s
  | .functionLevelReset => Sys2Proof.Machine.execFunctionLevelReset s
  | .dataSegmentRx hdr payload crcOk => Sys2Proof.Machine.execDataSegmentRx hdr payload crcOk s
  | .creditSegmentRx hdr payload crcOk => Sys2Proof.Machine.execCreditSegmentRx hdr payload crcOk s
  | .linkSegmentRx hdr payload crcOk => Sys2Proof.Machine.execLinkSegmentRx hdr payload crcOk s
  | .segmentTx => Sys2Proof.Machine.execSegmentTx s
  | .creditReturn c timer => Sys2Proof.Machine.execCreditReturn c timer s
  | .linkSegmentTx => Sys2Proof.Machine.execLinkSegmentTx s
  | .annexTrainDone => Sys2Proof.Machine.execAnnexTrainDone s
  | .annexLockLoss locked => Sys2Proof.Machine.execAnnexLockLoss locked s
  | .port513DownTimer => Sys2Proof.Machine.execPort513DownTimer s
  | .ledgerWrap l n => Sys2Proof.Machine.execLedgerWrap l n s
  | .counterClear l hi v => Sys2Proof.Machine.execCounterClear l hi v s
  | .userPageRead off wide => Sys2Proof.Machine.execUserPageRead off wide s
  | .userPageWrite off => Sys2Proof.Machine.execUserPageWrite off s
  | .ldgUserStatRead => Sys2Proof.Machine.execLdgUserStatRead s
  | .docCycStatRead g => Sys2Proof.Machine.execDocCycStatRead g s
  | .sojournMaxRead q => Sys2Proof.Machine.execSojournMaxRead q s
  | .scrubPass late ce ue => Sys2Proof.Machine.execScrubPass late ce ue s
  | .scrubWriteBack => Sys2Proof.Machine.execScrubWriteBack s
  | .ceLeak p => Sys2Proof.Machine.execCeLeak p s
  | .imageComparePass w rows keys => Sys2Proof.Machine.execImageComparePass w rows keys s
  | .shadowChunkCompare t bytes busErr => Sys2Proof.Machine.execShadowChunkCompare t bytes busErr s
  | .shadowRecheck bytes => Sys2Proof.Machine.execShadowRecheck bytes s
  | .eccInject v => Sys2Proof.Machine.execEccInject v s
  | .vaultModeEntry q => Sys2Proof.Machine.execVaultModeEntry q s
  | .spillWrite => Sys2Proof.Machine.execSpillWrite s
  | .returnRead rec ce ue => Sys2Proof.Machine.execReturnRead rec ce ue s
  | .vaultModeExit q => Sys2Proof.Machine.execVaultModeExit q s
  | .refreshPerBank c b busy => Sys2Proof.Machine.execRefreshPerBank c b busy s
  | .activate c b r => Sys2Proof.Machine.execActivate c b r s
  | .actTableClear c b => Sys2Proof.Machine.execActTableClear c b s
  | .rfmRequest c b => Sys2Proof.Machine.execRfmRequest c b s
  | .stackTempRead k reading => Sys2Proof.Machine.execStackTempRead k reading s
  | .pseudoChannelFail c retrain => Sys2Proof.Machine.execPseudoChannelFail c retrain s
  | .pcFailCmd v => Sys2Proof.Machine.execPcFailCmd v s
  | .pcFence c => Sys2Proof.Machine.execPcFence c s
  | .selfRefreshEntry => Sys2Proof.Machine.execSelfRefreshEntry s
  | .selfRefreshExit => Sys2Proof.Machine.execSelfRefreshExit s
  | .tsnStep v => Sys2Proof.Machine.execTsnStep v s
  | .tsnTimeSet v => Sys2Proof.Machine.execTsnTimeSet v s
  | .timeReadLatch => Sys2Proof.Machine.execTimeReadLatch s
  | .timeInputLoss => Sys2Proof.Machine.execTimeInputLoss s
  | .timeInputLock => Sys2Proof.Machine.execTimeInputLock s
  | .ppsOutPulse => Sys2Proof.Machine.execPpsOutPulse s
  | .ppsInCapture => Sys2Proof.Machine.execPpsInCapture s
  | .gclGo k v => Sys2Proof.Machine.execGclGo k v s
  | .gclChange k => Sys2Proof.Machine.execGclChange k s
  | .gateEntryAdvance k => Sys2Proof.Machine.execGateEntryAdvance k s
  | .srfTimeout r => Sys2Proof.Machine.execSrfTimeout r s
  | .srfResetCmd v => Sys2Proof.Machine.execSrfResetCmd v s
  | .curatorPeriod ds => Sys2Proof.Machine.execCuratorPeriod ds s
  | .lockstepMismatch other => Sys2Proof.Machine.execLockstepMismatch other s
  | .codedMessage => Sys2Proof.Machine.execCodedMessage s
  | .intSetWrite p v => Sys2Proof.Machine.execIntSetWrite p v s
  | .injectMessage v => Sys2Proof.Machine.execInjectMessage v s
  | .hostFence p => Sys2Proof.Machine.execHostFence p s
  | .fenceRelease p => Sys2Proof.Machine.execFenceRelease p s
  | .blockFault p kind addr => Sys2Proof.Machine.execBlockFault p kind addr s
  | .galleryFault g ue => Sys2Proof.Machine.execGalleryFault g ue s
  | .takeoverLinkSwitch ms => Sys2Proof.Machine.execTakeoverLinkSwitch ms s
  | .plannedTakeover g => Sys2Proof.Machine.execPlannedTakeover g s
  | .giveBack g => Sys2Proof.Machine.execGiveBack g s
  | .errCauseRead p => Sys2Proof.Machine.execErrCauseRead p s
  | .errCauseClear p => Sys2Proof.Machine.execErrCauseClear p s
  | .galleryPark g => Sys2Proof.Machine.execGalleryPark g s
  | .galleryWake g late => Sys2Proof.Machine.execGalleryWake g late s
  | .galleryDormant g => Sys2Proof.Machine.execGalleryDormant g s
  | .dormantWake g late => Sys2Proof.Machine.execDormantWake g late s
  | .poreset => Sys2Proof.Machine.execPoreset s
  | .resetN => Sys2Proof.Machine.execResetN s
  | .pwrRstCmd v => Sys2Proof.Machine.execPwrRstCmd v s
  | .refclkLoss what => Sys2Proof.Machine.execRefclkLoss what s
  | .refclkRecover => Sys2Proof.Machine.execRefclkRecover s
  | .laneRefclkLoss k => Sys2Proof.Machine.execLaneRefclkLoss k s
  | .railUndervolt => Sys2Proof.Machine.execRailUndervolt s
  | .sensorRead k temp => Sys2Proof.Machine.execSensorRead k temp s
  | .bootRound dir a b => Sys2Proof.Machine.execBootRound dir a b s
  | .bootBackoffExpiry dir a b => Sys2Proof.Machine.execBootBackoffExpiry dir a b s
  | .hostFedLoad bytes => Sys2Proof.Machine.execHostFedLoad bytes s
  | .vubexRunning => Sys2Proof.Machine.execVubexRunning s
  | .vubexStartTimeout other => Sys2Proof.Machine.execVubexStartTimeout other s
  | .lifeHoursTick => Sys2Proof.Machine.execLifeHoursTick s
  | .ageMonitor worst margin => Sys2Proof.Machine.execAgeMonitor worst margin s
  | .lifecycleTransition v fuses => Sys2Proof.Machine.execLifecycleTransition v fuses s
  | .keyProgram k fuses => Sys2Proof.Machine.execKeyProgram k fuses s
  | .keyRevoke k fuses => Sys2Proof.Machine.execKeyRevoke k fuses s
  | .versionRaise v fuses => Sys2Proof.Machine.execVersionRaise v fuses s
  | .nonceRead => Sys2Proof.Machine.execNonceRead s
  | .gpioEdge j rising => Sys2Proof.Machine.execGpioEdge j rising s
  | .smbWrite a v pecOk => Sys2Proof.Machine.execSmbWrite a v pecOk s
  | .smbSetAddress a pecOk => Sys2Proof.Machine.execSmbSetAddress a pecOk s
  | .smbRead => Sys2Proof.Machine.execSmbRead s
  | .pauseQuantaExpiry k p => Sys2Proof.Machine.execPauseQuantaExpiry k p s
  | .ringConsumerWrite k v => Sys2Proof.Machine.execRingConsumerWrite k v s
  | .msixVectorUnmask v => Sys2Proof.Machine.execMsixVectorUnmask v s
  | .busMasterEnableClear => Sys2Proof.Machine.execBusMasterEnableClear s
  | .anxLinkEnWrite v => Sys2Proof.Machine.execAnxLinkEnWrite v s
  | .anxChanCfgWrite k v => Sys2Proof.Machine.execAnxChanCfgWrite k v s
  | .catCfgWrite w v => Sys2Proof.Machine.execCatCfgWrite w v s
  | .catAgeCfgWrite w v => Sys2Proof.Machine.execCatAgeCfgWrite w v s
  | .vitBankCfgWrite w b v => Sys2Proof.Machine.execVitBankCfgWrite w b v s
  | .vltPoolCfgWrite k v => Sys2Proof.Machine.execVltPoolCfgWrite k v s
  | .curLogCfgWrite w v => Sys2Proof.Machine.execCurLogCfgWrite w v s
  | .pcieRefclkLoss => Sys2Proof.Machine.execPcieRefclkLoss s
  | .laneRefclkReturn k => Sys2Proof.Machine.execLaneRefclkReturn k s

end Sys2Proof.Machine
end

