-- ==== Sys2Proof/Machine/Tick.lean ====
section
/-!
DEFINITION. What time alone brings about: one tick of the time counter, which is two core clocks (R419), run while no command
waits (DESIGN CHOICE, log 4).
-/
namespace Sys2Proof.Machine

/-- The end of a window of 65,536 clocks: DOC_CYC_STAT.mean_x16 of every gallery whose DOC block is ON; a window in which no parse
ended has no mean, and shows a free value (log 3). The mean is rounded down (DESIGN CHOICE, log 42), and of parses that end while the block is
not ON no window tells. -/
def cycWindow (g : Nat) (s : State) : State :=
  if !galPresent s.part g then s
  else if !isOn s (pageDOC g) then
    { s with doc := { s.doc with cycSum := sPut 0 g 0 s.doc.cycSum, cycCnt := sPut 0 g 0 s.doc.cycCnt } }
  else
    let n := sGet 0 g s.doc.cycCnt
    let x := drawFree s
    let s1 := if n = 0 then wf (DOC_CYC_STAT g) 15 0 x.1.toNat x.2 else wf (DOC_CYC_STAT g) 15 0 (16 * sGet 0 g s.doc.cycSum / n) s
    { s1 with doc := { s1.doc with cycSum := sPut 0 g 0 s1.doc.cycSum, cycCnt := sPut 0 g 0 s1.doc.cycCnt } }

/-- A frame that waits in a queue of port 512 whose event ring is enabled (R533). -/
def puntWaits (s : State) : Bool :=
  s.copies.any fun c => c.port == 512 && c.stage == .queued && rb s (HIF_EQ_CFG (puntRing s c.queue)) 31

/-- Pages that answer again no longer have their coded message pending (R606). -/
def dropReached (s : State) : State :=
  { s with rgr := { s.rgr with unrPend := s.rgr.unrPend.filter (unreachable s) } }

/-- E and the core clocks advance by one tick (R419): 1.25 ns times 1 + TSN_FREQ_ADJ * 2^-8 * 10^-9, the
adjustment limited to ±256,000,000. -/
def advanceTime (s : State) : State :=
  { s with time := { s.time with
      clock := s.time.clock + 2
      e := ((s.time.e : Int) + 256000000000 + max (-256000000) (min 256000000 (signed 32 (rd s TSN_FREQ_ADJ).toNat))).toNat } }

/-- A new clock: the pools' levels as the last one left them (R335), every Hall write port and every cell freed in it free again (R32, R46). -/
def nextClock (s : State) : State :=
  let s1 := latchLevels s
  { s1 with hal := { s1.hal with wrote := [], freed := [] } }

/-- One tick. While the domains are held in reset nothing moves. -/
def tick (s : State) : State :=
  if s.pwr.held != .none then s
  else
    let s1 := settleWraps s
    let s2 := nextClock (advanceTime s1)
    let s3 := ledgerTick 2 (s2.time.clock / 32 - s1.time.clock / 32) (eUs s2 - eUs s1) s2
    let s4 := (List.range 9).foldl (fun a g => judgePressure g a) s3
    let s5 := if s4.time.clock % 65536 = 0 then (List.range 9).foldl (fun a g => cycWindow g a) s4 else s4
    let s6 := ppsFall s5
    let s7 := if puntWaits s6 then pme s6 else s6
    dropReached (sequencer (drainLog 257 (issueWrites (serveTargeted (serveVault s7)))))

end Sys2Proof.Machine
end

