-- ==== Sys2Proof/Safety.lean ====
section
/-!
DEFINITION. What claims are stated in terms of: the canonical form of the engine's stores, the whole-machine conditions that every
step keeps, and steps that only go forward.
-/
namespace Sys2Proof.Machine

/-- The table address space and the host's memory are in canonical form: addresses strictly rising, and no entry equal to what an
unlisted address reads as: zero in table space, nothing written in host memory. -/
def Memory.wf (s : State) : Bool := sWf (fun _ => (0 : W32)) s.tab.words && sWf (fun _ => (none : Option Byte)) s.hif.mem

/-- The live epochs, from the oldest `o` to the current `c`, modulo 256: at most four (R263). -/
def epochsLive (s : State) : Prop := s.prv.c < 256 ∧ s.prv.o < 256 ∧ liveCount s ≤ 4

/-- Fuses only blow: every fuse count of `t` is at least that of `s` (R670, R671). -/
def fusesGrow (s t : State) : Prop :=
  (∀ k, sGet 0 k s.lcs.pairs ≤ sGet 0 k t.lcs.pairs) ∧ (∀ k, sGet 0 k s.lcs.keys ≤ sGet 0 k t.lcs.keys) ∧
  (∀ k, sGet 0 k s.lcs.revs ≤ sGet 0 k t.lcs.revs) ∧ (∀ k, sGet 0 k s.lcs.vers ≤ sGet 0 k t.lcs.vers)

/-- The numbers that the next frame and the next copy get are above those in use. -/
def idsFresh (s : State) : Prop := (∀ f, f ∈ s.frames → f.id < s.nextId) ∧ ∀ c, c ∈ s.copies → c.id < s.nextCopy

/-! ## What a command leaves alone -/

/-- Every register but those at `rs` reads as before. -/
def RegsBut (rs : List Nat) (s t : State) : Prop := ∀ a, a ∉ rs → rd t a = rd s a

/-- Is `a` on a Ledger page? -/
def onLedger (a : Nat) : Prop := 0x2A0 ≤ a / 0x10000 ∧ a / 0x10000 < 0x2B0

/-- Every counter but those at `cs` holds its value; where an interrupt message may go (HIF_CNT_8), the Ledger's counters may take the
events that wait for them, which it counts first (R53). -/
def CtrsBut (cs : List Nat) (s t : State) : Prop :=
  ∀ a, a ∉ cs → ¬(HIF_CNT 8 ∈ cs ∧ onLedger a) → ctr t a = ctr s a

/-- The registers that an event of page `p` may change: its INT_STAT, and the pending bits of the MSI-X vectors (R530, R690). -/
def eventRegs (p : Nat) : List Nat := H_INT_STAT p :: (List.range 8).map HIF_MSIX_PBA

/-- Nothing arrives on port `i`, and no copy for it has left its queue: the port can go down without touching a frame. -/
def quietPort (s : State) (i : Nat) : Prop :=
  sGet none i s.lnk.rx = none ∧ ∀ c, c ∈ s.copies → c.port = i → c.stage = .queued

/-- Core `c` of gallery `g` is in state `k` with frame `f`, has not been cut, and stands at the readable instruction word `w`. -/
structure StandsAt (g c : Nat) (w : W32) (f : Frame) (k : CoreSt) (s : State) : Prop where
  core : coreOf s g c = some k
  frame : frameOf s k.frame = some f
  reads : readable (settle s) (storeAddr g k.pc) = true
  word : tw (settle s) (storeAddr g k.pc) = w
  legal : illegal w = false
  running : k.cut = false

/-- From `s` to `t` only core `c` of gallery `g` moves, from `k` to `k'`: every frame and every other core is as before, and where
nothing waits to be merged and the core's instruction word holds no error, so is every register, counter and table word. -/
structure CoreMoves (g c : Nat) (k k' : CoreSt) (s t : State) : Prop where
  core : coreOf t g c = some k'
  frames : t.frames = s.frames
  others : ∀ n, n ≠ 168 * g + c → sGet none n t.doc.cores = sGet none n s.doc.cores
  rest : s.tab.merges = [] → rdStat s (storeAddr g k.pc) = .good → RegsBut [] s t ∧ CtrsBut [] s t ∧ t.tab = s.tab

/-- `k'` is `k` moved on by one word in `n` cycles, with `v` written to register `r`: G0 reads as zero and discards what is written
to it (R111). -/
structure RegStep (r n v : Nat) (k k' : CoreSt) : Prop where
  written : r ≠ 0 → getG k' r = w32 v
  kept : ∀ q, q ≠ r → getG k' q = getG k q
  zero : getG k' 0 = 0
  rest : k' = { k with g := k'.g, pc := (k.pc + 1) % 16384, cycles := k.cycles + n, search := none }

/-- The parse of frame `f` on core `c` of gallery `g` ends in `t` with `code` after `n` cycles (R116): the core is free, the frame goes
to the reorder ring with the code, which its counter counts; an exception discards what the program wrote and is recorded. -/
structure ParseEnds (g c code n : Nat) (f : Frame) (k : CoreSt) (s t : State) : Prop where
  free : coreOf t g c = none
  frame : ∃ x, frameOf t f.id = some x ∧ x = { f with stage := .ring, exc := code, fv := x.fv, ofs := x.ofs } ∧
    (code = 0 → x.fv = sPut 0 7 (statusWord 0 k) k.fv ∧ x.ofs = k.ofs) ∧
    (code ≠ 0 → x.fv = sPut 0 7 (statusWord code k) (k.fv.filter fun e => decide (e.1 < 7)) ∧ x.ofs = [(0, 0)])
  counted : ctr t (DOC_EXC_CNT g (excCounter code)) = (ctr s (DOC_EXC_CNT g (excCounter code)) + 1) % 2 ^ 64
  longest : n < 128 → rf t (DOC_CYC_STAT g) 22 16 = max (rf s (DOC_CYC_STAT g) 22 16) n
  recorded : code ≠ 0 → rd t (DOC_EXC_LAST g) = w32 (k.pc * 65536 + code % 256 * 256 + portIndex f.port)

/-! ## Table commands -/

/-- `n` bytes of host memory from `a`. -/
def memBytes (s : State) (a n : Nat) : List (Option Byte) := (List.range n).map fun j => sGet none (a + j) s.hif.mem

/-- Host address of the entry that the completion ring of submission ring `r` writes next (R511). -/
def cqSlot (s : State) (r : Nat) : Nat :=
  rd64 s (HIF_CQ_BASE_LO (cqOf s r)) / 32 * 32 + 32 * rf s (HIF_CQ_PROD (cqOf s r)) 15 0

/-- A completion of ring `r` can be written at once (R511-R514): its ring enabled and not full, memory requests allowed, and no
completion waiting. -/
structure CplOpen (r : Nat) (s : State) : Prop where
  enabled : rb s (HIF_CQ_CFG (cqOf s r)) 31 = true
  mem : memOk s = true
  room : outFull s false (cqOf s r) = false
  none : s.hif.waiting = []

/-- The next command of its executor is `c`, well formed, taken since the last reset of the host interface (R499), with its tables ON and the
epoch window not full (R268-R275); nothing waits to be merged. -/
structure RunsNext (c : Cmd) (s : State) : Prop where
  front : nextCmd s (executorOf c.op) c.op = some c
  form : c.bad = false ∧ c.orphan = false ∧ c.op < 256 ∧ c.tag < 65536
  count : entriesOf c = none ∨ entriesOf c = some c.entries
  on : tableOn s (executorOf c.op) = true ∧ (longCmd c = true → tableOn s 0 = true)
  room : changes c.op = true → liveCount s < 4
  live : epochsLive s
  clean : s.tab.merges = []
  cpl : CplOpen c.ring s

/-- Command `c` has been taken from its executor and completed in host memory with a status and an index (R274). -/
structure Completes (c : Cmd) (status first : Nat) (s t : State) : Prop where
  taken : exqOf t (executorOf c.op) = (exqOf s (executorOf c.op)).drop 1
  word0 : memBytes t (cqSlot s c.ring) 4 =
    (leBytes 4 (b2n (!rb s (HIF_CQ_PROD (cqOf s c.ring)) 16) * 2 ^ 31 + 0x68000000 + c.op * 65536 + c.tag)).map some
  status : sGet none (cqSlot s c.ring + 7) t.hif.mem = some (byte status)
  index : memBytes t (cqSlot s c.ring + 8) 4 = (leBytes 4 first).map some

/-- No table and no epoch changed. -/
def TablesKept (s t : State) : Prop :=
  t.tab = s.tab ∧ t.lpm = s.lpm ∧ t.vit = s.vit ∧ t.cat = s.cat ∧ t.prv.c = s.prv.c ∧ t.prv.o = s.prv.o ∧ t.prv.marks = s.prv.marks

/-- Record `i` of table `k` is new in both replicas: valid, born in the next epoch, neither mortal nor settled (R260). -/
def Staged (k i : Nat) (s t : State) : Prop :=
  ∀ w, w < 2 → recValid t k w i = true ∧ recVer t k w i = ⟨nextEpoch s, 0, false, false⟩

/-- Record `i` of table `k` is retired in both replicas (R261): it dies in the next epoch, or, born in it and not settled, is freed. -/
def Retired (k i : Nat) (s t : State) : Prop :=
  let v := recVer s k 0 i
  if v.birth = nextEpoch s ∧ v.settled = false then recValid t k 0 i = false ∧ recValid t k 1 i = false
  else ∀ w, w < 2 → (recVer t k w i).death = nextEpoch s ∧ (recVer t k w i).mortal = true ∧ recValid t k w i = recValid s k w i

/-- The command row of each table opcode (R272, R312). -/
def tableInstr (op : Nat) : Option Instr :=
  match op with
  | 0x01 => some .catInsert | 0x02 => some .catReplace | 0x03 => some .catDelete | 0x04 => some .catFind
  | 0x10 => some .routeAdd | 0x11 => some .routeReplace | 0x12 => some .routeDelete | 0x13 => some .routeFind
  | 0x14 => some .nhSet | 0x15 => some .nhDelete | 0x16 => some .groupSet | 0x17 => some .groupReplaceMember
  | 0x18 => some .groupRemoveMember | 0x19 => some .groupDelete
  | 0x20 => some .vitPlace | 0x21 => some .vitInsert | 0x22 => some .vitReplace | 0x23 => some .vitDelete
  | 0x24 => some .vitFind | 0x25 => some .polSet
  | 0x30 => some .tplSet | 0x31 => some .tplDelete | 0x32 => some .tplFind
  | 0x40 => some .commit | 0x41 => some .discard
  | _ => none

/-! ## Host jobs -/

/-- Channel `c` may run the job `d` that its next ring has ready (R515, R517, R523): HIF is ON, its arguments are good, it touches no
gallery's store, memory requests may be issued and nothing waits to be merged. -/
structure JobRuns (c op : Nat) (d : Dma) (s : State) : Prop where
  next : nextJob s c = some d
  form : d.op = op ∧ d.bad = false ∧ dmaArgsOk s.part d = true
  gals : dmaGals d = []
  on : isOn s pageHIF = true
  mem : memOk s = true
  clean : s.tab.merges = []

/-- A host job of ring `r` with tag `g` of kind `k` (9 DMA, 0xA inject) has completed in host memory with a status and a number of
bytes (R520). -/
structure JobEnds (r k g status bytes : Nat) (s t : State) : Prop where
  word0 : memBytes t (cqSlot s r) 4 =
    (leBytes 4 (b2n (!rb s (HIF_CQ_PROD (cqOf s r)) 16) * 2 ^ 31 + 0x60000000 + k * 2 ^ 24 + status * 65536 + g)).map some
  bytes : memBytes t (cqSlot s r + 8) 4 = (leBytes 4 bytes).map some

/-- A bus error has taken ring `r` of kind `k` away: the ring is disabled, and the error is counted, recorded and raised (R522). -/
structure RingLost (k : RingKind) (r : Nat) (s t : State) : Prop where
  off : rb t (ringCfg k r) 31 = false
  event : rb t (H_INT_STAT pageHIF) 1 = true
  cause : rf t (H_ERR_CAUSE pageHIF) 31 24 = 0x07
  counted : ctr t (HIF_CNT 4) = (ctr s (HIF_CNT 4) + 1) % 2 ^ 64

/-! ## Boot -/

/-- What one attempt to boot an image finds (R656, R675): 0 when it verifies, 2 when no flash answers. -/
def bootCode (s : State) (lc : Nat) (img : Option (List Byte)) : Nat :=
  match img with
  | none => if lc = 4 then 6 else 2
  | some b => verify s lc b

/-- Blocks whose start, stop, abort and fence change nothing of their own beside STATE and FENCE. -/
def plainBlk : Blk → Bool
  | .lpm | .tsn | .csv | .edt => true
  | _ => false

/-! ## Which parts of the state a command may touch -/

/-- The parts of the state, one for each of its records; frames and copies with the numbers that new ones get. -/
inductive Part where
  | bus | tab | time | frames | copies | lnk | doc | cat | lpm | vit | prv | csv | hal | dpt | tmg | tsn | vlt | arc | rgr | hif
  | anx | cur | pwr | lcs | dev | ldg
  deriving DecidableEq, Repr

/-- Every part. -/
def allParts : List Part :=
  [.bus, .tab, .time, .frames, .copies, .lnk, .doc, .cat, .lpm, .vit, .prv, .csv, .hal, .dpt, .tmg, .tsn, .vlt, .arc, .rgr, .hif,
   .anx, .cur, .pwr, .lcs, .dev, .ldg]

/-- Part `p` of two states is the same. -/
def Part.same (p : Part) (s t : State) : Prop :=
  match p with
  | .bus => t.bus = s.bus
  | .tab => t.tab = s.tab
  | .time => t.time = s.time
  | .frames => t.frames = s.frames ∧ t.nextId = s.nextId ∧ t.nextSeq = s.nextSeq
  | .copies => t.copies = s.copies ∧ t.nextCopy = s.nextCopy
  | .lnk => t.lnk = s.lnk
  | .doc => t.doc = s.doc
  | .cat => t.cat = s.cat
  | .lpm => t.lpm = s.lpm
  | .vit => t.vit = s.vit
  | .prv => t.prv = s.prv
  | .csv => t.csv = s.csv
  | .hal => t.hal = s.hal
  | .dpt => t.dpt = s.dpt
  | .tmg => t.tmg = s.tmg
  | .tsn => t.tsn = s.tsn
  | .vlt => t.vlt = s.vlt
  | .arc => t.arc = s.arc
  | .rgr => t.rgr = s.rgr
  | .hif => t.hif = s.hif
  | .anx => t.anx = s.anx
  | .cur => t.cur = s.cur
  | .pwr => t.pwr = s.pwr
  | .lcs => t.lcs = s.lcs
  | .dev => t.dev = s.dev
  | .ldg => t.ldg = s.ldg

/-- The parts of the state that a command may change, in any state and on any operands; the queue and the order code are no command's
to change. -/
def touches (c : Instr) : List Part :=
  match c with
  | .registerWrite .. | .poreset .. | .resetN .. | .pwrRstCmd .. | .refclkLoss .. | .railUndervolt .. | .sensorRead .. | .smbWrite .. =>
    allParts
  | .bar0AccessError .. | .standbyRetrain .. | .octetModeWrite .. | .modCmdGo .. | .modDone .. | .d2dStatRead .. | .arcRingCfgWrite ..
  | .rplBusyClear .. | .drainSlow .. | .annexTrainDone .. | .ledgerWrap .. | .counterClear .. | .userPageWrite .. | .ldgUserStatRead ..
  | .docCycStatRead .. | .sojournMaxRead .. | .rfmRequest .. | .pseudoChannelFail .. | .pcFailCmd .. | .pcFence .. | .timeReadLatch ..
  | .timeInputLoss .. | .timeInputLock .. | .ppsInCapture .. | .injectMessage .. | .errCauseRead .. | .errCauseClear ..
  | .msixVectorUnmask .. | .busMasterEnableClear .. | .anxChanCfgWrite .. | .catCfgWrite .. | .catAgeCfgWrite .. | .vitBankCfgWrite ..
  | .vltPoolCfgWrite .. | .curLogCfgWrite .. | .pcieRefclkLoss .. => [.bus]
  | .counterLoRead .. => [.bus, .anx]
  | .softReset .. =>
    [.bus, .copies, .lnk, .doc, .cat, .vit, .prv, .csv, .hal, .dpt, .tmg, .tsn, .vlt, .arc, .rgr, .hif, .anx, .cur, .pwr, .lcs, .ldg]
  | .enableWrite .. | .blockStartComplete .. | .curatorPeriod .. =>
    [.bus, .tab, .frames, .copies, .lnk, .cat, .vit, .prv, .csv, .hal, .dpt, .tmg, .vlt, .arc, .hif, .anx, .cur, .pwr]
  | .blockStopComplete .. =>
    [.bus, .tab, .frames, .copies, .lnk, .doc, .cat, .vit, .prv, .csv, .hal, .dpt, .tmg, .vlt, .arc, .rgr, .anx, .cur, .pwr]
  | .stopTimeout .. | .intSetWrite .. | .hostFence .. | .blockFault .. =>
    [.bus, .tab, .frames, .copies, .lnk, .doc, .cat, .vit, .prv, .csv, .hal, .dpt, .tmg, .vlt, .arc, .rgr, .hif, .anx, .cur, .pwr]
  | .rxFrame .. => [.bus, .tab, .frames, .copies, .lnk, .doc, .cat, .vit, .prv, .csv, .hal, .dpt, .tmg, .vlt, .hif, .anx, .cur]
  | .pauseFrameRx .. | .wheelRelease .. | .shaperRateWrite .. | .shaperForgive .. | .shaperBurstWrite .. => [.bus, .tmg]
  | .pauseFrameTx .. | .frameTransmit .. => [.bus, .tab, .frames, .copies, .lnk, .doc, .cat, .vit, .prv, .csv, .hal, .dpt, .tmg, .vlt]
  | .flitRetry .. | .galleryFault .. =>
    [.bus, .tab, .frames, .copies, .lnk, .doc, .cat, .vit, .prv, .csv, .hal, .dpt, .tmg, .vlt, .arc, .rgr, .pwr]
  | .laneStateReq .. | .retuneComplete .. | .retuneAbort .. =>
    [.bus, .tab, .frames, .copies, .lnk, .cat, .vit, .prv, .csv, .hal, .dpt, .tmg, .vlt, .arc, .hif, .anx, .cur]
  | .trainComplete .. | .lossOfLock .. | .holdRestoreTimeout .. =>
    [.bus, .tab, .frames, .copies, .lnk, .cat, .vit, .prv, .csv, .hal, .dpt, .tmg, .vlt, .arc]
  | .tsFifoPop .. | .pfcRefresh .. => [.bus, .lnk]
  | .dispatch .. => [.bus, .frames, .doc, .prv]
  | .docNop .. | .docAdd .. | .docSub .. | .docAnd .. | .docOr .. | .docXor .. | .docShl .. | .docShr .. | .docAddi .. | .docAndi ..
  | .docOri .. | .docXori .. | .docShli .. | .docShri .. | .docLui .. | .docExt .. | .docLdb .. | .docLdw .. | .docLdd .. | .docLdbx ..
  | .docLdwx .. | .docLddx .. | .docAdv .. | .docAdvr .. | .docSetc .. | .docGetc .. | .docStf .. | .docStf2 .. | .docCpf ..
  | .docMark .. | .docMarkr .. | .docLdf .. | .docJmp .. | .docBeq .. | .docBne .. | .docBltu .. | .docBgeu .. | .docBeqi ..
  | .docBnei .. | .docBbs .. | .docMatch .. | .docSets .. | .docCkv4 .. | .docDone .. | .docFail .. =>
    [.bus, .tab, .frames, .doc, .cat, .vit, .csv]
  | .budgetExpiry .. | .pressureCut .. | .docentCoreFault .. => [.bus, .frames, .doc]
  | .reorderRelease .. => [.frames]
  | .catLookup .. | .routeLookup .. | .vitSearch .. => [.bus, .tab, .frames, .cat, .vit, .csv]
  | .ingressResolution .. => [.bus, .tab, .frames, .copies, .lnk, .cat, .vit, .prv, .csv, .hal, .dpt, .tmg, .tsn, .arc]
  | .lastCellWritten .. => [.bus, .frames, .copies, .lnk, .prv, .hal, .dpt]
  | .cellFree .. | .chainWalkerFree .. | .quarantineRelease .. => [.bus, .frames, .lnk, .prv, .hal, .dpt]
  | .hallRead .. | .returnRead .. => [.bus, .frames, .copies, .lnk, .prv, .csv, .hal, .dpt, .vlt, .arc]
  | .hallBankFail .. | .hallSpareCmd .. | .hallBankSpared .. => [.bus, .hal]
  | .xoffExit .. => [.bus, .lnk, .dpt]
  | .dequeueSelect .. => [.bus, .frames, .copies, .lnk, .prv, .hal, .dpt, .tmg, .vlt, .arc]
  | .headDiscard .. => [.bus, .frames, .copies, .lnk, .prv, .hal, .dpt, .vlt, .arc]
  | .editorEdit .. => [.bus, .tab, .frames, .copies, .lnk, .cat, .vit, .prv, .csv, .hal, .dpt, .vlt, .arc]
  | .samplerRound .. => [.bus, .tmg, .anx, .cur]
  | .archiveCapture .. => [.bus, .frames, .lnk, .prv, .csv, .hal, .dpt, .arc]
  | .archiveRecordWrite .. => [.bus, .arc, .hif, .anx]
  | .rplHeaderCmd .. | .apertureWrite .. | .narrowWriteMerge .. | .srfTimeout .. | .srfResetCmd .. => [.bus, .tab, .cat, .vit]
  | .catInsert .. | .catReplace .. | .catDelete .. | .catFind .. | .routeFind .. | .nhSet .. | .nhDelete .. | .groupSet ..
  | .groupReplaceMember .. | .groupRemoveMember .. | .groupDelete .. | .vitPlace .. | .vitInsert .. | .vitReplace .. | .vitDelete ..
  | .vitFind .. | .tplSet .. | .tplDelete .. | .tplFind .. => [.bus, .tab, .cat, .vit, .prv, .csv, .hif]
  | .accessionLearn .. | .learnRetry .. | .deaccessionPass .. | .t2h .. | .t2t .. => [.bus, .tab, .cat, .vit, .csv, .hif]
  | .routeAdd .. | .routeReplace .. | .routeDelete .. => [.bus, .tab, .cat, .lpm, .vit, .prv, .csv, .hif]
  | .polSet .. | .commit .. => [.bus, .tab, .cat, .vit, .prv, .hif]
  | .vitBankFail .. | .vitSpareCmd .. | .vitBankSpared .. => [.bus, .vit]
  | .commandDispatch .. => [.bus, .prv, .hif]
  | .discard .. => [.bus, .tab, .cat, .lpm, .vit, .prv, .hif]
  | .epochRetire .. => [.bus, .prv]
  | .walkerWork .. => [.bus, .tab, .cat, .lpm, .vit, .prv, .csv]
  | .doorbell .. | .entryFetch .. | .ringCfgWrite .. | .dmaComplete .. | .bufferPost .. | .irqTimer .. | .d3hotEntry .. | .d0Resume .. =>
    [.bus, .hif]
  | .h2t .. | .fill .. | .h2h .. => [.bus, .tab, .cat, .vit, .hif]
  | .injectJob .. => [.bus, .frames, .hif]
  | .puntDelivery .. => [.bus, .frames, .copies, .lnk, .prv, .hal, .dpt, .vlt, .hif]
  | .apertureRead .. => [.bus, .tab, .cat, .vit, .csv, .ldg]
  | .pciePerstN .. | .functionLevelReset .. => [.bus, .copies, .vit, .prv, .hif]
  | .dataSegmentRx .. | .creditSegmentRx .. | .linkSegmentRx .. | .annexLockLoss .. | .anxLinkEnWrite .. =>
    [.bus, .frames, .copies, .lnk, .prv, .hal, .dpt, .vlt, .arc, .anx, .cur]
  | .segmentTx .. => [.bus, .frames, .copies, .lnk, .prv, .hal, .dpt, .vlt, .anx]
  | .creditReturn .. | .linkSegmentTx .. => [.anx]
  | .port513DownTimer .. => [.bus, .tab, .frames, .copies, .lnk, .cat, .vit, .prv, .csv, .hal, .dpt, .tmg, .vlt, .arc, .anx]
  | .userPageRead .. => [.bus, .ldg]
  | .scrubPass .. => [.bus, .tab, .csv, .hal]
  | .scrubWriteBack .. => [.bus, .tab, .csv]
  | .ceLeak .. => [.bus, .csv]
  | .imageComparePass .. | .shadowChunkCompare .. | .shadowRecheck .. => [.bus, .tab, .cat, .vit, .csv]
  | .eccInject .. => [.bus, .tab]
  | .vaultModeEntry .. | .vaultModeExit .. => [.bus, .copies]
  | .spillWrite .. => [.bus, .frames, .copies, .lnk, .hal, .dpt, .vlt]
  | .refreshPerBank .. | .actTableClear .. | .selfRefreshEntry .. | .selfRefreshExit .. => [.vlt]
  | .activate .. | .stackTempRead .. => [.bus, .vlt]
  | .tsnStep .. | .tsnTimeSet .. => [.bus, .tab, .time, .cat, .vit, .csv, .tsn]
  | .ppsOutPulse .. => [.tsn]
  | .gclGo .. => [.bus, .tsn]
  | .gclChange .. | .gateEntryAdvance .. => [.bus, .tab, .cat, .vit, .csv, .tsn]
  | .lockstepMismatch .. => [.bus, .cur, .pwr]
  | .codedMessage .. | .takeoverLinkSwitch .. | .plannedTakeover .. | .giveBack .. => [.bus, .rgr]
  | .fenceRelease .. | .galleryPark .. | .galleryWake .. | .dormantWake .. | .refclkRecover .. | .bootRound .. | .bootBackoffExpiry ..
  | .hostFedLoad .. | .vubexRunning .. | .vubexStartTimeout .. | .lifeHoursTick .. | .ageMonitor .. | .laneRefclkReturn .. => [.bus, .pwr]
  | .galleryDormant .. => [.bus, .doc, .pwr]
  | .laneRefclkLoss .. => [.bus, .tab, .frames, .copies, .lnk, .cat, .vit, .prv, .csv, .hal, .dpt, .tmg, .vlt, .arc, .pwr]
  | .lifecycleTransition .. =>
    [.bus, .tab, .frames, .copies, .lnk, .doc, .cat, .vit, .prv, .csv, .hal, .dpt, .tmg, .vlt, .arc, .hif, .anx, .cur, .lcs]
  | .keyProgram .. | .keyRevoke .. | .versionRaise .. | .nonceRead .. => [.bus, .lcs]
  | .gpioEdge .. => [.bus, .dev]
  | .smbSetAddress .. => [.dev]
  | .smbRead .. => [.bus, .anx, .lcs, .dev]
  | .pauseQuantaExpiry .. => [.tmg]
  | .ringConsumerWrite .. => [.bus, .hif, .anx, .cur]

end Sys2Proof.Machine
end

