-- ==== Sys2Proof/Certificates/Slice0/Obligations.lean ====
section
/-!
DEFINITION. The statements that are to be proved of the model. Each docstring cites the rules of the spec it formalises, or says that
it states the model's own choice. An obligation over several commands is the conjunction of the parts stated just before it.
-/
open Sys2Proof Sys2Proof.Machine

/-- A step runs the command at the front of the queue on the state with the queue's rest. -/
def Obligations.StepRunsFront : Prop :=
  ∀ (c : Instr) (s : State), step { s with pending := c :: s.pending } = exec c s

/-- Every command, in every state, leads to a next state: no command stops the engine. A bad access is recorded in a register. -/
def Claims.EveryCommandAnswers : Prop :=
∀ (c : Instr) (s : State), ∃ t, exec c s = .next t

/-- No command reads or changes the queue of commands that wait, and none changes the order code. -/
def Claims.QueueKept : Prop :=
  ∀ (c : Instr) (s t : State), exec c s = .next t → t.pending = s.pending ∧ t.part = s.part

/-- With an empty queue a step is one tick of the clock. The model's own choice (DESIGN CHOICE, log 4): the spec has no queue. -/
def Claims.IdleTicks : Prop :=
∀ s : State, s.pending = [] → step s = .next (tick s)

/-- Every command answers a next state, keeps the queue and the order code, and an empty queue ticks (the tick is the model's choice, log 4): the three parts above, together. -/
def Obligations.CommandsAnswer : Prop :=
  Claims.EveryCommandAnswers ∧ Claims.QueueKept ∧ Claims.IdleTicks

/-- What a command leaves alone: in any state and on any operands, a command changes only the parts of the state that its row of
`touches` names. -/
def Obligations.CommandFrame : Prop :=
  ∀ (c : Instr) (s t : State), exec c s = .next t → ∀ p, p ∉ touches c → p.same s t

/-- Every step keeps the table address space and the host's memory in canonical form, from every state in which they are. -/
def Obligations.StepKeepsMemoryForm : Prop :=
  ∀ s t : State, Memory.wf s = true → step s = .next t → Memory.wf t = true

/-- At most four epochs are live (R263), after every step from a state in which that holds. -/
def Claims.StepKeepsEpochsLive : Prop :=
  ∀ s t : State, epochsLive s → step s = .next t → epochsLive t

/-- New frames and copies get numbers that no frame and no copy has, over every step. -/
def Claims.NumbersStayFresh : Prop :=
∀ s t : State, idsFresh s → step s = .next t → idsFresh t

/-- Every step keeps at most four live epochs, and new frames and copies unused numbers: the two parts above, together. -/
def Obligations.StepKeepsEpochs : Prop :=
  Claims.StepKeepsEpochsLive ∧ Claims.NumbersStayFresh

/-- A fuse that reads as blown stays blown (R670, R671), over every step. -/
def Claims.FusesNeverReturn : Prop :=
  ∀ s t : State, step s = .next t → fusesGrow s t

/-- The lifecycle state never falls, over every step. -/
def Claims.LifecycleNeverFalls : Prop :=
  ∀ s t : State, step s = .next t → lcState s ≤ lcState t

/-- No step takes back a blown fuse or lowers the lifecycle state: the two parts above, together. -/
def Obligations.FusesOnlyBlow : Prop :=
  Claims.FusesNeverReturn ∧ Claims.LifecycleNeverFalls

/-- What the spec gives for the release of PORESET_N: every register at its Reset value, the tier-0 blocks in STARTING with
CTRL.enable 1 (R17, R687), epochs C = O = 0, the time counter at 0, no table word written (R582), no cell allocated. -/
def Claims.ResetState : Prop :=
  (∀ a, rd State.reset a = regReset State.reset.part a) ∧ (∀ a, ctr State.reset a = 0) ∧
  ([pagePWR, pageLCS, pageRGR].all fun p => blkState State.reset p == 1 && rb State.reset (H_CTRL p) 0) ∧
  ([pageDEV, pageCUR, pageHIF, pageANX, pageHAL, pageDPT, pageARC, pageTMG, pageTSN, pageVLT, pageCSV].all fun p =>
    blkState State.reset p == 0) ∧
  State.reset.prv.c = 0 ∧ State.reset.prv.o = 0 ∧ State.reset.time.e = 0 ∧
  (∀ a, rdStat State.reset a = .never) ∧ (∀ c, (cellOf State.reset c).alloc = false)

/-- The machine right after reset has its memories in canonical form, one live epoch, no fuse blown and an empty queue. -/
def Claims.ResetMeetsInvariants : Prop :=
  Memory.wf State.reset = true ∧ epochsLive State.reset ∧ lcState State.reset = 0 ∧ State.reset.pending = []

/-- What the release of PORESET_N leaves, and that the invariants hold in it: the two parts above, together. -/
def Obligations.ResetState : Prop :=
  Claims.ResetState ∧ Claims.ResetMeetsInvariants

/-- ERR_CAUSE_READ latches both halves of the record's address and answers the record; ERR_CAUSE_CLEAR clears the record. -/
def Claims.ErrorRecordCommands : Prop :=
  ∀ (p : Page) (s : State), reach s (H_ERR_CAUSE p) = .open →
    (∃ t, exec (.errCauseRead p) s = .next t ∧ t.bus.readData = BitVec.ofNat 64 (rd s (H_ERR_CAUSE p)).toNat ∧
      latched t (H_ERR_ADDR_LO p) = some (rd s (H_ERR_ADDR_LO p)) ∧
      latched t (H_ERR_ADDR_HI p) = some (rd s (H_ERR_ADDR_HI p)) ∧ RegsBut [] s t ∧ CtrsBut [] s t) ∧
    (∃ t, exec (.errCauseClear p) s = .next t ∧ rd t (H_ERR_CAUSE p) = 0 ∧ rd t (H_ERR_ADDR_LO p) = 0 ∧
      rd t (H_ERR_ADDR_HI p) = 0 ∧ latched t (H_ERR_ADDR_LO p) = none ∧ latched t (H_ERR_ADDR_HI p) = none ∧
      RegsBut [H_ERR_CAUSE p, H_ERR_ADDR_LO p, H_ERR_ADDR_HI p] s t ∧ CtrsBut [] s t)

/-- REGISTER_WRITE by access code, on the header registers that every page has: MSG_CFG stores its two fields, INT_STAT clears
the bits written 1 (on the pages without a lasting condition), and ID ignores the write. -/
def Claims.RegisterWriteByAccessCode : Prop :=
  ∀ (p : Page) (v : W32) (s : State), (∀ x, x < 0x100 → reach s (bar0 p x) = .open) →
    (∃ t, exec (.registerWrite (BitVec.ofNat 26 (H_MSG_CFG p)) v) s = .next t ∧
      rf t (H_MSG_CFG p) 31 30 = fld v 31 30 ∧ RegsBut [H_MSG_CFG p] s t ∧ CtrsBut [] s t) ∧
    (p.val ≠ pageHIF → p.val ≠ pageDPT →
      ∃ t, exec (.registerWrite (BitVec.ofNat 26 (H_INT_STAT p)) v) s = .next t ∧
        rd t (H_INT_STAT p) = rd s (H_INT_STAT p) &&& ~~~v ∧ RegsBut [H_INT_STAT p] s t ∧ CtrsBut [] s t) ∧
    (∃ t, exec (.registerWrite (BitVec.ofNat 26 (H_ID p)) v) s = .next t ∧ RegsBut [] s t ∧ CtrsBut [] s t)

/-- COUNTER_LO_READ: a _LO word answers the counter's low half and latches its high half for the pair; a _HI word answers what
was latched, zero where nothing was. -/
def Claims.CounterPairRead : Prop :=
  ∀ (a : Bar0) (s : State), let b := shownAt s (a.toNat / 4 * 4)
    reach s (a.toNat / 4 * 4) = .open → counterWord s b = true →
    (b % 8 = 0 → ∃ t, exec (.counterLoRead a) s = .next t ∧ t.bus.readData = BitVec.ofNat 64 (ctr s b % 2 ^ 32) ∧
      latched t (b + 4) = some (w32 (ctr s b / 2 ^ 32)) ∧ CtrsBut [] s t) ∧
    (b % 8 ≠ 0 → ∃ t, exec (.counterLoRead a) s = .next t ∧ CtrsBut [] s t ∧
      t.bus.readData = BitVec.ofNat 64 ((latched s b).getD 0).toNat)

/-- Error records, access codes and counter pairs of the common page header: the three parts above, together. -/
def Obligations.HeaderRegisters : Prop :=
  Claims.ErrorRecordCommands ∧ Claims.RegisterWriteByAccessCode ∧ Claims.CounterPairRead

/-- An event bit stays 1 whatever a host clear says while its condition lasts: cpl_wait of HIF, overcommit of DPT. -/
def Claims.LastingEventsReturn : Prop :=
  ∀ (v : W32) (s : State), heldPage s pageHIF = false → heldPage s pageDPT = false →
    (s.hif.waiting ≠ [] → ∃ t, exec (.registerWrite (BitVec.ofNat 26 (H_INT_STAT pageHIF)) v) s = .next t ∧
      rb t (H_INT_STAT pageHIF) 3 = true) ∧
    (overCommitted s = true →
      ∃ t, exec (.registerWrite (BitVec.ofNat 26 (H_INT_STAT pageDPT)) v) s = .next t ∧ rb t (H_INT_STAT pageDPT) 4 = true)

/-- BAR0_ACCESS_ERROR: the access changes no register but the record of DEV's error cause, event bit 0 and its message; a read
answers all ones. -/
def Claims.BadAccessRecorded : Prop :=
  ∀ (a : Bar0) (m : Bool) (be : BitVec 4) (r : Bool) (s : State), heldPage s pageDEV = false →
    ∃ t, exec (.bar0AccessError a m be r) s = .next t ∧ rf t (H_ERR_CAUSE pageDEV) 31 24 = 0x08 ∧
      rf t (H_ERR_CAUSE pageDEV) 15 0 = (if m then 2 else 1) * 4096 + be.toNat ∧
      rf t (H_ERR_CAUSE pageDEV) 23 16 = min (rf s (H_ERR_CAUSE pageDEV) 23 16 + 1) 255 ∧
      rd t (H_ERR_ADDR_LO pageDEV) = w32 a.toNat ∧ rd t (H_ERR_ADDR_HI pageDEV) = 0 ∧
      rb t (H_INT_STAT pageDEV) 0 = true ∧ (r = true → t.bus.readData = 0xFFFFFFFF) ∧
      RegsBut ([H_ERR_CAUSE pageDEV, H_ERR_ADDR_LO pageDEV, H_ERR_ADDR_HI pageDEV] ++ eventRegs pageDEV) s t

/-- INT_SET_WRITE with no reaction enabled sets exactly the bits written that the page names, and keeps those set. -/
def Claims.InjectionSetsBits : Prop :=
  ∀ (p : Page) (v : W32) (s : State), reach s (H_INT_SET p) = .open → rb s RGR_INJ_CFG 0 = false →
    ∃ t, exec (.intSetWrite p v) s = .next t ∧ RegsBut (eventRegs p) s t ∧
      ∀ n, n < 32 → rb t (H_INT_STAT p) n = (rb s (H_INT_STAT p) n || (v.toNat &&& eventBits s.part p).testBit n)

/-- Lasting events, bad BAR0 accesses and injected events: the three parts above, together. -/
def Obligations.EventsAndInjection : Prop :=
  Claims.LastingEventsReturn ∧ Claims.BadAccessRecorded ∧ Claims.InjectionSetsBits

/-- ENABLE_WRITE by STATE (R686, R721): an OFF block that may leave OFF enters STARTING, an ON block told off enters STOPPING, and
one that is STOPPING or FENCED latches the value. -/
def Claims.EnableMovesBlock : Prop :=
  ∀ (p : Page) (b : Blk) (sub i : Nat) (s : State), pageBlk s.part p = some (b, sub, i) → home p = p →
    reach s (H_CTRL p) = .open → lcState s ≠ 4 →
    (blkState s p = 0 → mayLeaveOff s p = true → (b = .vlt → carveOk s = true) →
      ∃ t, exec (.enableWrite p true) s = .next t ∧ blkState t p = 1 ∧ rb t (H_CTRL p) 0 = true ∧
        RegsBut [H_CTRL p, H_STATE p] s t) ∧
    (blkState s p = 2 →
      ∃ t, exec (.enableWrite p false) s = .next t ∧ blkState t p = 3 ∧
        (b ≠ .cur → b ≠ .ldg → rb t (H_CTRL p) 0 = false ∧ RegsBut [H_CTRL p, H_STATE p] s t)) ∧
    (∀ en, blkState s p = 3 ∨ blkState s p = 4 →
      ∃ t, exec (.enableWrite p en) s = .next t ∧ reenable t p = en ∧ blkState t p = blkState s p ∧
        RegsBut [H_CTRL p, H_STATE p] s t)

/-- BLOCK_START_COMPLETE ends STARTING in ON, once no block of a lower tier is STARTING (R37). -/
def Claims.StartEndsOn : Prop :=
  ∀ (p : Page) (b : Blk) (sub i : Nat) (s : State), pageBlk s.part p = some (b, sub, i) → home p = p → plainBlk b = true →
    heldPage s p = false → blkState s p = 1 → stopPending s p = false →
    (lowerStarting s (blkTier b) = false →
      ∃ t, exec (.blockStartComplete p) s = .next t ∧ blkState t p = 2 ∧ RegsBut [H_STATE p] s t) ∧
    (lowerStarting s (blkTier b) = true → exec (.blockStartComplete p) s = .next s)

/-- BLOCK_STOP_COMPLETE: a drained STOPPING block comes to OFF, or starts again where an enable is latched (R61); STOP_TIMEOUT gets
there without the drain (R64). -/
def Claims.StopEndsOff : Prop :=
  ∀ (p : Page) (b : Blk) (sub i : Nat) (s : State), pageBlk s.part p = some (b, sub, i) → home p = p → b ≠ .doc →
    blkState s p = 3 →
    (drained b i s = true → ∃ t, exec (.blockStopComplete p) s = .next t ∧ (blkState t p = 0 ∨ blkState t p = 1) ∧
      (plainBlk b = true → blkState t p = if reenable s p && mayLeaveOff s p then 1 else 0)) ∧
    (∃ t, exec (.stopTimeout p) s = .next t ∧ (blkState t p = 0 ∨ blkState t p = 1)) ∧
    (plainBlk b = true → rb s (H_MSG_CFG p) 31 = true → (s.bus.msgQ.filter fun m => m.source == p.val).length < 2 →
      ∃ t, exec (.stopTimeout p) s = .next t ∧ ∃ q, t.bus.msgQ = s.bus.msgQ ++ [⟨p, 0x15, 0, q, false⟩])

/-- SOFT_RESET is recorded and has no effect on a block that is not OFF; an OFF block's registers return to their Reset values. -/
def Claims.SoftResetOnlyOff : Prop :=
  ∀ (p : Page) (b : Blk) (sub i : Nat) (s : State), pageBlk s.part p = some (b, sub, i) → home p = p → reach s (H_CTRL p) = .open →
    (blkState s p ≠ 0 → ∃ t, exec (.softReset p) s = .next t ∧ rf t (H_ERR_CAUSE p) 31 24 = 0x06 ∧
      RegsBut [H_ERR_CAUSE p, H_ERR_ADDR_LO p, H_ERR_ADDR_HI p] s t ∧ CtrsBut [] s t) ∧
    (blkState s p = 0 → (b = .cat ∨ b = .lpm ∨ b = .csv ∨ b = .arc ∨ b = .cur) → ∃ t, exec (.softReset p) s = .next t ∧
      (∀ x, x < 0x10000 → rd t (bar0 p x) = regReset s.part (bar0 p x) ∧ ctr t (bar0 p x) = 0) ∧
      (∀ a, a / 0x10000 ≠ p.val → rd t a = rd s a ∧ ctr t a = ctr s a) ∧ t.tab = s.tab)

/-- Enable, start, stop, stop timeout and soft reset of a block: the four parts above, together. -/
def Obligations.BlockLife : Prop :=
  Claims.EnableMovesBlock ∧ Claims.StartEndsOn ∧ Claims.StopEndsOff ∧ Claims.SoftResetOnlyOff

/-- HOST_FENCE fences the block as a fault of kind 0x1E would; the pages that are never fenced ignore it (R613, R616). -/
def Claims.HostFenceFences : Prop :=
  ∀ (p : Page) (b : Blk) (sub i : Nat) (s : State), pageBlk s.part p = some (b, sub, i) → home p = p → reach s (H_FENCE p) = .open →
    (neverFenced b = true → exec (.hostFence p) s = .next s) ∧
    (neverFenced b = false → blkState s p ≠ 4 →
      ∃ t, exec (.hostFence p) s = .next t ∧ blkState t p = 4 ∧ rf t (H_FENCE p) 13 8 = 0x1E ∧ rb t (H_FENCE p) 2 = true) ∧
    (plainBlk b = true → blkState s p ≠ 4 →
      ∃ t, exec (.hostFence p) s = .next t ∧ blkState t p = 4 ∧ rf t (H_FENCE p) 13 8 = 0x1E ∧ rb t (H_FENCE p) 2 = true ∧
        reenable t p = reenable s p ∧ RegsBut ([H_STATE p, H_FENCE p] ++ eventRegs pageRGR) s t)

/-- FENCE_RELEASE moves a FENCED block to OFF, and starts it where an enable was latched while it was FENCED (R617). -/
def Claims.ReleaseLeavesFence : Prop :=
  ∀ (p : Page) (b : Blk) (sub i : Nat) (s : State), pageBlk s.part p = some (b, sub, i) → home p = p → reach s (H_FENCE p) = .open →
    blkState s p = 4 →
    ∃ t, exec (.fenceRelease p) s = .next t ∧ blkState t p = (if reenable s p && mayLeaveOff s p then 1 else 0) ∧
      (b ≠ .gal → b ≠ .cur → RegsBut [H_STATE p] s t)

/-- BLOCK_FAULT: a logic fault fences its block with the fault's kind and counts the fence; errored codewords (kind 0x12) are
reported and fence nothing (R615). -/
def Claims.FaultFencesBlock : Prop :=
  ∀ (p : Page) (b : Blk) (sub i : Nat) (kind : Fin 64) (addr : BitVec 40) (s : State), pageBlk s.part p = some (b, sub, i) →
    home p = p → heldPage s p = false → reportsBlock b kind = true →
    (kind.val = 0x12 → ∃ t, exec (.blockFault p kind addr) s = .next t ∧ RegsBut [] s t ∧ CtrsBut [] s t) ∧
    (plainBlk b = true → blkState s p ≠ 4 →
      ∃ t, exec (.blockFault p kind addr) s = .next t ∧ blkState t p = 4 ∧ rf t (H_FENCE p) 13 8 = kind.val ∧
        rb t (H_FENCE p) 2 = false ∧ RegsBut ([H_STATE p, H_FENCE p] ++ eventRegs pageRGR) s t)

/-- GALLERY_FAULT with automatic takeover off: the gallery's three pages are FENCED with kind 0x06, its power state reads FENCED, and
the Registrar raises gallery_fault (R615, R618). -/
def Claims.GalleryFaultFences : Prop :=
  ∀ (g : Gallery) (ue : Bool) (s : State), galPresent s.part g = true → heldPage s (pageGAL g) = false → galFenced s g = false →
    rb s RGR_SPARE_CFG 0 = false → g.val ≠ 8 →
    ∃ t, exec (.galleryFault g ue) s = .next t ∧ ([pageDOC g, pageEDT g, pageGAL g].all fun p => blkState t p == 4) = true ∧
      rf t (H_FENCE (pageGAL g)) 13 8 = 0x06 ∧ galState t g = 3 ∧ rb t (H_INT_STAT pageRGR) 1 = true

/-- Host fences, releases and faults that fence: the four parts above, together. -/
def Obligations.FencesAndFaults : Prop :=
  Claims.HostFenceFences ∧ Claims.ReleaseLeavesFence ∧ Claims.FaultFencesBlock ∧ Claims.GalleryFaultFences

/-- CODED_MESSAGE takes one message in turn: history slot (HIST_TOTAL mod 64) holds its words and the time, HIST_TOTAL rises by one,
a gap in its source's sequence numbers is counted as lost with msg_lost, and a kind whose fault row names an alert sets that bit. -/
def Claims.MessageRecorded : Prop :=
  ∀ (p : Nat) (m : Msg) (s : State), nextSource s = some p → (s.bus.msgQ.find? fun x => x.source == p) = some m →
    let lost := if sGet 0 p s.rgr.lastSeq = 0 then m.seq % 256 else (m.seq + 512 - sGet 0 p s.rgr.lastSeq) % 256
    ∃ t, exec .codedMessage s = .next t ∧ rd t RGR_HIST_TOTAL = rd s RGR_HIST_TOTAL + 1 ∧ t.rgr.rr = p ∧
      sGet ⟨0, 0, 0, 0, false⟩ ((rd s RGR_HIST_TOTAL).toNat % 64) t.rgr.hist =
        ⟨w32 (msgBits m), w32 (msgBits m / 2 ^ 32), nowNs s, lost, m.inj⟩ ∧
      (lost ≠ 0 → rb t (H_INT_STAT pageRGR) 0 = true ∧ ctr t (RGR_CNT 1) = (ctr s (RGR_CNT 1) + lost) % 2 ^ 64) ∧
      (m.kind = 0x06 ∨ m.kind = 0x07 → rb t (H_INT_STAT pageRGR) 1 = true) ∧
      (m.kind = 0x02 → rb t (H_INT_STAT pageRGR) 5 = true) ∧ (m.kind = 0x0E → rb t (H_INT_STAT pageRGR) 6 = true) ∧
      (m.kind = 0x0F ∨ m.kind = 0x11 → rb t (H_INT_STAT pageRGR) 7 = true) ∧
      (m.kind = 0x16 → rb t (H_INT_STAT pageRGR) 8 = true)

/-- INJECT_MESSAGE puts the two words into the arbiter as a message of their source, marked injected, and does nothing else. -/
def Claims.InjectedMessageQueued : Prop :=
  ∀ (v : W32) (s : State), reach s RGR_INJ_MSG_HI = .open →
    ∃ t, exec (.injectMessage v) s = .next t ∧
      t.bus.msgQ = s.bus.msgQ ++
        [⟨fld v 31 22, fld v 21 16, fld v 15 0 * 2 ^ 24 + fld (rd s RGR_INJ_MSG_LO) 31 8, fld (rd s RGR_INJ_MSG_LO) 7 0, true⟩] ∧
      RegsBut [RGR_INJ_MSG_HI] s t ∧ CtrsBut [] s t

/-- PLANNED_TAKEOVER stops the gallery's DOC first, GIVE_BACK that of GS; a planned takeover that cannot start sets takeover_fail;
and either is ignored while another runs (R624, R626). -/
def Claims.SpareCommands : Prop :=
  ∀ (g : Fin 8) (s : State), reach s RGR_SPARE_CMD = .open →
    (spareRuns s = false → galPresent s.part g = true → galOn s g = true → (carries s g).isSome = true →
      (gsReady s = true ∧ rb s (LNK_D2D_STAT g) 2 = true →
        ∃ t, exec (.plannedTakeover g) s = .next t ∧ t.rgr.planned = some (g.val, false) ∧ spareRuns t = true ∧
          blkState t (pageDOC g) = 3 ∧ RegsBut [RGR_SPARE_CMD, RGR_SPARE_STAT, H_STATE (pageDOC g)] s t) ∧
      (gsReady s = false ∨ rb s (LNK_D2D_STAT g) 2 = false →
        ∃ t, exec (.plannedTakeover g) s = .next t ∧ rb t (H_INT_STAT pageRGR) 3 = true ∧
          ctr t (RGR_CNT 5) = (ctr s (RGR_CNT 5) + 1) % 2 ^ 64 ∧ t.rgr = s.rgr)) ∧
    (spareRuns s = false → spareTarget s = g → galOn s g = true → isOn s (pageDOC 8) = true →
      ∃ t, exec (.giveBack g) s = .next t ∧ t.rgr.planned = some (g.val, true) ∧ spareRuns t = true ∧
        blkState t (pageDOC 8) = 3 ∧ RegsBut [RGR_SPARE_CMD, RGR_SPARE_STAT, H_STATE (pageDOC 8)] s t) ∧
    (spareRuns s = true → (∃ t, exec (.plannedTakeover g) s = .next t ∧ RegsBut [RGR_SPARE_CMD] s t ∧ t.rgr = s.rgr) ∧
      (∃ t, exec (.giveBack g) s = .next t ∧ RegsBut [RGR_SPARE_CMD] s t ∧ t.rgr = s.rgr))

/-- TAKEOVER_LINK_SWITCH ends a takeover with the chiplet on its standby link, takeover_done set and the duration recorded, or a
give-back with the chiplet on its primary link and GS on standby (R621, R626). While GS waits in DORMANT for its ramp nothing switches. -/
def Claims.LinkSwitchEndsTakeover : Prop :=
  ∀ (ms : BitVec 16) (k : Nat) (s : State), k < 8 →
    (s.rgr.switching = some (k, false) → galState s 8 = 2 → exec (.takeoverLinkSwitch ms) s = .next s) ∧
    (s.rgr.switching = some (k, false) → galState s 8 ≠ 2 →
      ∃ t, exec (.takeoverLinkSwitch ms) s = .next t ∧ rb t (LNK_D2D_STAT k) 0 = true ∧ spareRuns t = false ∧
        rf t RGR_SPARE_STAT 15 0 = ms.toNat ∧ spareTarget t = spareTarget s ∧ rb t (H_INT_STAT pageRGR) 2 = true ∧
        t.rgr.switching = none ∧ ctr t (RGR_CNT 4) = (ctr s (RGR_CNT 4) + 1) % 2 ^ 64 ∧
        RegsBut ([LNK_D2D_STAT k, RGR_SPARE_STAT] ++ eventRegs pageRGR) s t) ∧
    (s.rgr.switching = some (k, true) →
      ∃ t, exec (.takeoverLinkSwitch ms) s = .next t ∧ rb t (LNK_D2D_STAT k) 0 = false ∧ rb t (LNK_D2D_STAT k) 1 = true ∧
        spareRuns t = false ∧ spareTarget t = 15 ∧ t.rgr.switching = none ∧
        ctr t (RGR_CNT 6) = (ctr s (RGR_CNT 6) + 1) % 2 ^ 64 ∧ RegsBut [LNK_D2D_STAT k, RGR_SPARE_STAT] s t)

/-- Coded messages, the spare gallery and its link switch: the four parts above, together. -/
def Obligations.RegistrarWork : Prop :=
  Claims.MessageRecorded ∧ Claims.InjectedMessageQueued ∧ Claims.SpareCommands ∧ Claims.LinkSwitchEndsTakeover

/-- GALLERY_PARK, GALLERY_WAKE, GALLERY_DORMANT and DORMANT_WAKE move a gallery between ACTIVE, PARKED and DORMANT and count the
move; in DORMANT every register of the gallery's pages that is neither copied nor a power state nor the pool of cores is back at its Reset
value. A DORMANT gallery wakes when its own ramp runs, one ramp at a time (R639). -/
def Obligations.GalleryPowerMoves : Prop :=
  ∀ (g : Gallery) (s : State),
    (galPresent s.part g = true → galState s g = 0 → galFenced s g = false → parkAllow s g = true → galIdle s g = true →
      gateKeeps s g = false → heldPage s (pageGAL g) = false →
      ∃ t, exec (.galleryPark g) s = .next t ∧ galState t g = 1 ∧ rf t PWR_GAL_STAT (2 * g + 1) (2 * g) = 1 ∧
        ctr t (PWR_CNT 0) = (ctr s (PWR_CNT 0) + 1) % 2 ^ 64 ∧ RegsBut [GAL_STAT g, PWR_GAL_STAT] s t) ∧
    (∀ late, wakeAsked s g = true →
      ∃ t, exec (.galleryWake g late) s = .next t ∧ galState t g = 0 ∧
        ctr t (PWR_CNT 1) = (ctr s (PWR_CNT 1) + 1) % 2 ^ 64 ∧ (late = true → rb t (H_INT_STAT (pageGAL g)) 1 = true) ∧
        RegsBut ([GAL_STAT g, PWR_GAL_STAT] ++ eventRegs (pageGAL g)) s t) ∧
    (galPresent s.part g = true → galState s g = 1 → dormantAllow s g = true → parkAllow s g = true → allAsleep s g = true →
      ∃ t, exec (.galleryDormant g) s = .next t ∧ ctr t (PWR_CNT 2) = (ctr s (PWR_CNT 2) + 1) % 2 ^ 64 ∧
        galState t g = 2 ∧
        (∀ a, pageGallery s.part (a / 0x10000) = some g.val → dormantKeeps s.part (a / 0x10000) (a % 0x10000) = false →
          rd t a = regReset s.part a) ∧
        (∀ a, pageGallery s.part (a / 0x10000) ≠ some g.val → a ≠ PWR_GAL_STAT → rd t a = rd s a)) ∧
    (∀ late, galState s g = 2 → ramping (sequencer s) = g →
      ∃ t, exec (.dormantWake g late) s = .next t ∧ galState t g = 0 ∧ ramping t = 15 ∧
        ctr t (PWR_CNT 3) = (ctr s (PWR_CNT 3) + 1) % 2 ^ 64 ∧ (late = true → rb t (H_INT_STAT (pageGAL g)) 1 = true)) ∧
    (∀ late, galState s g = 2 → ramping (sequencer s) ≠ g →
      ∃ t, exec (.dormantWake g late) s = .next t ∧ galState t g = 2 ∧ RegsBut [PWR_GAL_STAT] s t)

/-- Whatever Vubex decides, the value the engine writes lies in the instance's envelope (R485, R486), and a shaper rate is never 0. -/
def Claims.CuratorStaysInEnvelope : Prop :=
  ∀ (s : State) (n i : Nat) (old target : Int), envValid s n i = true →
    let e := envelope s n i
    let v := (decided n e.1 e.2 old target).1
    e.1 ≤ v ∧ v ≤ e.2 ∧ (n = 4 → 1 ≤ v)

/-- CURATOR_PERIOD: a period counts itself, and what Vubex as shipped decides waits for the next clock and moves no register yet; a decision of an
owner's image for an ECN or spill threshold that is free and enabled writes the decided value over the field it was read from, and one that finds another value there writes nothing (R490). -/
def Claims.CuratorDecisionWrites : Prop :=
  ∀ (s : State), isOn s pageCUR = true → s.cur.switch = false → s.cur.issue = [] →
    (∀ n i, n < 5 → i < 16 → knobOn s n = true → envValid s n i = true) →
    (∀ o, o = none ∨ o = some [] → ∃ t, exec (.curatorPeriod o) s = .next t ∧ ctr t (CUR_CNT 0) = (ctr s (CUR_CNT 0) + 1) % 2 ^ 64 ∧ RegsBut [] s t ∧
      CtrsBut [CUR_CNT 0] s t) ∧
    (∀ (d : CurDecision), (d.knob.val = 1 ∨ d.knob.val = 2) → knobOn s d.knob = true → knobFree s d.knob d.inst = true →
      reach s (knobField d.knob d.inst).1 = .open →
      let n := d.knob.val
      let e := envelope s n d.inst
      let new := (decided n e.1 e.2 d.seen.toNat d.target.toNat).1.toNat
      let f := knobField n d.inst
      (rf s f.1 20 0 = d.seen.toNat → new ≠ d.seen.toNat →
        ∃ t, exec (.curatorPeriod (some [d])) s = .next t ∧ rf t f.1 20 0 = new ∧ (e.1 ≤ (new : Int) ∧ (new : Int) ≤ e.2)) ∧
      (rf s f.1 20 0 ≠ d.seen.toNat → ∃ t, exec (.curatorPeriod (some [d])) s = .next t ∧ rd t f.1 = rd s f.1))

/-- The Curator never writes outside an envelope, and gives way to the host: the two parts above, together. -/
def Obligations.CuratorDecides : Prop :=
  Claims.CuratorStaysInEnvelope ∧ Claims.CuratorDecisionWrites

/-- LOCKSTEP_MISMATCH while Vubex runs fences the pair in service and has the other pair start at the next period; with both fenced
the CUR block is FENCED (R483). -/
def Claims.LockstepFencesPair : Prop :=
  ∀ (o : Option (List Byte)) (s : State), s.pwr.starting = none → isOn s pageCUR = true → pairFenced s (curPair s) = false →
    ∃ t, exec (.lockstepMismatch o) s = .next t ∧ pairFenced t (curPair s) = true ∧ rb t (H_INT_STAT pageCUR) 1 = true ∧
      ctr t (CUR_CNT 7) = (ctr s (CUR_CNT 7) + 1) % 2 ^ 64 ∧
      (pairFenced s (1 - curPair s) = true → blkState t pageCUR = 4 ∧ rf t (H_FENCE pageCUR) 13 8 = 0x0B) ∧
      (pairFenced s (1 - curPair s) = false → blkState t pageCUR = 2 ∧ t.cur.switch = true)

/-- CUR_LOG_CFG_WRITE: accepted while the log is not enabled, and refused with code 0x01 when it would change an enabled log. -/
def Claims.LogConfigGuarded : Prop :=
  ∀ (v : W32) (s : State), reach s CUR_LOG_CFG = .open →
    (rb s CUR_LOG_CFG 31 = false →
      (∃ t, exec (.curLogCfgWrite 0 v) s = .next t ∧ rd t CUR_LOG_CFG = v &&& 0xE00FF000 ∧ RegsBut [CUR_LOG_CFG] s t) ∧
      (∃ t, exec (.curLogCfgWrite 1 v) s = .next t ∧ rd t CUR_LOG_BASE_LO = v &&& 0xFFFFFFE0 ∧ RegsBut [CUR_LOG_BASE_LO] s t) ∧
      (∃ t, exec (.curLogCfgWrite 2 v) s = .next t ∧ rd t CUR_LOG_BASE_HI = v ∧ RegsBut [CUR_LOG_BASE_HI] s t)) ∧
    (rb s CUR_LOG_CFG 31 = true → ∀ w, w.val ≠ 0 ∨ rf s CUR_LOG_CFG 19 16 ≠ fld v 19 16 →
      ∃ t, exec (.curLogCfgWrite w v) s = .next t ∧ rf t (H_ERR_CAUSE pageCUR) 31 24 = 0x01 ∧
        rf t (H_ERR_CAUSE pageCUR) 15 0 = 0x110 + 4 * w.val ∧
        RegsBut [H_ERR_CAUSE pageCUR, H_ERR_ADDR_LO pageCUR, H_ERR_ADDR_HI pageCUR] s t)

/-- SAMPLER_ROUND, once a round is due on E: the Curator has one record of every selected queue, in ascending order, whatever the Annex loses (R410, R412). -/
def Claims.SamplerVisitsAll : Prop :=
  ∀ (s : State), isOn s pageTMG = true → rb s TMG_SAMP_CFG 31 = true → isOn s pageCUR = true → s.tmg.sampDue ≤ eUs s →
    (∃ t, exec .samplerRound s = .next t ∧ t.cur.samples.length = (sampledQueues s).length ∧
      t.tmg.sampDue = eUs s + sampPeriod s) ∧
    (rb s TMG_SAMP_CFG 30 = false →
      ∃ t, exec .samplerRound s = .next t ∧ t.cur.samples = (sampledQueues s).map (sampleRecord s) ∧ RegsBut [] s t ∧
        CtrsBut [TMG_CNT 5] s t)

/-- Lockstep pairs, the decision log and the queue sampler: the three parts above, together. -/
def Obligations.CuratorWork : Prop :=
  Claims.LockstepFencesPair ∧ Claims.LogConfigGuarded ∧ Claims.SamplerVisitsAll

/-- LANE_STATE_REQ on a chiplet that is ON (R94): OFF from any state, HOLD from any but OFF, TRAIN from OFF, and from HOLD the restore;
a retune in progress is aborted first with its saved coefficients (R97). A chiplet that is not ON stores the request alone. -/
def Claims.LaneRequests : Prop :=
  ∀ (k : Chiplet) (l : Lane) (v : W32) (s : State), reach s (LNK_LANE_CTRL k l) = .open →
    let st := laneState s (laneNo k l)
    let c := laneSt s k l
    (isOn s (pageLNK k) = true →
      ∃ t, exec (.laneStateReq k l v) s = .next t ∧ rd t (LNK_LANE_CTRL k l) = v &&& 0x30F ∧
        ((fld v 1 0 = 0 ∨ fld v 1 0 = 3) → laneState t (laneNo k l) = 0 ∧ laneSt t k l = laneNone) ∧
        (fld v 1 0 = 1 → laneState t (laneNo k l) = if st = 0 then 0 else 1) ∧
        (fld v 1 0 = 2 → laneState t (laneNo k l) = if st = 0 then 2 else if st = 4 then 3 else st) ∧
        (fld v 1 0 = 2 → st = 1 → laneSt t k l = { c with restoring := true }) ∧
        (fld v 1 0 = 2 → st = 4 → laneSt t k l = { c with coef := c.saved })) ∧
    (isOn s (pageLNK k) = false →
      ∃ t, exec (.laneStateReq k l v) s = .next t ∧ rd t (LNK_LANE_CTRL k l) = v &&& 0x30F ∧
        RegsBut [LNK_LANE_CTRL k l] s t ∧ t.lnk = s.lnk)

/-- TRAIN_COMPLETE brings a lane that may lock and is asked UP to UP with its coefficients; LOSS_OF_LOCK takes an UP lane to TRAIN and
its port down (R95); HOLD_RESTORE_TIMEOUT takes a restoring lane to TRAIN (R94). -/
def Claims.LaneMoves : Prop :=
  ∀ (k : Chiplet) (l : Lane) (s : State), let n := laneNo k l
    (∀ coef ber, isOn s (pageLNK k) = true → mayLock s k = true → laneReq s k l = 2 →
      (laneState s n = 2 ∨ laneState s n = 1 ∧ (laneSt s k l).restoring = true) →
      ∃ t, exec (.trainComplete k l coef ber) s = .next t ∧ laneState t n = 3 ∧ rf t (LNK_LANE_STAT k l) 15 8 = ber.toNat ∧
        laneSt t k l = ⟨coef, (laneSt s k l).saved, false, chipTemp s k⟩ ∧ rb t (H_INT_STAT (pageLNK k)) 0 = true ∧
        RegsBut (LNK_LANE_STAT k l :: eventRegs (pageLNK k)) s t) ∧
    (laneUp s n = true →
      ∃ t, exec (.lossOfLock k l) s = .next t ∧ laneState t n = 2 ∧ rf t (LNK_LANE_STAT k l) 15 8 = 0 ∧
        portUp t (lanePort s n) = false ∧ rb t (H_INT_STAT (pageLNK k)) 0 = true ∧
        (quietPort s (lanePort s n) → RegsBut (LNK_LANE_STAT k l :: eventRegs (pageLNK k)) s t)) ∧
    (laneState s n = 1 → (laneSt s k l).restoring = true →
      ∃ t, exec (.holdRestoreTimeout k l) s = .next t ∧ laneState t n = 2 ∧ (laneSt t k l).restoring = false)

/-- RETUNE_COMPLETE returns the lane to UP with new coefficients, RETUNE_ABORT with the saved ones (R96); either leaves a record of it,
or counts the record as lost, with log_lost on the first loss after a clock without one. -/
def Claims.RetuneEnds : Prop :=
  ∀ (k : Chiplet) (l : Lane) (r : Fin 12) (m : W32) (s : State), laneState s (laneNo k l) = 4 →
    (∀ coef ber, ∃ t, exec (.retuneComplete k l coef ber r m) s = .next t ∧ laneState t (laneNo k l) = 3 ∧
      laneSt t k l = { laneSt s k l with coef := coef, temp := chipTemp s k } ∧ rf t (LNK_LANE_STAT k l) 15 8 = ber.toNat) ∧
    (∃ t, exec (.retuneAbort k l r m) s = .next t ∧ laneState t (laneNo k l) = 3 ∧
      laneSt t k l = { laneSt s k l with coef := (laneSt s k l).saved }) ∧
    (rb s CUR_LOG_CFG 31 = false →
      ∃ t, exec (.retuneAbort k l r m) s = .next t ∧
        (isFirst s pageCUR 0 = true ∨ rb s (H_INT_STAT pageCUR) 0 = true → rb t (H_INT_STAT pageCUR) 0 = true) ∧
        ctr t (CUR_CNT 6) = (ctr s (CUR_CNT 6) + 1) % 2 ^ 64)

/-- Lane requests, training, loss of lock and retunes: the three parts above, together. -/
def Obligations.LaneStates : Prop :=
  Claims.LaneRequests ∧ Claims.LaneMoves ∧ Claims.RetuneEnds

/-- OCTET_MODE_WRITE: a code above 8 is recorded with code 0x02, a write while a lane of the octet is not OFF with code 0x01, and
neither changes the mode (R68, R69). -/
def Claims.OctetModes : Prop :=
  ∀ (k : Chiplet) (o : Fin 8) (v : W32) (s : State), reach s (LNK_OCTET_MODE k o) = .open →
    let off := (List.range 8).all fun j => laneState s (laneNo k (8 * o + j)) == 0
    let err := [H_ERR_CAUSE (pageLNK k), H_ERR_ADDR_LO (pageLNK k), H_ERR_ADDR_HI (pageLNK k)]
    (fld v 3 0 ≤ 8 → off = true →
      ∃ t, exec (.octetModeWrite k o v) s = .next t ∧ octetMode t (8 * k + o) = fld v 3 0 ∧ RegsBut [LNK_OCTET_MODE k o] s t) ∧
    (8 < fld v 3 0 ∨ off = false →
      ∃ t, exec (.octetModeWrite k o v) s = .next t ∧ RegsBut err s t ∧
        rf t (H_ERR_CAUSE (pageLNK k)) 31 24 = if 8 < fld v 3 0 then 0x02 else 0x01)

/-- The die-to-die links: STANDBY_RETRAIN of an idle standby link sets standby_ready, or loses a link that was ready; FLIT_RETRY counts
every retry, of a chiplet that is STOPPING too, and reports the sixteenth failure in succession (R89-R91); D2D_STAT_READ answers the register and clears the count. -/
def Claims.LinkCommands : Prop :=
  ∀ (k : Chiplet) (s : State),
    (isOn s (pageLNK k) = true → rb s (LNK_D2D_CTRL k) 0 = true → rb s (LNK_D2D_STAT k) 0 = false →
      (∃ t, exec (.standbyRetrain k true) s = .next t ∧ rb t (LNK_D2D_STAT k) 2 = true ∧ RegsBut [LNK_D2D_STAT k] s t) ∧
      (rb s (LNK_D2D_STAT k) 2 = true →
        ∃ t, exec (.standbyRetrain k false) s = .next t ∧ rb t (LNK_D2D_STAT k) 2 = false ∧
          rb t (H_INT_STAT (pageLNK k)) 5 = true ∧ RegsBut (LNK_D2D_STAT k :: eventRegs (pageLNK k)) s t)) ∧
    (∀ sb ok, isOn s (pageLNK k) = true ∨ blkState s (pageLNK k) = 3 → rb s (LNK_D2D_STAT k) (if sb then 2 else 1) = true →
      let fails := sGet 0 (2 * k.val + b2n sb) s.lnk.fails + 1
      (ok = true ∨ fails < 16 → ∃ t, exec (.flitRetry k sb ok) s = .next t ∧
        rf t (LNK_D2D_STAT k) 31 16 = min (rf s (LNK_D2D_STAT k) 31 16 + 1) 65535 ∧
        sGet 0 (2 * k.val + b2n sb) t.lnk.fails = (if ok then 0 else fails) ∧ RegsBut [LNK_D2D_STAT k] s t) ∧
      (ok = false → fails = 16 → sb = true → ∃ t, exec (.flitRetry k sb ok) s = .next t ∧
        rb t (LNK_D2D_STAT k) 2 = false ∧ rb t (H_INT_STAT (pageLNK k)) 2 = true ∧
        rb t (H_INT_STAT (pageLNK k)) 5 = true ∧ sGet 0 (2 * k.val + b2n sb) t.lnk.fails = 0)) ∧
    (reach s (LNK_D2D_STAT k) = .open →
      ∃ t, exec (.d2dStatRead k) s = .next t ∧ t.bus.readData = BitVec.ofNat 64 (rd s (LNK_D2D_STAT k)).toNat ∧
        rf t (LNK_D2D_STAT k) 31 16 = 0 ∧ rf t (LNK_D2D_STAT k) 15 0 = rf s (LNK_D2D_STAT k) 15 0 ∧
        RegsBut [LNK_D2D_STAT k] s t)

/-- The module bus, the timestamp FIFO and the lane reference clocks: MOD_CMD_GO starts a transaction and MOD_DONE ends it (R98);
TS_FIFO_POP answers word 3 of the head entry and removes it (R100); a stopped reference clock takes every lane of the chiplet out of
UP and sets lnref_lost, and its return is shown (R646). -/
def Claims.ChipletServices : Prop :=
  ∀ (k : Chiplet) (s : State),
    (∀ v, reach s (LNK_MOD_CMD k) = .open → isOn s (pageLNK k) = true → bit v 31 = true → rb s (LNK_MOD_CMD k) 30 = false →
      ∃ t, exec (.modCmdGo k v) s = .next t ∧ rb t (LNK_MOD_CMD k) 30 = true ∧
        rd t (LNK_MOD_CMD k) &&& 0x1C7FFFFF = v &&& 0x1C7FFFFF ∧ RegsBut [LNK_MOD_CMD k] s t) ∧
    (∀ nack data, rb s (LNK_MOD_CMD k) 30 = true →
      ∃ t, exec (.modDone k nack data) s = .next t ∧ rb t (LNK_MOD_CMD k) 30 = false ∧ rb t (LNK_MOD_CMD k) 29 = nack ∧
        rb t (H_INT_STAT (pageLNK k)) 4 = true ∧
        rf t (LNK_MOD_CMD k) 7 0 = (if rb s (LNK_MOD_CMD k) 28 && !nack then data.toNat else rf s (LNK_MOD_CMD k) 7 0) ∧
        RegsBut (LNK_MOD_CMD k :: eventRegs (pageLNK k)) s t) ∧
    (reach s (LNK_TS_FIFO k 3) = .open →
      ∃ t, exec (.tsFifoPop k) s = .next t ∧ t.bus.readData = BitVec.ofNat 64 (tsWord s k 3) ∧
        sGet [] k.val t.lnk.fifo = (sGet [] k.val s.lnk.fifo).tail ∧ RegsBut [] s t) ∧
    (lnkPresent s.part k = true → k.val ∉ s.pwr.lnrefLost → (∀ i, quietPort s i) →
      ∃ t, exec (.laneRefclkLoss k) s = .next t ∧ k.val ∈ t.pwr.lnrefLost ∧ rb t PWR_CLK_STAT (8 + k) = false ∧
        rb t (H_INT_STAT pagePWR) 1 = true ∧ ∀ l, l < 64 → laneUp t (laneNo k l) = false) ∧
    (lnkPresent s.part k = true →
      ∃ t, exec (.laneRefclkReturn k) s = .next t ∧ k.val ∉ t.pwr.lnrefLost ∧
        (isOn s pagePWR = true → rb t PWR_CLK_STAT (8 + k) = true) ∧ RegsBut [PWR_CLK_STAT] s t)

/-- Octet modes, die-to-die links, module bus, timestamp FIFO and lane clocks: the three parts above, together. -/
def Obligations.ChipletCommands : Prop :=
  Claims.OctetModes ∧ Claims.LinkCommands ∧ Claims.ChipletServices

/-- RX_FRAME of a whole frame that is not a pause frame, after the counting of its codewords: counted under exactly one MAC
reason, or as good with its length (R73, R74); admitted frames are held for dispatch with their ingress timestamp, marked bad with
their reason; a frame that the hold buffer refuses, that meets a link being switched, or that is a runt leaves no frame (R86, R92). -/
def Claims.FrameReceived : Prop :=
  ∀ (i : NetPort) (bytes : List Byte) (fec : Bool) (cws : List (Lane × Option (Fin 16))) (s : State), let p : Port := ⟨i.val, by omega⟩
    let cnt := fun n => LNK_PORT_CNT (i / 64) (i % 64) n
    let z := rxCodewords i cws s
    macOn s i = true → rb s (LNK_PORT_CFG (i / 64) (i % 64)) 1 = false → sGet none i.val s.lnk.rx = none →
    (∀ f, f ∈ s.frames → f.id < s.nextId) →
    let cause := rxCause (maxFrame s i) bytes.length fec (fcsGood bytes)
    asPause bytes = none →
    (fec = true → cause = some 3) ∧
    (linkCut s i = false → hbAdmits s i = true → 64 ≤ bytes.length →
      ∃ t, exec (.rxFrame p (.whole bytes fec) cws) s = .next t ∧
        (∃ f, f ∈ t.frames ∧ f.id = s.nextId ∧ f.port = i ∧ f.bytes = bytes.take (maxFrame s i + 1) ∧ f.whole = true ∧
          f.bad = cause.isSome ∧ f.stage = .hold ∧ f.ts = rxStamp s i) ∧
        (∀ n, cause = some n → ctr t (cnt n) = (ctr s (cnt n) + 1) % 2 ^ 64 ∧ CtrsBut [cnt n, HIF_CNT 8] z t) ∧
        (cause = none → ctr t (cnt 0) = (ctr s (cnt 0) + 1) % 2 ^ 64 ∧ CtrsBut [cnt 0, cnt 1, HIF_CNT 8] z t)) ∧
    (linkCut s i = false → hbAdmits s i = false → 64 ≤ bytes.length →
      ∃ t, exec (.rxFrame p (.whole bytes fec) cws) s = .next t ∧ t.frames = s.frames ∧
        ctr t (cnt 11) = (ctr s (cnt 11) + 1) % 2 ^ 64 ∧ rb t (H_INT_STAT (pageLNK (i / 64))) 1 = true) ∧
    (linkCut s i = true → 64 ≤ bytes.length →
      ∃ t, exec (.rxFrame p (.whole bytes fec) cws) s = .next t ∧ t.frames = s.frames ∧
        ctr t (cnt 12) = (ctr s (cnt 12) + 1) % 2 ^ 64 ∧ RegsBut [] z t) ∧
    (bytes.length < 64 →
      ∃ t n, exec (.rxFrame p (.whole bytes fec) cws) s = .next t ∧ t.frames = s.frames ∧ cause = some n ∧
        ctr t (cnt n) = (ctr s (cnt n) + 1) % 2 ^ 64 ∧ CtrsBut [cnt n] z t ∧ RegsBut [] z t)

/-- RX_FRAME in two parts: the first bytes open a frame that is held and not whole, and the rest completes it. -/
def Claims.FrameReceivedInParts : Prop :=
  ∀ (i : NetPort) (cws : List (Lane × Option (Fin 16))) (s : State), let p : Port := ⟨i.val, by omega⟩
    macOn s i = true → rb s (LNK_PORT_CFG (i / 64) (i % 64)) 1 = false →
    (∀ bytes len, bytes.length < len → pauseLike bytes = false → sGet none i.val s.lnk.rx = none → linkCut s i = false → hbAdmits s i = true →
      ∃ t, exec (.rxFrame p (.head bytes len) cws) s = .next t ∧
        sGet none i.val t.lnk.rx = some ⟨bytes, some s.nextId, [], none, [], len⟩ ∧
        ∃ f, f ∈ t.frames ∧ f.id = s.nextId ∧ f.whole = false ∧ f.bytes = bytes.take (maxFrame s i + 1) ∧
          f.total = min len (maxFrame s i + 1)) ∧
    (∀ r id f more fec, sGet none i.val s.lnk.rx = some r → r.frame = some id → frameOf s id = some f → f.stage = .hold →
      f.counted = [] → f.ce = false → (r.bytes ++ more).length = r.len → asPause (r.bytes ++ more) = none →
      ∃ t, exec (.rxFrame p (.tail more fec) cws) s = .next t ∧ sGet none i.val t.lnk.rx = none ∧
        frameOf t id = some { f with
          bytes := (r.bytes ++ more).take (maxFrame s i + 1), whole := true,
          bad := (rxCause (maxFrame s i) (r.bytes ++ more).length fec (fcsGood (r.bytes ++ more))).isSome })

/-- RX_FRAME of a pause frame: the MAC consumes a good one, which sets the paused state and is counted, and counts a bad one under its cause;
no frame goes on (R76). -/
def Claims.PauseFrameConsumed : Prop :=
  ∀ (i : NetPort) (bytes : List Byte) (fec : Bool) (cws : List (Lane × Option (Fin 16))) (pf : PauseFrame) (s : State),
    let p : Port := ⟨i.val, by omega⟩
    let cnt := fun n => LNK_PORT_CNT (i / 64) (i % 64) n
    macOn s i = true → rb s (LNK_PORT_CFG (i / 64) (i % 64)) 1 = false → sGet none i.val s.lnk.rx = none → asPause bytes = some pf →
    let cause := rxCause (maxFrame s i) bytes.length fec (fcsGood bytes)
    (cause = none → ∃ t, exec (.rxFrame p (.whole bytes fec) cws) s = .next t ∧ t.frames = s.frames ∧
      t.tmg.paused = (applyPause i pf s).tmg.paused ∧ ctr t (cnt 6) = (ctr s (cnt 6) + 1) % 2 ^ 64 ∧ ctr t (cnt 0) = ctr s (cnt 0)) ∧
    (∀ n, cause = some n → ∃ t, exec (.rxFrame p (.whole bytes fec) cws) s = .next t ∧ t.frames = s.frames ∧
      t.tmg.paused = s.tmg.paused ∧ ctr t (cnt n) = (ctr s (cnt n) + 1) % 2 ^ 64 ∧ ctr t (cnt 6) = ctr s (cnt 6))

/-- A codeword received on a lane that is UP or in RETUNE, in a mode with FEC, counts under its lane: as uncorrectable, or in the bin
of the symbols corrected and, where there were some, as corrected (R78). No other counter and no register moves, but that an uncorrectable
codeword on a lane in RETUNE aborts the retune: the lane is UP with its saved coefficients (R96). -/
def Claims.CodewordsCounted : Prop :=
  ∀ (k : Chiplet) (l : Lane) (n : Option (Fin 16)) (s : State), let m := octetMode s ((64 * k + l) / 8)
    let cnt := fun x => LNK_LANE_CNT k l x
    m ≠ 0 → m ≠ 8 → laneUp s (64 * k + l) = true →
    let t := rxCodewords (64 * k) [(l, n)] s
    (n = none → laneState s (laneNo k l) = 4 → laneState t (laneNo k l) = 3 ∧
      laneSt t k l = { laneSt s k l with coef := (laneSt s k l).saved } ∧ ctr t (cnt 1) = (ctr s (cnt 1) + 1) % 2 ^ 64) ∧
    (n ≠ none ∨ laneState s (laneNo k l) ≠ 4 → RegsBut [] s t) ∧
    (n = none → laneState s (laneNo k l) ≠ 4 → ctr t (cnt 1) = (ctr s (cnt 1) + 1) % 2 ^ 64 ∧ CtrsBut [cnt 1] s t) ∧
    (∀ x, n = some x → ctr t (cnt (2 + x)) = (ctr s (cnt (2 + x)) + 1) % 2 ^ 64 ∧
      ctr t (cnt 0) = (if x = 0 then ctr s (cnt 0) else (ctr s (cnt 0) + 1) % 2 ^ 64) ∧ CtrsBut [cnt (2 + x), cnt 0] s t)

/-- What the MAC makes of a received frame, whole or in two parts, and of its codewords: the four parts above, together. -/
def Obligations.FrameReceived : Prop :=
  Claims.FrameReceived ∧ Claims.FrameReceivedInParts ∧ Claims.PauseFrameConsumed ∧ Claims.CodewordsCounted

/-- Pause: PAUSE_FRAME_RX sets the paused state of the port or of exactly the priorities it enables and is counted (R76), but in loopback, where the port hears only itself; the expiry
clears one; PAUSE_FRAME_TX puts out the frame of the request made first and counts it (R77). -/
def Claims.PauseFrames : Prop :=
  ∀ (i : NetPort) (s : State), let p : Port := ⟨i.val, by omega⟩
    let old := sGet 0 i.val s.tmg.paused
    (macOn s i = true → rb s (LNK_PORT_CFG (i / 64) (i % 64)) 1 = true → ∀ pf, exec (.pauseFrameRx p pf) s = .next s) ∧
    (macOn s i = true → rb s (LNK_PORT_CFG (i / 64) (i % 64)) 1 = false →
      (∀ q, ∃ t, exec (.pauseFrameRx p (.pause q)) s = .next t ∧ (sGet 0 i.val t.tmg.paused).testBit 8 = (q != 0) ∧
        (∀ b, b ≠ 8 → (sGet 0 i.val t.tmg.paused).testBit b = old.testBit b) ∧ t.frames = s.frames ∧
        ctr t (LNK_PORT_CNT (i / 64) (i % 64) 6) = (ctr s (LNK_PORT_CNT (i / 64) (i % 64) 6) + 1) % 2 ^ 64 ∧ RegsBut [] s t) ∧
      (∀ en qs, ∃ t, exec (.pauseFrameRx p (.pfc en qs)) s = .next t ∧ t.frames = s.frames ∧ RegsBut [] s t ∧
        ∀ b, (sGet 0 i.val t.tmg.paused).testBit b =
          if b < 8 ∧ en.toNat.testBit b then (qs.getD b 0 != 0) else old.testBit b)) ∧
    (∀ b : Fin 9, ∃ t, exec (.pauseQuantaExpiry i b) s = .next t ∧
      ∀ n, (sGet 0 i.val t.tmg.paused).testBit n = (n != b.val && old.testBit n)) ∧
    (∀ r, macOn s i = true → (s.copies.any fun c => c.port == i.val && c.stage == .sending) = false →
      (s.lnk.pauseReq.find? fun x => x.1 == i.val) = some r →
      ∃ t, exec (.pauseFrameTx i) s = .next t ∧ t.lnk.pauseReq = s.lnk.pauseReq.erase r ∧
        ctr t (LNK_PORT_CNT (i / 64) (i % 64) 10) = (ctr s (LNK_PORT_CNT (i / 64) (i % 64) 10) + 1) % 2 ^ 64 ∧
        (∃ sa : List Byte, sa.length = 6 ∧ sGet [] i.val t.lnk.txLast = pauseBytes sa r.2.1 r.2.2) ∧
        (rb s (LNK_PORT_CFG (i / 64) (i % 64)) 1 = false → RegsBut [] s t))

/-- XOFF_EXIT and PFC_REFRESH (R342, R343): a pair whose conditions allow it leaves XOFF with an XON request, and while XOFF holds the
requests are repeated with the configured quanta; without PFC the pause of the whole port ends with the last of its pairs. -/
def Claims.XoffRequests : Prop :=
  ∀ (i : NetPort) (s : State),
    (∀ p : Fin 8, inXoff s i p = true → xoffMayEnd s i p = true → rb s (LNK_PORT_CFG (i / 64) (i % 64)) 8 = true →
      ∃ t, exec (.xoffExit i p) s = .next t ∧ inXoff t i p = false ∧ t.lnk.pauseReq = s.lnk.pauseReq ++ [(i.val, p.val, 0)] ∧
        ctr t (DPT_CNT 7) = (ctr s (DPT_CNT 7) + 1) % 2 ^ 64 ∧ RegsBut [DPT_PFC_STAT i] s t) ∧
    (∀ p : Fin 8, inXoff s i p = true → xoffMayEnd s i p = true → rb s (LNK_PORT_CFG (i / 64) (i % 64)) 8 = false →
      ∃ t, exec (.xoffExit i p) s = .next t ∧ inXoff t i p = false ∧ RegsBut [DPT_PFC_STAT i] s t ∧
        t.lnk.pauseReq = if rf t (DPT_PFC_STAT i) 7 0 = 0 then s.lnk.pauseReq ++ [(i.val, 8, 0)] else s.lnk.pauseReq) ∧
    (rb s (LNK_PORT_CFG (i / 64) (i % 64)) 8 = true →
      ∃ t, exec (.pfcRefresh i) s = .next t ∧ RegsBut [] s t ∧
        t.lnk.pauseReq = s.lnk.pauseReq ++
          ((List.range 8).filter fun p => inXoff s i p).map fun p => (i.val, p, rf s DPT_PFC_TIMER 31 16)) ∧
    (rb s (LNK_PORT_CFG (i / 64) (i % 64)) 8 = false → (∃ p, p < 8 ∧ inXoff s i p = true) →
      ∃ t, exec (.pfcRefresh i) s = .next t ∧ t.lnk.pauseReq = s.lnk.pauseReq ++ [(i.val, 8, rf s DPT_PFC_TIMER 31 16)] ∧
        RegsBut [] s t ∧ CtrsBut [DPT_CNT 6] s t)

/-- Pause frames received, expiring, requested and sent: the two parts above, together. -/
def Obligations.PauseFlow : Prop :=
  Claims.PauseFrames ∧ Claims.XoffRequests

/-- FRAME_TRANSMIT on a network port: the copy edited first starts; a frame that has proved bad ends stomped and is counted so (R54,
R56), its FCS inverted, and a good one whose cells have all been read is sent with its FCS, counted, and leaves. In loopback the port hears what it
puts out as well, which these clauses leave aside. -/
def Obligations.FrameSent : Prop :=
  ∀ (i : NetPort) (c : Copy) (f : Frame) (e : Edited) (s : State), let p : Port := ⟨i.val, by omega⟩
    let cnt := fun n => LNK_PORT_CNT (i / 64) (i % 64) n
    macOn s i = true → c.edit = some e → frameOf s c.frame = some f →
    (nextTx s i = some c → c.stage = .edited → copyOf s c.id = some c →
      (s.copies.any fun x => x.port == i.val && x.stage == .sending) = false → (s.lnk.pauseReq.any fun r => r.1 == i.val) = false →
      ∃ t, exec (.frameTransmit p .start) s = .next t ∧ ∃ d, copyOf t c.id = some d ∧ d.stage = .sending ∧ d.frame = c.frame) ∧
    ((s.copies.find? fun x => x.port == i.val && x.stage == .sending) = some c → rb s (LNK_PORT_CFG (i / 64) (i % 64)) 1 = false →
      (f.bad = true ∨ c.spoiled = true →
        ∃ t, exec (.frameTransmit p .finish) s = .next t ∧ copyOf t c.id = none ∧
          ctr t (cnt 9) = (ctr s (cnt 9) + 1) % 2 ^ 64 ∧ ctr t (cnt 7) = ctr s (cnt 7)) ∧
      (f.bad = false → c.spoiled = false → c.cut = false → f.lastDone = true → cellsWanted s c ≤ c.rdNext →
        ∃ t, exec (.frameTransmit p .finish) s = .next t ∧ copyOf t c.id = none ∧
          sGet [] i.val t.lnk.txLast = e.pre ++ fcsBytes e.pre ∧
          ctr t (cnt 7) = (ctr s (cnt 7) + 1) % 2 ^ 64 ∧ ctr t (cnt 9) = ctr s (cnt 9)))

/-- CAT_LOOKUP of a released frame (R152-R155): a hit is on a valid, visible entry of the frame's key and leaves its result, with the
hit bit under hit_upd; no match is a miss, and under a SRC profile that learns a pending learn; an unreadable word is a miss with the
store error recorded (R158). The registers are those that the frame's lookups began with (R184). -/
def Obligations.CatalogueLookup : Prop :=
  ∀ (id : Nat) (b : Bool) (f : Frame) (n : Nat) (s : State), frameOf s id = some f → catProf s f b = some n → f.stage = .lookup →
    f.defAct = false → f.exc = 0 → f.port < 522 → (if b then f.catB else f.catA) = none → s.tab.merges = [] →
    let w := portWing f.port
    let key := catKeyOf s f n
    let res := fun (t : State) => (frameOf t id).bind fun x => if b then x.catB else x.catA
    (catSearch s w key f.epoch = .inr [] →
      ∃ t, exec (.catLookup id b) s = .next t ∧ res t = some .miss ∧ ctr t (CAT_CNT w 0) = (ctr s (CAT_CNT w 0) + 1) % 2 ^ 64 ∧
        (((catCandidates s w key).all fun x => rdStat s (catAddr w x) != .corrected) = true → RegsBut [] s t) ∧
        CtrsBut [CAT_CNT w 0] s t ∧
        (rfFor s f (CAT_PROF_CTRL w n) 30 29 = 1 → rbFor s f (CAT_PROF_CTRL w n) 27 = true → f.port < 512 → isOn s (pageCAT w) = true →
          (frameOf t id).map (fun x => x.learn) = some (f.learn ++ [⟨key, learnedResult s f n⟩]))) ∧
    (∀ x more, catSearch s w key f.epoch = .inr (x :: more) →
      (catValid s w x = true ∧ catKey s w x = key ∧ visible s (catVer s w x) f.epoch = true) ∧
      ∃ t, exec (.catLookup id b) s = .next t ∧ res t = some (.hit x (catResult s w x)) ∧
        (rbFor s f (CAT_PROF_CTRL w n) 28 = true → bit (catCtl t w x) 29 = true)) ∧
    (∀ x, catSearch s w key f.epoch = .inl x →
      ∃ t, exec (.catLookup id b) s = .next t ∧ res t = some .miss ∧ rb t (H_INT_STAT (pageCAT w)) 3 = true ∧
        rf t (H_ERR_CAUSE (pageCAT w)) 31 24 = 0x03)

/-- ROUTE_LOOKUP of a frame whose profile runs without a TERMINATE hit or long-prefix probes: the route found is visible, matches the
address, and no visible match is longer (R194); its result is noted, a PUNT with its queue; no match is a miss; and a frame that no
profile selects makes no lookup (R191). -/
def Obligations.RouteLookup : Prop :=
  ∀ (id : Nat) (f : Frame) (s : State), frameOf s id = some f → f.stage = .lookup → f.defAct = false → f.exc = 0 →
    f.route = none → catDone s f = true → s.tab.merges = [] →
    let w := portWing f.port
    let res := fun (t : State) => (frameOf t id).bind fun x => x.route
    (routeProf s f = none → ∃ t, exec (.routeLookup id) s = .next t ∧ res t = some .notMade ∧ RegsBut [] s t ∧ CtrsBut [] s t) ∧
    (∀ p, routeProf s f = some p → terminate s f = none → (rbFor s f (LPM_PROF_CTRL w p) 30 && rbFor s f (LPM_PROF_CTRL w p) 23) = false →
      let fam := b2n (rbFor s f (LPM_PROF_CTRL w p) 30)
      let vrf := slotOf f (rfFor s f (LPM_PROF_CTRL w p) 22 16)
      let addr := routeAddr s f p
      (routeFind s fam vrf addr f.epoch = none →
        ∃ t, exec (.routeLookup id) s = .next t ∧ res t = some (.missed p) ∧ RegsBut [] s t ∧
          CtrsBut [LPM_CNT w 0, LPM_CNT w 3] s t) ∧
      (∀ r, routeFind s fam vrf addr f.epoch = some r →
        (r ∈ s.lpm.routes ∧ r.vrf = vrf ∧ prefixEq (if fam = 0 then 32 else 128) r.len r.addr addr = true ∧
          visible s ⟨r.birth, r.death, r.mortal, r.settled⟩ f.epoch = true) ∧
        (∀ q, q ∈ s.lpm.routes → q.fam = fam → q.vrf = vrf → prefixEq (if fam = 0 then 32 else 128) q.len q.addr addr = true →
          visible s ⟨q.birth, q.death, q.mortal, q.settled⟩ f.epoch = true → q.len ≤ r.len) ∧
        ∃ t fwd seed, exec (.routeLookup id) s = .next t ∧ res t = some (.found p fwd seed) ∧
          (kindOf r.result = 6 → fwd = .punt (valueOf r.result % 16) 0)))

/-- VIT_SEARCH (R226-R228, R250): a profile whose chain is no head bank or has another width misses with width_err; a chain with a
failed bank gives the default action; a search whose key takes a META value waits for the Catalogue's results; a hit is on a visible entry of the chain that matches, with that entry's action. -/
def Obligations.VitrineSearch : Prop :=
  ∀ (id : Nat) (n : Fin 4) (f : Frame) (p : Nat) (s : State), frameOf s id = some f → vitProf s f n = some p → f.stage = .lookup →
    f.defAct = false → f.exc = 0 → (usesMeta s f p = true → catDone s f = true) → (f.vit.any fun e => e.1 == n.val) = false → s.tab.merges = [] →
    let w := portWing f.port
    let h := rfFor s f (VIT_PROF_CTRL w p) 27 24
    let width := [1, 2, 4].getD (rfFor s f (VIT_PROF_CTRL w p) 30 29) 0
    ∃ t f' r, exec (.vitSearch id n) s = .next t ∧ frameOf t id = some f' ∧ f'.vit = f.vit ++ [(n.val, r)] ∧
      ((headBank s h && bankWidth s h == width) = false → r = .miss ∧ rb t (H_INT_STAT (pageVIT w)) 5 = true) ∧
      ((headBank s h && bankWidth s h == width) = true → (chainOf s h).any (bankDown s w) = true → r = .bankFailed) ∧
      ((headBank s h && bankWidth s h == width) = true → (chainOf s h).any (bankDown s w) = false →
        ∀ b row act, r = .hit b row act → (chainOf s h).contains b = true ∧ vitMatches s f p w b row width = true ∧
          visible s (vitVer s w b row) f.epoch = true ∧ act = vitAction s w b row)

/-- INGRESS_RESOLUTION: a resolvable frame whose turn it is (R46) is afterwards either gone or stored in the Hall; one whose FCS was bad is discarded with its
learn and leaves its epoch's drain count (R54, R163, R280); one whose parse ended with an exception and whose port's default action
is DROP is discarded (R127). -/
def Claims.IngressResolves : Prop :=
  ∀ (id : Nat) (f : Frame) (s : State), frameOf s id = some f → resolvable s f = true → (itsTurn s f = false → exec (.ingressResolution id) s = .next s) ∧ (itsTurn s f = true →
    (∃ t, exec (.ingressResolution id) s = .next t ∧ (frameOf t id = none ∨ ∃ g, frameOf t id = some g ∧ g.stage = .hall)) ∧
    (f.whole = true → f.bad = true →
      ∃ t, exec (.ingressResolution id) s = .next t ∧ frameOf t id = none ∧ t.copies = s.copies ∧ t.hal = s.hal ∧
        sGet 0 f.epoch t.prv.drain = sGet 0 f.epoch s.prv.drain - 1 ∧
        (∀ l, f.learn = [l] → rb s (CAT_CFG (portWing f.port)) 1 = true →
          ctr t (CAT_CNT (portWing f.port) 4) = (ctr s (CAT_CNT (portWing f.port) 4) + 1) % 2 ^ 64)) ∧
    (f.whole = true → f.bad = false → f.exc ≠ 0 → f.exc ≠ 6 → f.direct = none → rf s (DOC_PORT_DEF f.gal (portIndex f.port)) 1 0 = 0 →
      rb s (ARC_PORT_MIR f.port) 4 = false →
      ∃ t, exec (.ingressResolution id) s = .next t ∧ frameOf t id = none ∧ t.copies = s.copies))

/-- LAST_CELL_WRITTEN marks a stored frame that has arrived whole as written, when its remaining cells can be allocated; a frame
whose every copy has ended takes no cell more (R327). -/
def Claims.LastCellWritten : Prop :=
  ∀ (id : Nat) (f : Frame) (s : State), frameOf s id = some f → f.stage = .hall → f.whole = true → f.lastDone = false →
    (copiesOf s id ≠ [] → cellsFor f.bytes.length - f.cells.length ≤ allocatable s →
    ∃ t g, exec (.lastCellWritten id) s = .next t ∧ frameOf t id = some g ∧ g.lastDone = true ∧ g.bytes = f.bytes) ∧
    (copiesOf s id = [] → s.arc.pend = [] → ∃ t, exec (.lastCellWritten id) s = .next t ∧ t.hal.wrote = s.hal.wrote ∧
      ctr t (HAL_CNT 0) = ctr s (HAL_CNT 0))

/-- Ingress resolution stores or ends a frame, and the last cell is written: the two parts above, together. -/
def Obligations.FrameStored : Prop :=
  Claims.IngressResolves ∧ Claims.LastCellWritten

/-- CELL_FREE by R328's table: a free of a cell not allocated is ignored as a double free; a holder that is not the last lowers the count
and folds its identifier into the residual; the last holder's free returns the cell when it names the residual and quarantines it
otherwise. -/
def Claims.CellFreeTable : Prop :=
  ∀ (c : CellIx) (h : BitVec 16) (s : State), let k := cellOf s c
    (k.alloc = false →
      ∃ t, exec (.cellFree c h) s = .next t ∧ t.hal = s.hal ∧ rb t (H_INT_STAT pageDPT) 0 = true ∧
        ctr t (DPT_CNT 3) = (ctr s (DPT_CNT 3) + 1) % 2 ^ 64 ∧ rd t (H_ERR_ADDR_LO pageDPT) = w32 c.val) ∧
    (k.alloc = true → 2 ≤ k.count →
      ∃ t, exec (.cellFree c h) s = .next t ∧ cellOf t c = { k with count := k.count - 1, residual := k.residual ^^^ h.toNat } ∧
        (∀ d, d ≠ c.val → cellOf t d = cellOf s d) ∧ ctr t (DPT_CNT 2) = (ctr s (DPT_CNT 2) + 1) % 2 ^ 64 ∧ RegsBut [] s t) ∧
    (k.alloc = true → k.count < 2 → h.toNat = k.residual →
      ∃ t, exec (.cellFree c h) s = .next t ∧ cellOf t c = cellNone ∧
        ((∀ f, frameOf s k.frame = some f → f.desc = []) → ctr t (DPT_CNT 1) = (ctr s (DPT_CNT 1) + 1) % 2 ^ 64)) ∧
    (k.alloc = true → k.count < 2 → h.toNat ≠ k.residual →
      ∃ t, exec (.cellFree c h) s = .next t ∧ cellOf t c = { k with quar := true } ∧ rb t (H_INT_STAT pageDPT) 1 = true ∧
        ctr t (DPT_CNT 4) = (ctr s (DPT_CNT 4) + 1) % 2 ^ 64 ∧
        rd t (H_ERR_ADDR_LO pageDPT) = w32 c.val ∧ rd t DPT_ERR_HOLDER = w32 (h.toNat * 65536 + k.residual % 65536))

/-- CHAIN_WALKER_FREE takes 32 cells in order of hand-over (R327); QUARANTINE_RELEASE returns every quarantined cell (R329). -/
def Claims.CellsReturned : Prop :=
  ∀ (s : State),
    (∃ t, exec .chainWalkerFree s = .next t ∧ t.dpt.walk = s.dpt.walk.drop 32) ∧
    (∀ v, reach s DPT_QUAR_CMD = .open → bit v 0 = true →
      ∃ t, exec (.quarantineRelease v) s = .next t ∧ ∀ c, (cellOf t c).quar = false) ∧
    (∀ v, reach s DPT_QUAR_CMD = .open → bit v 0 = false → ∃ t, exec (.quarantineRelease v) s = .next t ∧ t.hal = s.hal)

/-- A free of a cell by its allocation bit, count and residual; quarantine; the chain walker: the two parts above, together. -/
def Obligations.CellFrees : Prop :=
  Claims.CellFreeTable ∧ Claims.CellsReturned

/-- HALL_READ serves the oldest read queued on a bank: a good cell moves its copy on and is freed by its holder; an uncorrectable one
drops a copy that is not in transmission and spoils one that is (R320, R321). -/
def Claims.HallReadServes : Prop :=
  ∀ (b : HallBank) (id cell : Nat) (c : Copy) (s : State), wantRead s b = [] → nextRead s b = some id → copyOf s id = some c →
    (chainOfCopy s c)[c.rdNext]? = some cell → (cellOf s cell).poison = false → isSpilling s id = false →
    (∃ t, exec (.hallRead b .good) s = .next t ∧
      copyOf t id = some { c with rdNext := c.rdNext + 1, rdWait := false, qCells := c.qCells - 1 }) ∧
    (c.stage ≠ .sending → ∃ t, exec (.hallRead b .ue) s = .next t ∧ copyOf t id = none ∧ rb t (H_INT_STAT pageHAL) 0 = true) ∧
    (c.stage = .sending → ∃ t, exec (.hallRead b .ue) s = .next t ∧
      copyOf t id = some { c with spoiled := true, rdWait := false } ∧ rb t (H_INT_STAT pageHAL) 0 = true)

/-- Failed Hall banks (R322-R324): HALL_BANK_FAIL and HALL_SPARE_CMD declare a bank failed and start a takeover under auto with a spare
free, or fence the bank and lower the capacity by 8,192 cells with none; HALL_BANK_SPARED maps the bank to the spare. -/
def Claims.HallBanksSpared : Prop :=
  ∀ (s : State), s.hal.taking = none →
    (∀ (b : HallBank), b.val ∉ s.hal.failed → b.val ∉ s.hal.fenced → max 1 (rf s HAL_SPARE_CFG 7 0) ≤ rf s (HAL_BANK_UE b) 7 0 →
      (spareFree s = true → rb s HAL_SPARE_CFG 8 = true →
        ∃ t, exec (.hallBankFail b) s = .next t ∧ t.hal.taking = some b.val ∧ b.val ∈ t.hal.failed ∧
          rb t HAL_SPARE_STAT 31 = true ∧ rb t (H_INT_STAT pageHAL) 1 = true) ∧
      (spareFree s = false →
        ∃ t, exec (.hallBankFail b) s = .next t ∧ b.val ∈ t.hal.fenced ∧ rb t (H_INT_STAT pageHAL) 3 = true ∧
          rf t DPT_CAP_STAT 20 0 = rf s DPT_CAP_STAT 20 0 - 8192)) ∧
    (∀ (b : HallBank) v, reach s HAL_SPARE_CMD = .open → bit v 31 = true → fld v 6 0 = b.val → spareFree s = true →
      rb s HAL_SPARE_CFG 8 = true →
      ∃ t, exec (.hallSpareCmd v) s = .next t ∧ t.hal.taking = some b.val ∧ b.val ∈ t.hal.failed ∧ rb t HAL_SPARE_STAT 31 = true) ∧
    (∀ (b : HallBank) bad, let u := { s with hal := { s.hal with taking := some b.val } }
      ∃ t, exec (.hallBankSpared bad) u = .next t ∧ t.hal.taking = none ∧ rb t HAL_SPARE_STAT 31 = false ∧
        rb t (H_INT_STAT pageHAL) 2 = true ∧
        (rf s HAL_SPARE_STAT 15 8 = 0xFF → rf t HAL_SPARE_STAT 15 8 = b.val) ∧
        ∀ r, r ∈ bad → (cellOf s (r.val * 128 + b)).alloc = true → (cellOf t (r.val * 128 + b)).poison = true)

/-- Hall reads, failed banks and spares: the two parts above, together. -/
def Obligations.HallWork : Prop :=
  Claims.HallReadServes ∧ Claims.HallBanksSpared

/-- The register instructions (R114): one cycle, the next word, and the destination register written with the stated number modulo 2^32;
no other part of the core, no frame and no register of the engine changes. The pressure cut does not fall in the cycle (R122). -/
def Obligations.DocentRegisters : Prop :=
  ∀ (g : Gallery) (c : Core) (w : W32) (f : Frame) (k : CoreSt) (s : State), StandsAt g c w f k s → k.cycles + 1 ≤ 96 →
    meetsCut s g k.cycles (k.cycles + 1) = false →
    let a := (getG k (fGa w)).toNat
    let b := (getG k (fGb w)).toNat
    let imm := fld w 15 0
    let goes := fun (i : Instr) (v : Nat) =>
      ∃ t k', exec i s = .next t ∧ CoreMoves g c k k' s t ∧ RegStep (fGd w) 1 v k k'
    (opOf w = 0x01 → goes (.docAdd g c) (a + b)) ∧ (opOf w = 0x02 → goes (.docSub g c) (a + 2 ^ 32 - b)) ∧
    (opOf w = 0x03 → goes (.docAnd g c) (a &&& b)) ∧ (opOf w = 0x04 → goes (.docOr g c) (a ||| b)) ∧
    (opOf w = 0x05 → goes (.docXor g c) (a ^^^ b)) ∧
    (opOf w = 0x06 → goes (.docShl g c) (a * 2 ^ (b % 32))) ∧ (opOf w = 0x07 → goes (.docShr g c) (a / 2 ^ (b % 32))) ∧
    (opOf w = 0x08 → goes (.docAddi g c) (a + imm + if imm < 2 ^ 15 then 0 else 2 ^ 32 - 2 ^ 16)) ∧
    (opOf w = 0x09 → goes (.docAndi g c) (a &&& imm)) ∧ (opOf w = 0x0A → goes (.docOri g c) (a ||| imm)) ∧
    (opOf w = 0x0B → goes (.docXori g c) (a ^^^ imm)) ∧
    (opOf w = 0x0C → goes (.docShli g c) (a * 2 ^ fld w 4 0)) ∧ (opOf w = 0x0D → goes (.docShri g c) (a / 2 ^ fld w 4 0)) ∧
    (opOf w = 0x0E → goes (.docLui g c) (imm * 2 ^ 16)) ∧
    (opOf w = 0x0F → goes (.docExt g c) (a / 2 ^ fld w 9 5 % 2 ^ (fld w 4 0 + 1))) ∧
    (opOf w = 0x1B → goes (.docGetc g c) k.cursor) ∧ (opOf w = 0x25 → goes (.docLdf g c) (getF (fld w 6 0) k))

/-- The loads (R106-R108, R114): bytes of the window in network order, zero beyond the window's length with overread set; a byte at 256
or beyond ends the parse with WINDOW. CKV4 writes 1 for a good IPv4 header checksum, else 0 with the flag ck_bad (3 cycles). -/
def Obligations.DocentLoads : Prop :=
  ∀ (g : Gallery) (c : Core) (w : W32) (f : Frame) (k : CoreSt) (s : State), StandsAt g c w f k s → k.cycles + 3 ≤ 96 →
    meetsCut s g k.cycles (k.cycles + 3) = false →
    let x := (getG k (fGa w)).toNat % 512
    let off := fld w 7 0
    let at' := fun j => if j < min f.bytes.length 256 then byteAt f.bytes j else 0
    let past := fun (e : Nat) => { k with overread := k.overread || decide (min f.bytes.length 256 < e) }
    let loads := fun (i : Instr) (p n : Nat) =>
      (p + n ≤ 256 → ∃ t k', exec i s = .next t ∧ CoreMoves g c k k' s t ∧
        RegStep (fGd w) 1 (beNat ((List.range n).map fun j => at' (p + j))) (past (p + n)) k') ∧
      (256 < p + n → ∃ t, exec i s = .next t ∧ ParseEnds g c 2 (k.cycles + 1) f k s t)
    (opOf w = 0x10 → loads (.docLdb g c) (k.cursor + off) 1) ∧ (opOf w = 0x11 → loads (.docLdw g c) (k.cursor + off) 2) ∧
    (opOf w = 0x12 → loads (.docLdd g c) (k.cursor + off) 4) ∧ (opOf w = 0x13 → loads (.docLdbx g c) (k.cursor + off + x) 1) ∧
    (opOf w = 0x14 → loads (.docLdwx g c) (k.cursor + off + x) 2) ∧
    (opOf w = 0x15 → loads (.docLddx g c) (k.cursor + off + x) 4) ∧
    (opOf w = 0x32 → let n := (at' k.cursor).toNat % 16 * 4
      let sum := onesSum ((List.range n).map fun j => at' (k.cursor + j))
      (k.cursor + max 1 n ≤ 256 → ∃ t k', exec (.docCkv4 g c) s = .next t ∧ CoreMoves g c k k' s t ∧
        RegStep (fGd w) 3 (if sum = 0xFFFF then 1 else 0)
          { past (k.cursor + max 1 n) with ckBad := k.ckBad || decide (sum ≠ 0xFFFF) } k') ∧
      (256 < k.cursor + max 1 n → ∃ t, exec (.docCkv4 g c) s = .next t ∧ ParseEnds g c 2 (k.cycles + 3) f k s t))

/-- The cursor, the field vector, the header offsets and S (R107, R110, R114): a cursor beyond 511 and a mark at 256 or beyond end the
parse with WINDOW; F0-F7 and O0 ignore what a program writes. -/
def Claims.DocentFields : Prop :=
  ∀ (g : Gallery) (c : Core) (w : W32) (f : Frame) (k : CoreSt) (s : State), StandsAt g c w f k s → k.cycles + 2 ≤ 96 →
    meetsCut s g k.cycles (k.cycles + 2) = false →
    let a := getG k (fGa w)
    let goes := fun (i : Instr) (n : Nat) (k' : CoreSt) => ∃ t, exec i s = .next t ∧
      CoreMoves g c k { k' with pc := (k.pc + 1) % 16384, cycles := k.cycles + n, search := none } s t
    let window := fun (i : Instr) => ∃ t, exec i s = .next t ∧ ParseEnds g c 2 (k.cycles + 1) f k s t
    let moves := fun (i : Instr) (n : Nat) => (n ≤ 511 → goes i 1 { k with cursor := n }) ∧ (511 < n → window i)
    let marks := fun (i : Instr) (o n : Nat) =>
      (n ≤ 255 → (o = 0 → goes i 1 k) ∧ (o ≠ 0 → goes i 1 { k with ofs := sPut 512 o n k.ofs })) ∧ (255 < n → window i)
    (opOf w = 0x18 → moves (.docAdv g c) (k.cursor + fld w 7 0)) ∧
    (opOf w = 0x19 → moves (.docAdvr g c) (k.cursor + a.toNat % 512)) ∧ (opOf w = 0x1A → moves (.docSetc g c) (a.toNat % 512)) ∧
    (opOf w = 0x23 → marks (.docMark g c) (fld w 4 0) k.cursor) ∧
    (opOf w = 0x24 → marks (.docMarkr g c) (fld w 4 0) (a.toNat % 512)) ∧
    (opOf w = 0x31 → goes (.docSets g c) 1 { k with s := fld w 7 0 }) ∧
    (opOf w = 0x20 → let n := fld w 6 0
      (n < 8 → goes (.docStf g c) 1 k) ∧ (8 ≤ n → goes (.docStf g c) 1 { k with fv := sPut 0 n (a.toNat % 65536) k.fv })) ∧
    (opOf w = 0x21 → ∃ t k', exec (.docStf2 g c) s = .next t ∧ CoreMoves g c k k' s t ∧ k'.cycles = k.cycles + 1 ∧
      ∀ j, sGet 0 j k'.fv = if j < 8 then sGet 0 j k.fv else if j = fld w 6 0 then a.toNat / 65536
        else if j = fld w 6 0 + 1 then a.toNat % 65536 else sGet 0 j k.fv) ∧
    (opOf w = 0x22 → let n := fGd w + 1
      let p := k.cursor + fFoff w
      (p + 2 * n ≤ 256 → ∃ t k', exec (.docCpf g c) s = .next t ∧ CoreMoves g c k k' s t ∧
        k'.cycles = k.cycles + (if n ≤ 4 then 1 else 2) ∧ k'.overread = (k.overread || decide (min f.bytes.length 256 < p + 2 * n)) ∧
        ∀ j, sGet 0 j k'.fv = if 8 ≤ j ∧ fld w 6 0 ≤ j ∧ j < fld w 6 0 + n then
            let q := p + 2 * (j - fld w 6 0)
            let at' := fun i => if i < min f.bytes.length 256 then (byteAt f.bytes i).toNat else 0
            at' q * 256 + at' (q + 1)
          else sGet 0 j k.fv) ∧
      (256 < p + 2 * n → ∃ t, exec (.docCpf g c) s = .next t ∧ ParseEnds g c 2 (k.cycles + if n ≤ 4 then 1 else 2) f k s t))

/-- Branches (R114, R115): the condition on two registers, a register and an 8-bit constant, or one bit; 3 cycles taken, 1 not. MATCH
(named by the copy of the match table and the place among its 21 cores) takes 4 cycles and the wait for that copy, in which only the searches of cores change (R119); the lowest valid entry that S and the key hit gives S, the cursor's advance and the target; a miss goes to
the instruction's target with the miss flag (R118); a match-table word that cannot be read ends the parse with STORE_ERR. -/
def Claims.DocentBranches : Prop :=
  ∀ (g : Gallery) (c : Core) (w : W32) (f : Frame) (k : CoreSt) (s : State), StandsAt g c w f k s → k.cycles + 3 ≤ 96 →
    meetsCut s g k.cycles (k.cycles + 3) = false →
    let a := (getG k (jGa w)).toNat
    let b := (getG k (jGb w)).toNat
    let dest := fld w 13 0
    let goes := fun (i : Instr) (yes : Bool) => ∃ t, exec i s = .next t ∧ CoreMoves g c k
      { k with pc := if yes then dest else (k.pc + 1) % 16384, cycles := k.cycles + if yes then 3 else 1, search := none } s t
    (opOf w = 0x28 → goes (.docJmp g c) true) ∧ (opOf w = 0x29 → goes (.docBeq g c) (decide (a = b))) ∧
    (opOf w = 0x2A → goes (.docBne g c) (decide (a ≠ b))) ∧ (opOf w = 0x2B → goes (.docBltu g c) (decide (a < b))) ∧
    (opOf w = 0x2C → goes (.docBgeu g c) (decide (b ≤ a))) ∧ (opOf w = 0x2D → goes (.docBeqi g c) (decide (a = fld w 21 14))) ∧
    (opOf w = 0x2E → goes (.docBnei g c) (decide (a ≠ fld w 21 14))) ∧
    (opOf w = 0x2F → goes (.docBbs g c) (a.testBit (fld w 18 14))) ∧
    (opOf w = 0x30 → ∀ (y : TableCopy) (x : CopyCore), copyCore y x = c → let u := issueMatch g c (settle s)
      let at' := k.start + k.cycles
      let n := 4 + (((coreOf u g c).bind fun q => q.search).getD at' - at')
      let idle := fun (o : Option CoreSt) => o.map fun q => { q with search := none }
      u.frames = s.frames ∧ (∀ j, idle (sGet none j u.doc.cores) = idle (sGet none j s.doc.cores)) ∧
      (k.cycles + n ≤ 96 → meetsCut s g k.cycles (k.cycles + n) = false →
      (matchBad u g ≠ none → ∃ t, exec (.docMatch g y x) s = .next t ∧ ParseEnds g c 4 (k.cycles + n) f k s t) ∧
      (matchBad u g = none →
        (matchFind u g k.s (a % 65536) = none → ∃ t, exec (.docMatch g y x) s = .next t ∧
          CoreMoves g c k { k with pc := dest, matchMiss := true, cycles := k.cycles + n, search := none } u t) ∧
        (∀ e, matchFind u g k.s (a % 65536) = some e → let w2 := tw u (matchAddr g e + 8)
          (k.cursor + fld w2 23 16 ≤ 511 → ∃ t, exec (.docMatch g y x) s = .next t ∧ CoreMoves g c k
            { k with s := fld w2 31 24, cursor := k.cursor + fld w2 23 16, pc := fld w2 13 0, cycles := k.cycles + n,
                     search := none } u t) ∧
          (511 < k.cursor + fld w2 23 16 → ∃ t, exec (.docMatch g y x) s = .next t ∧
            ParseEnds g c 2 (k.cycles + n) f k s t)))))

/-- The field vector, marks, branches and the match table: the two parts above, together. -/
def Obligations.DocentFieldsAndBranches : Prop :=
  Claims.DocentFields ∧ Claims.DocentBranches

/-- How a parse ends (R113, R116, R121, R122, R134): DONE; FAIL with a code of at least 0x10; ILLEGAL for a reserved opcode, STORE_ERR
for an unreadable word; BUDGET at cycle 96; PRESSURE at the cut while the hold-buffer condition holds, which catches an instruction in
progress and leaves a parse that has passed the cut alone; and a core fault, which also fences the core. NOP moves on. -/
def Obligations.ParseEndings : Prop :=
  ∀ (g : Gallery) (c : Core) (f : Frame) (k : CoreSt) (s : State), coreOf s g c = some k → frameOf s k.frame = some f →
    (∀ w, StandsAt g c w f k s → k.cycles + 1 ≤ 96 →
      (opOf w = 0x00 → (meetsCut s g k.cycles (k.cycles + 1) = false → ∃ t, exec (.docNop g c) s = .next t ∧
          CoreMoves g c k { k with pc := (k.pc + 1) % 16384, cycles := k.cycles + 1, search := none } s t) ∧
        (meetsCut s g k.cycles (k.cycles + 1) = true → ∃ t, exec (.docNop g c) s = .next t ∧
          CoreMoves g c k { k with pc := (k.pc + 1) % 16384, cycles := k.cycles + 1, cut := true } s t)) ∧
      (opOf w = 0x28 → meetsCut s g k.cycles (k.cycles + 3) = true → cutCycles s g < k.cycles + 3 → ∃ t, exec (.docJmp g c) s = .next t ∧
        CoreMoves g c k { k with cycles := cutCycles s g, cut := true } s t) ∧
      (opOf w = 0x38 → ∃ t, exec (.docDone g c) s = .next t ∧ ParseEnds g c 0 (k.cycles + 1) f k s t) ∧
      (opOf w = 0x39 → ∃ t, exec (.docFail g c) s = .next t ∧ ParseEnds g c (max (fld w 7 0) 0x10) (k.cycles + 1) f k s t) ∧
      (opListed (opOf w) = false → ∃ t, exec (.docNop g c) s = .next t ∧ ParseEnds g c 3 (k.cycles + 1) f k s t ∧
        rb t (H_INT_STAT (pageDOC g)) 4 = true)) ∧
    (k.cycles + 1 ≤ 96 → k.cut = false → readable (settle s) (storeAddr g k.pc) = false →
      ∃ t, exec (.docNop g c) s = .next t ∧ ParseEnds g c 4 (k.cycles + 1) f k s t ∧ rb t (H_INT_STAT (pageDOC g)) 0 = true) ∧
    (k.cycles = 96 → ∃ t, exec (.budgetExpiry g c) s = .next t ∧ ParseEnds g c 1 96 f k s t ∧
      rb t (H_INT_STAT (pageDOC g)) 3 = true) ∧
    (k.cut = true ∨ k.cycles = max 40 (min 96 (rf s (DOC_BUDGET_CFG g) 6 0)) ∧ k.cycles < 96 ∧ pressed s g = true →
      ∃ t, exec (.pressureCut g c) s = .next t ∧ ParseEnds g c 5 k.cycles f k s t) ∧
    (k.cut = false → k.cycles ≠ max 40 (min 96 (rf s (DOC_BUDGET_CFG g) 6 0)) →
      ∃ t, exec (.pressureCut g c) s = .next t ∧ coreOf t g c = some k ∧ t.frames = s.frames) ∧
    (coreFenced s g c = false →
      ∃ t, exec (.docentCoreFault g c) s = .next t ∧ ParseEnds g c 6 k.cycles f k s t ∧ coreFenced t g c = true ∧
        coreActive t g c = false ∧ rb t (H_INT_STAT (pageDOC g)) 1 = true)

/-- DISPATCH stamps the oldest offerable frame of the port served with the current epoch, counts it into that epoch's drain count and
starts its parse at the port's entry (R103-R105, R109); a gallery that may not dispatch, or has no free core, dispatches nothing. A
direct inject is stamped in its turn and goes on to ingress resolution without a core (R43, R529). -/
def Claims.DispatchStartsParse : Prop :=
  ∀ (g : Gallery) (s : State),
    (mayDispatch s g = false → exec (.dispatch g) s = .next s) ∧
    (mayDispatch s g = true → freeCore s g = none ∨ 512 ≤ ringUsed s g →
      (∀ i f, nextPort s g = some i → headOfPort s i = some f → f.direct = none) → ∃ t, exec (.dispatch g) s = .next t ∧ t.frames = s.frames ∧ t.prv = s.prv) ∧
    (∀ i c f, mayDispatch s g = true → nextPort s g = some i → freeCore s g = some c → headOfPort s i = some f → ringUsed s g < 512 →
      frameOf s f.id = some f → f.direct = none →
      ∃ t k x, exec (.dispatch g) s = .next t ∧ coreOf t g c = some k ∧ frameOf t f.id = some x ∧ k.frame = f.id ∧
        k.pc = fld (rd s (DOC_PORT_CFG g (portIndex i))) 29 16 ∧ k.s = fld (rd s (DOC_PORT_CFG g (portIndex i))) 7 0 ∧
        k.cursor = 0 ∧ k.cycles = 0 ∧ k.g = [] ∧ getF 0 k = f.port ∧ k.ofs = [(0, 0)] ∧
        x.stage = .core ∧ x.epoch = s.prv.c ∧ x.seq = s.nextSeq ∧ x.bytes = f.bytes ∧
        sGet 0 s.prv.c s.prv.drain < sGet 0 s.prv.c t.prv.drain ∧ t.prv.c = s.prv.c) ∧
    (∀ i f, mayDispatch s g = true → nextPort s g = some i → headOfPort s i = some f → frameOf s f.id = some f → f.direct.isSome = true →
      ∃ t x, exec (.dispatch g) s = .next t ∧ frameOf t f.id = some x ∧ x.stage = .lookup ∧ x.defAct = true ∧ x.direct = f.direct ∧
        x.epoch = s.prv.c ∧ x.seq = s.nextSeq ∧ x.bytes = f.bytes ∧ t.prv.c = s.prv.c)

/-- REORDER_RELEASE lets go only frames whose parse has ended, and never a frame of an input port before one dispatched earlier (R125);
the oldest that can go goes. DOC_CYC_STAT_READ answers the register and clears the longest parse. -/
def Claims.ReorderReleasesInOrder : Prop :=
  ∀ (g : Gallery) (s : State),
    (∃ t, exec (.reorderRelease g) s = .next t ∧ t.prv = s.prv ∧ RegsBut [] s t ∧ CtrsBut [] s t ∧
      (∀ f, releasable s g = some f → frameOf s f.id = some f →
        frameOf t f.id = some { f with stage := .lookup }) ∧
      (releasable s g = none → t = s)) ∧
    (∀ f, releasable s g = some f → f.stage = .ring ∧ f.gal = g.val ∧
      ∀ x, x ∈ s.frames → x.gal = g.val → x.port = f.port → x.stage = .core ∨ x.stage = .ring → f.seq ≤ x.seq) ∧
    (reach s (DOC_CYC_STAT g) = .open →
      ∃ t, exec (.docCycStatRead g) s = .next t ∧ rf t (DOC_CYC_STAT g) 22 16 = 0 ∧ RegsBut [DOC_CYC_STAT g, GAL_STAT g, PWR_GAL_STAT] s t ∧ CtrsBut [] s t)

/-- Dispatch of a frame to a free core, and release in order of dispatch: the two parts above, together. -/
def Obligations.DispatchAndReorder : Prop :=
  Claims.DispatchStartsParse ∧ Claims.ReorderReleasesInOrder

/-- DEQUEUE_SELECT (R388, R389, R394, R395): with copies for one port only, none of them stale, the port may select and its schedulers
choose queue q: the head copy of q is selected, charged with its length and ovh, its queue's start tag moves on by its cost, and the
pointer moves past the port. A choice is an eligible queue, and no eligible queue of its group has a higher priority. -/
def Claims.SelectionFollowsRules : Prop :=
  (∀ (s : State) (i q : Nat), i < 528 → chooseQueue s i = some q →
    q / 16 = i ∧ queueEligible s q = true ∧ ∃ gr, q ∈ groupQueues s gr ∧ gr / 4 = i ∧
      (∀ x, x ∈ groupQueues s gr → x ∈ s.tmg.elig → queueEligible s x = true → nodePri s x ≤ nodePri s q) ∧
      (∀ h, h < 4 → grpNode (4 * i + h) ∈ s.tmg.elig → shaperOk s (grpNode (4 * i + h)) = true →
        ((groupQueues s (4 * i + h)).any fun x => s.tmg.elig.contains x && queueEligible s x) = true →
        nodePri s (grpNode (4 * i + h)) ≤ nodePri s (grpNode gr))) ∧
  (∀ (g : Gallery) (i q : Nat) (c : Copy) (s : State), i ∈ galPorts s g → (∀ x, x ∈ s.copies → x.port = i) →
    (∀ x f, x ∈ s.copies → frameOf s x.frame = some f → staleFrame s f (16 * x.port + x.queue) = false) →
    let s1 := judgePort i s
    portOk s1 i = true → chooseQueue s1 i = some q → headCopy s1 q = some c →
    let ch := chargeOf s c (lenNow s c)
    ∃ t, exec (.dequeueSelect g) s = .next t ∧ copyOf t c.id = some { c with stage := .selected } ∧ t.frames = s.frames ∧
      sGet 0 g.val t.tmg.rr = i ∧ ctr t (TMG_CNT 0) = (ctr s (TMG_CNT 0) + 1) % 2 ^ 64 ∧
      (0 < ch → ctr t (TMG_CNT 1) = (ctr s (TMG_CNT 1) + ch.toNat) % 2 ^ 64) ∧
      startTag t q = (((startTag s1 q : Int) + ch * 65536 / (nodeWeight s q : Int)) % (2 ^ 48 : Int)).toNat)

/-- HEAD_DISCARD on a port that is down (R59, R397): the head copy of the lowest queue that has one leaves and is counted, and with no
stale frame and the port in service nothing is discarded. -/
def Claims.HeadsDiscarded : Prop :=
  ∀ (i : Port) (s : State),
    (∀ x f, x ∈ s.copies → frameOf s x.frame = some f → staleFrame s f (16 * x.port + x.queue) = false) →
    (portPresent s i = true → portUp s i = true → portFenced s i = false → exec (.headDiscard i) s = .next s) ∧
    (∀ c, portPresent s i = true → portUp s i = false →
      ((List.range 16).findSome? fun j => headCopy s (16 * i + j)) = some c → c.seg = .head →
      ∃ t, exec (.headDiscard i) s = .next t ∧ copyOf t c.id = none ∧
        ctr t (TMG_CNT 2) = (ctr s (TMG_CNT 2) + 1) % 2 ^ 64 ∧ ctr t (DPT_RPL_CNT 3) = (ctr s (DPT_RPL_CNT 3) + 1) % 2 ^ 64 ∧
        rd t (DPT_MC_DROP i) = rd s (DPT_MC_DROP i) + 1)

/-- Selection of a queue by priority, its charge and tags, and discards at the head: the two parts above, together. -/
def Obligations.Selection : Prop :=
  Claims.SelectionFollowsRules ∧ Claims.HeadsDiscarded

/-- Shapers (R398-R409, R413): the wheel releases a node that is due with the tokens it has earned; a rate write keeps a credit within
the burst, keeps a debt and puts it on the wheel for the new rate, or clears it with forgive; a burst write limits the credit;
SOJOURN_MAX_READ answers and clears. -/
def Obligations.ShapersAndWheel : Prop :=
  ∀ (s : State),
    ((∀ e, e ∈ s.tmg.wheel → eNs s < e.1) → exec .wheelRelease s = .next s) ∧
    (∀ te n, n < 11088 → wheelNext s = some (te, n) → te ≤ eNs s → 0 ≤ earned s n →
      ∃ t, exec .wheelRelease s = .next t ∧ onWheel t n = false ∧ bucketAt t n = ⟨earned s n, eNs s⟩) ∧
    (∀ (n : ShaperIx) (rate : BitVec 21), reach s (rateReg n) = .open →
      let cap := (burstOf s n : Int) * 32000
      (0 ≤ earned s n →
        (∃ t, exec (.shaperRateWrite n rate) s = .next t ∧ rf t (rateReg n) 20 0 = rate.toNat ∧
          bucketAt t n = ⟨min (earned s n) cap, eNs s⟩ ∧ onWheel t n = false ∧ CtrsBut [] s t ∧
          RegsBut [rateReg n, tokReg n] s t)) ∧
      (earned s n < 0 →
        (∃ t, exec (.shaperRateWrite n rate) s = .next t ∧ rf t (rateReg n) 20 0 = rate.toNat ∧
          bucketAt t n = ⟨earned s n, eNs s⟩ ∧ onWheel t n = (rate.toNat != 0) ∧
          ctr t (TMG_CNT 7) = (ctr s (TMG_CNT 7) + 1) % 2 ^ 64) ∧
        (∃ t, exec (.shaperForgive n rate) s = .next t ∧ rf t (rateReg n) 20 0 = rate.toNat ∧ bucketAt t n = ⟨0, eNs s⟩ ∧
          onWheel t n = false ∧ ctr t (TMG_CNT 8) = (ctr s (TMG_CNT 8) + 1) % 2 ^ 64))) ∧
    (∀ (n : ShaperIx) (burst : BitVec 24), reach s (burstReg n) = .open →
      ∃ t, exec (.shaperBurstWrite n burst) s = .next t ∧ rf t (burstReg n) 23 0 = burst.toNat ∧
        bucketAt t n = ⟨min (earned s n) ((burst.toNat : Int) * 32000), eNs s⟩ ∧ RegsBut [burstReg n, tokReg n] s t) ∧
    (∀ q : QueueIx, reach s (TMG_Q_SOJ_MAX q) = .open →
      ∃ t, exec (.sojournMaxRead q) s = .next t ∧ t.bus.readData = BitVec.ofNat 64 (rd s (TMG_Q_SOJ_MAX q)).toNat ∧
        rd t (TMG_Q_SOJ_MAX q) = 0 ∧ RegsBut [TMG_Q_SOJ_MAX q] s t)

/-- EDITOR_EDIT (R295, R298, R303, R307): the null template hands the frame on without its FCS, padded to 60 bytes and counted; a template
with no visible version drops the copy; and no stored copy handed to the MAC exceeds its port's limit. A copy that is not cut
through waits until its frame is stored and good (R41). -/
def Obligations.EditorEdits : Prop :=
  ∀ (id : Nat) (c : Copy) (f : Frame) (s : State), copyOf s id = some c → frameOf s c.frame = some f → c.stage = .selected →
    headCells s f c ≤ c.rdNext → isOn s (pageEDT (galOf s c.port)) = true → s.tab.merges = [] → f.whole = true →
    (c.cut = false → stored s c = false → exec (.editorEdit id) s = .next s) ∧
    (c.cut = true ∨ stored s c = true →
    let g := galOf s c.port
    (∃ t, exec (.editorEdit id) s = .next t ∧ (copyOf t id = none ∨ ∃ d e, copyOf t id = some d ∧ d.stage = .edited ∧
      d.edit = some e ∧ (c.cut = false → e.pre.length + 4 ≤ maxFrame s c.port))) ∧
    (let body := f.bytes.take (f.bytes.length - 4);
      let pre := body ++ List.replicate (60 - body.length) 0;
      c.plain = false → c.template = 0 → c.kind ≠ .mirror → f.dscp = none → f.pcp = none → pre.length + 4 ≤ maxFrame s c.port →
      ∃ t, exec (.editorEdit id) s = .next t ∧ copyOf t id = some { c with stage := .edited, edit := some ⟨pre, max 508 f.total, none⟩ } ∧
        ctr t (EDT_CNT g 1) = (ctr s (EDT_CNT g 1) + 1) % 2 ^ 64 ∧ RegsBut [] s t ∧ t.frames = s.frames) ∧
    (let w := galWing s g;
      let nh := if c.kind = .mirror then none else c.nh;
      c.plain = false → c.template ≠ 0 → c.template < 8192 → tplVersion s w c.template f.epoch = none →
      editBad s w c.template (nh.getD 0) none nh.isSome = none →
      ∃ t, exec (.editorEdit id) s = .next t ∧ copyOf t id = none ∧
        (isFirst s (pageEDT g) 2 = true ∨ rb s (H_INT_STAT (pageEDT g)) 2 = true → rb t (H_INT_STAT (pageEDT g)) 2 = true) ∧
        ctr t (EDT_CNT g 2) = (ctr s (EDT_CNT g 2) + 1) % 2 ^ 64))

/-- ARCHIVE_CAPTURE and ARCHIVE_RECORD_WRITE (R370-R375): the next capture, where it needs no read of the Hall, is staged, or lost while its ring is
off; a staged record is written at its slot as 160 bytes that carry its sequence number and the losses before it, and PROD, the
sequence number and the counts move on. -/
def Claims.ArchiveRecords : Prop :=
  ∀ (s : State),
    (∀ c out, nextCap s.arc.pend = some c → c.stored = none → let st := sGet [] c.ring s.arc.staged
      (rb s (ARC_RING_CFG c.ring) 31 = true → st.length < 256 →
        ∃ t, exec (.archiveCapture out) s = .next t ∧ t.arc.pend = s.arc.pend.erase c ∧ sGet [] c.ring t.arc.staged = st ++ [c] ∧
          ctr t (ARC_CNT (if c.kind = 0 then 0 else 1)) = (ctr s (ARC_CNT (if c.kind = 0 then 0 else 1)) + 1) % 2 ^ 64) ∧
      (c.ring < 8 → rb s (ARC_RING_CFG c.ring) 31 = false →
        ∃ t, exec (.archiveCapture out) s = .next t ∧ t.arc.pend = s.arc.pend.erase c ∧ t.arc.staged = s.arc.staged ∧
          rd t (ARC_RING_LOST c.ring) = rd s (ARC_RING_LOST c.ring) + 1 ∧
          (isFirst s pageARC (8 + c.ring) = true → rb t (H_INT_STAT pageARC) (8 + c.ring) = true))) ∧
    (∀ (r : Fin 8) c rest, sGet [] r.val s.arc.staged = c :: rest → rb s (ARC_RING_CFG r) 30 = false → memOk s = true →
      arcUnread s r < arcSize s r →
      let p := rd s (ARC_RING_PROD r)
      let a := rd64 s (ARC_RING_BASE_LO r) / 64 * 64 + 160 * (p.toNat % arcSize s r)
      let bytes := recordBytes c (sGet 0 r.val s.arc.seq) (sGet 0 r.val s.arc.lost)
      ∃ t, exec (.archiveRecordWrite r) s = .next t ∧ sGet [] r.val t.arc.staged = rest ∧ rd t (ARC_RING_PROD r) = p + 1 ∧
        bytes.length = 160 ∧ (∀ j, j < 160 → sGet none (a + j) t.hif.mem = some (byteAt bytes j)) ∧
        (∀ x, x < a ∨ a + 160 ≤ x → sGet none x t.hif.mem = sGet none x s.hif.mem) ∧
        sGet 0 r.val t.arc.seq = (sGet 0 r.val s.arc.seq + 1) % 2 ^ 32 ∧ sGet 0 r.val t.arc.lost = 0 ∧
        ctr t (ARC_CNT 3) = (ctr s (ARC_CNT 3) + 1) % 2 ^ 64)

/-- ARC_RING_CFG_WRITE (R381): a ring is configured while it is off, and a write that would change an enabled ring is refused with code
0x01. RPL_HEADER_CMD sets busy and RPL_BUSY_CLEAR clears it (R359). -/
def Claims.ArchiveConfiguration : Prop :=
  ∀ (s : State),
    (∀ (r : Fin 8) (v : W32), reach s (ARC_RING_CFG r) = .open → reach s (ARC_RING_BASE_LO r) = .open →
      reach s (ARC_RING_BASE_HI r) = .open →
      (rb s (ARC_RING_CFG r) 31 = false →
        (∃ t, exec (.arcRingCfgWrite r 0 v) s = .next t ∧ rd t (ARC_RING_BASE_LO r) = v &&& 0xFFFFFFC0 ∧
          RegsBut [ARC_RING_BASE_LO r] s t) ∧
        (∃ t, exec (.arcRingCfgWrite r 1 v) s = .next t ∧ rd t (ARC_RING_BASE_HI r) = v ∧ RegsBut [ARC_RING_BASE_HI r] s t) ∧
        (∃ t, exec (.arcRingCfgWrite r 2 v) s = .next t ∧ rd t (ARC_RING_CFG r) = v &&& 0xE00FFFFF ∧
          RegsBut [ARC_RING_CFG r] s t)) ∧
      (rb s (ARC_RING_CFG r) 31 = true → blkState s pageARC ≠ 0 → ∀ w : Fin 3, w ≠ 2 →
        ∃ t, exec (.arcRingCfgWrite r w v) s = .next t ∧ rf t (H_ERR_CAUSE pageARC) 31 24 = 0x01 ∧
          RegsBut [H_ERR_CAUSE pageARC, H_ERR_ADDR_LO pageARC, H_ERR_ADDR_HI pageARC] s t)) ∧
    (∀ v, reach s DPT_RPL_CMD = .open → bit v 31 = true → rb s DPT_RPL_STAT 0 = false →
      ∃ t, exec (.rplHeaderCmd v) s = .next t ∧ rb t DPT_RPL_STAT 0 = true ∧ rf t DPT_RPL_CMD 15 0 = fld v 15 0 ∧
        ctr t (DPT_RPL_CNT 6) = (ctr s (DPT_RPL_CNT 6) + 1) % 2 ^ 64) ∧
    (∃ t, exec .rplBusyClear s = .next t ∧ rb t DPT_RPL_STAT 0 = false ∧ RegsBut [DPT_RPL_STAT] s t ∧ CtrsBut [] s t)

/-- Captures, records in host memory and ring configuration: the two parts above, together. -/
def Obligations.ArchiveWork : Prop :=
  Claims.ArchiveRecords ∧ Claims.ArchiveConfiguration

/-- The order of statuses (R275), for every table command: BAD_OP for a wrong number of entries or a bad chain, TABLE_OFF, for a long
prefix by the Catalogue's blocks too, then BUSY
for a change while four epochs live; each completes and changes no table. -/
def Obligations.CommandChecks : Prop :=
  ∀ (c : Cmd) (i : Instr) (s : State), tableInstr c.op = some i → nextCmd s (executorOf c.op) c.op = some c → c.tag < 65536 →
    epochsLive s → s.tab.merges = [] → CplOpen c.ring s → s.vit.move = none → cmdTaking s c = false → c.orphan = false →
    (c.op = 0x40 → barrier s = true) →
    let wrong := c.bad = true ∨ ∃ n, entriesOf c = some n ∧ n ≠ c.entries
    let ends := fun (st : Nat) => ∃ t, exec i s = .next t ∧ Completes c st 0xFFFFFFFF s t ∧ TablesKept s t
    (wrong → ends stBAD_OP) ∧ (¬wrong → (tableOn s (executorOf c.op) = false ∨ longCmd c = true ∧ tableOn s 0 = false) → ends stTABLE_OFF) ∧
    (¬wrong → tableOn s (executorOf c.op) = true → (longCmd c = true → tableOn s 0 = true) → changes c.op = true → liveCount s = 4 → ends stBUSY)

/-- CAT_INSERT, CAT_REPLACE, CAT_DELETE and CAT_FIND on a good key (R166, R169, R260, R261): the new version is written in both
replicas, in the free slot the rule names, and no other entry's words but those of the version retired. -/
def Obligations.CatalogueCommands : Prop :=
  ∀ (c : Cmd) (s : State), RunsNext c s → let key := slice c.payload 0 20
    badKey key = false → catBadAny s key = none →
    let puts := fun (i : Instr) => ∀ x, freeSlot s 0 key = some x → readable s (catAddr 0 x) = true → readable s (catAddr 1 x) = true →
      ∃ t, exec i s = .next t ∧ Completes c stOK x s t ∧ Staged 0 x s t ∧
        (∀ w, w < 2 → catKey t w x = key ∧ (catResult t w x).toNat = leAt c 20 8 ∧
          bit (catCtl t w x) 30 = ((byteAt c.payload 28).toNat % 2 == 1)) ∧
        (∀ y, catCurrent s key = some y → Retired 0 y s t) ∧
        (∀ y, y ≠ x → catCurrent s key ≠ some y → y < 0x102000 → ∀ w, w < 2 → tws t (catAddr w y) 8 = tws s (catAddr w y) 8)
    let ends := fun (i : Instr) (st : Nat) => ∃ t, exec i s = .next t ∧ Completes c st 0xFFFFFFFF s t ∧ TablesKept s t
    (c.op = 0x01 → (catCurrent s key ≠ none → ends .catInsert stEXISTS) ∧
      (catCurrent s key = none → puts .catInsert ∧ (freeSlot s 0 key = none → ends .catInsert stNO_ROOM))) ∧
    (c.op = 0x02 → (catCurrent s key = none → ends .catReplace stNOT_FOUND) ∧
      (catCurrent s key ≠ none → puts .catReplace ∧ (freeSlot s 0 key = none → ends .catReplace stNO_ROOM))) ∧
    (c.op = 0x03 → (catCurrent s key = none → ends .catDelete stNOT_FOUND) ∧
      (∀ y, catCurrent s key = some y → ∃ t, exec .catDelete s = .next t ∧ Completes c stOK y s t ∧ Retired 0 y s t)) ∧
    (c.op = 0x04 → (catCurrent s key = none → ends .catFind stNOT_FOUND) ∧
      (∀ y, catCurrent s key = some y → let a := leAt c 20 8
        ∃ t, exec .catFind s = .next t ∧ Completes c stOK y s t ∧ TablesKept s t ∧
          (a + 32 ≤ cqSlot s c.ring ∨ cqSlot s c.ring + 32 ≤ a → memBytes t a 32 = (catRecord s y).map some)))

/-- Accession (R166, R176-R178), which reads its own wing's replica: a new key takes a free slot as a settled entry of both replicas; a full bucket with a full overflow is
counted; a known key with the same result has its hit bit set; a learn that meets a host command waits for its one retry and is then
given up. Nothing happens with learn_en 0. -/
def Claims.AccessionLearns : Prop :=
  ∀ (w : Wing) (l : Learn) (s : State), s.tab.merges = [] →
    let new := fun (t : State) (x : Nat) => (∀ v, v < 2 → catValid t v x = true ∧ catKey t v x = slice l.key 0 20 ∧
      catResult t v x = l.result ∧ bit (catCtl t v x) 30 = false ∧ (catVer t v x).settled = true ∧ (catVer t v x).mortal = false) ∧
      ctr t (CAT_CNT w 2) = (ctr s (CAT_CNT w 2) + 1) % 2 ^ 64
    (∀ rest, sGet [] w.val s.cat.learnQ = l :: rest → accessionOn s w = true →
      (meetsCmd s w l = true → sGet none w.val s.cat.retry = none →
        ∃ t, exec (.accessionLearn w) s = .next t ∧ sGet none w.val t.cat.retry = some l ∧ sGet [] w.val t.cat.learnQ = rest ∧
          t.tab = s.tab) ∧
      (meetsCmd s w l = false → catUnreadable s w l.key = none →
        (catMatches s w l.key = [] → ∀ x, freeSlot s w l.key = some x →
          ∃ t, exec (.accessionLearn w) s = .next t ∧ new t x ∧ sGet [] w.val t.cat.learnQ = rest) ∧
        (catMatches s w l.key = [] → freeSlot s w l.key = none →
          ∃ t, exec (.accessionLearn w) s = .next t ∧ rb t (H_INT_STAT (pageCAT w)) 0 = true ∧ t.tab = s.tab ∧
            ctr t (CAT_CNT w 5) = (ctr s (CAT_CNT w 5) + 1) % 2 ^ 64) ∧
        (∀ x more, catMatches s w l.key = x :: more →
          ((x :: more).any fun y => (recVer s 0 w y).mortal || !(recVer s 0 w y).settled) = false → catResult s w x = l.result →
          ∃ t, exec (.accessionLearn w) s = .next t ∧ bit (catCtl t w x) 29 = true ∧ catResult t w x = catResult s w x ∧
            ctr t (CAT_CNT w 7) = (ctr s (CAT_CNT w 7) + 1) % 2 ^ 64))) ∧
    (accessionOn s w = false → exec (.accessionLearn w) s = .next s) ∧
    (sGet none w.val s.cat.retry = some l →
      (meetsCmd s w l = true → ∃ t, exec (.learnRetry w) s = .next t ∧ sGet none w.val t.cat.retry = none ∧ t.tab = s.tab ∧
        ctr t (CAT_CNT w 8) = (ctr s (CAT_CNT w 8) + 1) % 2 ^ 64) ∧
      (meetsCmd s w l = false → catUnreadable s w l.key = none → catMatches s w l.key = [] → ∀ x, freeSlot s w l.key = some x →
        ∃ t, exec (.learnRetry w) s = .next t ∧ new t x ∧ sGet none w.val t.cat.retry = none))

/-- DEACCESSION_PASS (R173-R175): a hit clears the age and the hit bit of a settled, dynamic entry in both replicas, no hit raises its age
and at the limit invalidates it; the pass is counted. The configuration writes keep what they may not change (R148). -/
def Claims.DeaccessionAges : Prop :=
  ∀ (s : State), s.tab.merges = [] → Memory.wf s = true → isOn s (pageCAT 0) = true → rb s (CAT_CFG 0) 0 = true →
    (∃ t, exec .deaccessionPass s = .next t ∧ rd t (CAT_AGE_STAT 0) = rd s (CAT_AGE_STAT 0) + 1 ∧
      rb t (H_INT_STAT (pageCAT 0)) 6 = true ∧
      ∀ x, x < 0x102000 → catValid s 0 x = true → bit (catCtl s 0 x) 30 = false → (catVer s 0 x).mortal = false →
        (catVer s 0 x).settled = true → readable s (catAddr 0 x) = true → readable s (catAddr 1 x) = true →
        let hit := bit (catCtl s 0 x) 29 || bit (catCtl s 1 x) 29
        let age := max (fld (catCtl s 0 x) 21 16) (fld (catCtl s 1 x) 21 16)
        let lim := max 1 (rf s (CAT_AGE_CFG 0) 5 0)
        ∀ w, w < 2 → (hit = true → bit (catCtl t w x) 29 = false ∧ fld (catCtl t w x) 21 16 = 0) ∧
          (hit = false → age + 1 < lim → fld (catCtl t w x) 21 16 = age + 1 ∧ bit (catCtl t w x) 31 = bit (catCtl s w x) 31) ∧
          (hit = false → lim ≤ age + 1 → catValid t w x = false)) ∧
    (∀ (w : Wing) v, reach s (CAT_CFG w) = .open → ∃ t, exec (.catCfgWrite w v) s = .next t ∧
      rf t (CAT_CFG w) 1 1 = fld v 1 1 ∧ rf t (CAT_CFG 0) 17 16 = rf s (CAT_CFG 0) 17 16 ∧
      (w = 0 → rf t (CAT_CFG 0) 0 0 = fld v 0 0 ∧ (fld v 17 16 ≠ rf s (CAT_CFG 0) 17 16 →
        rf t (H_ERR_CAUSE (pageCAT 0)) 31 24 = 0x01))) ∧
    (∀ (w : Wing) v, reach s (CAT_AGE_CFG w) = .open → ∃ t, exec (.catAgeCfgWrite w v) s = .next t ∧
      rd t (CAT_AGE_CFG 0) = (if w = 0 then v &&& 0xFFFF003F else rd s (CAT_AGE_CFG 0)) ∧ RegsBut [CAT_AGE_CFG 0] s t)

/-- Learned entries, retries, ageing passes and their configuration: the two parts above, together. -/
def Obligations.LearningAndAgeing : Prop :=
  Claims.AccessionLearns ∧ Claims.DeaccessionAges

/-- ROUTE_ADD, ROUTE_REPLACE, ROUTE_DELETE and ROUTE_FIND of a prefix held in the prefix structure (R208, R260, R261): the statuses, exactly
one current version after ADD and REPLACE and none after DELETE, and every other prefix untouched, where the words read
can be read; a word that cannot be read ends the command with STORE_ERR (R720). -/
def Obligations.RouteCommands : Prop :=
  ∀ (c : Cmd) (s : State), RunsNext c s → let p := pfxOf c
    badPfx s p = false → longPfx p = false →
    let found := s.lpm.routes.any (routeCurrent s p)
    let room := unitsUsed s + (if p.fam = 0 then 1 else 2) ≤ 2097152
    let others := fun (t : State) => ∀ r, samePfx p r = false → (r ∈ t.lpm.routes ↔ r ∈ s.lpm.routes)
    let puts := fun (i : Instr) => room → ∃ t r, exec i s = .next t ∧ Completes c stOK 0xFFFFFFFF s t ∧ others t ∧
      t.lpm.routes.filter (routeCurrent t p) = [r] ∧ r.result.toNat = leAt c 20 8 ∧ r.birth = nextEpoch s
    let ends := fun (i : Instr) (st : Nat) => ∃ t, exec i s = .next t ∧ Completes c st 0xFFFFFFFF s t ∧ TablesKept s t
    ((prefixMet s).1 ≠ none → (c.op = 0x10 → routeKind (leAt c 20 8) = true → ends .routeAdd stSTORE_ERR) ∧
      (c.op = 0x11 → routeKind (leAt c 20 8) = true → ends .routeReplace stSTORE_ERR) ∧
      (c.op = 0x12 → ends .routeDelete stSTORE_ERR) ∧ (c.op = 0x13 → ends .routeFind stSTORE_ERR)) ∧
    ((prefixMet s).1 = none →
    (c.op = 0x10 → (routeKind (leAt c 20 8) = false → ends .routeAdd stBAD_RESULT) ∧
      (routeKind (leAt c 20 8) = true → (found = true → ends .routeAdd stEXISTS) ∧
        (found = false → puts .routeAdd ∧ (¬room → ends .routeAdd stNO_ROOM)))) ∧
    (c.op = 0x11 → routeKind (leAt c 20 8) = true → (found = false → ends .routeReplace stNOT_FOUND) ∧
      (found = true → puts .routeReplace ∧ (¬room → ends .routeReplace stNO_ROOM))) ∧
    (c.op = 0x12 → (found = false → ends .routeDelete stNOT_FOUND) ∧
      (found = true → ∃ t, exec .routeDelete s = .next t ∧ Completes c stOK 0xFFFFFFFF s t ∧ others t ∧
        t.lpm.routes.any (routeCurrent t p) = false)) ∧
    (c.op = 0x13 → (found = false → ends .routeFind stNOT_FOUND) ∧
      (∀ r, s.lpm.routes.find? (routeCurrent s p) = some r → let a := leAt c 20 8
        ∃ t, exec .routeFind s = .next t ∧ Completes c stOK 0xFFFFFFFF s t ∧ TablesKept s t ∧
          (a + 28 ≤ cqSlot s c.ring ∨ cqSlot s c.ring + 32 ≤ a →
            memBytes t a 28 = (slice c.payload 0 20 ++ leBytes 8 r.result.toNat).map some))))

/-- NH_SET, NH_DELETE, GROUP_SET, GROUP_REPLACE_MEMBER, GROUP_REMOVE_MEMBER and GROUP_DELETE (R207-R209): the version written is the one
that is not valid, the one that was current is retired, and a group's block of buckets is filled in rounds. -/
def Obligations.NextHopsAndGroups : Prop :=
  ∀ (c : Cmd) (s : State), RunsNext c s →
    let n := leAt c 0 4
    let g := leAt c 0 2
    let pair := fun (i : Instr) (k x v : Nat) (more : State → Prop) => ∃ t, exec i s = .next t ∧ Completes c stOK x s t ∧
      Staged k (2 * x + v) s t ∧ (∀ u, curVersion s k x = some u → u ≠ v → Retired k (2 * x + u) s t) ∧ more t
    let gone := fun (i : Instr) (k x : Nat) =>
      ([0, 1].find? (fun v => recCurrent s k (2 * x + v)) = none →
        ∃ t, exec i s = .next t ∧ Completes c stNOT_FOUND 0xFFFFFFFF s t ∧ TablesKept s t) ∧
      (∀ v, [0, 1].find? (fun v => recCurrent s k (2 * x + v)) = some v →
        ∃ t, exec i s = .next t ∧ Completes c stOK x s t ∧ Retired k (2 * x + v) s t)
    let block := fun (t : State) (v size : Nat) (bk : List (Option Nat)) =>
      let w0 := tw t (grpAddr 0 g v)
      fld w0 27 24 = size ∧ bucketNhs t ⟨fld w0 17 0, size, bit w0 28, 0⟩ = bk
    (c.op = 0x14 → n < 262144 → nhBadAny s n = none → ∀ v, otherVersion s 2 n = some v →
      pair .nhSet 2 n v fun t => ∀ w, w < 2 → tw t (nhAddr w n v + 4) = w32 (leAt c 8 4) ∧ tw t (nhAddr w n v + 8) = w32 (leAt c 12 4) ∧
        tw t (nhAddr w n v + 12) = w32 (leAt c 16 4)) ∧
    (c.op = 0x15 → n < 262144 → nhBadAny s n = none → gone .nhDelete 2 n) ∧
    (c.op = 0x19 → g < 16384 → grpBadAny s g = none → gone .groupDelete 3 g) ∧
    (c.op = 0x16 → g < 16384 → leAt c 6 2 ≤ 512 → grpBadAny s g = none →
      let size := min 9 (byteOf c 2)
      let ms := (List.range (leAt c 6 2)).map fun j => (leAt c (8 + 4 * j) 4 % 2 ^ 18, leAt c (8 + 4 * j) 4 / 2 ^ 18 % 1024)
      (ms.foldl (fun x y => x + y.2) 0) = 2 ^ size → ∀ v, otherVersion s 3 g = some v → (allocBlock (2 ^ size) s).1 ≠ none →
      pair .groupSet 3 g v fun t => block t v size ((fillRounds 512 ms).map some)) ∧
    (∀ d, g < 16384 → leAt c 4 4 < 262144 → grpBadAny s g = none → grpCur s g = some d → firstBad s 2 (bucketOffs d) = none →
      (bucketNhs s d).contains (some (leAt c 4 4)) = true → ∀ v, otherVersion s 3 g = some v → (allocBlock (2 ^ d.size) s).1 ≠ none →
      let old := leAt c 4 4
      let bk := bucketNhs s d
      (c.op = 0x17 → leAt c 8 4 < 262144 → pair .groupReplaceMember 3 g v fun t =>
        block t v d.size (bk.map fun x => if x = some old then some (leAt c 8 4) else x)) ∧
      (c.op = 0x18 → membersOf bk ≠ [old] → pair .groupRemoveMember 3 g v fun t =>
        (∃ new : List (Option Nat), block t v d.size new ∧ new.length = bk.length ∧ some old ∉ new ∧
          ∀ (k : Nat) (x : Option Nat), bk[k]? = some x → x ≠ some old → new[k]? = some x)))

/-- VIT_PLACE, VIT_INSERT, VIT_REPLACE, VIT_DELETE, VIT_FIND and POL_SET (R240-R247): a new version at the lowest free position from
the one asked; where that is occupied a move opens the hole, one entry a step in both replicas, and the command completes with the hole
filled. -/
def Claims.VitrineCommands : Prop :=
  ∀ (c : Cmd) (s : State), RunsNext c s → s.vit.move = none → cmdTaking s c = false →
    let h := byteOf c 0
    let p := posOf c
    let place := fun (i : Instr) (q : Nat) => ∃ t, exec i s = .next t ∧ Completes c stOK q s t ∧ Staged 4 (posRec s h q) s t ∧
      ∀ w, w < 2 → (tw t (posAct s w h q)).toNat + (tw t (posAct s w h q + 4)).toNat * 2 ^ 32 = leAt c 8 8 ∧
        tws t (posAddr s w h q) 5 = bytesWords (slice (c.payload.drop 16) 0 20) ∧ fld (tw t (posAddr s w h q + 20)) 15 0 = leAt c 2 2
    let good := badPos s c (c.op == 0x20) = false ∧ badWidth s c = false ∧ badFwd c = false
    let move := fun (i : Instr) (q : Nat) => ∃ t, exec i s = .next t ∧
      t.vit.move = some ⟨c, h, bankWidth s h, p, q, q, false⟩ ∧ t.tab = s.tab ∧ (∀ w, w < 2 → rb t (VIT_MOVE_STAT w) 31 = true) ∧
      exqOf t 2 = (exqOf s 2).drop 1 ∧ t.hif.mem = s.hif.mem
    (c.op = 0x20 → good → (∀ q, freeFrom s h (chainLen s h) 0 = .at q → place .vitPlace q) ∧
      (freeFrom s h (chainLen s h) 0 = .full →
        ∃ t, exec .vitPlace s = .next t ∧ Completes c stNO_ROOM 0xFFFFFFFF s t ∧ TablesKept s t)) ∧
    (c.op = 0x21 → good → ∀ q, freeFrom s h (chainLen s h - p) p = .at q →
      (q = p → place .vitInsert q) ∧ (q ≠ p → move .vitInsert q)) ∧
    (c.op = 0x22 → good → ∀ q, freeFrom s h (chainLen s h - p) p = .at q →
      (recCurrent s 4 (posRec s h p) = false →
        ∃ t, exec .vitReplace s = .next t ∧ Completes c stNOT_FOUND 0xFFFFFFFF s t ∧ TablesKept s t) ∧
      (recCurrent s 4 (posRec s h p) = true → move .vitReplace q)) ∧
    (c.op = 0x23 → badPos s c false = false → posBad s h p = none →
      (recCurrent s 4 (posRec s h p) = true →
        ∃ t, exec .vitDelete s = .next t ∧ Completes c stOK p s t ∧ Retired 4 (posRec s h p) s t) ∧
      (recCurrent s 4 (posRec s h p) = false →
        ∃ t, exec .vitDelete s = .next t ∧ Completes c stNOT_FOUND 0xFFFFFFFF s t ∧ TablesKept s t)) ∧
    (c.op = 0x24 → badPos s c false = false → entryBad s h p = none → byteOf c 1 % 2 = 0 → let a := leAt c 8 8
      let n := 32 * bankWidth s h + 8
      ∃ t, exec .vitFind s = .next t ∧ Completes c stOK p s t ∧ TablesKept s t ∧
        (a + n ≤ cqSlot s c.ring ∨ cqSlot s c.ring + 32 ≤ a → memBytes t a n =
          (wordBytes (tws s (posAddr s 0 h p) (8 * bankWidth s h) ++ tws s (posAct s 0 h p) 2)).map some)) ∧
    (c.op = 0x25 → h < 2 → p ≤ 65535 → leAt c 8 4 / 2 ^ 30 ≠ 3 →
      ∃ t, exec .polSet s = .next t ∧ Completes c stOK p s t ∧
        tws t (polAddr h p) 4 = [w32 (leAt c 8 4), w32 (leAt c 12 4), w32 (leAt c 16 4), w32 (leAt c 20 4)] ∧
        sGet 0 (2 * (65536 * h + p)) t.vit.frac = 0 ∧ sGet 0 (2 * (65536 * h + p) + 1) t.vit.frac = 0)

/-- One step of a running move (R243): the entry below the hole moves up in both replicas and the hole moves down; with the hole at its
position the new entry is written and the command completes with both positions. -/
def Claims.VitrineMoveSteps : Prop :=
  ∀ (m : Move) (s : State), s.vit.move = some m →
    (∀ n, n ≤ 2 → spanTaking s m.head (max m.pos (m.target - 1)) n = false) → m.cmd.orphan = false → s.tab.merges = [] → epochsLive s →
    CplOpen m.cmd.ring s → m.cmd.tag < 65536 → headBank s m.head = true → bankWidth s m.head ≠ 0 → m.target < chainLen s m.head →
    let i := if m.cmd.op = 0x21 then Instr.vitInsert else .vitReplace
    (m.cmd.op = 0x21 ∨ m.cmd.op = 0x22) →
    (m.pos < m.target → ∃ t, exec i s = .next t ∧
      t.vit.move = some { m with target := m.target - 1, twin := true } ∧
      (∀ w, w < 2 → readable s (posAddr s w m.head (m.target - 1)) = true → readable s (posAddr s w m.head (m.target - 1) + 16) = true →
        tws t (posAddr s w m.head m.target) 8 = tws s (posAddr s w m.head (m.target - 1)) 8)) ∧
    (m.target = m.pos → ∃ t, exec i s = .next t ∧ t.vit.move = none ∧ Staged 4 (posRec s m.head m.pos) s t ∧
      (m.cmd.op = 0x22 → m.pos + 1 < chainLen s m.head → Retired 4 (posRec s m.head (m.pos + 1)) s t) ∧
      (∀ w, w < 2 → rb t (VIT_MOVE_STAT w) 31 = false) ∧
      sGet none (cqSlot s m.cmd.ring + 7) t.hif.mem = some (byte stOK) ∧
      memBytes t (cqSlot s m.cmd.ring + 8) 4 = (leBytes 4 m.pos).map some ∧
      memBytes t (cqSlot s m.cmd.ring + 12) 4 = (leBytes 4 m.q).map some)

/-- Vitrine commands, and the moves that open a position: the two parts above, together. -/
def Obligations.VitrineCommands : Prop :=
  Claims.VitrineCommands ∧ Claims.VitrineMoveSteps

/-- Vitrine banks (R217, R219, R249-R253): a bank that compares badly is declared failed, and the spare takes it over under auto or is
busy; VIT_SPARE_CMD starts a takeover, VIT_BANK_SPARED ends it; a bank's configuration is written through Wing E only, while no entry
and no enabled profile uses it. -/
def Obligations.VitrineBanks : Prop :=
  ∀ (w : Wing) (b : Fin 16) (s : State),
    (rf s (VIT_SPARE_CFG w) 7 0 < sGet 0 (16 * w.val + b.val) s.vit.differ → ∃ t, exec (.vitBankFail w b) s = .next t ∧
      rb t (H_INT_STAT (pageVIT w)) 2 = true ∧
      (spareBusy s w = true → (16 * w.val + b.val) ∈ t.vit.failed ∧ rb t (H_INT_STAT (pageVIT w)) 4 = true) ∧
      (spareBusy s w = false → sGet none w.val t.vit.taking =
        if rb s (VIT_SPARE_CFG w) 8 then some b.val else sGet none w.val s.vit.taking)) ∧
    (∀ v, reach s (VIT_SPARE_CMD w) = .open → bit v 31 = true → fld v 3 0 = b.val → spareBusy s w = false →
      ∃ t, exec (.vitSpareCmd w v) s = .next t ∧ sGet none w.val t.vit.taking = some b.val ∧
        rb t (H_INT_STAT (pageVIT w)) 2 = true) ∧
    (sGet none w.val s.vit.taking = some b.val → ∃ t, exec (.vitBankSpared w) s = .next t ∧
      sGet none w.val t.vit.taking = none ∧ rd t (VIT_SPARE_STAT w) = w32 (256 + b) ∧ rb t (H_INT_STAT (pageVIT w)) 3 = true ∧
      t.tab = s.tab) ∧
    (∀ v, reach s (VIT_BANK_CFG w b) = .open →
      (w = 1 → ∃ t, exec (.vitBankCfgWrite w b v) s = .next t ∧ RegsBut [] s t) ∧
      (w = 0 → bankHeld s b = false → bankNamed s b = false → ∃ t, exec (.vitBankCfgWrite w b v) s = .next t ∧
        rd t (VIT_BANK_CFG 0 b) = v &&& 0x13 ∧
        RegsBut [VIT_BANK_CFG 0 b, H_ERR_CAUSE (pageVIT 0), H_ERR_ADDR_LO (pageVIT 0), H_ERR_ADDR_HI (pageVIT 0)] s t) ∧
      (w = 0 → vitOff s = false → bankHeld s b = true → ∃ t, exec (.vitBankCfgWrite w b v) s = .next t ∧
        rf t (H_ERR_CAUSE (pageVIT 0)) 31 24 = 0x01 ∧ rd t (VIT_BANK_CFG 0 b) = rd s (VIT_BANK_CFG 0 b)))

/-- TPL_SET, TPL_DELETE and TPL_FIND (R293, R312): the version that is not valid is written whole in both replicas and the current one
retired; a bad argument changes nothing. -/
def Obligations.TemplateCommands : Prop :=
  ∀ (c : Cmd) (s : State), RunsNext c s → let n := leAt c 0 4
    let ends := fun (i : Instr) (st : Nat) => ∃ t, exec i s = .next t ∧ Completes c st 0xFFFFFFFF s t ∧ TablesKept s t
    (c.op = 0x30 → (badTpl c = true → ends .tplSet stBAD_ARG) ∧
      (badTpl c = false → tplBadAny s n = none → ∀ v, otherVersion s 5 n = some v →
        ∃ t, exec .tplSet s = .next t ∧ Completes c stOK n s t ∧ Staged 5 (2 * n + v) s t ∧
          (∀ w, w < 2 → tws t (tplAddr w n v + 4) 51 = bytesWords (slice c.payload 4 204)) ∧
          (∀ u, curVersion s 5 n = some u → u ≠ v → Retired 5 (2 * n + u) s t))) ∧
    (c.op = 0x31 → (8192 ≤ n → ends .tplDelete stNOT_FOUND) ∧ (n < 8192 → tplBadAny s n = none →
      ∀ v, [0, 1].find? (fun v => recCurrent s 5 (2 * n + v)) = some v →
        ∃ t, exec .tplDelete s = .next t ∧ Completes c stOK n s t ∧ Retired 5 (2 * n + v) s t)) ∧
    (c.op = 0x32 → n < 8192 → tplBadAny s n = none → (tplVersion s 0 n (nextEpoch s) = none → ends .tplFind stNOT_FOUND) ∧
      (∀ v, tplVersion s 0 n (nextEpoch s) = some v →
        ([64, 128, 192].all fun o => readable s (tplAddr 0 n v + o)) = true → let a := leAt c 8 8
        ∃ t, exec .tplFind s = .next t ∧ Completes c stOK n s t ∧ TablesKept s t ∧
          (a + 256 ≤ cqSlot s c.ring ∨ cqSlot s c.ring + 32 ≤ a →
            memBytes t a 256 = (wordBytes (tws s (tplAddr 0 n v) 64)).map some)))

/-- COMMAND_DISPATCH, COMMIT and DISCARD (R262, R268, R276-R278): a ready command goes to its executor; COMMIT makes N the current epoch
with an empty drain count, and is BUSY with four epochs live; after DISCARD no prefix version is staged and no mark of N is left, where
every chunk with staged changes was marked (R266). -/
def Claims.EpochsAdvance : Prop :=
  ∀ (c : Cmd) (s : State),
    (isOn s (pagePRV 0) = true → s.prv.held = some c → executorOf c.op < 5 → (exqOf s (executorOf c.op)).length < 16 →
      ∃ t, exec .commandDispatch s = .next t ∧ t.prv.held = none ∧
        exqOf t (executorOf c.op) = exqOf s (executorOf c.op) ++ [c]) ∧
    (∀ r, isOn s (pagePRV 0) = true → s.prv.held = none → commitOpen s = false →
      (((List.range 32).map fun i => (s.prv.rr + 1 + i) % 32).find? fun x => (readyCmd s x).isSome) = some r →
      readyCmd s r = some c → executorOf c.op < 5 → (exqOf s (executorOf c.op)).length < 16 →
      ∃ t, exec .commandDispatch s = .next t ∧ exqOf t (executorOf c.op) = exqOf s (executorOf c.op) ++ [c] ∧
        readyJob t r = none ∧ t.prv.rr = r ∧ ctr t (PRV_CNT 0 0) = (ctr s (PRV_CNT 0 0) + 1) % 2 ^ 64) ∧
    (RunsNext c s → c.op = 0x40 → barrier s = true →
      (liveCount s < 4 → ∃ t, exec .commit s = .next t ∧ Completes c stOK 0xFFFFFFFF s t ∧ t.prv.c = nextEpoch s ∧
        t.prv.o = s.prv.o ∧ sGet 0 (nextEpoch s) t.prv.drain = 0 ∧ t.tab = s.tab ∧ t.lpm = s.lpm ∧
        rb t (H_INT_STAT (pagePRV 0)) 0 = true) ∧
      (liveCount s = 4 → ∃ t, exec .commit s = .next t ∧ Completes c stBUSY 0xFFFFFFFF s t ∧ TablesKept s t)) ∧
    (RunsNext c s → c.op = 0x41 → s.vit.move = none →
      (∀ r, r ∈ s.lpm.routes → (r.settled = false ∧ r.birth = nextEpoch s) ∨ (r.mortal = true ∧ r.death = nextEpoch s) →
        ∃ m, m ∈ s.prv.marks ∧ m.table = 1 ∧ m.chunk = routeChunk r ∧ m.epoch = nextEpoch s) →
      ∃ t, exec .discard s = .next t ∧ Completes c stOK 0xFFFFFFFF s t ∧ t.prv.c = s.prv.c ∧ marksOf t (nextEpoch s) = [] ∧
        (∀ r, r ∈ t.lpm.routes → (r.settled = false → r.birth ≠ nextEpoch s) ∧ (r.mortal = true → r.death ≠ nextEpoch s)))

/-- The walker and the window (R264, R265): a marked chunk of the oldest epoch is settled and freed and its marks in both replicas cleared; O moves on only
when it is not C, has drained and has no mark; DRAIN_SLOW raises its event and names a queue. -/
def Claims.EpochsRetire : Prop :=
  ∀ (s : State),
    (∀ m rest, isOn s (pagePRV 0) = true → s.tab.merges = [] → s.vit.move = none → marksOf s s.prv.o = m :: rest → m.table = 1 →
      ∃ t, exec .walkerWork s = .next t ∧ (∀ x, x ∈ marksOf t s.prv.o → x ∈ rest ∧ ¬(x.table = 1 ∧ x.chunk = m.chunk)) ∧
        (∀ r, r ∈ t.lpm.routes → routeChunk r = m.chunk → (r.mortal = true → r.death ≠ s.prv.o) ∧ (r.settled = false → r.birth ≠ s.prv.o))) ∧
    (isOn s (pagePRV 0) = true → s.prv.o ≠ s.prv.c → sGet 0 s.prv.o s.prv.drain = 0 → marksOf s s.prv.o = [] →
      ∃ t, exec .epochRetire s = .next t ∧ t.prv.o = (s.prv.o + 1) % 256 ∧ t.prv.c = s.prv.c ∧ t.tab = s.tab ∧
        (liveCount s = 4 → rb t (H_INT_STAT (pagePRV 0)) 2 = true)) ∧
    (s.prv.o = s.prv.c ∨ sGet 0 s.prv.o s.prv.drain ≠ 0 ∨ marksOf s s.prv.o ≠ [] → exec .epochRetire s = .next s) ∧
    (s.prv.o ≠ s.prv.c → ∃ t, exec .drainSlow s = .next t ∧ rb t (H_INT_STAT (pagePRV 0)) 3 = true ∧
      RegsBut (PRV_DRAIN_TOP 0 :: eventRegs (pagePRV 0)) s t)

/-- Dispatch, commit and discard of staged changes, and the retirement of the oldest epoch: the two parts above, together. -/
def Obligations.Epochs : Prop :=
  Claims.EpochsAdvance ∧ Claims.EpochsRetire

/-- DOORBELL, ENTRY_FETCH and BUFFER_POST (R505-R510, R522, R526): a doorbell starts a scan or is latched; a fetch of an owned entry makes
it the ring's job and moves the index on, of another ends the scan. A bus error, on a fetch or on the write of an entry to a completion
or event ring, disables the ring, is counted and recorded. -/
def Claims.RingsFetch : Prop :=
  ∀ (r : RingIx) (s : State),
    (reach s (HIF_SQ_DB r) = .open → isOn s pageHIF = true → sqLive s r = true → r.val ∉ s.hif.scan →
      ∃ t, exec (.doorbell r) s = .next t ∧ r.val ∈ t.hif.scan ∧ ctr t (HIF_CNT 1) = (ctr s (HIF_CNT 1) + 1) % 2 ^ 64 ∧ RegsBut [] s t) ∧
    (reach s (HIF_SQ_DB r) = .open → r.val ∈ s.hif.scan →
      ∃ t, exec (.doorbell r) s = .next t ∧ r.val ∈ t.hif.again ∧ t.hif.scan = s.hif.scan ∧ RegsBut [] s t) ∧
    (mayFetch s r = true → ∀ e : List W32,
      let w0 := e.getD 0 0
      let h := rf s (HIF_SQ_HEAD r) 15 0
      let moved := fun (t : State) => rf t (HIF_SQ_HEAD r) 15 0 = (if h + 1 < ringSize (rd s (HIF_SQ_CFG r)) then h + 1 else 0) ∧
        ctr t (HIF_CNT 0) = (ctr s (HIF_CNT 0) + 1) % 2 ^ 64
      (∃ t, exec (.entryFetch r e (some .sq)) s = .next t ∧ r.val ∉ t.hif.scan ∧ RingLost .sq r s t) ∧
      (owned s r w0 = false → r.val ∉ s.hif.again →
        ∃ t, exec (.entryFetch r e none) s = .next t ∧ r.val ∉ t.hif.scan ∧ readyJob t r = none ∧ RegsBut [] s t) ∧
      (owned s r w0 = true → bit w0 30 = true → bit w0 29 = true →
        (sqRole s r = 0 → fld w0 27 24 = 2 → ∃ t, exec (.entryFetch r e none) s = .next t ∧ moved t ∧
          readyJob t r = some (.dma (dmaOf r e false))) ∧
        (sqRole s r = 1 → fld w0 27 24 = 3 → ∃ t, exec (.entryFetch r e none) s = .next t ∧ moved t ∧
          readyJob t r = some (.inject (injectOf r e false))) ∧
        (sqRole s r = 4 → fld w0 27 24 = 1 → openChain s r = none → ∃ t, exec (.entryFetch r e none) s = .next t ∧ moved t ∧
          readyJob t r = some (.table ⟨r, fld w0 23 16, fld w0 15 0, entryPayload e, 1, false, false⟩)))) ∧
    (∀ (k : RingKind) (e : List W32), k ≠ .sq → rb s (ringCfg k r) 31 = true →
      ∃ t, exec (.entryFetch r e (some k)) s = .next t ∧ RingLost k r s t) ∧
    (∀ e : List W32, let w0 := e.getD 0 0
      let b := rf s (HIF_EQ_CFG r) 20 16
      let len := fld (e.getD 3 0) 15 0
      let a := (e.getD 1 0).toNat + (e.getD 2 0).toNat * 2 ^ 32
      puntOk s r = true → hostAwake s = true → (sGet [] r.val s.hif.bufs).length < 4 → owned s b w0 = true →
      bit w0 30 = true → bit w0 29 = true → fld w0 27 24 = 4 → a % 64 = 0 → len % 64 = 0 → 256 ≤ len → len ≤ 16384 →
      ∃ t, exec (.bufferPost r e) s = .next t ∧
        sGet [] r.val t.hif.bufs = sGet [] r.val s.hif.bufs ++ [⟨fld w0 15 0, a, len⟩])

/-- Ring registers and interrupts (R504, R512, R513, R530): a ring is configured while it is off and refuses with code 0x01 while on;
enabling clears its index; a consumer write lets a waiting completion go; a timer sends the ring's message and a vector unmasked its
pending one. -/
def Claims.RingRegisters : Prop :=
  ∀ (r : RingIx) (s : State),
    (∀ (k : RingKind) v, (∀ x, reach s (ringPage k * 0x10000 + 0x100 + x % 0x1000) = .open) →
      (rb s (ringCfg k r) 31 = false →
        (∃ t, exec (.ringCfgWrite k r 0 v) s = .next t ∧ rd t (ringBase k r) = v &&& 0xFFFFFFE0 ∧ RegsBut [ringBase k r] s t) ∧
        (∃ t, exec (.ringCfgWrite k r 1 v) s = .next t ∧ rd t (ringBase k r + 4) = v ∧ RegsBut [ringBase k r + 4] s t) ∧
        (∃ t, exec (.ringCfgWrite k r 2 v) s = .next t ∧ rd t (ringCfg k r) = v &&& ringMask k ∧
          (bit v 31 = true → (k = .sq → rd t (HIF_SQ_HEAD r) = 0x10000) ∧ (k = .cq → rd t (HIF_CQ_PROD r) = 0) ∧
            (k = .eq → rd t (HIF_EQ_PROD r) = 0)))) ∧
      (rb s (ringCfg k r) 31 = true → ∀ w : Fin 3, w ≠ 2 → ∃ t, exec (.ringCfgWrite k r w v) s = .next t ∧
        rf t (H_ERR_CAUSE (ringPage k)) 31 24 = 0x01 ∧
        RegsBut [H_ERR_CAUSE (ringPage k), H_ERR_ADDR_LO (ringPage k), H_ERR_ADDR_HI (ringPage k)] s t)) ∧
    (∀ v, reach s (HIF_CQ_CONS r) = .open → (∃ t, exec (.ringConsumerWrite (.cq r) v) s = .next t ∧ rf t (HIF_CQ_CONS r) 16 0 = fld v 16 0) ∧
      (∀ x, s.hif.waiting = [x] → memOk s = true → cqOf s x.ring = r → rb s (HIF_CQ_CFG r) 31 = true →
        ringFull v (rd s (HIF_CQ_PROD r)) = false → ∃ t, exec (.ringConsumerWrite (.cq r) v) s = .next t ∧ t.hif.waiting = [])) ∧
    (∀ v (k : Fin 8), reach s (HIF_EQ_CONS r) = .open → reach s (ARC_RING_CONS k) = .open →
      (∃ t, exec (.ringConsumerWrite (.eq r) v) s = .next t ∧ rf t (HIF_EQ_CONS r) 16 0 = fld v 16 0 ∧ RegsBut [HIF_EQ_CONS r] s t) ∧
      (∃ t, exec (.ringConsumerWrite (.arc k) v) s = .next t ∧ rd t (ARC_RING_CONS k) = v ∧ RegsBut [ARC_RING_CONS k] s t)) ∧
    (∀ eq, outKey eq r ∈ s.hif.irqTimer → let v := rf s (outIrq eq r) 31 24
      ∃ t, exec (.irqTimer eq r) s = .next t ∧ sGet 0 (outKey eq r) t.hif.irqCnt = 0 ∧ outKey eq r ∉ t.hif.irqTimer ∧
        (rb s (HIF_MSIX_TABLE (4 * v + 3)) 0 = false → memOk s = true → sGet 0 v t.bus.msiSent = sGet 0 v s.bus.msiSent + 1) ∧
        (rb s (HIF_MSIX_TABLE (4 * v + 3)) 0 = true → rb t (HIF_MSIX_PBA (v / 32)) (v % 32) = true)) ∧
    (∀ v : Fin 256, reach s (HIF_MSIX_TABLE (4 * v + 3)) = .open → ∃ t, exec (.msixVectorUnmask v) s = .next t ∧
      rb t (HIF_MSIX_TABLE (4 * v + 3)) 0 = false ∧
      (rb s (HIF_MSIX_PBA (v / 32)) (v % 32) = true → memOk s = true →
        sGet 0 v.val t.bus.msiSent = sGet 0 v.val s.bus.msiSent + 1 ∧ rb t (HIF_MSIX_PBA (v / 32)) (v % 32) = false))

/-- Submission rings, their registers, interrupts and timers: the two parts above, together. -/
def Obligations.RingCommands : Prop :=
  Claims.RingsFetch ∧ Claims.RingRegisters

/-- H2T, T2H, T2T and FILL (R515-R518, R588): once the merges have run, the target words are the source's bytes, the pattern, or what the
source held before; T2H writes the bytes the table holds; each leaves the channel with its result. -/
def Claims.DmaMovesTables : Prop :=
  ∀ (c : Chan) (d : Dma) (s : State),
    let holds := fun (t : State) (j : Nat) (v : W32) => tw (settle t) (d.dst + 4 * j) = v &&& wordMask (d.dst + 4 * j)
    let good := fun (a : Nat) => rdStat s a = .good ∧ prefixWord s a = false
    let done := fun (t : State) (back : Bool) => runOf t c = some ⟨d, 0, d.len, 0, back⟩ ∧ readyJob t d.ring = none
    (JobRuns c 0 d s → ∀ bytes, bytes.length = d.len → ∃ t, exec (.h2t c bytes) s = .next t ∧ done t false ∧
      ∀ j, j < d.len / 4 → holds t j (w32 (leNat (slice bytes (4 * j) 4)))) ∧
    (JobRuns c 3 d s → ∃ t, exec (.fill c) s = .next t ∧ done t false ∧
      ∀ j, j < d.len / 4 → holds t j (w32 (d.src / 2 ^ (32 * (j % 2))))) ∧
    (JobRuns c 2 d s → (∀ j, j < d.len / 4 → good (d.src + 4 * j)) → ∃ t, exec (.t2t c) s = .next t ∧ done t false ∧
      ∀ j, j < d.len / 4 → holds t j (tw s (d.src + 4 * j))) ∧
    (JobRuns c 1 d s → (∀ j, j < d.len / 4 → good (d.src + 4 * j)) → ∃ t, exec (.t2h c) s = .next t ∧ done t true ∧ t.tab = s.tab ∧
      memBytes t d.dst d.len = (wordBytes (tws s d.src (d.len / 4))).map some) ∧
    (JobRuns c 1 d s → rdStat s d.src = .never → ∃ t, exec (.t2h c) s = .next t ∧ runOf t c = some ⟨d, 0x11, 0, d.src, false⟩ ∧
      t.hif.mem = s.hif.mem)

/-- H2H and DMA_COMPLETE (R518-R520): the bytes arrive, whatever the overlap; a finished job completes with its status and bytes, its
channel counts it and is free again; a malformed job completes BAD_OP. -/
def Claims.DmaCompletes : Prop :=
  ∀ (c : Chan) (s : State),
    (∀ d bytes, JobRuns c 4 d s → bytes.length = d.len → ∃ t, exec (.h2h c bytes) s = .next t ∧
      runOf t c = some ⟨d, 0, d.len, 0, true⟩ ∧ memBytes t d.dst d.len = bytes.map some ∧
      ∀ x, x < d.dst ∨ d.dst + d.len ≤ x → sGet none x t.hif.mem = sGet none x s.hif.mem) ∧
    (∀ r, runOf s c = some r → r.status < 256 → r.job.tag < 65536 → CplOpen r.job.ring s → ∃ t, exec (.dmaComplete c false) s = .next t ∧
      runOf t c = none ∧ JobEnds r.job.ring 9 r.job.tag r.status r.bytes s t ∧ rf t (HIF_DMA_STAT c) 23 16 = r.status ∧
      rf t (HIF_DMA_STAT c) 15 0 = (rf s (HIF_DMA_STAT c) 15 0 + 1) % 65536 ∧ ctr t (HIF_CNT 5) = (ctr s (HIF_CNT 5) + 1) % 2 ^ 64) ∧
    (∀ d, runOf s c = none → nextJob s c = some d → d.bad = true ∨ 5 ≤ d.op → d.tag < 65536 → CplOpen d.ring s →
      ∃ t, exec (.dmaComplete c false) s = .next t ∧ JobEnds d.ring 9 d.tag 8 0 s t ∧ readyJob t d.ring = none ∧ t.tab = s.tab)

/-- DMA between host memory and tables, and its completions: the two parts above, together. -/
def Obligations.DmaJobs : Prop :=
  Claims.DmaMovesTables ∧ Claims.DmaCompletes

/-- INJECT_JOB and PUNT_DELIVERY (R524-R529): an injected frame arrives whole on port 512 with its FCS, and with the output a direct
job names, and the job completes; one of a
length out of range completes with status 7 and nothing arrives; a punted frame that fits one buffer is written there with its
header, and its copy ends. -/
def Obligations.HostFrames : Prop :=
  ∀ (r : RingIx) (s : State),
    (∀ j (bytes : List Byte), injectReady s r = some j → j.bad = false → j.tag < 65536 → CplOpen j.ring s →
      (60 ≤ j.len → j.len ≤ 12284 → j.len ≤ bytes.length →
        ∃ t f, exec (.injectJob r bytes) s = .next t ∧ f ∈ t.frames ∧ f.id = s.nextId ∧ f.port = 512 ∧ f.stage = .hold ∧
          f.bytes = bytes.take j.len ++ fcsBytes (bytes.take j.len) ∧ f.whole = true ∧ f.bad = false ∧
          f.direct = (if j.direct then some (j.port, j.queue) else none) ∧ readyJob t r = none ∧
          JobEnds j.ring 0xA j.tag 0 j.len s t ∧ ctr t (HIF_CNT 11) = (ctr s (HIF_CNT 11) + 1) % 2 ^ 64) ∧
      (j.len < 60 ∨ 12284 < j.len → ∃ t, exec (.injectJob r bytes) s = .next t ∧ t.frames = s.frames ∧ readyJob t r = none ∧
        JobEnds j.ring 0xA j.tag 7 0 s t)) ∧
    (∀ c e f b rest, puntNext s r = some c → c.edit = some e → frameOf s c.frame = some f → sGet [] r.val s.hif.bufs = b :: rest →
      hostAwake s = true → puntOk s r = true → c.stage = .edited → outFull s true r = false → cellsWanted s c ≤ c.rdNext →
      sGet 0 c.id s.hif.punt = 0 → let all := puntBytes f c e
      let slot := rd64 s (HIF_EQ_BASE_LO r) / 32 * 32 + 32 * rf s (HIF_EQ_PROD r) 15 0
      all.length ≤ b.len → (b.addr + all.length ≤ slot ∨ slot + 32 ≤ b.addr) →
      ∃ t, exec (.puntDelivery r) s = .next t ∧ memBytes t b.addr all.length = all.map some ∧ copyOf t c.id = none ∧
        sGet [] r.val t.hif.bufs = rest ∧ ctr t (HIF_CNT 9) = (ctr s (HIF_CNT 9) + 1) % 2 ^ 64)

/-- The host asleep and awake, and the PCIe resets (R499, R532-R534, R642): in D3hot, and with Bus Master Enable 0, no memory request may
be issued; back in D0 nothing that was held stays held; a reset returns every HIF register to its Reset value and no other, and
the link trains at a speed and width that the function has (R497). -/
def Obligations.HostSleepsAndResets : Prop :=
  ∀ (s : State),
    (∀ e c, ∃ t, exec (.d3hotEntry e c) s = .next t ∧ rf t HIF_PCIE_STAT 11 10 = 3 ∧ memOk t = false ∧ t.hif.pmeEn = e) ∧
    (∀ e c, ∃ t, exec (.d0Resume e c) s = .next t ∧ rf t HIF_PCIE_STAT 11 10 = 0 ∧ rb t HIF_PCIE_STAT 12 = true ∧
      (rb s HIF_PCIE_STAT 9 = true → memOk t = true ∧ t.hif.held = [] ∧ t.hif.finds = [])) ∧
    (∃ t, exec .busMasterEnableClear s = .next t ∧ memOk t = false ∧ RegsBut [HIF_PCIE_STAT] s t ∧ CtrsBut [] s t) ∧
    (∃ t, exec .pcieRefclkLoss s = .next t ∧ rf t HIF_PCIE_STAT 9 0 = 0 ∧ memOk t = false ∧ RegsBut [HIF_PCIE_STAT] s t) ∧
    (∃ t, exec .functionLevelReset s = .next t ∧ rf t HIF_PCIE_STAT 9 0 = rf s HIF_PCIE_STAT 9 0 ∧
      (∀ a, onHif a = true → a ≠ HIF_PCIE_STAT → rd t a = regReset s.part a) ∧ (∀ a, onHif a = false → rd t a = rd s a) ∧
      t.hif.scan = [] ∧ t.hif.runs = [] ∧ t.hif.waiting = [] ∧ t.hif.mem = s.hif.mem ∧ t.tab = s.tab) ∧
    (∀ (speed : Fin 6) (width : Fin 17), ∃ t, exec (.pciePerstN speed width) s = .next t ∧
      (∀ a, onHif a = true → a ≠ HIF_PCIE_STAT → rd t a = regReset s.part a) ∧ (∀ a, onHif a = false → rd t a = rd s a) ∧
      (linkTrains speed width = true → rb t HIF_PCIE_STAT 9 = true ∧ rf t HIF_PCIE_STAT 8 4 = width ∧
        rf t HIF_PCIE_STAT 3 0 = speed) ∧
      (linkTrains speed width = false → rd t HIF_PCIE_STAT = regReset s.part HIF_PCIE_STAT) ∧
      t.hif.mem = s.hif.mem ∧ t.tab = s.tab)

/-- The table window (R501, R583): a 4-byte read of a mapped good word answers it, of an unreadable word answers ones; a write within 64
bytes stores its words once the merges have run; every other access is refused with twin_err and counted. -/
def Obligations.TableWindow : Prop :=
  ∀ (ap : Fin 4) (off : BitVec 26) (s : State), heldPage s pageHIF = false → s.tab.merges = [] →
    let a := twinAddr s ap off.toNat
    (off.toNat % 4 = 0 → twinMapped s a 4 = true → a / 0x4000000 ≠ 0xB ∨ a % 16 = 0 →
      (rdStat s a = .good → prefixWord s a = false → ∃ t, exec (.apertureRead ap off 4) s = .next t ∧
        t.bus.readData = BitVec.ofNat 64 (tw s a).toNat ∧ RegsBut [] s t ∧ t.tab = s.tab) ∧
      (readable s a = false → ∃ t, exec (.apertureRead ap off 4) s = .next t ∧ t.bus.readData = 0xFFFFFFFF ∧ t.tab = s.tab)) ∧
    (∀ len : BitVec 13, (len.toNat ≠ 4 ∧ len.toNat ≠ 8) ∨ off.toNat % len.toNat ≠ 0 ∨ twinMapped s a len.toNat = false →
      ∃ t, exec (.apertureRead ap off len) s = .next t ∧ rb t (H_INT_STAT pageHIF) 2 = true ∧
        ctr t (HIF_CNT 14) = (ctr s (HIF_CNT 14) + 1) % 2 ^ 64 ∧ t.tab = s.tab ∧ RegsBut (eventRegs pageHIF) s t) ∧
    (∀ bytes : List Byte, let n := bytes.length
      (n = 0 ∨ n % 4 ≠ 0 ∨ off.toNat % 4 ≠ 0 ∨ 64 < off.toNat % 64 + n ∨ twinMapped s a n = false →
        ∃ t, exec (.apertureWrite ap off bytes) s = .next t ∧ rb t (H_INT_STAT pageHIF) 2 = true ∧ t.tab = s.tab) ∧
      (0 < n → n % 4 = 0 → off.toNat % 4 = 0 → off.toNat % 64 + n ≤ 64 → twinMapped s a n = true →
        ∃ t, exec (.apertureWrite ap off bytes) s = .next t ∧
          (∀ j, j < n / 4 → tw (settle t) (a + 4 * j) = w32 (leNat (slice bytes (4 * j) 4)) &&& wordMask (a + 4 * j)) ∧
          (∀ x, x < a ∨ a + n ≤ x → tw (settle t) x = tw s x)))

/-- Segments received in UP (R540-R546, R552): an in-order DATA segment with credit is counted and joins its channel's frame; a whole frame
of channel with a good header arrives on port 513, with the output that a direct frame names; CREDIT adds to the channel's send credits; a bad CRC resets the link to TRAIN. In
INIT a LINK segment that says the other end has seen one brings the link UP. -/
def Claims.AnnexReceives : Prop :=
  ∀ (hdr : BitVec 64) (bs : List Byte) (s : State), let h := hdr.toNat
    let c := bitsOf h 59 56
    let len := bitsOf h 53 45
    (anxLink s = 3 → bitsOf h 63 60 = 1 → 1 ≤ len → len ≤ 256 → bs.length = len → bitsOf h 31 16 = sGet 0 c s.anx.rxSeq →
      sGet 0 c s.anx.rxLeft ≠ 0 →
      (h.testBit 55 = true → h.testBit 54 = false → sGet none c s.anx.rxPart = none →
        ∃ t, exec (.dataSegmentRx hdr bs true) s = .next t ∧ sGet none c t.anx.rxPart = some (bs, 1) ∧
          sGet 0 c t.anx.rxLeft = sGet 0 c s.anx.rxLeft - 1 ∧ sGet 0 c t.anx.rxSeq = (sGet 0 c s.anx.rxSeq + 1) % 65536 ∧
          ctr t (ANX_CNT 1) = (ctr s (ANX_CNT 1) + 1) % 2 ^ 64 ∧ RegsBut [] s t ∧ t.frames = s.frames) ∧
      (h.testBit 55 = true → h.testBit 54 = true → sGet none c s.anx.rxPart = none → galFenced s (galOf s 513) = false →
        blkState s pageANX ≠ 3 → let data := bs.drop 16
        let w1 := (bytesWords (slice bs 0 16)).getD 1 0
        let w0 := (bytesWords (slice bs 0 16)).getD 0 0
        76 ≤ bs.length → fld w1 13 0 = data.length →
        ∃ t f, exec (.dataSegmentRx hdr bs true) s = .next t ∧ f ∈ t.frames ∧ f.id = s.nextId ∧ f.port = 513 ∧
          f.bytes = data ++ fcsBytes data ∧ f.stage = .hold ∧
          f.direct = (if bit w0 31 then some (fld w0 9 0, fld w0 19 16) else none) ∧ ctr t (ANX_CNT 6) = (ctr s (ANX_CNT 6) + 1) % 2 ^ 64)) ∧
    (2 ≤ anxLink s → (∃ t, exec (.dataSegmentRx hdr bs false) s = .next t ∧ anxLink t = 1 ∧ rb t (H_INT_STAT pageANX) 2 = true ∧
      (∀ k, k < 16 → rf t (ANX_CHAN_STAT k) 31 16 = 0) ∧ t.anx.rxPart = [] ∧ t.anx.tx = [])) ∧
    (2 ≤ anxLink s → bitsOf h 63 60 = 2 → len = 0 → bs = [] → ∃ t, exec (.creditSegmentRx hdr bs true) s = .next t ∧
      rf t (ANX_CHAN_STAT c) 31 16 = min 65535 (rf s (ANX_CHAN_STAT c) 31 16 + bitsOf h 15 0) ∧ RegsBut [ANX_CHAN_STAT c] s t) ∧
    (anxLink s = 2 → bitsOf h 63 60 = 3 → len = 2 → bs.length = 2 → (byteAt bs 1).toNat.testBit 0 = true →
      ∃ t, exec (.linkSegmentRx hdr bs true) s = .next t ∧ anxLink t = 3 ∧ rb t (H_INT_STAT pageANX) 0 = true ∧ t.anx.portDown = false) ∧
    (anxLink s < 2 → exec (.dataSegmentRx hdr bs true) s = .next s ∧ exec (.creditSegmentRx hdr bs true) s = .next s ∧
      exec (.linkSegmentRx hdr bs true) s = .next s)

/-- Sending (R540-R545, R548, R551): one DATA segment of at most 256 bytes takes one credit and a sequence number; gathered credits go
back in one CREDIT segment; a LINK segment is sent in INIT alone. -/
def Claims.AnnexSends : Prop :=
  ∀ (c : Chan) (s : State),
    (∀ x, anxLink s = 3 → s.anx.rxHeld = [] → s.anx.grant = [] → s.anx.gath = [] → sGet none c.val s.anx.tx = some x → x.copy = none →
      (∀ k, k < 16 → k ≠ c.val → rf s (ANX_CHAN_STAT k) 31 16 = 0) → rf s (ANX_CHAN_STAT c) 31 16 ≠ 0 →
      ∃ t, exec .segmentTx s = .next t ∧
        t.anx.sent = some (segHeader 1 c x.first (decide (x.rest.length ≤ 256)) (min 256 x.rest.length) x.src (sGet 0 c.val s.anx.txSeq) 0,
          x.rest.take 256) ∧
        rf t (ANX_CHAN_STAT c) 31 16 = rf s (ANX_CHAN_STAT c) 31 16 - 1 ∧
        sGet 0 c.val t.anx.txSeq = (sGet 0 c.val s.anx.txSeq + 1) % 65536 ∧
        sGet none c.val t.anx.tx = (if x.rest.length ≤ 256 then none else some { x with rest := x.rest.drop 256, first := false }) ∧
        ctr t (ANX_CNT 0) = (ctr s (ANX_CNT 0) + 1) % 2 ^ 64) ∧
    (anxLink s = 3 → s.anx.rxHeld = [] → let n := sGet 0 c.val s.anx.gath
      n ≠ 0 → n < 65536 → ∃ t, exec (.creditReturn c true) s = .next t ∧ t.anx.sent = some (segHeader 2 c false false 0 0 0 n, []) ∧
        sGet 0 c.val t.anx.gath = 0 ∧ sGet 0 c.val t.anx.rxLeft = sGet 0 c.val s.anx.rxLeft + n ∧ RegsBut [] s t) ∧
    (anxLink s = 2 → ∃ t, exec .linkSegmentTx s = .next t ∧
      t.anx.sent = some (segHeader 3 0 false false 2 0 0 0, [1, byte (b2n s.anx.linkSeen)]) ∧ RegsBut [] s t) ∧
    (anxLink s ≠ 2 → exec .linkSegmentTx s = .next s)

/-- The link's states (R550-R553): link_en takes it out of OFF and back, training ends in INIT, a lock lost in INIT or UP resets it, port
513 goes down when the link has been away too long, and channels are configured in OFF alone. -/
def Claims.AnnexLinkStates : Prop :=
  ∀ (s : State),
    (∀ v, reach s ANX_CFG = .open →
      (bit v 31 = true → isOn s pageANX = true → anxLink s = 0 →
        (List.range 16).foldl (fun a k => a + rf s (ANX_CHAN_CFG k) 11 0) 0 ≤ 4096 →
        ∃ t, exec (.anxLinkEnWrite v) s = .next t ∧ anxLink t = 1 ∧ rd t ANX_CFG = v &&& 0x83FFFFFF) ∧
      (bit v 31 = false → ∃ t, exec (.anxLinkEnWrite v) s = .next t ∧ anxLink t = 0 ∧ rd t ANX_CFG = v &&& 0x83FFFFFF)) ∧
    (anxLink s = 1 → ∃ t, exec .annexTrainDone s = .next t ∧ anxLink t = 2 ∧ rf t ANX_LINK_STAT 15 8 = 0xFF ∧
      RegsBut [ANX_LINK_STAT] s t) ∧
    (∀ l : Byte, 2 ≤ anxLink s → ∃ t, exec (.annexLockLoss l) s = .next t ∧ anxLink t = 1 ∧ rf t ANX_LINK_STAT 15 8 = l.toNat ∧
      rb t (H_INT_STAT pageANX) 1 = true) ∧
    (anxLink s ≠ 3 → s.anx.portDown = false → quietPort s 513 → ∃ t, exec .port513DownTimer s = .next t ∧ t.anx.portDown = true ∧
      portUp t 513 = false) ∧
    (∀ (k : Fin 18) v, reach s (anxCfgReg k) = .open →
      (rb s ANX_CFG 31 = false → anxLink s = 0 → ∃ t, exec (.anxChanCfgWrite k v) s = .next t ∧
        rd t (anxCfgReg k) = (if k.val < 16 then v &&& 0xC0000FFF else v) ∧ RegsBut [anxCfgReg k] s t) ∧
      (rb s ANX_CFG 31 = true ∨ anxLink s ≠ 0 → ∃ t, exec (.anxChanCfgWrite k v) s = .next t ∧
        rf t (H_ERR_CAUSE pageANX) 31 24 = 0x01 ∧ RegsBut [H_ERR_CAUSE pageANX, H_ERR_ADDR_LO pageANX, H_ERR_ADDR_HI pageANX] s t))

/-- Annex segments received and sent, and the states of its link: the three parts above, together. -/
def Obligations.AnnexWork : Prop :=
  Claims.AnnexReceives ∧ Claims.AnnexSends ∧ Claims.AnnexLinkStates

/-- The Ledger (R563-R565, R572-R574): a wrap sets its overflow bit and counts in a chained counter; a clear zeroes the counters of its
mask and no other; a user page answers its counters where it is enabled, zero and a count of denials where it is not; a write to one
is ignored and flagged. -/
def Obligations.LedgerCounts : Prop :=
  ∀ (l : Fin 16) (s : State),
    (∀ n : Fin 64, sGet 0 (64 * l.val + n.val) s.bus.wraps = 0 → exec (.ledgerWrap l n) s = .next s) ∧
    (∀ n : Fin 64, let k := sGet 0 (64 * l.val + n.val) s.bus.wraps
      k ≠ 0 → ∃ t, exec (.ledgerWrap l n) s = .next t ∧ rb t (LDG_OVF l (n / 32)) (n % 32) = true ∧
        (isFirst s (pageLDG l) 0 = true ∨ rb s (H_INT_STAT (pageLDG l)) 0 = true → rb t (H_INT_STAT (pageLDG l)) 0 = true) ∧
        (s.bus.ldgQ = [] → sGet 0 (64 * l.val + n.val) t.bus.wraps = 0) ∧
        (s.bus.ldgQ = [] → n.val < 63 → rb s (LDG_CTR_CFG l n) 28 = true → rb s (LDG_CTR_CFG l (n + 1)) 31 = true →
          isOn s (pageLDG l) = true →
          ctr t (LDG_CTR l (n + 1)) = (ctr s (LDG_CTR l (n + 1)) + k) % 2 ^ 48)) ∧
    (∀ (hi : Bool) (v : W32), reach s (LDG_CTR_CLR l (b2n hi)) = .open → ∃ t, exec (.counterClear l hi v) s = .next t ∧ RegsBut [] s t ∧
      ∀ j, j < 32 → (bit v j = true → ctr t (LDG_CTR l (32 * b2n hi + j)) = 0) ∧
        (bit v j = false → ctr t (LDG_CTR l (32 * b2n hi + j)) = ctr s (LDG_CTR l (32 * b2n hi + j)))) ∧
    (∀ off : BitVec 16, off.toNat / 4096 = l.val → heldPage s (pageLDG l) = false → blkState s (pageLDG l) ≠ 4 →
      let k := off.toNat % 4096 / 4
      (rb s (LDG_USER_CFG 0) l = false → ∀ wide, ∃ t, exec (.userPageRead off wide) s = .next t ∧ t.bus.readData = 0 ∧
        rf t (LDG_USER_STAT 0) 15 0 = min (rf s (LDG_USER_STAT 0) 15 0 + 1) 65535) ∧
      (rb s (LDG_USER_CFG 0) l = true → k < 128 →
        (off.toNat % 8 = 0 → ∃ t, exec (.userPageRead off true) s = .next t ∧
          t.bus.readData = BitVec.ofNat 64 (ctr s (LDG_CTR l (k / 2))) ∧ RegsBut [] s t ∧ CtrsBut [] s t) ∧
        (off.toNat % 8 = 0 → ∃ t, exec (.userPageRead off false) s = .next t ∧
          t.bus.readData = BitVec.ofNat 64 (ctr s (LDG_CTR l (k / 2)) % 2 ^ 32) ∧
          sGet 0 l.val t.ldg.userLatch = w32 (ctr s (LDG_CTR l (k / 2)) / 2 ^ 32)) ∧
        (off.toNat % 8 = 4 → ∃ t, exec (.userPageRead off false) s = .next t ∧
          t.bus.readData = BitVec.ofNat 64 (sGet 0 l.val s.ldg.userLatch).toNat))) ∧
    (∀ off, heldPage s (pageLDG 0) = false → ∃ t, exec (.userPageWrite off) s = .next t ∧ rb t (H_INT_STAT (pageLDG 0)) 2 = true ∧
      rf t (LDG_USER_STAT 0) 31 16 = min (rf s (LDG_USER_STAT 0) 31 16 + 1) 65535 ∧ CtrsBut [HIF_CNT 8] s t) ∧
    (reach s (LDG_USER_STAT 0) = .open → ∃ t, exec .ldgUserStatRead s = .next t ∧ rd t (LDG_USER_STAT 0) = 0 ∧
      t.bus.readData = BitVec.ofNat 64 (rd s (LDG_USER_STAT 0)).toNat ∧ RegsBut [LDG_USER_STAT 0] s t)

/-- Merges, leaks and scrubbing (R580, R585-R592): a merge writes its words over the old ones, makes a never-written word GOOD and an
uncorrectable one POISONED; a leak lowers the bucket by one; a scrub queues a correctable word, poisons one beyond correction and
reports one of the traffic manager's state; the
write-back clears the errors; an injection inverts the symbols asked. -/
def Claims.WordsConserved : Prop :=
  ∀ (s : State),
    (∀ m rest, s.tab.merges = m :: rest → m.addr % 4 = 0 → m.addr % eccSize m.addr + 4 * m.words.length ≤ eccSize m.addr →
      ∃ t, exec .narrowWriteMerge s = .next t ∧ t.tab.merges = rest ∧
        (∀ j, j < m.words.length → tw t (m.addr + 4 * j) = m.words.getD j 0 &&& wordMask (m.addr + 4 * j)) ∧
        (rdStat s m.addr = .never → rdStat t m.addr = .good ∧ ctr t (CSV_CNT 4) = (ctr s (CSV_CNT 4) + 1) % 2 ^ 64 ∧
          (isFirst s pageCSV 6 = true ∨ rb s (H_INT_STAT pageCSV) 6 = true → rb t (H_INT_STAT pageCSV) 6 = true)) ∧
        (rdStat s m.addr = .ue → rdStat t m.addr = .ue ∧ ctr t (CSV_CNT 5) = (ctr s (CSV_CNT 5) + 1) % 2 ^ 64) ∧
        (rdStat s m.addr = .good ∨ rdStat s m.addr = .corrected → rdStat t m.addr = .good ∧
          RegsBut (eventRegs (pageCAT 0) ++ eventRegs (pageCAT 1)) s t ∧
          (2 ≤ m.addr / 0x4000000 ∨ m.addr % 0x4000000 < 0x2000000 → RegsBut [] s t))) ∧
    (∀ p : Page, ∃ t, exec (.ceLeak p) s = .next t ∧ rf t (H_CE_BUCKET p) 31 20 = rf s (H_CE_BUCKET p) 31 20 - 1 ∧
      RegsBut [H_CE_BUCKET p] s t ∧ CtrsBut [] s t) ∧
    (∀ a e, isOn s pageCSV = true → rb s CSV_CFG 0 = true → s.tab.ecc = [(a, e)] → eccBase a = a → e.st = .good →
      (rdStat s a = .corrected → a ∉ s.csv.backQ → ∃ t, exec (.scrubPass false [] []) s = .next t ∧ a ∈ t.csv.backQ ∧ t.tab = s.tab) ∧
      (rdStat s a = .ue → ∃ t, exec (.scrubPass false [] []) s = .next t ∧ (eccOf t a).st = .poisoned ∧
        (isFirst s pageCSV 1 = true ∨ rb s (H_INT_STAT pageCSV) 1 = true → rb t (H_INT_STAT pageCSV) 1 = true) ∧
        ctr t (CSV_CNT 1) = (ctr s (CSV_CNT 1) + 1) % 2 ^ 64)) ∧
    (isOn s pageCSV = true → rb s CSV_CFG 0 = true → s.tab.ecc = [] → ∃ t, exec (.scrubPass false [] [.own 0x250]) s = .next t ∧
      rb t (H_INT_STAT pageTMG) 0 = true ∧ ctr t (CSV_CNT 1) = (ctr s (CSV_CNT 1) + 1) % 2 ^ 64 ∧ t.tab = s.tab) ∧
    (∀ a rest, s.csv.backQ = a :: rest → isOn s pageCSV = true → a < 2 ^ 32 → eccBase a = a →
      (rdStat s a = .corrected → ∃ t, exec .scrubWriteBack s = .next t ∧ t.csv.backQ = rest ∧ rdStat t a = .good ∧
        t.tab.words = s.tab.words ∧ ctr t (CSV_CNT 0) = (ctr s (CSV_CNT 0) + 1) % 2 ^ 64) ∧
      (rdStat s a = .good → ∃ t, exec .scrubWriteBack s = .next t ∧ t.csv.backQ = rest ∧ t.tab = s.tab ∧
        ctr t (CSV_CNT 6) = (ctr s (CSV_CNT 6) + 1) % 2 ^ 64)) ∧
    (∀ v, reach s CSV_INJ_CMD = .open → bit v 31 = true → let a := (rd s CSV_INJ_ADDR).toNat
      let n := if eccSize a = 64 then fld v 3 0 else min 4 (fld v 3 0)
      mapped s.part a = true → 1 ≤ fld v 3 0 → rdStat s a = .good →
      ∃ t, exec (.eccInject v) s = .next t ∧ (eccOf t a).errs = 2 ^ n - 1 ∧ (eccOf t a).inj = true ∧
        ctr t (CSV_CNT 15) = (ctr s (CSV_CNT 15) + 1) % 2 ^ 64 ∧ rdStat t a = if n ≤ eccLimit a then .corrected else .ue)

/-- The comparisons (R593-R602): a match row that differs from its readable image is counted for its bank, and a
row cleared to match nothing matches again once its image is readable; a shadow chunk equal to both
replicas counts itself alone; a confirmed difference is repaired from the shadow when one replica equals it and repair_en is 1. -/
def Claims.ComparisonsRepair : Prop :=
  ∀ (s : State), isOn s pageCSV = true → s.tab.merges = [] →
    (∀ (w : Wing) (b : Fin 16) (r : Fin 4096), s.tab.ecc.all (fun e => rdStat s e.1 == .good) = true →
      readable s (vitAddr w b r) = true → readable s (vitAddr w b r + 16) = true →
      (65536 * w.val + 4096 * b.val + r.val ∈ s.vit.cleared → bit (tw s (vitAddr w b r + 20)) 31 = true →
        ∃ t, exec (.imageComparePass w [] []) s = .next t ∧ 65536 * w.val + 4096 * b.val + r.val ∉ t.vit.cleared) ∧
      (s.vit.cleared = [] → ∃ t, exec (.imageComparePass w [(b, r)] []) s = .next t ∧ sGet 0 (16 * w.val + b.val) t.vit.differ = 1 ∧
        ctr t (VIT_CNT w 6) = (ctr s (VIT_CNT w 6) + 1) % 2 ^ 64 ∧ rb t (H_INT_STAT (pageVIT w)) 1 = true ∧ t.tab = s.tab)) ∧
    (∀ (k : Fin 4) bytes, rb s CSV_CFG 1 = true →
      (memOk s = false → ∃ t, exec (.shadowChunkCompare k bytes false) s = .next t ∧ t.csv.rechecks = s.csv.rechecks ∧
        (rf s (CSV_SHADOW_STAT k) 15 0 + 1 < shadowChunks k →
          rf t (CSV_SHADOW_STAT k) 15 0 = rf s (CSV_SHADOW_STAT k) 15 0 + 1 ∧ RegsBut [CSV_SHADOW_STAT k] s t)) ∧
      (memOk s = true → rf s (CSV_SHADOW_STAT k) 15 0 + 1 < shadowChunks k → ∃ t, exec (.shadowChunkCompare k bytes true) s = .next t ∧
        (isFirst s pageCSV 4 = true ∨ rb s (H_INT_STAT pageCSV) 4 = true → rb t (H_INT_STAT pageCSV) 4 = true) ∧ ctr t (CSV_CNT 12) = (ctr s (CSV_CNT 12) + 1) % 2 ^ 64 ∧ t.csv.rechecks = s.csv.rechecks)) ∧
    (∀ r rest bytes, s.csv.rechecks = r :: rest → memOk s = true →
      let sh := bytesWords (slice bytes 0 (recBytes r.table))
      let d := recDiff s r.table r.index sh
      (d = 0 → ∃ t, exec (.shadowRecheck bytes) s = .next t ∧ t.csv.rechecks = rest ∧ t.tab = s.tab ∧ RegsBut [] s t) ∧
      (d = 3 → ∃ t, exec (.shadowRecheck bytes) s = .next t ∧ t.csv.rechecks = rest ∧ t.tab = s.tab ∧
        (isFirst s pageCSV 2 = true ∨ rb s (H_INT_STAT pageCSV) 2 = true → rb t (H_INT_STAT pageCSV) 2 = true) ∧
        ctr t (CSV_CNT 11) = (ctr s (CSV_CNT 11) + 1) % 2 ^ 64) ∧
      (∀ w : Wing, d = w.val + 1 → rb s CSV_CFG 2 = true → 1 ≤ r.table → r.table < 4 → r.index < 262144 →
        ∃ t, exec (.shadowRecheck bytes) s = .next t ∧ t.csv.rechecks = rest ∧
          tws t (recAddr w r.table r.index) (recBytes r.table / 4) = sh ∧
          (isFirst s pageCSV 3 = true ∨ rb s (H_INT_STAT pageCSV) 3 = true → rb t (H_INT_STAT pageCSV) 3 = true) ∧
          ctr t (CSV_CNT 10) = (ctr s (CSV_CNT 10) + 1) % 2 ^ 64))

/-- Merges, scrubbing, write-backs, injected errors and comparisons: the two parts above, together. -/
def Obligations.WordsConserved : Prop :=
  Claims.WordsConserved ∧ Claims.ComparisonsRepair

/-- Vault mode, spill and return (R453-R459): a queue whose conditions hold enters vault mode with its copies split; one with an empty
Middle leaves it; the writer gives the oldest Tail copy of its queue a buffer that has room, which its pool counts, or leaves it in
the Hall; the reader asks for a copy's record, and brings a copy that has been read, or that stayed in the Hall, back to the Head. -/
def Obligations.VaultSpills : Prop :=
  ∀ (q : QueueIx) (s : State),
    (inVault s q = false → spillReady s q = true → isOn s pageVLT = true → rb s VLT_CFG 0 = true → anyStack s = true →
      s.vlt.selfRef = false → ([0, 1, 2].all fun k => decide (rf s (VLT_POOL_STAT k) 31 30 < 2)) = true → underQuota s q = true →
      portUp s (q / 16) = true → portFenced s (q / 16) = false →
      ∃ t, exec (.vaultModeEntry q) s = .next t ∧ inVault t q = true ∧ ctr t (VLT_CNT 7) = (ctr s (VLT_CNT 7) + 1) % 2 ^ 64 ∧
        RegsBut [VLT_MODE_STAT, VLT_Q_STAT q] s t ∧ t.copies.map (·.id) = s.copies.map (·.id)) ∧
    (inVault s q = true → (queued s q).all (fun c => c.seg != .middle) = true → writesInFlight s q = false →
      ∃ t, exec (.vaultModeExit q) s = .next t ∧ inVault t q = false ∧ ctr t (VLT_CNT 8) = (ctr s (VLT_CNT 8) + 1) % 2 ^ 64 ∧
        rf t VLT_MODE_STAT 13 0 = rf s VLT_MODE_STAT 13 0 - 1 ∧ RegsBut [VLT_MODE_STAT, VLT_Q_STAT q] s t) ∧
    (∀ c f, isOn s pageVLT = true → anyStack s = true → mayWrite s = true → nextQueue s.vlt.lastWr (spillable s) = some q.val →
      tailCopy s q = some c → copyOf s c.id = some c → frameOf s c.frame = some f →
      (keptInHall s c = true → ∃ t, exec .spillWrite s = .next t ∧ copyOf t c.id = some { c with seg := .middle } ∧
        ctr t (VLT_CNT 4) = (ctr s (VLT_CNT 4) + 1) % 2 ^ 64 ∧ RegsBut [] s t) ∧
      (keptInHall s c = false → vaultRoom s f.bytes.length = none → ∃ t, exec .spillWrite s = .next t ∧ t.copies = s.copies ∧
        ctr t (VLT_CNT 15) = (ctr s (VLT_CNT 15) + 1) % 2 ^ 64 ∧ RegsBut [] s t) ∧
      (∀ b, keptInHall s c = false → vaultRoom s f.bytes.length = some b →
        b.1 < 3 ∧ b.2 < 128 ∧ f.bytes.length ≤ poolSize b.1 ∧ bufsUsed s b.1 b.2 < rf s (VLT_POOL_CFG b.1) 17 0 ∧ pcState s b.2 = 0 ∧
        ∃ t x, exec .spillWrite s = .next t ∧ copyOf t c.id = some x ∧ x.seg = .middle ∧ x.vault = some b ∧ x.buf = lowBuf s b.1 b.2 ∧
          bufsUsed t b.1 b.2 = bufsUsed s b.1 b.2 + 1 ∧ t.vlt.lastWr = q.val)) ∧
    (∀ c f rec ce ue, blkState s pageVLT = 2 ∨ blkState s pageVLT = 3 →
      nextQueue s.vlt.lastRd (canTurn s) = some q.val → middleCopy s q = some c → copyOf s c.id = some c →
      frameOf s c.frame = some f →
      (c.vault = none → ∃ t, exec (.returnRead rec ce ue) s = .next t ∧ copyOf t c.id = some { c with seg := .head } ∧
        t.vlt.lastRd = q.val ∧ RegsBut [] s t) ∧
      (∀ b, c.vault = some b → (s.vlt.reads.any fun e => e.1 == c.id) = false →
        ∃ t, exec (.returnRead rec ce ue) s = .next t ∧ (t.vlt.reads.any fun e => e.1 == c.id && e.2.2 == 1) = true ∧
          t.copies = s.copies ∧ RegsBut [] s t) ∧
      (∀ b n w, c.vault = some b → (s.vlt.reads.find? fun e => e.1 == c.id) = some (c.id, n, w) → w ≠ 1 →
        cellsFor f.bytes.length ≤ allocatable s → ∃ t x, exec (.returnRead rec ce 0) s = .next t ∧ copyOf t c.id = some x ∧
          x.seg = .head ∧ x.vault = none ∧ ctr t (VLT_CNT 1) = (ctr s (VLT_CNT 1) + 1) % 2 ^ 64))

/-- Refresh and row protection (R468, R472-R474, R477): a refresh that finds its bank busy is postponed up to four times, else every
refresh owed is sent; the waiting targeted refreshes with them; an activation opens its row, is counted by row, asks for
a targeted refresh of the rows around at the 2,048th, and is blocked while eight wait; a new window clears the
counts; self-refresh is entered with an empty Vault and left for a queue that spills. -/
def Claims.VaultRefreshes : Prop :=
  ∀ (c : Fin 128) (b : Fin 32) (s : State), let k := bankNo c b
    (vltRuns s = true →
      (sGet 0 k s.vlt.owed < 4 → ∃ t, exec (.refreshPerBank c b true) s = .next t ∧ sGet 0 k t.vlt.owed = sGet 0 k s.vlt.owed + 1) ∧
      (∃ t, exec (.refreshPerBank c b false) s = .next t ∧ sGet 0 k t.vlt.owed = 0 ∧ sGet [] k t.vlt.trq = [] ∧
        sGet 0 k t.vlt.refRow = (sGet 0 k s.vlt.refRow + 2 * (sGet 0 k s.vlt.owed + 1)) % 16384 ∧
        ∀ j, j ≠ k → sGet 0 j t.vlt.owed = sGet 0 j s.vlt.owed ∧ sGet 0 j t.vlt.refRow = sGet 0 j s.vlt.refRow) ∧
      (∀ r : Fin 16384, 8 ≤ (sGet [] k s.vlt.trq).length → ∃ t, exec (.activate c b r) s = .next t ∧ t.vlt = s.vlt ∧
        ctr t (VLT_CNT 13) = (ctr s (VLT_CNT 13) + 1) % 2 ^ 64) ∧
      (∀ r : Fin 16384, (sGet [] k s.vlt.trq).length < 8 → sGet 0 k s.vlt.owed < 4 → (∀ e, e ∈ sGet [] k s.vlt.acts → e.1 ≠ r.val) →
        (sGet [] k s.vlt.acts).length < 32 →
        ∃ t, exec (.activate c b r) s = .next t ∧ sGet [] k t.vlt.acts = sGet [] k s.vlt.acts ++ [(r.val, 1)] ∧
          sGet 0 k t.vlt.openRow = r.val + 1) ∧
      (∀ r : Fin 16384, (sGet [] k s.vlt.trq).length < 8 → sGet 0 k s.vlt.owed < 4 →
        ((sGet [] k s.vlt.acts).find? fun e => e.1 == r.val) = some (r.val, 2047) →
        ∃ t, exec (.activate c b r) s = .next t ∧ sGet [] k t.vlt.trq = sGet [] k s.vlt.trq ++ [rowsAround r.val] ∧
          ctr t (VLT_CNT 10) = (ctr s (VLT_CNT 10) + 1) % 2 ^ 64) ∧
      (∃ t, exec (.rfmRequest c b) s = .next t ∧ ctr t (VLT_CNT 12) = (ctr s (VLT_CNT 12) + 1) % 2 ^ 64 ∧ t.vlt = s.vlt)) ∧
    (∃ t, exec (.actTableClear c b) s = .next t ∧ sGet [] k t.vlt.acts = [] ∧ RegsBut [] s t ∧ CtrsBut [] s t) ∧
    (rb s (H_CTRL pageVLT) 2 = true → vaultEmpty s = true → s.vlt.wq = [] → rf s VLT_MODE_STAT 13 0 = 0 →
      ∃ t, exec .selfRefreshEntry s = .next t ∧ t.vlt.selfRef = true ∧ RegsBut [] s t) ∧
    (∀ q, q < 8448 → spillReady s q = true → s.vlt.selfRef = true → blkState s pageVLT ≠ 0 →
      ∃ t, exec .selfRefreshExit s = .next t ∧ t.vlt.selfRef = false ∧ RegsBut [] s t)

/-- Temperature, failing pseudo-channels and pool sizes (R450, R469-R471, R475, R476): a reading sets its field and the hot and stopped
flags, three failed reads stop the stack; a failed pseudo-channel drains under auto and is fenced once empty, which lowers every
pool's capacity; pools are sized while the block is OFF. -/
def Claims.VaultProtects : Prop :=
  ∀ (s : State),
    (∀ (k : Fin 4) (v : BitVec 8), let hot := min 85 (rf s VLT_THERM_CFG 23 16)
      let stop := min 105 (rf s VLT_THERM_CFG 15 8)
      ∃ t, exec (.stackTempRead k (some v)) s = .next t ∧ rf t VLT_THERM_STAT (8 * k + 7) (8 * k) = v.toNat ∧
        rb t VLT_THERM_FLAGS k = decide (hot < v.toNat) ∧ rb t VLT_THERM_FLAGS (8 + k) = false ∧
        (stop < v.toNat → stackTakes t k = false) ∧ (v.toNat ≤ min stop (rf s VLT_THERM_CFG 7 0) → stackTakes t k = true)) ∧
    (∀ (k : Fin 4), 2 ≤ sGet 0 k.val s.vlt.tempFails → ∃ t, exec (.stackTempRead k none) s = .next t ∧ stackTakes t k = false ∧
      rb t VLT_THERM_FLAGS k = true ∧ rb t (H_INT_STAT pageVLT) 6 = true ∧ ctr t (VLT_CNT 14) = (ctr s (VLT_CNT 14) + 1) % 2 ^ 64) ∧
    (∀ (c : Fin 128), pcState s c = 0 → max 1 (rf s VLT_PC_CFG 7 0) ≤ rf s (VLT_PC_STAT c) 23 16 →
      ∃ t, exec (.pseudoChannelFail c false) s = .next t ∧ pcState t c = (if rb s VLT_PC_CFG 8 then 1 else 0) ∧
        rb t (H_INT_STAT pageVLT) 1 = true) ∧
    (∀ v, reach s VLT_PC_CMD = .open → bit v 31 = true → pcState s (fld v 6 0) = 0 → rb s VLT_PC_CFG 8 = true →
      ∃ t, exec (.pcFailCmd v) s = .next t ∧ pcState t (fld v 6 0) = 1 ∧ rb t (H_INT_STAT pageVLT) 1 = true) ∧
    (∀ (c : Fin 128), pcState s c = 1 → ([0, 1, 2].all fun k => bufsUsed s k c == 0) = true →
      ∃ t, exec (.pcFence c) s = .next t ∧ pcState t c = 2 ∧ rb t (H_INT_STAT pageVLT) 2 = true ∧
        ∀ k, k < 3 → rf t (VLT_POOL_CAP k) 23 0 = pcsLeft t * rf s (VLT_POOL_CFG k) 17 0 % 2 ^ 24) ∧
    (∀ (k : Fin 3) v, reach s (VLT_POOL_CFG k) = .open →
      (blkState s pageVLT = 0 → ∃ t, exec (.vltPoolCfgWrite k v) s = .next t ∧ rf t (VLT_POOL_CFG k) 17 0 = fld v 17 0 ∧
        rf t (VLT_POOL_CAP k) 23 0 = pcsLeft s * fld v 17 0 % 2 ^ 24) ∧
      (blkState s pageVLT ≠ 0 → ∃ t, exec (.vltPoolCfgWrite k v) s = .next t ∧ rf t (H_ERR_CAUSE pageVLT) 31 24 = 0x01 ∧
        rd t (VLT_POOL_CFG k) = rd s (VLT_POOL_CFG k)))

/-- Refresh, row protection, temperature, failing pseudo-channels and pools: the two parts above, together. -/
def Obligations.VaultCare : Prop :=
  Claims.VaultRefreshes ∧ Claims.VaultProtects

/-- The time counter (R418-R423): a step changes D alone and by the amount written, a set makes the time the value written, reading the
sub-second latches the seconds, the reference input locks and is lost without a step, and the pulses are made and captured. -/
def Claims.TimeCounter : Prop :=
  ∀ (s : State), s.tsn.pend = [] → s.tsn.oper = [] →
    (∀ v, reach s TSN_STEP_NS = .open → ∃ t, exec (.tsnStep v) s = .next t ∧ t.time.e = s.time.e ∧
      t.time.d = s.time.d + 4 * (signed 32 (rd s TSN_STEP_SEC).toNat * 1000000000 + signed 32 v.toNat) ∧
      ctr t (TSN_CNT 10) = (ctr s (TSN_CNT 10) + 1) % 2 ^ 64) ∧
    (∀ v, reach s TSN_TIME_SET_NS = .open → ∃ t, exec (.tsnTimeSet v) s = .next t ∧ t.time.e = s.time.e ∧
      nowQ t = (((rd s TSN_TIME_SET_SEC_LO).toNat + rf s TSN_TIME_SET_SEC_HI 15 0 * 2 ^ 32) * 4000000000 + v.toNat) %
        (2 ^ 48 * 4000000000)) ∧
    (reach s TSN_TIME_NS = .open → ∃ t, exec .timeReadLatch s = .next t ∧ t.bus.readData = BitVec.ofNat 64 (qSub (nowQ s)) ∧
      rd t TSN_TIME_SEC_LO = w32 (qSec (nowQ s)) ∧ rd t TSN_TIME_SEC_HI = w32 (qSec (nowQ s) / 2 ^ 32) ∧ t.time = s.time) ∧
    (rb s TSN_CLK_CFG 0 = true → (∃ t, exec .timeInputLock s = .next t ∧ rf t TSN_CLK_CFG 2 1 = 1 ∧ t.time = s.time) ∧
      (rb s TSN_CLK_CFG 1 = true → ∃ t, exec .timeInputLoss s = .next t ∧ rf t TSN_CLK_CFG 2 1 = 2 ∧ t.time = s.time ∧
        rb t (H_INT_STAT pageTSN) 1 = true)) ∧
    (rb s TSN_PPS_CFG 31 = true → ppsPhase s < 6 → ∃ t, exec .ppsOutPulse s = .next t ∧ t.tsn.ppsHigh = true ∧
      t.tsn.ppsEnd = eNs s + 1000 * max 1 (rf s TSN_PPS_CFG 29 20)) ∧
    (rb s TSN_PPS_CFG 30 = true → ∃ t, exec .ppsInCapture s = .next t ∧ rd t TSN_PPS_CAP_SEC = w32 (qSec (nowQ s)) ∧
      rd t TSN_PPS_CAP_NS = w32 (qSub (nowQ s)) ∧ rb t (H_INT_STAT pageTSN) 0 = true)

/-- Gate configurations and recovery resets (R425-R427, R439): a go with a bad list is refused with code 0x02, a good one is pending for
a time at or after its base and the clock; it becomes operational at that time; a reset of a readable recovery function sets take_any
and is counted. -/
def Claims.GatesAndRecovery : Prop :=
  ∀ (s : State), s.tab.merges = [] →
    (∀ (i : Port) v, reach s (TSN_GCL_CTRL i) = .open → bit v 31 = true → let g := admGcl s i
      let bad := g.cycle = 0 ∨ g.len = 0 ∨ 1024 < g.start + g.len
      (bad → ∃ t, exec (.gclGo i v) s = .next t ∧ rf t (H_ERR_CAUSE pageTSN) 31 24 = 0x02 ∧ rb t (H_INT_STAT pageTSN) 3 = true ∧
        t.tsn = s.tsn) ∧
      (¬bad → ∃ t x, exec (.gclGo i v) s = .next t ∧ sGet none i.val t.tsn.pend = some (g, x) ∧ g.base ≤ x ∧ nowQ s + 4000 ≤ 4 * x ∧
        (x - g.base) % gclCycle g = 0 ∧ rb t (TSN_GCL_STAT i) 31 = true)) ∧
    (∀ (i : Port) g x, sGet none i.val s.tsn.pend = some (g, x) → 4 * x ≤ nowQ s → ∃ t, exec (.gclChange i) s = .next t ∧
      sGet none i.val t.tsn.oper = some g ∧ sGet none i.val t.tsn.pend = none ∧ rf t (TSN_GCL_STAT i) 31 30 = 1 ∧
      rb t (H_INT_STAT pageTSN) 2 = true) ∧
    (∀ (i : Port) g, sGet none i.val s.tsn.oper = some g → gateBad s i g = none → gateEntry s i g < 1024 →
      ∃ t, exec (.gateEntryAdvance i) s = .next t ∧ rf t (TSN_GCL_STAT i) 9 0 = gateEntry s i g ∧
        (rdStat s (gateAddr i (gateEntry s i g)) ≠ .corrected → RegsBut [TSN_GCL_STAT i] s t)) ∧
    (∀ v, reach s TSN_SRF_RESET = .open → readable s (srfAddr (fld v 11 0)) = true → ∃ t, exec (.srfResetCmd v) s = .next t ∧
      bit (tw t (srfAddr (fld v 11 0) + 4)) 0 = true ∧ ctr t (TSN_CNT 7) = (ctr s (TSN_CNT 7) + 1) % 2 ^ 64) ∧
    (∀ r : Fin 4096, let ms := fld (tw s (srfAddr r)) 15 0
      isOn s pageTSN = true → readable s (srfAddr r) = true → bit (tw s (srfAddr r)) 31 = true → ms ≠ 0 →
      bit (tw s (srfAddr r + 4)) 0 = false → sGet 0 r.val s.tsn.srfLast + ms * 1000000 ≤ eNs s →
      ∃ t, exec (.srfTimeout r) s = .next t ∧ bit (tw t (srfAddr r + 4)) 0 = true ∧
        ctr t (TSN_CNT 7) = (ctr s (TSN_CNT 7) + 1) % 2 ^ 64)

/-- The time counter, pulses, gate configurations and frame recovery: the two parts above, together. -/
def Obligations.TimeAndGates : Prop :=
  Claims.TimeCounter ∧ Claims.GatesAndRecovery

/-- PORESET ends in boot phase 3 with every clock locked, the time at zero, no table word written and every register but those of the
boot phase, the clocks and a completed fuse at its Reset value; a fuse that reads as blown stays so and none is left half blown (R17,
R649, R670). RESET_N, an accepted PWR_RST_CMD and a return of REFCLK25 keep the always-on pages, the time and the fuses (R645-R650); a
rail that fails holds every domain in reset (R708). -/
def Claims.PowerAndResets : Prop :=
  ∀ (s : State),
    let kept := fun (t : State) => t.time.e = s.time.e ∧ t.lcs.pairs = s.lcs.pairs ∧ t.lcs.keys = s.lcs.keys ∧ t.frames = [] ∧
      t.copies = [] ∧ t.tab.words = [] ∧ t.hif.mem = s.hif.mem ∧
      (∀ a, alwaysOn (a / 0x10000) = true →
        a ∉ [PWR_BOOT_STAT, PWR_RST_CAUSE, PWR_CLK_STAT, PWR_GAL_STAT, RGR_SPARE_STAT] ++ eventRegs pagePWR → rd t a = rd s a) ∧
      (∀ a, alwaysOn (a / 0x10000) = false → a ≠ HIF_PCIE_STAT → (∀ k, k < 8 → a ≠ LNK_D2D_STAT k) → a ∉ eventRegs pagePWR →
        rd t a = regReset s.part a)
    (∃ t, exec .poreset s = .next t ∧ bootPhase t = 3 ∧ rf t PWR_CLK_STAT 3 0 = 15 ∧ t.pwr.held = .none ∧ t.time.e = 0 ∧
      t.tab.words = [] ∧ t.hif.mem = s.hif.mem ∧
      (∀ a, a ∉ [PWR_BOOT_STAT, PWR_CLK_STAT] ++ eventRegs pageLCS → rd t a = regReset s.part a) ∧
      ∀ n, (blown t.lcs.pairs n = blown s.lcs.pairs n ∧ blown t.lcs.keys n = blown s.lcs.keys n) ∧ sGet 0 n t.lcs.pairs ≠ 1) ∧
    (s.pwr.held = .none →
      (∃ t, exec .resetN s = .next t ∧ bootPhase t = 3 ∧ rb t PWR_RST_CAUSE 1 = true ∧ kept t) ∧
      (∀ what, ∃ t, exec (.refclkLoss what) s = .next t ∧ t.pwr.held = .clock ∧ bootPhase t = 1 ∧ rb t PWR_CLK_STAT what = false ∧
        rb t PWR_RST_CAUSE 3 = true ∧ rb t (H_INT_STAT pagePWR) 0 = true ∧ kept t ∧
        ctr t (PWR_CNT 6) = (ctr s (PWR_CNT 6) + 1) % 2 ^ 64) ∧
      exec .refclkRecover s = .next s) ∧
    (s.pwr.held = .clock → ∃ t, exec .refclkRecover s = .next t ∧ t.pwr.held = .none ∧ bootPhase t = 3 ∧
      rf t PWR_CLK_STAT 3 0 = 15 ∧ RegsBut [PWR_CLK_STAT, PWR_BOOT_STAT] s t) ∧
    (∀ v, reach s PWR_RST_CMD = .open →
      (bit v 31 = false ∨ fld v 7 0 ≠ 0xA5 → exec (.pwrRstCmd v) s = .next s) ∧
      (bit v 31 = true → fld v 7 0 = 0xA5 → s.pwr.held = .none →
        ∃ t, exec (.pwrRstCmd v) s = .next t ∧ bootPhase t = 3 ∧ rb t PWR_RST_CAUSE 2 = true ∧ kept t)) ∧
    (∃ t, exec .railUndervolt s = .next t ∧ (∀ p, heldPage t p = true) ∧ (∀ a, rd t a = regReset s.part a) ∧
      t.lcs.pairs = s.lcs.pairs ∧ t.frames = [])

/-- SENSOR_READ, LIFE_HOURS_TICK and AGE_MONITOR (R651, R713-R716): the reading is shown; above the warning limit it raises over_temp, and
at 115 degrees the engine trips; equivalent hours accumulate by the hottest sensor, and the two ageing limits are reported once. The
series that evaluates the hours is the model's own (DESIGN CHOICE, log 36). -/
def Claims.SensorsAndAgeing : Prop :=
  ∀ (s : State), s.pwr.held ≠ .rail →
    (∀ (k : Fin 24) (v : BitVec 8), let warn := min 110 (rf s RGR_CFG 15 8)
      ∃ t, exec (.sensorRead k v) s = .next t ∧ rd t (PWR_TEMP k) = w32 v.toNat ∧
        (celsius v.toNat ≤ (warn : Int) → RegsBut [PWR_TEMP k] s t ∧ CtrsBut [] s t ∧ t.pwr = s.pwr) ∧
        ((warn : Int) < celsius v.toNat → rb t (H_INT_STAT pagePWR) 4 = true) ∧
        (115 ≤ celsius v.toNat → thermtripLow t = true ∧ (s.pwr.held ≠ .trip → bootPhase t = 0xE ∧ rf t PWR_CLK_STAT 3 1 = 0))) ∧
    (∃ t, exec .lifeHoursTick s = .next t ∧ let f := s.pwr.lifeFrac + lifeStep (hottest s);
      t.pwr.lifeFrac = f % 2 ^ 64 ∧ rf t PWR_LIFE_HOURS 31 0 = (rf s PWR_LIFE_HOURS 31 0 + f / 2 ^ 64) % 2 ^ 32 ∧
      (s.pwr.hoursSaid = true ∨ rf t PWR_LIFE_HOURS 31 0 < rf s PWR_AGE_CFG 31 16 * 1000 → RegsBut [PWR_LIFE_HOURS] s t) ∧
      (s.pwr.hoursSaid = false → rf s PWR_AGE_CFG 31 16 * 1000 ≤ rf t PWR_LIFE_HOURS 31 0 →
        t.pwr.hoursSaid = true ∧ rb t (H_INT_STAT pagePWR) 5 = true)) ∧
    (∀ (w : Fin 32) (m : Byte), ∃ t, exec (.ageMonitor w m) s = .next t ∧ rd t PWR_AGE_STAT = w32 (w.val * 256 + m.toNat) ∧
      (s.pwr.marginSaid = true ∨ rf s PWR_AGE_CFG 7 0 < m.toNat → RegsBut [PWR_AGE_STAT] s t ∧ t.pwr = s.pwr) ∧
      (s.pwr.marginSaid = false → m.toNat ≤ rf s PWR_AGE_CFG 7 0 →
        t.pwr.marginSaid = true ∧ rb t (H_INT_STAT pagePWR) 5 = true))

/-- Resets, clock losses, rails, sensors and ageing (the hours' series is the model's choice, log 36): the two parts above, together. -/
def Obligations.ResetsAndSensors : Prop :=
  Claims.PowerAndResets ∧ Claims.SensorsAndAgeing

/-- Boot rounds (R653-R659, R675): a round tries the preferred slot and then the other, and ends with Vubex starting from the first image
that verifies, or as a failed round with each slot's cause, counted, in back-off; a host-fed image is tried alone; PWR_BOOT_CFG.flash_dis
stops a round before its first attempt. -/
def Claims.BootRounds : Prop :=
  ∀ (s : State), s.pwr.held = .none → s.pwr.hostGo = false →
    (∀ dir a b, let first := if leNat (slice dir 0 4) = 0x56445852 ∧ bit (w32 (leNat (slice dir 4 4))) 0 then 2 else 1
      let img := fun (n : Nat) => if n = 1 then a else b
      let code := fun (n : Nat) => bootCode s (lcState s) (img n)
      let ends := fun (t : State) =>
        (code first = 0 → bootPhase t = 0xA ∧ (t.pwr.starting.map (·.1)) = some first ∧ t.pwr.other = some (3 - first)) ∧
        (code first ≠ 0 → code (3 - first) = 0 → bootPhase t = 0xA ∧ (t.pwr.starting.map (·.1)) = some (3 - first) ∧ t.pwr.other = none) ∧
        (code 1 ≠ 0 → code 2 ≠ 0 → bootPhase t = 7 ∧ t.pwr.backOff = true ∧ t.pwr.starting = none ∧
          rf t PWR_BOOT_STAT 11 8 = code 1 ∧ rf t PWR_BOOT_STAT 15 12 = code 2 ∧
          rf t PWR_BOOT_STAT 31 16 = min (rf s PWR_BOOT_STAT 31 16 + 1) 65535 ∧ rb t (H_INT_STAT pagePWR) 3 = true)
      (roundDue s = true → rb s PWR_BOOT_CFG 0 = false → ∃ t, exec (.bootRound dir a b) s = .next t ∧ ends t) ∧
      (bootPhase s = 7 → s.pwr.backOff = true → rb s PWR_BOOT_CFG 0 = false →
        ∃ t, exec (.bootBackoffExpiry dir a b) s = .next t ∧ ends t) ∧
      (roundDue s = true → rb s PWR_BOOT_CFG 0 = true →
        ∃ t, exec (.bootRound dir a b) s = .next t ∧ bootPhase t = 7 ∧ t.pwr.backOff = false ∧ RegsBut [PWR_BOOT_STAT] s t)) ∧
    (∀ bytes, reach s PWR_BOOT_HOST_CMD = .open → memOk s = true →
      let code := bootCode s (lcState s) (some (slice bytes 0 (rf s PWR_BOOT_HOST_LEN 20 0)))
      (bootPhase s = 7 → ∃ t, exec (.hostFedLoad bytes) s = .next t ∧ t.pwr.hostGo = false ∧
        (code = 0 → bootPhase t = 0xA ∧ (t.pwr.starting.map (·.1)) = some 3) ∧
        (code ≠ 0 → bootPhase t = 7 ∧ t.pwr.backOff = true ∧ rb t (H_INT_STAT pagePWR) 3 = true)) ∧
      (bootPhase s = 0xB → exec (.hostFedLoad bytes) s = .next s))

/-- Vubex starts (R656, R660, R661): VUBEX_RUNNING is phase 0xB with the image's source, and starts an enabled CUR block; a start that
times out or meets a lockstep mismatch ends the attempt with its cause and tries what the round has left, after a mismatch on the
other pair. -/
def Claims.VubexStarts : Prop :=
  ∀ (s : State) (src ver : Nat), s.pwr.starting = some (src, ver) → bootPhase s = 0xA → src < 4 →
    (∃ t, exec .vubexRunning s = .next t ∧ bootPhase t = 0xB ∧ rf t PWR_BOOT_STAT 7 6 = src ∧ t.pwr.runVer = some ver ∧
      t.pwr.starting = none ∧ rb t (H_INT_STAT pagePWR) 2 = true ∧
      (rb s (H_CTRL pageCUR) 0 = true → blkState s pageCUR = 0 → s.pwr.held = .none → lcState s ≠ 4 → blkState t pageCUR = 1) ∧
      (rb s (H_CTRL pageCUR) 0 = false ∨ blkState s pageCUR ≠ 0 → blkState t pageCUR = blkState s pageCUR)) ∧
    (s.pwr.hostGo = false → src = 1 ∨ src = 2 →
      let cause := fun (t : State) => if src = 1 then rf t PWR_BOOT_STAT 11 8 else rf t PWR_BOOT_STAT 15 12
      (s.pwr.other = none →
        (∀ o, ∃ t, exec (.vubexStartTimeout o) s = .next t ∧ bootPhase t = 7 ∧ t.pwr.backOff = true ∧ cause t = 7 ∧
          rb t (H_INT_STAT pagePWR) 3 = true) ∧
        (∀ o, ∃ t, exec (.lockstepMismatch o) s = .next t ∧ bootPhase t = 7 ∧ t.pwr.backOff = true ∧ cause t = 8 ∧
          t.pwr.bootPair = 1 - s.pwr.bootPair ∧ ctr t (CUR_CNT 7) = (ctr s (CUR_CNT 7) + 1) % 2 ^ 64)) ∧
      (∀ img, s.pwr.other = some (3 - src) → let code := bootCode s s.pwr.roundLc img
        ∃ t, exec (.vubexStartTimeout img) s = .next t ∧ t.pwr.other = none ∧ cause t = 7 ∧
          (code = 0 → bootPhase t = 0xA ∧ (t.pwr.starting.map (·.1)) = some (3 - src)) ∧
          (code ≠ 0 → bootPhase t = 7 ∧ t.pwr.backOff = true ∧ t.pwr.starting = none)))

/-- Boot rounds, their causes, host-fed images and Vubex's start: the two parts above, together. -/
def Obligations.BootFlow : Prop :=
  Claims.BootRounds ∧ Claims.VubexStarts

/-- Lifecycle commands (R665-R678): a transition of the table is taken when its check passes and its fuses blow, and clears the nonce; one
that is not in the table is refused with result 1, a failed blow is result 4, and a write without the key changes nothing. Owner keys
are programmed once in PROVISIONED, revoked but for the last in FIELD, and the minimum version only rises, to no more than the running
image's. NONCE_READ draws a nonce, a free value, and shows it whole. -/
def Obligations.LifecycleCommands : Prop :=
  ∀ (s : State) (n : Fin 3),
    let result := fun (t : State) (r : Nat) => rd t LCS_TRANS_STAT = w32 r
    (∀ v, reach s LCS_TRANS_CMD = .open →
      let x := fld v 2 0
      let listed := (lcState s = 0 ∧ x = 1) ∨ (lcState s = 1 ∧ x = 2) ∨ (lcState s = 2 ∧ (x = 3 ∨ x = 4)) ∨
        (lcState s ≠ 2 ∧ lcState s ≠ 4 ∧ x = 4)
      let checked := (lcState s = 1 → x = 2 → ∃ k, k < 4 ∧ slotLive s k = true) ∧ (lcState s = 2 → tokenCheck s x = 0)
      (fld v 23 16 ≠ 0x5A → exec (.lifecycleTransition v n) s = .next s) ∧
      (fld v 23 16 = 0x5A → bit v 31 = true →
        ∃ t, exec (.lifecycleTransition v n) s = .next t ∧ t.lcs.nonce = none ∧
          (listed ∧ checked → n.val ≠ 0 → lcState t = x ∧ result t 0 ∧ rb t (H_INT_STAT pageLCS) 0 = true ∧
            (x = 3 → ∀ k, k < 4 → slotLive t k = false)) ∧
          (listed ∧ checked → n.val = 0 → lcState t = lcState s ∧ result t 4 ∧ rb t (H_INT_STAT pageLCS) 1 = true) ∧
          (¬listed → lcState t = lcState s ∧ result t 1 ∧ rb t (H_INT_STAT pageLCS) 1 = true ∧
            RegsBut ([LCS_TRANS_CMD, LCS_TRANS_STAT] ++ eventRegs pageLCS) s t) ∧
          (lcState s = 2 → listed → tokenCheck s x ≠ 0 → lcState t = 2 ∧ result t (tokenCheck s x)))) ∧
    (∀ k : Fin 4, reach s LCS_KEY_PROG = .open →
      (∃ t, exec (.keyProgram k n) s = .next t ∧
        (lcState s ≠ 1 ∨ blown s.lcs.keys k = true → t.lcs = s.lcs ∧ result t 1) ∧
        (lcState s = 1 → blown s.lcs.keys k = false → n.val = 0 → t.lcs = s.lcs ∧ result t 4) ∧
        (lcState s = 1 → blown s.lcs.keys k = false → n.val ≠ 0 → blown t.lcs.keys k = true ∧ result t 0 ∧
          sGet [] k.val t.lcs.hashes = wordBytes ((List.range 12).map fun j => sGet 0 j s.lcs.hashIn) ∧
          (∀ j, j ≠ k.val → sGet 0 j t.lcs.keys = sGet 0 j s.lcs.keys) ∧ rb t (H_INT_STAT pageLCS) 2 = true)) ∧
      (∃ t, exec (.keyRevoke k n) s = .next t ∧
        (lcState s ≠ 1 ∧ lcState s ≠ 2 → t.lcs = s.lcs ∧ result t 1) ∧
        (lcState s = 2 → slotLive s k = true → (∀ j, j < 4 → j ≠ k.val → slotLive s j = false) → t.lcs = s.lcs ∧ result t 1) ∧
        (lcState s = 1 ∨ (lcState s = 2 ∧ ∃ j, j < 4 ∧ j ≠ k.val ∧ slotLive s j = true) → n.val ≠ 0 →
          blown t.lcs.revs k = true ∧ result t 0 ∧ rb t (H_INT_STAT pageLCS) 2 = true))) ∧
    (∀ v, reach s LCS_VER_PROG = .open → ∃ t, exec (.versionRaise v n) s = .next t ∧
      (lcState s = 4 ∨ v.toNat < minVer s ∨ s.pwr.runVer = none ∨ (∃ r, s.pwr.runVer = some r ∧ r < v.toNat) →
        t.lcs = s.lcs ∧ result t 1) ∧
      (∀ r, lcState s ≠ 4 → minVer s ≤ v.toNat → s.pwr.runVer = some r → v.toNat ≤ r → v.toNat ≤ 64 → n.val ≠ 0 →
        result t 0 ∧ rb t (H_INT_STAT pageLCS) 2 = true ∧
        ∀ j, blown t.lcs.vers j = (decide (j < v.toNat) || blown s.lcs.vers j))) ∧
    (reach s LCS_NONCE_LO = .open → ∃ t x, exec .nonceRead s = .next t ∧ t.lcs.nonce = some x ∧
      t.bus.readData = BitVec.ofNat 64 (x.toNat % 2 ^ 32) ∧ rd t LCS_NONCE_HI = w32 (x.toNat / 2 ^ 32) ∧ RegsBut [LCS_NONCE_HI] s t)

/-- Pins and the management slave (R695-R697): a pin's edge is sampled, and captured where enabled, while DEV is ON; a write over SMBus is
the register write it names, a read answers the register, and the slave reaches no other page; a failed PEC is refused by NACK and
changes nothing else. -/
def Obligations.BoardInterfaces : Prop :=
  ∀ (s : State),
    (∀ (j : Fin 32), heldPage s pageDEV = false →
      (isOn s pageDEV = false → ∀ r, ∃ t, exec (.gpioEdge j r) s = .next t ∧ RegsBut [] s t ∧ bit t.dev.gpioPins j = r) ∧
      (isOn s pageDEV = true → rb s DEV_GPIO_OE j = false → ∀ r, ∃ t, exec (.gpioEdge j r) s = .next t ∧
        rb t DEV_GPIO_IN j = r ∧
        (r = true → rb s DEV_GPIO_IN j = false → rb s DEV_GPIO_RISE_EN j = true → rb t DEV_GPIO_EDGE j = true ∧
          (rb s DEV_GPIO_EDGE j = false → rb t (H_INT_STAT pageDEV) 1 = true)) ∧
        (r = false → rb s DEV_GPIO_IN j = true → rb s DEV_GPIO_FALL_EN j = true → rb t DEV_GPIO_EDGE j = true))) ∧
    (let ack := fun (x : Bool) => { s with dev := { s.dev with smbNack := x } };
      (smbAnswers s = false → ∀ a v ok, exec (.smbWrite a v ok) s = .next s ∧ exec (.smbSetAddress a ok) s = .next s ∧
        exec .smbRead s = .next s) ∧
      (smbAnswers s = true →
        (∀ a v, exec (.smbWrite a v false) s = .next (ack true) ∧ exec (.smbSetAddress a false) s = .next (ack true)) ∧
        (∀ a, exec (.smbSetAddress a true) s = .next { s with dev := { s.dev with smbAddr := a.toNat, smbNack := false } }) ∧
        (∀ a v, smbReach a.toNat true = true → ∃ t, exec (.smbWrite a v true) s = .next t ∧
          exec (.registerWrite (BitVec.ofNat 26 a.toNat) v) (ack false) = .next t) ∧
        (∀ a v, smbReach a.toNat true = false → exec (.smbWrite a v true) s = .next (ack false)) ∧
        (let a := s.dev.smbAddr;
          (smbReach a false = false → ∃ t, exec .smbRead s = .next t ∧ t.bus.readData = 0xFFFFFFFF ∧ RegsBut [] s t) ∧
          (smbReach a false = true → reach s a = .open → counterWord s (shownAt s a) = false → a % 0x10000 ≠ 0x20 → a ≠ LCS_NONCE_LO →
            ∃ t, exec .smbRead s = .next t ∧ t.bus.readData = BitVec.ofNat 64 (readValue s a).toNat ∧ RegsBut [] s t))))

/-- Every lane command completes where its conditions hold, whatever moves on the lane's port (R94-R97): a request is stored, training and a
retune end UP with their coefficients, a lost lock and a restore without an answer go to TRAIN. -/
def Claims.LaneCommandsComplete : Prop :=
  ∀ (k : Chiplet) (l : Lane) (s : State), let n := laneNo k l
    (∀ v, reach s (LNK_LANE_CTRL k l) = .open →
      ∃ t, exec (.laneStateReq k l v) s = .next t ∧ rd t (LNK_LANE_CTRL k l) = v &&& 0x30F) ∧
    (∀ coef ber, isOn s (pageLNK k) = true → mayLock s k = true → laneReq s k l = 2 → laneState s n = 2 →
      ∃ t, exec (.trainComplete k l coef ber) s = .next t ∧ laneState t n = 3 ∧ (laneSt t k l).coef = coef) ∧
    (laneUp s n = true → ∃ t, exec (.lossOfLock k l) s = .next t ∧ laneState t n = 2) ∧
    (laneState s n = 1 → (laneSt s k l).restoring = true → ∃ t, exec (.holdRestoreTimeout k l) s = .next t ∧ laneState t n = 2) ∧
    (laneState s n = 4 → ∀ (r : Fin 12) (m : W32),
      (∀ coef ber, ∃ t, exec (.retuneComplete k l coef ber r m) s = .next t ∧ laneState t n = 3 ∧ (laneSt t k l).coef = coef) ∧
      (∃ t, exec (.retuneAbort k l r m) s = .next t ∧ laneState t n = 3 ∧ (laneSt t k l).coef = (laneSt s k l).saved))

/-- Every MAC command completes where its conditions hold (R73, R76, R77, R86, R342, R343): a frame that the hold buffer admits is held, a
pause frame sets the port's pause, an expiry ends it, a request is sent, and the Depot's requests reach the MAC. -/
def Claims.MacCommandsComplete : Prop :=
  ∀ (i : NetPort) (s : State), let p : Port := ⟨i.val, by omega⟩
    (∀ bytes fec cws, macOn s i = true → rb s (LNK_PORT_CFG (i / 64) (i % 64)) 1 = false → sGet none i.val s.lnk.rx = none →
      linkCut s i = false → hbAdmits s i = true → 64 ≤ bytes.length → asPause bytes = none → (∀ f, f ∈ s.frames → f.id < s.nextId) →
      ∃ t f, exec (.rxFrame p (.whole bytes fec) cws) s = .next t ∧ f ∈ t.frames ∧ f.id = s.nextId ∧ f.port = i ∧
        f.bytes = bytes.take (maxFrame s i + 1)) ∧
    (∀ q, macLive s i = true → rb s (LNK_PORT_CFG (i / 64) (i % 64)) 1 = false →
      ∃ t, exec (.pauseFrameRx p (.pause q)) s = .next t ∧ (sGet 0 i.val t.tmg.paused).testBit 8 = (q != 0)) ∧
    (∀ r, macLive s i = true → (s.copies.any fun c => c.port == i.val && c.stage == .sending) = false →
      (s.lnk.pauseReq.find? fun x => x.1 == i.val) = some r →
      ∃ t, exec (.pauseFrameTx i) s = .next t ∧ t.lnk.pauseReq = s.lnk.pauseReq.erase r) ∧
    (∀ c : Fin 8, inXoff s i c = true → xoffMayEnd s i c = true → ∃ t, exec (.xoffExit i c) s = .next t ∧ inXoff t i c = false) ∧
    (∀ c : Fin 8, inXoff s i c = true → ∃ t, exec (.pfcRefresh i) s = .next t ∧
      (i.val, (if rb s (LNK_PORT_CFG (i / 64) (i % 64)) 8 then c.val else 8), rf s DPT_PFC_TIMER 31 16) ∈ t.lnk.pauseReq) ∧
    (∀ b : Fin 9, (sGet 0 i.val s.tmg.paused).testBit b = true →
      ∃ t, exec (.pauseQuantaExpiry i b) s = .next t ∧ (sGet 0 i.val t.tmg.paused).testBit b = false)

/-- Every Conservator command completes where its conditions hold (R580, R585, R589-R599): the oldest merge is taken, a pass reads the stores
without changing a word, a queued write-back that need not wait for its bank is taken, a bucket leaks, a chunk is passed, a recheck is
taken, an injection is counted. -/
def Claims.ConservatorCommandsComplete : Prop :=
  ∀ (s : State),
    (∀ m rest, s.tab.merges = m :: rest → ∃ t, exec .narrowWriteMerge s = .next t ∧ t.tab.merges = rest) ∧
    (∀ p : Page, ∃ t, exec (.ceLeak p) s = .next t ∧ rf t (H_CE_BUCKET p) 31 20 = rf s (H_CE_BUCKET p) 31 20 - 1) ∧
    (∀ v, reach s CSV_INJ_CMD = .open → bit v 31 = true →
      ∃ t, exec (.eccInject v) s = .next t ∧ ctr t (CSV_CNT 15) = (ctr s (CSV_CNT 15) + 1) % 2 ^ 64) ∧
    (isOn s pageCSV = true →
      (∀ late ce ue, rb s CSV_CFG 0 = true → ∃ t, exec (.scrubPass late ce ue) s = .next t ∧ t.tab.words = s.tab.words ∧
        (.own 0x250 ∈ ue → rb t (H_INT_STAT pageTMG) 0 = true) ∧
        (∀ a e, s.tab.ecc = [(a, e)] → eccBase a = a → e.st = .good → rdStat s a = .ue → (eccOf t a).st = .poisoned)) ∧
      (∀ a rest, s.csv.backQ = a :: rest → mayWriteBack s a = true → ∃ t, exec .scrubWriteBack s = .next t ∧ t.csv.backQ = rest) ∧
      (∀ (w : Wing) (b : Fin 16) (r : Fin 4096), s.tab.merges = [] → s.vit.cleared = [] →
        readable s (vitAddr w b r) = true → readable s (vitAddr w b r + 16) = true →
        ∃ t, exec (.imageComparePass w [(b, r)] []) s = .next t ∧ sGet 0 (16 * w.val + b.val) t.vit.differ = 1 ∧
          t.tab.words = s.tab.words) ∧
      (∀ (k : Fin 4) bytes err, rb s CSV_CFG 1 = true → rf s (CSV_SHADOW_STAT k) 15 0 + 1 < shadowChunks k →
        ∃ t, exec (.shadowChunkCompare k bytes err) s = .next t ∧
          rf t (CSV_SHADOW_STAT k) 15 0 = rf s (CSV_SHADOW_STAT k) 15 0 + 1) ∧
      (∀ r rest bytes, s.csv.rechecks = r :: rest → memOk s = true →
        ∃ t, exec (.shadowRecheck bytes) s = .next t ∧ t.csv.rechecks = rest))

/-- Every command of the Vault's care completes where its conditions hold (R450, R468-R477): refreshes owed are sent, an activation opens
its row, a window starts, a temperature is shown, a failed pseudo-channel is reported and, once empty, fenced, and self-refresh is
entered and left. -/
def Claims.VaultCommandsComplete : Prop :=
  ∀ (c : Fin 128) (b : Fin 32) (s : State), let k := bankNo c b
    (vltRuns s = true →
      (∃ t, exec (.refreshPerBank c b false) s = .next t ∧ sGet 0 k t.vlt.owed = 0) ∧
      (∀ r : Fin 16384, (sGet [] k s.vlt.trq).length < 8 →
        ∃ t, exec (.activate c b r) s = .next t ∧ sGet 0 k t.vlt.openRow = r.val + 1) ∧
      (∃ t, exec (.rfmRequest c b) s = .next t ∧ ctr t (VLT_CNT 12) = (ctr s (VLT_CNT 12) + 1) % 2 ^ 64)) ∧
    (∃ t, exec (.actTableClear c b) s = .next t ∧ sGet [] k t.vlt.acts = []) ∧
    (∀ (n : Fin 4) (v : BitVec 8), ∃ t, exec (.stackTempRead n (some v)) s = .next t ∧
      rf t VLT_THERM_STAT (8 * n + 7) (8 * n) = v.toNat) ∧
    (pcState s c = 0 → max 1 (rf s VLT_PC_CFG 7 0) ≤ rf s (VLT_PC_STAT c) 23 16 →
      ∃ t, exec (.pseudoChannelFail c false) s = .next t ∧ rb t (H_INT_STAT pageVLT) 1 = true) ∧
    (∀ v, reach s VLT_PC_CMD = .open → bit v 31 = true → pcState s (fld v 6 0) = 0 →
      ∃ t, exec (.pcFailCmd v) s = .next t ∧ rb t (H_INT_STAT pageVLT) 1 = true) ∧
    (pcState s c = 1 → ([0, 1, 2].all fun j => bufsUsed s j c == 0) = true → ∃ t, exec (.pcFence c) s = .next t ∧ pcState t c = 2) ∧
    (rb s (H_CTRL pageVLT) 2 = true → vaultEmpty s = true → s.vlt.wq = [] → rf s VLT_MODE_STAT 13 0 = 0 →
      ∃ t, exec .selfRefreshEntry s = .next t ∧ t.vlt.selfRef = true) ∧
    (∀ q, q < 8448 → spillReady s q = true → s.vlt.selfRef = true → blkState s pageVLT ≠ 0 →
      ∃ t, exec .selfRefreshExit s = .next t ∧ t.vlt.selfRef = false) ∧
    (∀ (n : Fin 3) v, reach s (VLT_POOL_CFG n) = .open → blkState s pageVLT = 0 →
      ∃ t, exec (.vltPoolCfgWrite n v) s = .next t ∧ rf t (VLT_POOL_CFG n) 17 0 = fld v 17 0)

/-- The lane, MAC, Conservator and Vault commands complete with their own effect wherever their conditions hold: the four parts above, together. -/
def Obligations.CommandsComplete : Prop :=
  Claims.LaneCommandsComplete ∧ Claims.MacCommandsComplete ∧ Claims.ConservatorCommandsComplete ∧ Claims.VaultCommandsComplete
end

