-- ==== Sys2Proof/Laws/Bits.lean ====
section
/-!
SUPPORT. Laws of the canonical store and of bit fields: what a read finds after a write.
-/
namespace Sys2Proof.Machine

/-! ## Stores -/

section
variable {α : Type}

theorem sGet_filter_same (d : α) (k : Nat) : ∀ l : List (Nat × α), sGet d k (l.filter fun e => e.1 != k) = d
  | [] => rfl
  | (j, w) :: r => by
    by_cases h : j = k
    · simp [h, sGet_filter_same d k r]
    · simp [h, sGet, sGet_filter_same d k r]

theorem sGet_filter_ne (d : α) {k j : Nat} (h : j ≠ k) : ∀ l : List (Nat × α), sGet d j (l.filter fun e => e.1 != k) = sGet d j l
  | [] => rfl
  | (i, w) :: r => by
    by_cases hi : i = k
    · have hj : i ≠ j := by omega
      simp [hi, sGet, Ne.symm h, sGet_filter_ne d h r]
    · by_cases hj : i = j
      · subst hj; simp [hi, sGet]
      · simp [hi, hj, sGet, sGet_filter_ne d h r]

/-- A store reads at the written key what was written, canonical or not. -/
@[simp] theorem sGet_sPut_same [DecidableEq α] (d : α) (k : Nat) (v : α) : ∀ l : List (Nat × α), sGet d k (sPut d k v l) = v
  | [] => by by_cases h : v = d <;> simp [sPut, sGet, h]
  | (j, w) :: r => by
    rw [sPut]
    split
    · rename_i h
      have hj : j ≠ k := by omega
      split
      · rename_i hv; simp [sGet, hj, sGet_filter_same, hv]
      · simp [sGet]
    · split
      · split
        · rename_i hv; rw [sGet_filter_same, hv]
        · simp [sGet]
      · rename_i hj
        have hj' : j ≠ k := fun e => hj e.symm
        simp [sGet, hj', sGet_sPut_same d k v r]

/-- A write leaves every other key as it was. -/
theorem sGet_sPut_ne [DecidableEq α] (d d' : α) {k j : Nat} (v : α) (h : j ≠ k) : ∀ l : List (Nat × α), sGet d j (sPut d' k v l) = sGet d j l
  | [] => by
    have h' : k ≠ j := Ne.symm h
    by_cases hv : v = d' <;> simp [sPut, sGet, hv, h']
  | (i, w) :: r => by
    have h' : k ≠ j := Ne.symm h
    rw [sPut]
    split
    · split
      · by_cases hi : i = j <;> simp [sGet, hi, sGet_filter_ne d h]
      · simp [sGet, h']
    · split
      · rename_i hki
        have hi : i ≠ j := by omega
        split
        · rw [sGet_filter_ne d h]; simp [sGet, hi]
        · simp [sGet, h', hi]
      · by_cases hi : i = j <;> simp [sGet, hi, sGet_sPut_ne d d' v h r]

theorem sGet_sPut [DecidableEq α] (d : α) (k j : Nat) (v : α) (l : List (Nat × α)) : sGet d j (sPut d k v l) = if j = k then v else sGet d j l := by
  by_cases h : j = k
  · simp [h]
  · simp [h, sGet_sPut_ne d d v h l]

theorem sRising_mono {lo lo' : Option Nat} (l : List (Nat × α)) (h : ∀ n, lo' = some n → ∃ m, lo = some m ∧ n ≤ m) :
    sRising lo l = true → sRising lo' l = true := by
  cases l with
  | nil => intro _; rfl
  | cons e r =>
    obtain ⟨k, v⟩ := e
    simp only [sRising, Bool.and_eq_true]
    rintro ⟨h1, h2⟩
    refine ⟨?_, h2⟩
    cases hl : lo' with
    | none => rfl
    | some n =>
      obtain ⟨m, hm, hn⟩ := h n hl
      rw [hm] at h1
      simp only [decide_eq_true_eq] at h1 ⊢
      omega

/-- In a store that rises from above `k` no key is `k`. -/
theorem sRising_filter (k : Nat) (l : List (Nat × α)) (lo : Option Nat) (h : sRising lo l = true) :
    sRising lo (l.filter fun e => e.1 != k) = true := by
  induction l generalizing lo with
  | nil => rfl
  | cons e r ih =>
    obtain ⟨j, v⟩ := e
    simp only [sRising, Bool.and_eq_true] at h
    by_cases hj : j = k
    · subst hj
      simp only [List.filter, bne_self_eq_false]
      refine ih lo (sRising_mono (lo := some j) r ?_ h.2)
      intro n hn
      subst hn
      refine ⟨j, rfl, ?_⟩
      have := h.1
      simp only [decide_eq_true_eq] at this
      omega
    · have hb : (j != k) = true := by simp [hj]
      simp only [List.filter, hb, sRising, Bool.and_eq_true]
      exact ⟨h.1, ih _ h.2⟩

theorem sRising_sPut [DecidableEq α] (d : α) (k : Nat) (v : α) : ∀ (l : List (Nat × α)) (lo : Option Nat), (∀ n, lo = some n → n < k) →
    sRising lo l = true → sRising lo (sPut d k v l) = true
  | [], lo, hk, _ => by
    rw [sPut]
    split
    · rfl
    · cases lo with
      | none => rfl
      | some n => simp [sRising, hk n rfl]
  | (j, w) :: r, lo, hk, h => by
    have h' := h
    simp only [sRising, Bool.and_eq_true] at h'
    rw [sPut]
    split
    · rename_i hkj
      split
      · simp only [sRising, Bool.and_eq_true]
        exact ⟨h'.1, sRising_filter k r _ h'.2⟩
      · simp only [sRising, Bool.and_eq_true, decide_eq_true_eq]
        refine ⟨?_, hkj, h'.2⟩
        cases lo with
        | none => rfl
        | some n => simpa using hk n rfl
    · split
      · rename_i hkj
        subst hkj
        split
        · refine sRising_filter _ r _ (sRising_mono (lo := some k) r ?_ h'.2)
          intro n hn
          exact ⟨k, rfl, Nat.le_of_lt (hk n hn)⟩
        · exact h
      · simp only [sRising, Bool.and_eq_true]
        exact ⟨h'.1, sRising_sPut d k v r (some j) (fun n hn => by cases hn; omega) h'.2⟩

theorem mem_sPut [DecidableEq α] (d : α) (k : Nat) (v : α) : ∀ (l : List (Nat × α)) (e : Nat × α), e ∈ sPut d k v l → (v ≠ d ∧ e = (k, v)) ∨ e ∈ l
  | [], e, h => by
    rw [sPut] at h
    split at h
    · exact absurd h (by simp)
    · rename_i hv; exact .inl ⟨hv, by simpa using h⟩
  | (j, w) :: r, e, h => by
    rw [sPut] at h
    split at h
    · split at h
      · rcases List.mem_cons.mp h with h | h
        · exact .inr (by simp [h])
        · exact .inr (List.mem_cons_of_mem _ (List.mem_of_mem_filter h))
      · rename_i hv
        rcases List.mem_cons.mp h with h | h
        · exact .inl ⟨hv, h⟩
        · exact .inr h
    · split at h
      · split at h
        · exact .inr (List.mem_cons_of_mem _ (List.mem_of_mem_filter h))
        · rename_i hv
          rcases List.mem_cons.mp h with h | h
          · exact .inl ⟨hv, h⟩
          · exact .inr (List.mem_cons_of_mem _ h)
      · rcases List.mem_cons.mp h with h | h
        · exact .inr (by simp [h])
        · rcases mem_sPut d k v r e h with h | h
          · exact .inl h
          · exact .inr (List.mem_cons_of_mem _ h)

/-- A write keeps a store in canonical form. -/
theorem sWf_sPut [DecidableEq α] (d : Nat → α) (k : Nat) (v : α) (l : List (Nat × α)) (h : sWf d l = true) : sWf d (sPut (d k) k v l) = true := by
  simp only [sWf, Bool.and_eq_true, List.all_eq_true, decide_eq_true_eq] at h ⊢
  refine ⟨sRising_sPut (d k) k v l none (fun _ hn => nomatch hn) h.1, fun e he => ?_⟩
  rcases mem_sPut (d k) k v l e he with ⟨hv, rfl⟩ | he
  · exact hv
  · exact h.2 e he

/-- A canonical store lists an entry exactly where a key reads otherwise than unlisted. -/
theorem sGet_of_rising (d : α) : ∀ (l : List (Nat × α)) (lo : Option Nat), sRising lo l = true → ∀ e, e ∈ l → sGet d e.1 l = e.2
  | [], _, _, e, h => absurd h (by simp)
  | (j, w) :: r, lo, h, e, he => by
    simp only [sRising, Bool.and_eq_true] at h
    rcases List.mem_cons.mp he with rfl | he
    · simp [sGet]
    · have hlt : ∀ (r : List (Nat × α)) (m : Nat), sRising (some m) r = true → ∀ e, e ∈ r → m < e.1 := by
        intro r
        induction r with
        | nil => intro m _ e he; exact absurd he (by simp)
        | cons x r ih =>
          intro m hm e he
          simp only [sRising, Bool.and_eq_true, decide_eq_true_eq] at hm
          rcases List.mem_cons.mp he with rfl | he
          · exact hm.1
          · exact Nat.lt_trans hm.1 (ih _ hm.2 e he)
      have := hlt r j h.2 e he
      have hj : j ≠ e.1 := by omega
      simp [sGet, hj, sGet_of_rising d r (some j) h.2 e he]

end

/-! ## Fields -/

theorem bitsOf_lt (n hi lo : Nat) : bitsOf n hi lo < 2 ^ (hi + 1 - lo) := Nat.mod_lt _ (Nat.two_pow_pos _)

theorem fld_lt (w : W32) (hi lo : Nat) : fld w hi lo < 2 ^ (hi + 1 - lo) := bitsOf_lt _ _ _

theorem testBit_bitsOf (n hi lo i : Nat) : (bitsOf n hi lo).testBit i = (decide (i < hi + 1 - lo) && n.testBit (lo + i)) := by
  rw [bitsOf, Nat.testBit_mod_two_pow, Nat.testBit_div_two_pow, Nat.add_comm i lo]

/-- A word is what lies above a field, the field, and what lies below it. -/
theorem split_field (n hi lo : Nat) (h : lo ≤ hi) :
    n = 2 ^ (hi + 1) * (n / 2 ^ (hi + 1)) + (bitsOf n hi lo * 2 ^ lo + n % 2 ^ lo) := by
  have h1 : n % 2 ^ (hi + 1) = 2 ^ lo * (n / 2 ^ lo % 2 ^ (hi + 1 - lo)) + n % 2 ^ lo := by
    have := Nat.mod_mul (x := n) (a := 2 ^ lo) (b := 2 ^ (hi + 1 - lo))
    rw [← Nat.pow_add, show lo + (hi + 1 - lo) = hi + 1 by omega] at this
    omega
  have h2 := Nat.div_add_mod n (2 ^ (hi + 1))
  rw [bitsOf, Nat.mul_comm _ (2 ^ lo)]
  omega

theorem setFld_value (n hi lo v : Nat) (h : lo ≤ hi) : n - bitsOf n hi lo * 2 ^ lo + v % 2 ^ (hi + 1 - lo) * 2 ^ lo =
    2 ^ (hi + 1) * (n / 2 ^ (hi + 1)) + (2 ^ lo * (v % 2 ^ (hi + 1 - lo)) + n % 2 ^ lo) := by
  have h1 := split_field n hi lo h
  rw [Nat.mul_comm (2 ^ lo) (v % _)]
  omega

theorem field_lt (hi lo a b : Nat) (h : lo ≤ hi) (ha : a < 2 ^ (hi + 1 - lo)) (hb : b < 2 ^ lo) : 2 ^ lo * a + b < 2 ^ (hi + 1) := by
  have h1 : 2 ^ (hi + 1) = 2 ^ lo * 2 ^ (hi + 1 - lo) := by rw [← Nat.pow_add]; congr 1; omega
  calc 2 ^ lo * a + b < 2 ^ lo * a + 2 ^ lo := by omega
    _ = 2 ^ lo * (a + 1) := by rw [Nat.mul_add, Nat.mul_one]
    _ ≤ 2 ^ lo * 2 ^ (hi + 1 - lo) := Nat.mul_le_mul_left _ ha
    _ = 2 ^ (hi + 1) := h1.symm

/-- Bit `i` of a number with field [hi:lo] replaced by `v`. -/
theorem testBit_setFld_value (n hi lo v i : Nat) (h : lo ≤ hi) :
    (n - bitsOf n hi lo * 2 ^ lo + v % 2 ^ (hi + 1 - lo) * 2 ^ lo).testBit i =
      if lo ≤ i ∧ i ≤ hi then v.testBit (i - lo) else n.testBit i := by
  have hb : n % 2 ^ lo < 2 ^ lo := Nat.mod_lt _ (Nat.two_pow_pos _)
  have hm : v % 2 ^ (hi + 1 - lo) < 2 ^ (hi + 1 - lo) := Nat.mod_lt _ (Nat.two_pow_pos _)
  rw [setFld_value n hi lo v h, Nat.testBit_two_pow_mul_add _ (field_lt hi lo _ _ h hm hb), Nat.testBit_two_pow_mul_add _ hb]
  by_cases h1 : i < hi + 1
  · by_cases h2 : i < lo
    · have h3 : ¬(lo ≤ i ∧ i ≤ hi) := by omega
      simp only [h1, h2, h3, if_true, if_false, Nat.testBit_mod_two_pow, decide_true, Bool.true_and]
    · have h3 : lo ≤ i ∧ i ≤ hi := by omega
      have h4 : i - lo < hi + 1 - lo := by omega
      simp only [h1, h2, if_true, if_false, if_pos h3, Nat.testBit_mod_two_pow, h4, decide_true, Bool.true_and]
  · have h3 : ¬(lo ≤ i ∧ i ≤ hi) := by omega
    simp only [h1, h3, if_false, Nat.testBit_div_two_pow]
    congr 1
    omega

/-- Bit `i` of a register word with field [hi:lo] set to `v`. -/
theorem bit_setFld (w : W32) (hi lo v i : Nat) (h : lo ≤ hi) (h32 : hi < 32) :
    bit (setFld w hi lo v) i = if lo ≤ i ∧ i ≤ hi then v.testBit (i - lo) else bit w i := by
  have hw : w.toNat < 2 ^ 32 := w.isLt
  rw [bit, setFld, w32, BitVec.toNat_ofNat, Nat.testBit_mod_two_pow, testBit_setFld_value _ _ _ _ _ h]
  by_cases h1 : i < 32
  · simp [h1, bit]
  · have h3 : ¬(lo ≤ i ∧ i ≤ hi) := by omega
    have h4 : w.toNat.testBit i = false := Nat.testBit_lt_two_pow (Nat.lt_of_lt_of_le hw (Nat.pow_le_pow_right (by omega) (by omega)))
    simp [h1, h3, bit, h4]

theorem testBit_fld (w : W32) (hi lo i : Nat) : (fld w hi lo).testBit i = (decide (i < hi + 1 - lo) && bit w (lo + i)) :=
  testBit_bitsOf _ _ _ _

/-- A field reads as what was written to it, modulo its width. -/
theorem fld_setFld_same (w : W32) (hi lo v : Nat) (h : lo ≤ hi) (h32 : hi < 32) : fld (setFld w hi lo v) hi lo = v % 2 ^ (hi + 1 - lo) := by
  refine Nat.eq_of_testBit_eq fun i => ?_
  rw [testBit_fld, bit_setFld _ _ _ _ _ h h32, Nat.testBit_mod_two_pow]
  by_cases hi' : i < hi + 1 - lo
  · have : lo ≤ lo + i ∧ lo + i ≤ hi := by omega
    rw [if_pos this, Nat.add_sub_cancel_left]
  · simp [hi']

/-- A field that shares no bit with the written one keeps its value. -/
theorem fld_setFld_ne (w : W32) (hi lo v hi' lo' : Nat) (h : lo ≤ hi) (h32 : hi < 32) (hd : hi < lo' ∨ hi' < lo) :
    fld (setFld w hi lo v) hi' lo' = fld w hi' lo' := by
  refine Nat.eq_of_testBit_eq fun i => ?_
  rw [testBit_fld, testBit_fld, bit_setFld _ _ _ _ _ h h32]
  by_cases hi1 : i < hi' + 1 - lo'
  · have : ¬(lo ≤ lo' + i ∧ lo' + i ≤ hi) := by omega
    rw [if_neg this]
  · simp [hi1]

/-- A bit outside the written field keeps its value. -/
theorem bit_setFld_ne (w : W32) (hi lo v i : Nat) (h : lo ≤ hi) (h32 : hi < 32) (hd : i < lo ∨ hi < i) :
    bit (setFld w hi lo v) i = bit w i := by
  rw [bit_setFld _ _ _ _ _ h h32, if_neg (by omega)]

theorem bit_setFld_one (w : W32) (i v : Nat) (h32 : i < 32) : bit (setFld w i i v) i = v.testBit 0 := by
  rw [bit_setFld _ _ _ _ _ (Nat.le_refl i) h32, if_pos ⟨Nat.le_refl i, Nat.le_refl i⟩, Nat.sub_self]

end Sys2Proof.Machine
end

