-- ==== Sys2Proof/Laws/State.lean ====
section
/-!
SUPPORT. What the shared operations leave alone. Each operation on registers, counters, records, messages and events changes `bus`
and nothing else; one lemma for each field of State and each operation says so to simp.
-/
namespace Sys2Proof.Machine

/-- `t` differs from `s` in `bus` alone. -/
def OnlyBus (s t : State) : Prop := t = { s with bus := t.bus }

theorem OnlyBus.trans' {s t u : State} (h : OnlyBus t u) (g : OnlyBus s t) : OnlyBus s u := by
  unfold OnlyBus at *
  rw [h, g]

theorem wr_onlyBus (a : Nat) (v : W32) (s : State) : OnlyBus s (wr a v s) := rfl

theorem wf_onlyBus (a hi lo v : Nat) (s : State) : OnlyBus s (wf a hi lo v s) := rfl

theorem addWrap_onlyBus (a hi lo n : Nat) (s : State) : OnlyBus s (addWrap a hi lo n s) := rfl

theorem setBlk_onlyBus (p v : Nat) (s : State) : OnlyBus s (setBlk p v s) := rfl

theorem answer_onlyBus (v : Nat) (s : State) : OnlyBus s (answer v s) := rfl

theorem ledger_onlyBus (e : LdgEvent) (s : State) : OnlyBus s (ledger e s) := rfl

theorem recordErr_onlyBus (p code detail addr : Nat) (s : State) : OnlyBus s (recordErr p code detail addr s) := rfl

theorem sendMsg_onlyBus (p kind addr : Nat) (inj : Bool) (s : State) : OnlyBus s (sendMsg p kind addr inj s) := rfl

theorem incSat_onlyBus (a hi lo : Nat) (s : State) : OnlyBus s (incSat a hi lo s) := by
  unfold incSat; split <;> rfl

theorem bumpN_onlyBus (a n : Nat) (s : State) : OnlyBus s (bumpN a n s) := by
  unfold bumpN; split <;> rfl

theorem bump_onlyBus (a : Nat) (s : State) : OnlyBus s (bump a s) := bumpN_onlyBus a 1 s

theorem ctrAdd_onlyBus (g n k : Nat) (s : State) : OnlyBus s (ctrAdd g n k s) := rfl

theorem ledgerFlush_onlyBus (s : State) : OnlyBus s (ledgerFlush s) := by
  have pass : ∀ (l : List Nat) (f : State → Nat → State), (∀ a n, OnlyBus a (f a n)) → ∀ a, OnlyBus a (l.foldl f a) := by
    intro l f hf
    induction l with
    | nil => intro a; rfl
    | cons n r ih => intro a; exact (ih (f a n)).trans' (hf a n)
  unfold ledgerFlush
  split
  · rfl
  · refine OnlyBus.trans' (t := (List.range 16).foldl _ s) rfl (pass _ _ (fun a g => ?_) s)
    split
    · refine pass _ _ (fun b n => ?_) a
      dsimp only
      split
      · exact ctrAdd_onlyBus _ _ _ _
      · rfl
    · rfl

theorem sendMsix_onlyBus (v : Nat) (s : State) : OnlyBus s (sendMsix v s) := by
  unfold sendMsix; split
  · rfl
  · exact (bump_onlyBus _ _).trans' (OnlyBus.trans' (t := ledgerFlush s) rfl (ledgerFlush_onlyBus s))

theorem pendEdge_onlyBus (p : Nat) (before : Bool) (s : State) : OnlyBus s (pendEdge p before s) := by
  unfold pendEdge; split
  · exact sendMsix_onlyBus _ _
  · rfl

theorem raiseAs_onlyBus (inj : Bool) (p b : Nat) (s : State) : OnlyBus s (raiseAs inj p b s) := by
  unfold raiseAs
  dsimp only
  split
  · rfl
  · refine (pendEdge_onlyBus _ _ _).trans' ?_
    split
    · refine (sendMsg_onlyBus _ _ _ _ _).trans' ?_
      split
      · split <;> rfl
      · rfl
    · split
      · split <;> rfl
      · rfl

theorem raise_onlyBus (p b : Nat) (s : State) : OnlyBus s (raise p b s) := raiseAs_onlyBus false p b s

theorem raiseFirst_onlyBus (p b : Nat) (s : State) : OnlyBus s (raiseFirst p b s) := by
  unfold raiseFirst
  dsimp only
  split
  · exact (raise_onlyBus _ _ _).trans' rfl
  · rfl

theorem reportFault_onlyBus (p kind addr : Nat) (inj : Bool) (s : State) : OnlyBus s (reportFault p kind addr inj s) := by
  unfold reportFault; split <;> rfl

theorem wakeGal_onlyBus (g : Nat) (s : State) : OnlyBus s (wakeGal g s) := by
  unfold wakeGal showGalState endRamp
  split
  · generalize (if (4 : Nat) = 4 then 0 else 4) = v
    split <;> rfl
  · rfl

theorem noteAccess_onlyBus (a : Nat) (s : State) : OnlyBus s (noteAccess a s) := by
  unfold noteAccess; split
  · rfl
  · split
    · exact wakeGal_onlyBus _ _
    · rfl

theorem noteGone_onlyBus (a : Nat) (s : State) : OnlyBus s (noteGone a s) := (raise_onlyBus _ _ _).trans' (recordErr_onlyBus _ _ _ _ _)

theorem OnlyBus.part {s t : State} (h : OnlyBus s t) : t.part = s.part := (congrArg State.part (show t = { s with bus := t.bus } from h)).trans rfl
theorem OnlyBus.tab {s t : State} (h : OnlyBus s t) : t.tab = s.tab := (congrArg State.tab (show t = { s with bus := t.bus } from h)).trans rfl
theorem OnlyBus.time {s t : State} (h : OnlyBus s t) : t.time = s.time := (congrArg State.time (show t = { s with bus := t.bus } from h)).trans rfl
theorem OnlyBus.frames {s t : State} (h : OnlyBus s t) : t.frames = s.frames := (congrArg State.frames (show t = { s with bus := t.bus } from h)).trans rfl
theorem OnlyBus.nextId {s t : State} (h : OnlyBus s t) : t.nextId = s.nextId := (congrArg State.nextId (show t = { s with bus := t.bus } from h)).trans rfl
theorem OnlyBus.nextSeq {s t : State} (h : OnlyBus s t) : t.nextSeq = s.nextSeq := (congrArg State.nextSeq (show t = { s with bus := t.bus } from h)).trans rfl
theorem OnlyBus.copies {s t : State} (h : OnlyBus s t) : t.copies = s.copies := (congrArg State.copies (show t = { s with bus := t.bus } from h)).trans rfl
theorem OnlyBus.nextCopy {s t : State} (h : OnlyBus s t) : t.nextCopy = s.nextCopy := (congrArg State.nextCopy (show t = { s with bus := t.bus } from h)).trans rfl
theorem OnlyBus.lnk {s t : State} (h : OnlyBus s t) : t.lnk = s.lnk := (congrArg State.lnk (show t = { s with bus := t.bus } from h)).trans rfl
theorem OnlyBus.doc {s t : State} (h : OnlyBus s t) : t.doc = s.doc := (congrArg State.doc (show t = { s with bus := t.bus } from h)).trans rfl
theorem OnlyBus.cat {s t : State} (h : OnlyBus s t) : t.cat = s.cat := (congrArg State.cat (show t = { s with bus := t.bus } from h)).trans rfl
theorem OnlyBus.lpm {s t : State} (h : OnlyBus s t) : t.lpm = s.lpm := (congrArg State.lpm (show t = { s with bus := t.bus } from h)).trans rfl
theorem OnlyBus.vit {s t : State} (h : OnlyBus s t) : t.vit = s.vit := (congrArg State.vit (show t = { s with bus := t.bus } from h)).trans rfl
theorem OnlyBus.prv {s t : State} (h : OnlyBus s t) : t.prv = s.prv := (congrArg State.prv (show t = { s with bus := t.bus } from h)).trans rfl
theorem OnlyBus.csv {s t : State} (h : OnlyBus s t) : t.csv = s.csv := (congrArg State.csv (show t = { s with bus := t.bus } from h)).trans rfl
theorem OnlyBus.hal {s t : State} (h : OnlyBus s t) : t.hal = s.hal := (congrArg State.hal (show t = { s with bus := t.bus } from h)).trans rfl
theorem OnlyBus.dpt {s t : State} (h : OnlyBus s t) : t.dpt = s.dpt := (congrArg State.dpt (show t = { s with bus := t.bus } from h)).trans rfl
theorem OnlyBus.tmg {s t : State} (h : OnlyBus s t) : t.tmg = s.tmg := (congrArg State.tmg (show t = { s with bus := t.bus } from h)).trans rfl
theorem OnlyBus.tsn {s t : State} (h : OnlyBus s t) : t.tsn = s.tsn := (congrArg State.tsn (show t = { s with bus := t.bus } from h)).trans rfl
theorem OnlyBus.vlt {s t : State} (h : OnlyBus s t) : t.vlt = s.vlt := (congrArg State.vlt (show t = { s with bus := t.bus } from h)).trans rfl
theorem OnlyBus.arc {s t : State} (h : OnlyBus s t) : t.arc = s.arc := (congrArg State.arc (show t = { s with bus := t.bus } from h)).trans rfl
theorem OnlyBus.rgr {s t : State} (h : OnlyBus s t) : t.rgr = s.rgr := (congrArg State.rgr (show t = { s with bus := t.bus } from h)).trans rfl
theorem OnlyBus.hif {s t : State} (h : OnlyBus s t) : t.hif = s.hif := (congrArg State.hif (show t = { s with bus := t.bus } from h)).trans rfl
theorem OnlyBus.anx {s t : State} (h : OnlyBus s t) : t.anx = s.anx := (congrArg State.anx (show t = { s with bus := t.bus } from h)).trans rfl
theorem OnlyBus.cur {s t : State} (h : OnlyBus s t) : t.cur = s.cur := (congrArg State.cur (show t = { s with bus := t.bus } from h)).trans rfl
theorem OnlyBus.pwr {s t : State} (h : OnlyBus s t) : t.pwr = s.pwr := (congrArg State.pwr (show t = { s with bus := t.bus } from h)).trans rfl
theorem OnlyBus.lcs {s t : State} (h : OnlyBus s t) : t.lcs = s.lcs := (congrArg State.lcs (show t = { s with bus := t.bus } from h)).trans rfl
theorem OnlyBus.dev {s t : State} (h : OnlyBus s t) : t.dev = s.dev := (congrArg State.dev (show t = { s with bus := t.bus } from h)).trans rfl
theorem OnlyBus.ldg {s t : State} (h : OnlyBus s t) : t.ldg = s.ldg := (congrArg State.ldg (show t = { s with bus := t.bus } from h)).trans rfl
theorem OnlyBus.pending {s t : State} (h : OnlyBus s t) : t.pending = s.pending := (congrArg State.pending (show t = { s with bus := t.bus } from h)).trans rfl

/-! ## One lemma per field and operation -/

@[simp] theorem wr_part (a : Nat) (v : W32) (s : State) : (wr a v s).part = s.part := rfl
@[simp] theorem wr_tab (a : Nat) (v : W32) (s : State) : (wr a v s).tab = s.tab := rfl
@[simp] theorem wr_time (a : Nat) (v : W32) (s : State) : (wr a v s).time = s.time := rfl
@[simp] theorem wr_frames (a : Nat) (v : W32) (s : State) : (wr a v s).frames = s.frames := rfl
@[simp] theorem wr_nextId (a : Nat) (v : W32) (s : State) : (wr a v s).nextId = s.nextId := rfl
@[simp] theorem wr_nextSeq (a : Nat) (v : W32) (s : State) : (wr a v s).nextSeq = s.nextSeq := rfl
@[simp] theorem wr_copies (a : Nat) (v : W32) (s : State) : (wr a v s).copies = s.copies := rfl
@[simp] theorem wr_nextCopy (a : Nat) (v : W32) (s : State) : (wr a v s).nextCopy = s.nextCopy := rfl
@[simp] theorem wr_lnk (a : Nat) (v : W32) (s : State) : (wr a v s).lnk = s.lnk := rfl
@[simp] theorem wr_doc (a : Nat) (v : W32) (s : State) : (wr a v s).doc = s.doc := rfl
@[simp] theorem wr_cat (a : Nat) (v : W32) (s : State) : (wr a v s).cat = s.cat := rfl
@[simp] theorem wr_lpm (a : Nat) (v : W32) (s : State) : (wr a v s).lpm = s.lpm := rfl
@[simp] theorem wr_vit (a : Nat) (v : W32) (s : State) : (wr a v s).vit = s.vit := rfl
@[simp] theorem wr_prv (a : Nat) (v : W32) (s : State) : (wr a v s).prv = s.prv := rfl
@[simp] theorem wr_csv (a : Nat) (v : W32) (s : State) : (wr a v s).csv = s.csv := rfl
@[simp] theorem wr_hal (a : Nat) (v : W32) (s : State) : (wr a v s).hal = s.hal := rfl
@[simp] theorem wr_dpt (a : Nat) (v : W32) (s : State) : (wr a v s).dpt = s.dpt := rfl
@[simp] theorem wr_tmg (a : Nat) (v : W32) (s : State) : (wr a v s).tmg = s.tmg := rfl
@[simp] theorem wr_tsn (a : Nat) (v : W32) (s : State) : (wr a v s).tsn = s.tsn := rfl
@[simp] theorem wr_vlt (a : Nat) (v : W32) (s : State) : (wr a v s).vlt = s.vlt := rfl
@[simp] theorem wr_arc (a : Nat) (v : W32) (s : State) : (wr a v s).arc = s.arc := rfl
@[simp] theorem wr_rgr (a : Nat) (v : W32) (s : State) : (wr a v s).rgr = s.rgr := rfl
@[simp] theorem wr_hif (a : Nat) (v : W32) (s : State) : (wr a v s).hif = s.hif := rfl
@[simp] theorem wr_anx (a : Nat) (v : W32) (s : State) : (wr a v s).anx = s.anx := rfl
@[simp] theorem wr_cur (a : Nat) (v : W32) (s : State) : (wr a v s).cur = s.cur := rfl
@[simp] theorem wr_pwr (a : Nat) (v : W32) (s : State) : (wr a v s).pwr = s.pwr := rfl
@[simp] theorem wr_lcs (a : Nat) (v : W32) (s : State) : (wr a v s).lcs = s.lcs := rfl
@[simp] theorem wr_dev (a : Nat) (v : W32) (s : State) : (wr a v s).dev = s.dev := rfl
@[simp] theorem wr_ldg (a : Nat) (v : W32) (s : State) : (wr a v s).ldg = s.ldg := rfl
@[simp] theorem wr_pending (a : Nat) (v : W32) (s : State) : (wr a v s).pending = s.pending := rfl

@[simp] theorem wf_part (a hi lo v : Nat) (s : State) : (wf a hi lo v s).part = s.part := rfl
@[simp] theorem wf_tab (a hi lo v : Nat) (s : State) : (wf a hi lo v s).tab = s.tab := rfl
@[simp] theorem wf_time (a hi lo v : Nat) (s : State) : (wf a hi lo v s).time = s.time := rfl
@[simp] theorem wf_frames (a hi lo v : Nat) (s : State) : (wf a hi lo v s).frames = s.frames := rfl
@[simp] theorem wf_nextId (a hi lo v : Nat) (s : State) : (wf a hi lo v s).nextId = s.nextId := rfl
@[simp] theorem wf_nextSeq (a hi lo v : Nat) (s : State) : (wf a hi lo v s).nextSeq = s.nextSeq := rfl
@[simp] theorem wf_copies (a hi lo v : Nat) (s : State) : (wf a hi lo v s).copies = s.copies := rfl
@[simp] theorem wf_nextCopy (a hi lo v : Nat) (s : State) : (wf a hi lo v s).nextCopy = s.nextCopy := rfl
@[simp] theorem wf_lnk (a hi lo v : Nat) (s : State) : (wf a hi lo v s).lnk = s.lnk := rfl
@[simp] theorem wf_doc (a hi lo v : Nat) (s : State) : (wf a hi lo v s).doc = s.doc := rfl
@[simp] theorem wf_cat (a hi lo v : Nat) (s : State) : (wf a hi lo v s).cat = s.cat := rfl
@[simp] theorem wf_lpm (a hi lo v : Nat) (s : State) : (wf a hi lo v s).lpm = s.lpm := rfl
@[simp] theorem wf_vit (a hi lo v : Nat) (s : State) : (wf a hi lo v s).vit = s.vit := rfl
@[simp] theorem wf_prv (a hi lo v : Nat) (s : State) : (wf a hi lo v s).prv = s.prv := rfl
@[simp] theorem wf_csv (a hi lo v : Nat) (s : State) : (wf a hi lo v s).csv = s.csv := rfl
@[simp] theorem wf_hal (a hi lo v : Nat) (s : State) : (wf a hi lo v s).hal = s.hal := rfl
@[simp] theorem wf_dpt (a hi lo v : Nat) (s : State) : (wf a hi lo v s).dpt = s.dpt := rfl
@[simp] theorem wf_tmg (a hi lo v : Nat) (s : State) : (wf a hi lo v s).tmg = s.tmg := rfl
@[simp] theorem wf_tsn (a hi lo v : Nat) (s : State) : (wf a hi lo v s).tsn = s.tsn := rfl
@[simp] theorem wf_vlt (a hi lo v : Nat) (s : State) : (wf a hi lo v s).vlt = s.vlt := rfl
@[simp] theorem wf_arc (a hi lo v : Nat) (s : State) : (wf a hi lo v s).arc = s.arc := rfl
@[simp] theorem wf_rgr (a hi lo v : Nat) (s : State) : (wf a hi lo v s).rgr = s.rgr := rfl
@[simp] theorem wf_hif (a hi lo v : Nat) (s : State) : (wf a hi lo v s).hif = s.hif := rfl
@[simp] theorem wf_anx (a hi lo v : Nat) (s : State) : (wf a hi lo v s).anx = s.anx := rfl
@[simp] theorem wf_cur (a hi lo v : Nat) (s : State) : (wf a hi lo v s).cur = s.cur := rfl
@[simp] theorem wf_pwr (a hi lo v : Nat) (s : State) : (wf a hi lo v s).pwr = s.pwr := rfl
@[simp] theorem wf_lcs (a hi lo v : Nat) (s : State) : (wf a hi lo v s).lcs = s.lcs := rfl
@[simp] theorem wf_dev (a hi lo v : Nat) (s : State) : (wf a hi lo v s).dev = s.dev := rfl
@[simp] theorem wf_ldg (a hi lo v : Nat) (s : State) : (wf a hi lo v s).ldg = s.ldg := rfl
@[simp] theorem wf_pending (a hi lo v : Nat) (s : State) : (wf a hi lo v s).pending = s.pending := rfl

@[simp] theorem addWrap_part (a hi lo n : Nat) (s : State) : (addWrap a hi lo n s).part = s.part := rfl
@[simp] theorem addWrap_tab (a hi lo n : Nat) (s : State) : (addWrap a hi lo n s).tab = s.tab := rfl
@[simp] theorem addWrap_time (a hi lo n : Nat) (s : State) : (addWrap a hi lo n s).time = s.time := rfl
@[simp] theorem addWrap_frames (a hi lo n : Nat) (s : State) : (addWrap a hi lo n s).frames = s.frames := rfl
@[simp] theorem addWrap_nextId (a hi lo n : Nat) (s : State) : (addWrap a hi lo n s).nextId = s.nextId := rfl
@[simp] theorem addWrap_nextSeq (a hi lo n : Nat) (s : State) : (addWrap a hi lo n s).nextSeq = s.nextSeq := rfl
@[simp] theorem addWrap_copies (a hi lo n : Nat) (s : State) : (addWrap a hi lo n s).copies = s.copies := rfl
@[simp] theorem addWrap_nextCopy (a hi lo n : Nat) (s : State) : (addWrap a hi lo n s).nextCopy = s.nextCopy := rfl
@[simp] theorem addWrap_lnk (a hi lo n : Nat) (s : State) : (addWrap a hi lo n s).lnk = s.lnk := rfl
@[simp] theorem addWrap_doc (a hi lo n : Nat) (s : State) : (addWrap a hi lo n s).doc = s.doc := rfl
@[simp] theorem addWrap_cat (a hi lo n : Nat) (s : State) : (addWrap a hi lo n s).cat = s.cat := rfl
@[simp] theorem addWrap_lpm (a hi lo n : Nat) (s : State) : (addWrap a hi lo n s).lpm = s.lpm := rfl
@[simp] theorem addWrap_vit (a hi lo n : Nat) (s : State) : (addWrap a hi lo n s).vit = s.vit := rfl
@[simp] theorem addWrap_prv (a hi lo n : Nat) (s : State) : (addWrap a hi lo n s).prv = s.prv := rfl
@[simp] theorem addWrap_csv (a hi lo n : Nat) (s : State) : (addWrap a hi lo n s).csv = s.csv := rfl
@[simp] theorem addWrap_hal (a hi lo n : Nat) (s : State) : (addWrap a hi lo n s).hal = s.hal := rfl
@[simp] theorem addWrap_dpt (a hi lo n : Nat) (s : State) : (addWrap a hi lo n s).dpt = s.dpt := rfl
@[simp] theorem addWrap_tmg (a hi lo n : Nat) (s : State) : (addWrap a hi lo n s).tmg = s.tmg := rfl
@[simp] theorem addWrap_tsn (a hi lo n : Nat) (s : State) : (addWrap a hi lo n s).tsn = s.tsn := rfl
@[simp] theorem addWrap_vlt (a hi lo n : Nat) (s : State) : (addWrap a hi lo n s).vlt = s.vlt := rfl
@[simp] theorem addWrap_arc (a hi lo n : Nat) (s : State) : (addWrap a hi lo n s).arc = s.arc := rfl
@[simp] theorem addWrap_rgr (a hi lo n : Nat) (s : State) : (addWrap a hi lo n s).rgr = s.rgr := rfl
@[simp] theorem addWrap_hif (a hi lo n : Nat) (s : State) : (addWrap a hi lo n s).hif = s.hif := rfl
@[simp] theorem addWrap_anx (a hi lo n : Nat) (s : State) : (addWrap a hi lo n s).anx = s.anx := rfl
@[simp] theorem addWrap_cur (a hi lo n : Nat) (s : State) : (addWrap a hi lo n s).cur = s.cur := rfl
@[simp] theorem addWrap_pwr (a hi lo n : Nat) (s : State) : (addWrap a hi lo n s).pwr = s.pwr := rfl
@[simp] theorem addWrap_lcs (a hi lo n : Nat) (s : State) : (addWrap a hi lo n s).lcs = s.lcs := rfl
@[simp] theorem addWrap_dev (a hi lo n : Nat) (s : State) : (addWrap a hi lo n s).dev = s.dev := rfl
@[simp] theorem addWrap_ldg (a hi lo n : Nat) (s : State) : (addWrap a hi lo n s).ldg = s.ldg := rfl
@[simp] theorem addWrap_pending (a hi lo n : Nat) (s : State) : (addWrap a hi lo n s).pending = s.pending := rfl

@[simp] theorem setBlk_part (p v : Nat) (s : State) : (setBlk p v s).part = s.part := rfl
@[simp] theorem setBlk_tab (p v : Nat) (s : State) : (setBlk p v s).tab = s.tab := rfl
@[simp] theorem setBlk_time (p v : Nat) (s : State) : (setBlk p v s).time = s.time := rfl
@[simp] theorem setBlk_frames (p v : Nat) (s : State) : (setBlk p v s).frames = s.frames := rfl
@[simp] theorem setBlk_nextId (p v : Nat) (s : State) : (setBlk p v s).nextId = s.nextId := rfl
@[simp] theorem setBlk_nextSeq (p v : Nat) (s : State) : (setBlk p v s).nextSeq = s.nextSeq := rfl
@[simp] theorem setBlk_copies (p v : Nat) (s : State) : (setBlk p v s).copies = s.copies := rfl
@[simp] theorem setBlk_nextCopy (p v : Nat) (s : State) : (setBlk p v s).nextCopy = s.nextCopy := rfl
@[simp] theorem setBlk_lnk (p v : Nat) (s : State) : (setBlk p v s).lnk = s.lnk := rfl
@[simp] theorem setBlk_doc (p v : Nat) (s : State) : (setBlk p v s).doc = s.doc := rfl
@[simp] theorem setBlk_cat (p v : Nat) (s : State) : (setBlk p v s).cat = s.cat := rfl
@[simp] theorem setBlk_lpm (p v : Nat) (s : State) : (setBlk p v s).lpm = s.lpm := rfl
@[simp] theorem setBlk_vit (p v : Nat) (s : State) : (setBlk p v s).vit = s.vit := rfl
@[simp] theorem setBlk_prv (p v : Nat) (s : State) : (setBlk p v s).prv = s.prv := rfl
@[simp] theorem setBlk_csv (p v : Nat) (s : State) : (setBlk p v s).csv = s.csv := rfl
@[simp] theorem setBlk_hal (p v : Nat) (s : State) : (setBlk p v s).hal = s.hal := rfl
@[simp] theorem setBlk_dpt (p v : Nat) (s : State) : (setBlk p v s).dpt = s.dpt := rfl
@[simp] theorem setBlk_tmg (p v : Nat) (s : State) : (setBlk p v s).tmg = s.tmg := rfl
@[simp] theorem setBlk_tsn (p v : Nat) (s : State) : (setBlk p v s).tsn = s.tsn := rfl
@[simp] theorem setBlk_vlt (p v : Nat) (s : State) : (setBlk p v s).vlt = s.vlt := rfl
@[simp] theorem setBlk_arc (p v : Nat) (s : State) : (setBlk p v s).arc = s.arc := rfl
@[simp] theorem setBlk_rgr (p v : Nat) (s : State) : (setBlk p v s).rgr = s.rgr := rfl
@[simp] theorem setBlk_hif (p v : Nat) (s : State) : (setBlk p v s).hif = s.hif := rfl
@[simp] theorem setBlk_anx (p v : Nat) (s : State) : (setBlk p v s).anx = s.anx := rfl
@[simp] theorem setBlk_cur (p v : Nat) (s : State) : (setBlk p v s).cur = s.cur := rfl
@[simp] theorem setBlk_pwr (p v : Nat) (s : State) : (setBlk p v s).pwr = s.pwr := rfl
@[simp] theorem setBlk_lcs (p v : Nat) (s : State) : (setBlk p v s).lcs = s.lcs := rfl
@[simp] theorem setBlk_dev (p v : Nat) (s : State) : (setBlk p v s).dev = s.dev := rfl
@[simp] theorem setBlk_ldg (p v : Nat) (s : State) : (setBlk p v s).ldg = s.ldg := rfl
@[simp] theorem setBlk_pending (p v : Nat) (s : State) : (setBlk p v s).pending = s.pending := rfl

@[simp] theorem answer_part (v : Nat) (s : State) : (answer v s).part = s.part := rfl
@[simp] theorem answer_tab (v : Nat) (s : State) : (answer v s).tab = s.tab := rfl
@[simp] theorem answer_time (v : Nat) (s : State) : (answer v s).time = s.time := rfl
@[simp] theorem answer_frames (v : Nat) (s : State) : (answer v s).frames = s.frames := rfl
@[simp] theorem answer_nextId (v : Nat) (s : State) : (answer v s).nextId = s.nextId := rfl
@[simp] theorem answer_nextSeq (v : Nat) (s : State) : (answer v s).nextSeq = s.nextSeq := rfl
@[simp] theorem answer_copies (v : Nat) (s : State) : (answer v s).copies = s.copies := rfl
@[simp] theorem answer_nextCopy (v : Nat) (s : State) : (answer v s).nextCopy = s.nextCopy := rfl
@[simp] theorem answer_lnk (v : Nat) (s : State) : (answer v s).lnk = s.lnk := rfl
@[simp] theorem answer_doc (v : Nat) (s : State) : (answer v s).doc = s.doc := rfl
@[simp] theorem answer_cat (v : Nat) (s : State) : (answer v s).cat = s.cat := rfl
@[simp] theorem answer_lpm (v : Nat) (s : State) : (answer v s).lpm = s.lpm := rfl
@[simp] theorem answer_vit (v : Nat) (s : State) : (answer v s).vit = s.vit := rfl
@[simp] theorem answer_prv (v : Nat) (s : State) : (answer v s).prv = s.prv := rfl
@[simp] theorem answer_csv (v : Nat) (s : State) : (answer v s).csv = s.csv := rfl
@[simp] theorem answer_hal (v : Nat) (s : State) : (answer v s).hal = s.hal := rfl
@[simp] theorem answer_dpt (v : Nat) (s : State) : (answer v s).dpt = s.dpt := rfl
@[simp] theorem answer_tmg (v : Nat) (s : State) : (answer v s).tmg = s.tmg := rfl
@[simp] theorem answer_tsn (v : Nat) (s : State) : (answer v s).tsn = s.tsn := rfl
@[simp] theorem answer_vlt (v : Nat) (s : State) : (answer v s).vlt = s.vlt := rfl
@[simp] theorem answer_arc (v : Nat) (s : State) : (answer v s).arc = s.arc := rfl
@[simp] theorem answer_rgr (v : Nat) (s : State) : (answer v s).rgr = s.rgr := rfl
@[simp] theorem answer_hif (v : Nat) (s : State) : (answer v s).hif = s.hif := rfl
@[simp] theorem answer_anx (v : Nat) (s : State) : (answer v s).anx = s.anx := rfl
@[simp] theorem answer_cur (v : Nat) (s : State) : (answer v s).cur = s.cur := rfl
@[simp] theorem answer_pwr (v : Nat) (s : State) : (answer v s).pwr = s.pwr := rfl
@[simp] theorem answer_lcs (v : Nat) (s : State) : (answer v s).lcs = s.lcs := rfl
@[simp] theorem answer_dev (v : Nat) (s : State) : (answer v s).dev = s.dev := rfl
@[simp] theorem answer_ldg (v : Nat) (s : State) : (answer v s).ldg = s.ldg := rfl
@[simp] theorem answer_pending (v : Nat) (s : State) : (answer v s).pending = s.pending := rfl

@[simp] theorem ledger_part (e : LdgEvent) (s : State) : (ledger e s).part = s.part := rfl
@[simp] theorem ledger_tab (e : LdgEvent) (s : State) : (ledger e s).tab = s.tab := rfl
@[simp] theorem ledger_time (e : LdgEvent) (s : State) : (ledger e s).time = s.time := rfl
@[simp] theorem ledger_frames (e : LdgEvent) (s : State) : (ledger e s).frames = s.frames := rfl
@[simp] theorem ledger_nextId (e : LdgEvent) (s : State) : (ledger e s).nextId = s.nextId := rfl
@[simp] theorem ledger_nextSeq (e : LdgEvent) (s : State) : (ledger e s).nextSeq = s.nextSeq := rfl
@[simp] theorem ledger_copies (e : LdgEvent) (s : State) : (ledger e s).copies = s.copies := rfl
@[simp] theorem ledger_nextCopy (e : LdgEvent) (s : State) : (ledger e s).nextCopy = s.nextCopy := rfl
@[simp] theorem ledger_lnk (e : LdgEvent) (s : State) : (ledger e s).lnk = s.lnk := rfl
@[simp] theorem ledger_doc (e : LdgEvent) (s : State) : (ledger e s).doc = s.doc := rfl
@[simp] theorem ledger_cat (e : LdgEvent) (s : State) : (ledger e s).cat = s.cat := rfl
@[simp] theorem ledger_lpm (e : LdgEvent) (s : State) : (ledger e s).lpm = s.lpm := rfl
@[simp] theorem ledger_vit (e : LdgEvent) (s : State) : (ledger e s).vit = s.vit := rfl
@[simp] theorem ledger_prv (e : LdgEvent) (s : State) : (ledger e s).prv = s.prv := rfl
@[simp] theorem ledger_csv (e : LdgEvent) (s : State) : (ledger e s).csv = s.csv := rfl
@[simp] theorem ledger_hal (e : LdgEvent) (s : State) : (ledger e s).hal = s.hal := rfl
@[simp] theorem ledger_dpt (e : LdgEvent) (s : State) : (ledger e s).dpt = s.dpt := rfl
@[simp] theorem ledger_tmg (e : LdgEvent) (s : State) : (ledger e s).tmg = s.tmg := rfl
@[simp] theorem ledger_tsn (e : LdgEvent) (s : State) : (ledger e s).tsn = s.tsn := rfl
@[simp] theorem ledger_vlt (e : LdgEvent) (s : State) : (ledger e s).vlt = s.vlt := rfl
@[simp] theorem ledger_arc (e : LdgEvent) (s : State) : (ledger e s).arc = s.arc := rfl
@[simp] theorem ledger_rgr (e : LdgEvent) (s : State) : (ledger e s).rgr = s.rgr := rfl
@[simp] theorem ledger_hif (e : LdgEvent) (s : State) : (ledger e s).hif = s.hif := rfl
@[simp] theorem ledger_anx (e : LdgEvent) (s : State) : (ledger e s).anx = s.anx := rfl
@[simp] theorem ledger_cur (e : LdgEvent) (s : State) : (ledger e s).cur = s.cur := rfl
@[simp] theorem ledger_pwr (e : LdgEvent) (s : State) : (ledger e s).pwr = s.pwr := rfl
@[simp] theorem ledger_lcs (e : LdgEvent) (s : State) : (ledger e s).lcs = s.lcs := rfl
@[simp] theorem ledger_dev (e : LdgEvent) (s : State) : (ledger e s).dev = s.dev := rfl
@[simp] theorem ledger_ldg (e : LdgEvent) (s : State) : (ledger e s).ldg = s.ldg := rfl
@[simp] theorem ledger_pending (e : LdgEvent) (s : State) : (ledger e s).pending = s.pending := rfl

@[simp] theorem recordErr_part (p code detail addr : Nat) (s : State) : (recordErr p code detail addr s).part = s.part := rfl
@[simp] theorem recordErr_tab (p code detail addr : Nat) (s : State) : (recordErr p code detail addr s).tab = s.tab := rfl
@[simp] theorem recordErr_time (p code detail addr : Nat) (s : State) : (recordErr p code detail addr s).time = s.time := rfl
@[simp] theorem recordErr_frames (p code detail addr : Nat) (s : State) : (recordErr p code detail addr s).frames = s.frames := rfl
@[simp] theorem recordErr_nextId (p code detail addr : Nat) (s : State) : (recordErr p code detail addr s).nextId = s.nextId := rfl
@[simp] theorem recordErr_nextSeq (p code detail addr : Nat) (s : State) : (recordErr p code detail addr s).nextSeq = s.nextSeq := rfl
@[simp] theorem recordErr_copies (p code detail addr : Nat) (s : State) : (recordErr p code detail addr s).copies = s.copies := rfl
@[simp] theorem recordErr_nextCopy (p code detail addr : Nat) (s : State) : (recordErr p code detail addr s).nextCopy = s.nextCopy := rfl
@[simp] theorem recordErr_lnk (p code detail addr : Nat) (s : State) : (recordErr p code detail addr s).lnk = s.lnk := rfl
@[simp] theorem recordErr_doc (p code detail addr : Nat) (s : State) : (recordErr p code detail addr s).doc = s.doc := rfl
@[simp] theorem recordErr_cat (p code detail addr : Nat) (s : State) : (recordErr p code detail addr s).cat = s.cat := rfl
@[simp] theorem recordErr_lpm (p code detail addr : Nat) (s : State) : (recordErr p code detail addr s).lpm = s.lpm := rfl
@[simp] theorem recordErr_vit (p code detail addr : Nat) (s : State) : (recordErr p code detail addr s).vit = s.vit := rfl
@[simp] theorem recordErr_prv (p code detail addr : Nat) (s : State) : (recordErr p code detail addr s).prv = s.prv := rfl
@[simp] theorem recordErr_csv (p code detail addr : Nat) (s : State) : (recordErr p code detail addr s).csv = s.csv := rfl
@[simp] theorem recordErr_hal (p code detail addr : Nat) (s : State) : (recordErr p code detail addr s).hal = s.hal := rfl
@[simp] theorem recordErr_dpt (p code detail addr : Nat) (s : State) : (recordErr p code detail addr s).dpt = s.dpt := rfl
@[simp] theorem recordErr_tmg (p code detail addr : Nat) (s : State) : (recordErr p code detail addr s).tmg = s.tmg := rfl
@[simp] theorem recordErr_tsn (p code detail addr : Nat) (s : State) : (recordErr p code detail addr s).tsn = s.tsn := rfl
@[simp] theorem recordErr_vlt (p code detail addr : Nat) (s : State) : (recordErr p code detail addr s).vlt = s.vlt := rfl
@[simp] theorem recordErr_arc (p code detail addr : Nat) (s : State) : (recordErr p code detail addr s).arc = s.arc := rfl
@[simp] theorem recordErr_rgr (p code detail addr : Nat) (s : State) : (recordErr p code detail addr s).rgr = s.rgr := rfl
@[simp] theorem recordErr_hif (p code detail addr : Nat) (s : State) : (recordErr p code detail addr s).hif = s.hif := rfl
@[simp] theorem recordErr_anx (p code detail addr : Nat) (s : State) : (recordErr p code detail addr s).anx = s.anx := rfl
@[simp] theorem recordErr_cur (p code detail addr : Nat) (s : State) : (recordErr p code detail addr s).cur = s.cur := rfl
@[simp] theorem recordErr_pwr (p code detail addr : Nat) (s : State) : (recordErr p code detail addr s).pwr = s.pwr := rfl
@[simp] theorem recordErr_lcs (p code detail addr : Nat) (s : State) : (recordErr p code detail addr s).lcs = s.lcs := rfl
@[simp] theorem recordErr_dev (p code detail addr : Nat) (s : State) : (recordErr p code detail addr s).dev = s.dev := rfl
@[simp] theorem recordErr_ldg (p code detail addr : Nat) (s : State) : (recordErr p code detail addr s).ldg = s.ldg := rfl
@[simp] theorem recordErr_pending (p code detail addr : Nat) (s : State) : (recordErr p code detail addr s).pending = s.pending := rfl

@[simp] theorem sendMsg_part (p kind addr : Nat) (inj : Bool) (s : State) : (sendMsg p kind addr inj s).part = s.part := rfl
@[simp] theorem sendMsg_tab (p kind addr : Nat) (inj : Bool) (s : State) : (sendMsg p kind addr inj s).tab = s.tab := rfl
@[simp] theorem sendMsg_time (p kind addr : Nat) (inj : Bool) (s : State) : (sendMsg p kind addr inj s).time = s.time := rfl
@[simp] theorem sendMsg_frames (p kind addr : Nat) (inj : Bool) (s : State) : (sendMsg p kind addr inj s).frames = s.frames := rfl
@[simp] theorem sendMsg_nextId (p kind addr : Nat) (inj : Bool) (s : State) : (sendMsg p kind addr inj s).nextId = s.nextId := rfl
@[simp] theorem sendMsg_nextSeq (p kind addr : Nat) (inj : Bool) (s : State) : (sendMsg p kind addr inj s).nextSeq = s.nextSeq := rfl
@[simp] theorem sendMsg_copies (p kind addr : Nat) (inj : Bool) (s : State) : (sendMsg p kind addr inj s).copies = s.copies := rfl
@[simp] theorem sendMsg_nextCopy (p kind addr : Nat) (inj : Bool) (s : State) : (sendMsg p kind addr inj s).nextCopy = s.nextCopy := rfl
@[simp] theorem sendMsg_lnk (p kind addr : Nat) (inj : Bool) (s : State) : (sendMsg p kind addr inj s).lnk = s.lnk := rfl
@[simp] theorem sendMsg_doc (p kind addr : Nat) (inj : Bool) (s : State) : (sendMsg p kind addr inj s).doc = s.doc := rfl
@[simp] theorem sendMsg_cat (p kind addr : Nat) (inj : Bool) (s : State) : (sendMsg p kind addr inj s).cat = s.cat := rfl
@[simp] theorem sendMsg_lpm (p kind addr : Nat) (inj : Bool) (s : State) : (sendMsg p kind addr inj s).lpm = s.lpm := rfl
@[simp] theorem sendMsg_vit (p kind addr : Nat) (inj : Bool) (s : State) : (sendMsg p kind addr inj s).vit = s.vit := rfl
@[simp] theorem sendMsg_prv (p kind addr : Nat) (inj : Bool) (s : State) : (sendMsg p kind addr inj s).prv = s.prv := rfl
@[simp] theorem sendMsg_csv (p kind addr : Nat) (inj : Bool) (s : State) : (sendMsg p kind addr inj s).csv = s.csv := rfl
@[simp] theorem sendMsg_hal (p kind addr : Nat) (inj : Bool) (s : State) : (sendMsg p kind addr inj s).hal = s.hal := rfl
@[simp] theorem sendMsg_dpt (p kind addr : Nat) (inj : Bool) (s : State) : (sendMsg p kind addr inj s).dpt = s.dpt := rfl
@[simp] theorem sendMsg_tmg (p kind addr : Nat) (inj : Bool) (s : State) : (sendMsg p kind addr inj s).tmg = s.tmg := rfl
@[simp] theorem sendMsg_tsn (p kind addr : Nat) (inj : Bool) (s : State) : (sendMsg p kind addr inj s).tsn = s.tsn := rfl
@[simp] theorem sendMsg_vlt (p kind addr : Nat) (inj : Bool) (s : State) : (sendMsg p kind addr inj s).vlt = s.vlt := rfl
@[simp] theorem sendMsg_arc (p kind addr : Nat) (inj : Bool) (s : State) : (sendMsg p kind addr inj s).arc = s.arc := rfl
@[simp] theorem sendMsg_rgr (p kind addr : Nat) (inj : Bool) (s : State) : (sendMsg p kind addr inj s).rgr = s.rgr := rfl
@[simp] theorem sendMsg_hif (p kind addr : Nat) (inj : Bool) (s : State) : (sendMsg p kind addr inj s).hif = s.hif := rfl
@[simp] theorem sendMsg_anx (p kind addr : Nat) (inj : Bool) (s : State) : (sendMsg p kind addr inj s).anx = s.anx := rfl
@[simp] theorem sendMsg_cur (p kind addr : Nat) (inj : Bool) (s : State) : (sendMsg p kind addr inj s).cur = s.cur := rfl
@[simp] theorem sendMsg_pwr (p kind addr : Nat) (inj : Bool) (s : State) : (sendMsg p kind addr inj s).pwr = s.pwr := rfl
@[simp] theorem sendMsg_lcs (p kind addr : Nat) (inj : Bool) (s : State) : (sendMsg p kind addr inj s).lcs = s.lcs := rfl
@[simp] theorem sendMsg_dev (p kind addr : Nat) (inj : Bool) (s : State) : (sendMsg p kind addr inj s).dev = s.dev := rfl
@[simp] theorem sendMsg_ldg (p kind addr : Nat) (inj : Bool) (s : State) : (sendMsg p kind addr inj s).ldg = s.ldg := rfl
@[simp] theorem sendMsg_pending (p kind addr : Nat) (inj : Bool) (s : State) : (sendMsg p kind addr inj s).pending = s.pending := rfl

@[simp] theorem incSat_part (a hi lo : Nat) (s : State) : (incSat a hi lo s).part = s.part := (incSat_onlyBus a hi lo s).part
@[simp] theorem incSat_tab (a hi lo : Nat) (s : State) : (incSat a hi lo s).tab = s.tab := (incSat_onlyBus a hi lo s).tab
@[simp] theorem incSat_time (a hi lo : Nat) (s : State) : (incSat a hi lo s).time = s.time := (incSat_onlyBus a hi lo s).time
@[simp] theorem incSat_frames (a hi lo : Nat) (s : State) : (incSat a hi lo s).frames = s.frames := (incSat_onlyBus a hi lo s).frames
@[simp] theorem incSat_nextId (a hi lo : Nat) (s : State) : (incSat a hi lo s).nextId = s.nextId := (incSat_onlyBus a hi lo s).nextId
@[simp] theorem incSat_nextSeq (a hi lo : Nat) (s : State) : (incSat a hi lo s).nextSeq = s.nextSeq := (incSat_onlyBus a hi lo s).nextSeq
@[simp] theorem incSat_copies (a hi lo : Nat) (s : State) : (incSat a hi lo s).copies = s.copies := (incSat_onlyBus a hi lo s).copies
@[simp] theorem incSat_nextCopy (a hi lo : Nat) (s : State) : (incSat a hi lo s).nextCopy = s.nextCopy := (incSat_onlyBus a hi lo s).nextCopy
@[simp] theorem incSat_lnk (a hi lo : Nat) (s : State) : (incSat a hi lo s).lnk = s.lnk := (incSat_onlyBus a hi lo s).lnk
@[simp] theorem incSat_doc (a hi lo : Nat) (s : State) : (incSat a hi lo s).doc = s.doc := (incSat_onlyBus a hi lo s).doc
@[simp] theorem incSat_cat (a hi lo : Nat) (s : State) : (incSat a hi lo s).cat = s.cat := (incSat_onlyBus a hi lo s).cat
@[simp] theorem incSat_lpm (a hi lo : Nat) (s : State) : (incSat a hi lo s).lpm = s.lpm := (incSat_onlyBus a hi lo s).lpm
@[simp] theorem incSat_vit (a hi lo : Nat) (s : State) : (incSat a hi lo s).vit = s.vit := (incSat_onlyBus a hi lo s).vit
@[simp] theorem incSat_prv (a hi lo : Nat) (s : State) : (incSat a hi lo s).prv = s.prv := (incSat_onlyBus a hi lo s).prv
@[simp] theorem incSat_csv (a hi lo : Nat) (s : State) : (incSat a hi lo s).csv = s.csv := (incSat_onlyBus a hi lo s).csv
@[simp] theorem incSat_hal (a hi lo : Nat) (s : State) : (incSat a hi lo s).hal = s.hal := (incSat_onlyBus a hi lo s).hal
@[simp] theorem incSat_dpt (a hi lo : Nat) (s : State) : (incSat a hi lo s).dpt = s.dpt := (incSat_onlyBus a hi lo s).dpt
@[simp] theorem incSat_tmg (a hi lo : Nat) (s : State) : (incSat a hi lo s).tmg = s.tmg := (incSat_onlyBus a hi lo s).tmg
@[simp] theorem incSat_tsn (a hi lo : Nat) (s : State) : (incSat a hi lo s).tsn = s.tsn := (incSat_onlyBus a hi lo s).tsn
@[simp] theorem incSat_vlt (a hi lo : Nat) (s : State) : (incSat a hi lo s).vlt = s.vlt := (incSat_onlyBus a hi lo s).vlt
@[simp] theorem incSat_arc (a hi lo : Nat) (s : State) : (incSat a hi lo s).arc = s.arc := (incSat_onlyBus a hi lo s).arc
@[simp] theorem incSat_rgr (a hi lo : Nat) (s : State) : (incSat a hi lo s).rgr = s.rgr := (incSat_onlyBus a hi lo s).rgr
@[simp] theorem incSat_hif (a hi lo : Nat) (s : State) : (incSat a hi lo s).hif = s.hif := (incSat_onlyBus a hi lo s).hif
@[simp] theorem incSat_anx (a hi lo : Nat) (s : State) : (incSat a hi lo s).anx = s.anx := (incSat_onlyBus a hi lo s).anx
@[simp] theorem incSat_cur (a hi lo : Nat) (s : State) : (incSat a hi lo s).cur = s.cur := (incSat_onlyBus a hi lo s).cur
@[simp] theorem incSat_pwr (a hi lo : Nat) (s : State) : (incSat a hi lo s).pwr = s.pwr := (incSat_onlyBus a hi lo s).pwr
@[simp] theorem incSat_lcs (a hi lo : Nat) (s : State) : (incSat a hi lo s).lcs = s.lcs := (incSat_onlyBus a hi lo s).lcs
@[simp] theorem incSat_dev (a hi lo : Nat) (s : State) : (incSat a hi lo s).dev = s.dev := (incSat_onlyBus a hi lo s).dev
@[simp] theorem incSat_ldg (a hi lo : Nat) (s : State) : (incSat a hi lo s).ldg = s.ldg := (incSat_onlyBus a hi lo s).ldg
@[simp] theorem incSat_pending (a hi lo : Nat) (s : State) : (incSat a hi lo s).pending = s.pending := (incSat_onlyBus a hi lo s).pending

@[simp] theorem bumpN_part (a n : Nat) (s : State) : (bumpN a n s).part = s.part := (bumpN_onlyBus a n s).part
@[simp] theorem bumpN_tab (a n : Nat) (s : State) : (bumpN a n s).tab = s.tab := (bumpN_onlyBus a n s).tab
@[simp] theorem bumpN_time (a n : Nat) (s : State) : (bumpN a n s).time = s.time := (bumpN_onlyBus a n s).time
@[simp] theorem bumpN_frames (a n : Nat) (s : State) : (bumpN a n s).frames = s.frames := (bumpN_onlyBus a n s).frames
@[simp] theorem bumpN_nextId (a n : Nat) (s : State) : (bumpN a n s).nextId = s.nextId := (bumpN_onlyBus a n s).nextId
@[simp] theorem bumpN_nextSeq (a n : Nat) (s : State) : (bumpN a n s).nextSeq = s.nextSeq := (bumpN_onlyBus a n s).nextSeq
@[simp] theorem bumpN_copies (a n : Nat) (s : State) : (bumpN a n s).copies = s.copies := (bumpN_onlyBus a n s).copies
@[simp] theorem bumpN_nextCopy (a n : Nat) (s : State) : (bumpN a n s).nextCopy = s.nextCopy := (bumpN_onlyBus a n s).nextCopy
@[simp] theorem bumpN_lnk (a n : Nat) (s : State) : (bumpN a n s).lnk = s.lnk := (bumpN_onlyBus a n s).lnk
@[simp] theorem bumpN_doc (a n : Nat) (s : State) : (bumpN a n s).doc = s.doc := (bumpN_onlyBus a n s).doc
@[simp] theorem bumpN_cat (a n : Nat) (s : State) : (bumpN a n s).cat = s.cat := (bumpN_onlyBus a n s).cat
@[simp] theorem bumpN_lpm (a n : Nat) (s : State) : (bumpN a n s).lpm = s.lpm := (bumpN_onlyBus a n s).lpm
@[simp] theorem bumpN_vit (a n : Nat) (s : State) : (bumpN a n s).vit = s.vit := (bumpN_onlyBus a n s).vit
@[simp] theorem bumpN_prv (a n : Nat) (s : State) : (bumpN a n s).prv = s.prv := (bumpN_onlyBus a n s).prv
@[simp] theorem bumpN_csv (a n : Nat) (s : State) : (bumpN a n s).csv = s.csv := (bumpN_onlyBus a n s).csv
@[simp] theorem bumpN_hal (a n : Nat) (s : State) : (bumpN a n s).hal = s.hal := (bumpN_onlyBus a n s).hal
@[simp] theorem bumpN_dpt (a n : Nat) (s : State) : (bumpN a n s).dpt = s.dpt := (bumpN_onlyBus a n s).dpt
@[simp] theorem bumpN_tmg (a n : Nat) (s : State) : (bumpN a n s).tmg = s.tmg := (bumpN_onlyBus a n s).tmg
@[simp] theorem bumpN_tsn (a n : Nat) (s : State) : (bumpN a n s).tsn = s.tsn := (bumpN_onlyBus a n s).tsn
@[simp] theorem bumpN_vlt (a n : Nat) (s : State) : (bumpN a n s).vlt = s.vlt := (bumpN_onlyBus a n s).vlt
@[simp] theorem bumpN_arc (a n : Nat) (s : State) : (bumpN a n s).arc = s.arc := (bumpN_onlyBus a n s).arc
@[simp] theorem bumpN_rgr (a n : Nat) (s : State) : (bumpN a n s).rgr = s.rgr := (bumpN_onlyBus a n s).rgr
@[simp] theorem bumpN_hif (a n : Nat) (s : State) : (bumpN a n s).hif = s.hif := (bumpN_onlyBus a n s).hif
@[simp] theorem bumpN_anx (a n : Nat) (s : State) : (bumpN a n s).anx = s.anx := (bumpN_onlyBus a n s).anx
@[simp] theorem bumpN_cur (a n : Nat) (s : State) : (bumpN a n s).cur = s.cur := (bumpN_onlyBus a n s).cur
@[simp] theorem bumpN_pwr (a n : Nat) (s : State) : (bumpN a n s).pwr = s.pwr := (bumpN_onlyBus a n s).pwr
@[simp] theorem bumpN_lcs (a n : Nat) (s : State) : (bumpN a n s).lcs = s.lcs := (bumpN_onlyBus a n s).lcs
@[simp] theorem bumpN_dev (a n : Nat) (s : State) : (bumpN a n s).dev = s.dev := (bumpN_onlyBus a n s).dev
@[simp] theorem bumpN_ldg (a n : Nat) (s : State) : (bumpN a n s).ldg = s.ldg := (bumpN_onlyBus a n s).ldg
@[simp] theorem bumpN_pending (a n : Nat) (s : State) : (bumpN a n s).pending = s.pending := (bumpN_onlyBus a n s).pending

@[simp] theorem bump_part (a : Nat) (s : State) : (bump a s).part = s.part := (bump_onlyBus a s).part
@[simp] theorem bump_tab (a : Nat) (s : State) : (bump a s).tab = s.tab := (bump_onlyBus a s).tab
@[simp] theorem bump_time (a : Nat) (s : State) : (bump a s).time = s.time := (bump_onlyBus a s).time
@[simp] theorem bump_frames (a : Nat) (s : State) : (bump a s).frames = s.frames := (bump_onlyBus a s).frames
@[simp] theorem bump_nextId (a : Nat) (s : State) : (bump a s).nextId = s.nextId := (bump_onlyBus a s).nextId
@[simp] theorem bump_nextSeq (a : Nat) (s : State) : (bump a s).nextSeq = s.nextSeq := (bump_onlyBus a s).nextSeq
@[simp] theorem bump_copies (a : Nat) (s : State) : (bump a s).copies = s.copies := (bump_onlyBus a s).copies
@[simp] theorem bump_nextCopy (a : Nat) (s : State) : (bump a s).nextCopy = s.nextCopy := (bump_onlyBus a s).nextCopy
@[simp] theorem bump_lnk (a : Nat) (s : State) : (bump a s).lnk = s.lnk := (bump_onlyBus a s).lnk
@[simp] theorem bump_doc (a : Nat) (s : State) : (bump a s).doc = s.doc := (bump_onlyBus a s).doc
@[simp] theorem bump_cat (a : Nat) (s : State) : (bump a s).cat = s.cat := (bump_onlyBus a s).cat
@[simp] theorem bump_lpm (a : Nat) (s : State) : (bump a s).lpm = s.lpm := (bump_onlyBus a s).lpm
@[simp] theorem bump_vit (a : Nat) (s : State) : (bump a s).vit = s.vit := (bump_onlyBus a s).vit
@[simp] theorem bump_prv (a : Nat) (s : State) : (bump a s).prv = s.prv := (bump_onlyBus a s).prv
@[simp] theorem bump_csv (a : Nat) (s : State) : (bump a s).csv = s.csv := (bump_onlyBus a s).csv
@[simp] theorem bump_hal (a : Nat) (s : State) : (bump a s).hal = s.hal := (bump_onlyBus a s).hal
@[simp] theorem bump_dpt (a : Nat) (s : State) : (bump a s).dpt = s.dpt := (bump_onlyBus a s).dpt
@[simp] theorem bump_tmg (a : Nat) (s : State) : (bump a s).tmg = s.tmg := (bump_onlyBus a s).tmg
@[simp] theorem bump_tsn (a : Nat) (s : State) : (bump a s).tsn = s.tsn := (bump_onlyBus a s).tsn
@[simp] theorem bump_vlt (a : Nat) (s : State) : (bump a s).vlt = s.vlt := (bump_onlyBus a s).vlt
@[simp] theorem bump_arc (a : Nat) (s : State) : (bump a s).arc = s.arc := (bump_onlyBus a s).arc
@[simp] theorem bump_rgr (a : Nat) (s : State) : (bump a s).rgr = s.rgr := (bump_onlyBus a s).rgr
@[simp] theorem bump_hif (a : Nat) (s : State) : (bump a s).hif = s.hif := (bump_onlyBus a s).hif
@[simp] theorem bump_anx (a : Nat) (s : State) : (bump a s).anx = s.anx := (bump_onlyBus a s).anx
@[simp] theorem bump_cur (a : Nat) (s : State) : (bump a s).cur = s.cur := (bump_onlyBus a s).cur
@[simp] theorem bump_pwr (a : Nat) (s : State) : (bump a s).pwr = s.pwr := (bump_onlyBus a s).pwr
@[simp] theorem bump_lcs (a : Nat) (s : State) : (bump a s).lcs = s.lcs := (bump_onlyBus a s).lcs
@[simp] theorem bump_dev (a : Nat) (s : State) : (bump a s).dev = s.dev := (bump_onlyBus a s).dev
@[simp] theorem bump_ldg (a : Nat) (s : State) : (bump a s).ldg = s.ldg := (bump_onlyBus a s).ldg
@[simp] theorem bump_pending (a : Nat) (s : State) : (bump a s).pending = s.pending := (bump_onlyBus a s).pending

@[simp] theorem ctrAdd_part (g n k : Nat) (s : State) : (ctrAdd g n k s).part = s.part := rfl
@[simp] theorem ctrAdd_tab (g n k : Nat) (s : State) : (ctrAdd g n k s).tab = s.tab := rfl
@[simp] theorem ctrAdd_time (g n k : Nat) (s : State) : (ctrAdd g n k s).time = s.time := rfl
@[simp] theorem ctrAdd_frames (g n k : Nat) (s : State) : (ctrAdd g n k s).frames = s.frames := rfl
@[simp] theorem ctrAdd_nextId (g n k : Nat) (s : State) : (ctrAdd g n k s).nextId = s.nextId := rfl
@[simp] theorem ctrAdd_nextSeq (g n k : Nat) (s : State) : (ctrAdd g n k s).nextSeq = s.nextSeq := rfl
@[simp] theorem ctrAdd_copies (g n k : Nat) (s : State) : (ctrAdd g n k s).copies = s.copies := rfl
@[simp] theorem ctrAdd_nextCopy (g n k : Nat) (s : State) : (ctrAdd g n k s).nextCopy = s.nextCopy := rfl
@[simp] theorem ctrAdd_lnk (g n k : Nat) (s : State) : (ctrAdd g n k s).lnk = s.lnk := rfl
@[simp] theorem ctrAdd_doc (g n k : Nat) (s : State) : (ctrAdd g n k s).doc = s.doc := rfl
@[simp] theorem ctrAdd_cat (g n k : Nat) (s : State) : (ctrAdd g n k s).cat = s.cat := rfl
@[simp] theorem ctrAdd_lpm (g n k : Nat) (s : State) : (ctrAdd g n k s).lpm = s.lpm := rfl
@[simp] theorem ctrAdd_vit (g n k : Nat) (s : State) : (ctrAdd g n k s).vit = s.vit := rfl
@[simp] theorem ctrAdd_prv (g n k : Nat) (s : State) : (ctrAdd g n k s).prv = s.prv := rfl
@[simp] theorem ctrAdd_csv (g n k : Nat) (s : State) : (ctrAdd g n k s).csv = s.csv := rfl
@[simp] theorem ctrAdd_hal (g n k : Nat) (s : State) : (ctrAdd g n k s).hal = s.hal := rfl
@[simp] theorem ctrAdd_dpt (g n k : Nat) (s : State) : (ctrAdd g n k s).dpt = s.dpt := rfl
@[simp] theorem ctrAdd_tmg (g n k : Nat) (s : State) : (ctrAdd g n k s).tmg = s.tmg := rfl
@[simp] theorem ctrAdd_tsn (g n k : Nat) (s : State) : (ctrAdd g n k s).tsn = s.tsn := rfl
@[simp] theorem ctrAdd_vlt (g n k : Nat) (s : State) : (ctrAdd g n k s).vlt = s.vlt := rfl
@[simp] theorem ctrAdd_arc (g n k : Nat) (s : State) : (ctrAdd g n k s).arc = s.arc := rfl
@[simp] theorem ctrAdd_rgr (g n k : Nat) (s : State) : (ctrAdd g n k s).rgr = s.rgr := rfl
@[simp] theorem ctrAdd_hif (g n k : Nat) (s : State) : (ctrAdd g n k s).hif = s.hif := rfl
@[simp] theorem ctrAdd_anx (g n k : Nat) (s : State) : (ctrAdd g n k s).anx = s.anx := rfl
@[simp] theorem ctrAdd_cur (g n k : Nat) (s : State) : (ctrAdd g n k s).cur = s.cur := rfl
@[simp] theorem ctrAdd_pwr (g n k : Nat) (s : State) : (ctrAdd g n k s).pwr = s.pwr := rfl
@[simp] theorem ctrAdd_lcs (g n k : Nat) (s : State) : (ctrAdd g n k s).lcs = s.lcs := rfl
@[simp] theorem ctrAdd_dev (g n k : Nat) (s : State) : (ctrAdd g n k s).dev = s.dev := rfl
@[simp] theorem ctrAdd_ldg (g n k : Nat) (s : State) : (ctrAdd g n k s).ldg = s.ldg := rfl
@[simp] theorem ctrAdd_pending (g n k : Nat) (s : State) : (ctrAdd g n k s).pending = s.pending := rfl

@[simp] theorem ledgerFlush_part (s : State) : (ledgerFlush s).part = s.part := (ledgerFlush_onlyBus s).part
@[simp] theorem ledgerFlush_tab (s : State) : (ledgerFlush s).tab = s.tab := (ledgerFlush_onlyBus s).tab
@[simp] theorem ledgerFlush_time (s : State) : (ledgerFlush s).time = s.time := (ledgerFlush_onlyBus s).time
@[simp] theorem ledgerFlush_frames (s : State) : (ledgerFlush s).frames = s.frames := (ledgerFlush_onlyBus s).frames
@[simp] theorem ledgerFlush_nextId (s : State) : (ledgerFlush s).nextId = s.nextId := (ledgerFlush_onlyBus s).nextId
@[simp] theorem ledgerFlush_nextSeq (s : State) : (ledgerFlush s).nextSeq = s.nextSeq := (ledgerFlush_onlyBus s).nextSeq
@[simp] theorem ledgerFlush_copies (s : State) : (ledgerFlush s).copies = s.copies := (ledgerFlush_onlyBus s).copies
@[simp] theorem ledgerFlush_nextCopy (s : State) : (ledgerFlush s).nextCopy = s.nextCopy := (ledgerFlush_onlyBus s).nextCopy
@[simp] theorem ledgerFlush_lnk (s : State) : (ledgerFlush s).lnk = s.lnk := (ledgerFlush_onlyBus s).lnk
@[simp] theorem ledgerFlush_doc (s : State) : (ledgerFlush s).doc = s.doc := (ledgerFlush_onlyBus s).doc
@[simp] theorem ledgerFlush_cat (s : State) : (ledgerFlush s).cat = s.cat := (ledgerFlush_onlyBus s).cat
@[simp] theorem ledgerFlush_lpm (s : State) : (ledgerFlush s).lpm = s.lpm := (ledgerFlush_onlyBus s).lpm
@[simp] theorem ledgerFlush_vit (s : State) : (ledgerFlush s).vit = s.vit := (ledgerFlush_onlyBus s).vit
@[simp] theorem ledgerFlush_prv (s : State) : (ledgerFlush s).prv = s.prv := (ledgerFlush_onlyBus s).prv
@[simp] theorem ledgerFlush_csv (s : State) : (ledgerFlush s).csv = s.csv := (ledgerFlush_onlyBus s).csv
@[simp] theorem ledgerFlush_hal (s : State) : (ledgerFlush s).hal = s.hal := (ledgerFlush_onlyBus s).hal
@[simp] theorem ledgerFlush_dpt (s : State) : (ledgerFlush s).dpt = s.dpt := (ledgerFlush_onlyBus s).dpt
@[simp] theorem ledgerFlush_tmg (s : State) : (ledgerFlush s).tmg = s.tmg := (ledgerFlush_onlyBus s).tmg
@[simp] theorem ledgerFlush_tsn (s : State) : (ledgerFlush s).tsn = s.tsn := (ledgerFlush_onlyBus s).tsn
@[simp] theorem ledgerFlush_vlt (s : State) : (ledgerFlush s).vlt = s.vlt := (ledgerFlush_onlyBus s).vlt
@[simp] theorem ledgerFlush_arc (s : State) : (ledgerFlush s).arc = s.arc := (ledgerFlush_onlyBus s).arc
@[simp] theorem ledgerFlush_rgr (s : State) : (ledgerFlush s).rgr = s.rgr := (ledgerFlush_onlyBus s).rgr
@[simp] theorem ledgerFlush_hif (s : State) : (ledgerFlush s).hif = s.hif := (ledgerFlush_onlyBus s).hif
@[simp] theorem ledgerFlush_anx (s : State) : (ledgerFlush s).anx = s.anx := (ledgerFlush_onlyBus s).anx
@[simp] theorem ledgerFlush_cur (s : State) : (ledgerFlush s).cur = s.cur := (ledgerFlush_onlyBus s).cur
@[simp] theorem ledgerFlush_pwr (s : State) : (ledgerFlush s).pwr = s.pwr := (ledgerFlush_onlyBus s).pwr
@[simp] theorem ledgerFlush_lcs (s : State) : (ledgerFlush s).lcs = s.lcs := (ledgerFlush_onlyBus s).lcs
@[simp] theorem ledgerFlush_dev (s : State) : (ledgerFlush s).dev = s.dev := (ledgerFlush_onlyBus s).dev
@[simp] theorem ledgerFlush_ldg (s : State) : (ledgerFlush s).ldg = s.ldg := (ledgerFlush_onlyBus s).ldg
@[simp] theorem ledgerFlush_pending (s : State) : (ledgerFlush s).pending = s.pending := (ledgerFlush_onlyBus s).pending

@[simp] theorem sendMsix_part (v : Nat) (s : State) : (sendMsix v s).part = s.part := (sendMsix_onlyBus v s).part
@[simp] theorem sendMsix_tab (v : Nat) (s : State) : (sendMsix v s).tab = s.tab := (sendMsix_onlyBus v s).tab
@[simp] theorem sendMsix_time (v : Nat) (s : State) : (sendMsix v s).time = s.time := (sendMsix_onlyBus v s).time
@[simp] theorem sendMsix_frames (v : Nat) (s : State) : (sendMsix v s).frames = s.frames := (sendMsix_onlyBus v s).frames
@[simp] theorem sendMsix_nextId (v : Nat) (s : State) : (sendMsix v s).nextId = s.nextId := (sendMsix_onlyBus v s).nextId
@[simp] theorem sendMsix_nextSeq (v : Nat) (s : State) : (sendMsix v s).nextSeq = s.nextSeq := (sendMsix_onlyBus v s).nextSeq
@[simp] theorem sendMsix_copies (v : Nat) (s : State) : (sendMsix v s).copies = s.copies := (sendMsix_onlyBus v s).copies
@[simp] theorem sendMsix_nextCopy (v : Nat) (s : State) : (sendMsix v s).nextCopy = s.nextCopy := (sendMsix_onlyBus v s).nextCopy
@[simp] theorem sendMsix_lnk (v : Nat) (s : State) : (sendMsix v s).lnk = s.lnk := (sendMsix_onlyBus v s).lnk
@[simp] theorem sendMsix_doc (v : Nat) (s : State) : (sendMsix v s).doc = s.doc := (sendMsix_onlyBus v s).doc
@[simp] theorem sendMsix_cat (v : Nat) (s : State) : (sendMsix v s).cat = s.cat := (sendMsix_onlyBus v s).cat
@[simp] theorem sendMsix_lpm (v : Nat) (s : State) : (sendMsix v s).lpm = s.lpm := (sendMsix_onlyBus v s).lpm
@[simp] theorem sendMsix_vit (v : Nat) (s : State) : (sendMsix v s).vit = s.vit := (sendMsix_onlyBus v s).vit
@[simp] theorem sendMsix_prv (v : Nat) (s : State) : (sendMsix v s).prv = s.prv := (sendMsix_onlyBus v s).prv
@[simp] theorem sendMsix_csv (v : Nat) (s : State) : (sendMsix v s).csv = s.csv := (sendMsix_onlyBus v s).csv
@[simp] theorem sendMsix_hal (v : Nat) (s : State) : (sendMsix v s).hal = s.hal := (sendMsix_onlyBus v s).hal
@[simp] theorem sendMsix_dpt (v : Nat) (s : State) : (sendMsix v s).dpt = s.dpt := (sendMsix_onlyBus v s).dpt
@[simp] theorem sendMsix_tmg (v : Nat) (s : State) : (sendMsix v s).tmg = s.tmg := (sendMsix_onlyBus v s).tmg
@[simp] theorem sendMsix_tsn (v : Nat) (s : State) : (sendMsix v s).tsn = s.tsn := (sendMsix_onlyBus v s).tsn
@[simp] theorem sendMsix_vlt (v : Nat) (s : State) : (sendMsix v s).vlt = s.vlt := (sendMsix_onlyBus v s).vlt
@[simp] theorem sendMsix_arc (v : Nat) (s : State) : (sendMsix v s).arc = s.arc := (sendMsix_onlyBus v s).arc
@[simp] theorem sendMsix_rgr (v : Nat) (s : State) : (sendMsix v s).rgr = s.rgr := (sendMsix_onlyBus v s).rgr
@[simp] theorem sendMsix_hif (v : Nat) (s : State) : (sendMsix v s).hif = s.hif := (sendMsix_onlyBus v s).hif
@[simp] theorem sendMsix_anx (v : Nat) (s : State) : (sendMsix v s).anx = s.anx := (sendMsix_onlyBus v s).anx
@[simp] theorem sendMsix_cur (v : Nat) (s : State) : (sendMsix v s).cur = s.cur := (sendMsix_onlyBus v s).cur
@[simp] theorem sendMsix_pwr (v : Nat) (s : State) : (sendMsix v s).pwr = s.pwr := (sendMsix_onlyBus v s).pwr
@[simp] theorem sendMsix_lcs (v : Nat) (s : State) : (sendMsix v s).lcs = s.lcs := (sendMsix_onlyBus v s).lcs
@[simp] theorem sendMsix_dev (v : Nat) (s : State) : (sendMsix v s).dev = s.dev := (sendMsix_onlyBus v s).dev
@[simp] theorem sendMsix_ldg (v : Nat) (s : State) : (sendMsix v s).ldg = s.ldg := (sendMsix_onlyBus v s).ldg
@[simp] theorem sendMsix_pending (v : Nat) (s : State) : (sendMsix v s).pending = s.pending := (sendMsix_onlyBus v s).pending

@[simp] theorem pendEdge_part (p : Nat) (before : Bool) (s : State) : (pendEdge p before s).part = s.part := (pendEdge_onlyBus p before s).part
@[simp] theorem pendEdge_tab (p : Nat) (before : Bool) (s : State) : (pendEdge p before s).tab = s.tab := (pendEdge_onlyBus p before s).tab
@[simp] theorem pendEdge_time (p : Nat) (before : Bool) (s : State) : (pendEdge p before s).time = s.time := (pendEdge_onlyBus p before s).time
@[simp] theorem pendEdge_frames (p : Nat) (before : Bool) (s : State) : (pendEdge p before s).frames = s.frames := (pendEdge_onlyBus p before s).frames
@[simp] theorem pendEdge_nextId (p : Nat) (before : Bool) (s : State) : (pendEdge p before s).nextId = s.nextId := (pendEdge_onlyBus p before s).nextId
@[simp] theorem pendEdge_nextSeq (p : Nat) (before : Bool) (s : State) : (pendEdge p before s).nextSeq = s.nextSeq := (pendEdge_onlyBus p before s).nextSeq
@[simp] theorem pendEdge_copies (p : Nat) (before : Bool) (s : State) : (pendEdge p before s).copies = s.copies := (pendEdge_onlyBus p before s).copies
@[simp] theorem pendEdge_nextCopy (p : Nat) (before : Bool) (s : State) : (pendEdge p before s).nextCopy = s.nextCopy := (pendEdge_onlyBus p before s).nextCopy
@[simp] theorem pendEdge_lnk (p : Nat) (before : Bool) (s : State) : (pendEdge p before s).lnk = s.lnk := (pendEdge_onlyBus p before s).lnk
@[simp] theorem pendEdge_doc (p : Nat) (before : Bool) (s : State) : (pendEdge p before s).doc = s.doc := (pendEdge_onlyBus p before s).doc
@[simp] theorem pendEdge_cat (p : Nat) (before : Bool) (s : State) : (pendEdge p before s).cat = s.cat := (pendEdge_onlyBus p before s).cat
@[simp] theorem pendEdge_lpm (p : Nat) (before : Bool) (s : State) : (pendEdge p before s).lpm = s.lpm := (pendEdge_onlyBus p before s).lpm
@[simp] theorem pendEdge_vit (p : Nat) (before : Bool) (s : State) : (pendEdge p before s).vit = s.vit := (pendEdge_onlyBus p before s).vit
@[simp] theorem pendEdge_prv (p : Nat) (before : Bool) (s : State) : (pendEdge p before s).prv = s.prv := (pendEdge_onlyBus p before s).prv
@[simp] theorem pendEdge_csv (p : Nat) (before : Bool) (s : State) : (pendEdge p before s).csv = s.csv := (pendEdge_onlyBus p before s).csv
@[simp] theorem pendEdge_hal (p : Nat) (before : Bool) (s : State) : (pendEdge p before s).hal = s.hal := (pendEdge_onlyBus p before s).hal
@[simp] theorem pendEdge_dpt (p : Nat) (before : Bool) (s : State) : (pendEdge p before s).dpt = s.dpt := (pendEdge_onlyBus p before s).dpt
@[simp] theorem pendEdge_tmg (p : Nat) (before : Bool) (s : State) : (pendEdge p before s).tmg = s.tmg := (pendEdge_onlyBus p before s).tmg
@[simp] theorem pendEdge_tsn (p : Nat) (before : Bool) (s : State) : (pendEdge p before s).tsn = s.tsn := (pendEdge_onlyBus p before s).tsn
@[simp] theorem pendEdge_vlt (p : Nat) (before : Bool) (s : State) : (pendEdge p before s).vlt = s.vlt := (pendEdge_onlyBus p before s).vlt
@[simp] theorem pendEdge_arc (p : Nat) (before : Bool) (s : State) : (pendEdge p before s).arc = s.arc := (pendEdge_onlyBus p before s).arc
@[simp] theorem pendEdge_rgr (p : Nat) (before : Bool) (s : State) : (pendEdge p before s).rgr = s.rgr := (pendEdge_onlyBus p before s).rgr
@[simp] theorem pendEdge_hif (p : Nat) (before : Bool) (s : State) : (pendEdge p before s).hif = s.hif := (pendEdge_onlyBus p before s).hif
@[simp] theorem pendEdge_anx (p : Nat) (before : Bool) (s : State) : (pendEdge p before s).anx = s.anx := (pendEdge_onlyBus p before s).anx
@[simp] theorem pendEdge_cur (p : Nat) (before : Bool) (s : State) : (pendEdge p before s).cur = s.cur := (pendEdge_onlyBus p before s).cur
@[simp] theorem pendEdge_pwr (p : Nat) (before : Bool) (s : State) : (pendEdge p before s).pwr = s.pwr := (pendEdge_onlyBus p before s).pwr
@[simp] theorem pendEdge_lcs (p : Nat) (before : Bool) (s : State) : (pendEdge p before s).lcs = s.lcs := (pendEdge_onlyBus p before s).lcs
@[simp] theorem pendEdge_dev (p : Nat) (before : Bool) (s : State) : (pendEdge p before s).dev = s.dev := (pendEdge_onlyBus p before s).dev
@[simp] theorem pendEdge_ldg (p : Nat) (before : Bool) (s : State) : (pendEdge p before s).ldg = s.ldg := (pendEdge_onlyBus p before s).ldg
@[simp] theorem pendEdge_pending (p : Nat) (before : Bool) (s : State) : (pendEdge p before s).pending = s.pending := (pendEdge_onlyBus p before s).pending

@[simp] theorem raiseAs_part (inj : Bool) (p b : Nat) (s : State) : (raiseAs inj p b s).part = s.part := (raiseAs_onlyBus inj p b s).part
@[simp] theorem raiseAs_tab (inj : Bool) (p b : Nat) (s : State) : (raiseAs inj p b s).tab = s.tab := (raiseAs_onlyBus inj p b s).tab
@[simp] theorem raiseAs_time (inj : Bool) (p b : Nat) (s : State) : (raiseAs inj p b s).time = s.time := (raiseAs_onlyBus inj p b s).time
@[simp] theorem raiseAs_frames (inj : Bool) (p b : Nat) (s : State) : (raiseAs inj p b s).frames = s.frames := (raiseAs_onlyBus inj p b s).frames
@[simp] theorem raiseAs_nextId (inj : Bool) (p b : Nat) (s : State) : (raiseAs inj p b s).nextId = s.nextId := (raiseAs_onlyBus inj p b s).nextId
@[simp] theorem raiseAs_nextSeq (inj : Bool) (p b : Nat) (s : State) : (raiseAs inj p b s).nextSeq = s.nextSeq := (raiseAs_onlyBus inj p b s).nextSeq
@[simp] theorem raiseAs_copies (inj : Bool) (p b : Nat) (s : State) : (raiseAs inj p b s).copies = s.copies := (raiseAs_onlyBus inj p b s).copies
@[simp] theorem raiseAs_nextCopy (inj : Bool) (p b : Nat) (s : State) : (raiseAs inj p b s).nextCopy = s.nextCopy := (raiseAs_onlyBus inj p b s).nextCopy
@[simp] theorem raiseAs_lnk (inj : Bool) (p b : Nat) (s : State) : (raiseAs inj p b s).lnk = s.lnk := (raiseAs_onlyBus inj p b s).lnk
@[simp] theorem raiseAs_doc (inj : Bool) (p b : Nat) (s : State) : (raiseAs inj p b s).doc = s.doc := (raiseAs_onlyBus inj p b s).doc
@[simp] theorem raiseAs_cat (inj : Bool) (p b : Nat) (s : State) : (raiseAs inj p b s).cat = s.cat := (raiseAs_onlyBus inj p b s).cat
@[simp] theorem raiseAs_lpm (inj : Bool) (p b : Nat) (s : State) : (raiseAs inj p b s).lpm = s.lpm := (raiseAs_onlyBus inj p b s).lpm
@[simp] theorem raiseAs_vit (inj : Bool) (p b : Nat) (s : State) : (raiseAs inj p b s).vit = s.vit := (raiseAs_onlyBus inj p b s).vit
@[simp] theorem raiseAs_prv (inj : Bool) (p b : Nat) (s : State) : (raiseAs inj p b s).prv = s.prv := (raiseAs_onlyBus inj p b s).prv
@[simp] theorem raiseAs_csv (inj : Bool) (p b : Nat) (s : State) : (raiseAs inj p b s).csv = s.csv := (raiseAs_onlyBus inj p b s).csv
@[simp] theorem raiseAs_hal (inj : Bool) (p b : Nat) (s : State) : (raiseAs inj p b s).hal = s.hal := (raiseAs_onlyBus inj p b s).hal
@[simp] theorem raiseAs_dpt (inj : Bool) (p b : Nat) (s : State) : (raiseAs inj p b s).dpt = s.dpt := (raiseAs_onlyBus inj p b s).dpt
@[simp] theorem raiseAs_tmg (inj : Bool) (p b : Nat) (s : State) : (raiseAs inj p b s).tmg = s.tmg := (raiseAs_onlyBus inj p b s).tmg
@[simp] theorem raiseAs_tsn (inj : Bool) (p b : Nat) (s : State) : (raiseAs inj p b s).tsn = s.tsn := (raiseAs_onlyBus inj p b s).tsn
@[simp] theorem raiseAs_vlt (inj : Bool) (p b : Nat) (s : State) : (raiseAs inj p b s).vlt = s.vlt := (raiseAs_onlyBus inj p b s).vlt
@[simp] theorem raiseAs_arc (inj : Bool) (p b : Nat) (s : State) : (raiseAs inj p b s).arc = s.arc := (raiseAs_onlyBus inj p b s).arc
@[simp] theorem raiseAs_rgr (inj : Bool) (p b : Nat) (s : State) : (raiseAs inj p b s).rgr = s.rgr := (raiseAs_onlyBus inj p b s).rgr
@[simp] theorem raiseAs_hif (inj : Bool) (p b : Nat) (s : State) : (raiseAs inj p b s).hif = s.hif := (raiseAs_onlyBus inj p b s).hif
@[simp] theorem raiseAs_anx (inj : Bool) (p b : Nat) (s : State) : (raiseAs inj p b s).anx = s.anx := (raiseAs_onlyBus inj p b s).anx
@[simp] theorem raiseAs_cur (inj : Bool) (p b : Nat) (s : State) : (raiseAs inj p b s).cur = s.cur := (raiseAs_onlyBus inj p b s).cur
@[simp] theorem raiseAs_pwr (inj : Bool) (p b : Nat) (s : State) : (raiseAs inj p b s).pwr = s.pwr := (raiseAs_onlyBus inj p b s).pwr
@[simp] theorem raiseAs_lcs (inj : Bool) (p b : Nat) (s : State) : (raiseAs inj p b s).lcs = s.lcs := (raiseAs_onlyBus inj p b s).lcs
@[simp] theorem raiseAs_dev (inj : Bool) (p b : Nat) (s : State) : (raiseAs inj p b s).dev = s.dev := (raiseAs_onlyBus inj p b s).dev
@[simp] theorem raiseAs_ldg (inj : Bool) (p b : Nat) (s : State) : (raiseAs inj p b s).ldg = s.ldg := (raiseAs_onlyBus inj p b s).ldg
@[simp] theorem raiseAs_pending (inj : Bool) (p b : Nat) (s : State) : (raiseAs inj p b s).pending = s.pending := (raiseAs_onlyBus inj p b s).pending

@[simp] theorem raise_part (p b : Nat) (s : State) : (raise p b s).part = s.part := (raise_onlyBus p b s).part
@[simp] theorem raise_tab (p b : Nat) (s : State) : (raise p b s).tab = s.tab := (raise_onlyBus p b s).tab
@[simp] theorem raise_time (p b : Nat) (s : State) : (raise p b s).time = s.time := (raise_onlyBus p b s).time
@[simp] theorem raise_frames (p b : Nat) (s : State) : (raise p b s).frames = s.frames := (raise_onlyBus p b s).frames
@[simp] theorem raise_nextId (p b : Nat) (s : State) : (raise p b s).nextId = s.nextId := (raise_onlyBus p b s).nextId
@[simp] theorem raise_nextSeq (p b : Nat) (s : State) : (raise p b s).nextSeq = s.nextSeq := (raise_onlyBus p b s).nextSeq
@[simp] theorem raise_copies (p b : Nat) (s : State) : (raise p b s).copies = s.copies := (raise_onlyBus p b s).copies
@[simp] theorem raise_nextCopy (p b : Nat) (s : State) : (raise p b s).nextCopy = s.nextCopy := (raise_onlyBus p b s).nextCopy
@[simp] theorem raise_lnk (p b : Nat) (s : State) : (raise p b s).lnk = s.lnk := (raise_onlyBus p b s).lnk
@[simp] theorem raise_doc (p b : Nat) (s : State) : (raise p b s).doc = s.doc := (raise_onlyBus p b s).doc
@[simp] theorem raise_cat (p b : Nat) (s : State) : (raise p b s).cat = s.cat := (raise_onlyBus p b s).cat
@[simp] theorem raise_lpm (p b : Nat) (s : State) : (raise p b s).lpm = s.lpm := (raise_onlyBus p b s).lpm
@[simp] theorem raise_vit (p b : Nat) (s : State) : (raise p b s).vit = s.vit := (raise_onlyBus p b s).vit
@[simp] theorem raise_prv (p b : Nat) (s : State) : (raise p b s).prv = s.prv := (raise_onlyBus p b s).prv
@[simp] theorem raise_csv (p b : Nat) (s : State) : (raise p b s).csv = s.csv := (raise_onlyBus p b s).csv
@[simp] theorem raise_hal (p b : Nat) (s : State) : (raise p b s).hal = s.hal := (raise_onlyBus p b s).hal
@[simp] theorem raise_dpt (p b : Nat) (s : State) : (raise p b s).dpt = s.dpt := (raise_onlyBus p b s).dpt
@[simp] theorem raise_tmg (p b : Nat) (s : State) : (raise p b s).tmg = s.tmg := (raise_onlyBus p b s).tmg
@[simp] theorem raise_tsn (p b : Nat) (s : State) : (raise p b s).tsn = s.tsn := (raise_onlyBus p b s).tsn
@[simp] theorem raise_vlt (p b : Nat) (s : State) : (raise p b s).vlt = s.vlt := (raise_onlyBus p b s).vlt
@[simp] theorem raise_arc (p b : Nat) (s : State) : (raise p b s).arc = s.arc := (raise_onlyBus p b s).arc
@[simp] theorem raise_rgr (p b : Nat) (s : State) : (raise p b s).rgr = s.rgr := (raise_onlyBus p b s).rgr
@[simp] theorem raise_hif (p b : Nat) (s : State) : (raise p b s).hif = s.hif := (raise_onlyBus p b s).hif
@[simp] theorem raise_anx (p b : Nat) (s : State) : (raise p b s).anx = s.anx := (raise_onlyBus p b s).anx
@[simp] theorem raise_cur (p b : Nat) (s : State) : (raise p b s).cur = s.cur := (raise_onlyBus p b s).cur
@[simp] theorem raise_pwr (p b : Nat) (s : State) : (raise p b s).pwr = s.pwr := (raise_onlyBus p b s).pwr
@[simp] theorem raise_lcs (p b : Nat) (s : State) : (raise p b s).lcs = s.lcs := (raise_onlyBus p b s).lcs
@[simp] theorem raise_dev (p b : Nat) (s : State) : (raise p b s).dev = s.dev := (raise_onlyBus p b s).dev
@[simp] theorem raise_ldg (p b : Nat) (s : State) : (raise p b s).ldg = s.ldg := (raise_onlyBus p b s).ldg
@[simp] theorem raise_pending (p b : Nat) (s : State) : (raise p b s).pending = s.pending := (raise_onlyBus p b s).pending

@[simp] theorem raiseFirst_part (p b : Nat) (s : State) : (raiseFirst p b s).part = s.part := (raiseFirst_onlyBus p b s).part
@[simp] theorem raiseFirst_tab (p b : Nat) (s : State) : (raiseFirst p b s).tab = s.tab := (raiseFirst_onlyBus p b s).tab
@[simp] theorem raiseFirst_time (p b : Nat) (s : State) : (raiseFirst p b s).time = s.time := (raiseFirst_onlyBus p b s).time
@[simp] theorem raiseFirst_frames (p b : Nat) (s : State) : (raiseFirst p b s).frames = s.frames := (raiseFirst_onlyBus p b s).frames
@[simp] theorem raiseFirst_nextId (p b : Nat) (s : State) : (raiseFirst p b s).nextId = s.nextId := (raiseFirst_onlyBus p b s).nextId
@[simp] theorem raiseFirst_nextSeq (p b : Nat) (s : State) : (raiseFirst p b s).nextSeq = s.nextSeq := (raiseFirst_onlyBus p b s).nextSeq
@[simp] theorem raiseFirst_copies (p b : Nat) (s : State) : (raiseFirst p b s).copies = s.copies := (raiseFirst_onlyBus p b s).copies
@[simp] theorem raiseFirst_nextCopy (p b : Nat) (s : State) : (raiseFirst p b s).nextCopy = s.nextCopy := (raiseFirst_onlyBus p b s).nextCopy
@[simp] theorem raiseFirst_lnk (p b : Nat) (s : State) : (raiseFirst p b s).lnk = s.lnk := (raiseFirst_onlyBus p b s).lnk
@[simp] theorem raiseFirst_doc (p b : Nat) (s : State) : (raiseFirst p b s).doc = s.doc := (raiseFirst_onlyBus p b s).doc
@[simp] theorem raiseFirst_cat (p b : Nat) (s : State) : (raiseFirst p b s).cat = s.cat := (raiseFirst_onlyBus p b s).cat
@[simp] theorem raiseFirst_lpm (p b : Nat) (s : State) : (raiseFirst p b s).lpm = s.lpm := (raiseFirst_onlyBus p b s).lpm
@[simp] theorem raiseFirst_vit (p b : Nat) (s : State) : (raiseFirst p b s).vit = s.vit := (raiseFirst_onlyBus p b s).vit
@[simp] theorem raiseFirst_prv (p b : Nat) (s : State) : (raiseFirst p b s).prv = s.prv := (raiseFirst_onlyBus p b s).prv
@[simp] theorem raiseFirst_csv (p b : Nat) (s : State) : (raiseFirst p b s).csv = s.csv := (raiseFirst_onlyBus p b s).csv
@[simp] theorem raiseFirst_hal (p b : Nat) (s : State) : (raiseFirst p b s).hal = s.hal := (raiseFirst_onlyBus p b s).hal
@[simp] theorem raiseFirst_dpt (p b : Nat) (s : State) : (raiseFirst p b s).dpt = s.dpt := (raiseFirst_onlyBus p b s).dpt
@[simp] theorem raiseFirst_tmg (p b : Nat) (s : State) : (raiseFirst p b s).tmg = s.tmg := (raiseFirst_onlyBus p b s).tmg
@[simp] theorem raiseFirst_tsn (p b : Nat) (s : State) : (raiseFirst p b s).tsn = s.tsn := (raiseFirst_onlyBus p b s).tsn
@[simp] theorem raiseFirst_vlt (p b : Nat) (s : State) : (raiseFirst p b s).vlt = s.vlt := (raiseFirst_onlyBus p b s).vlt
@[simp] theorem raiseFirst_arc (p b : Nat) (s : State) : (raiseFirst p b s).arc = s.arc := (raiseFirst_onlyBus p b s).arc
@[simp] theorem raiseFirst_rgr (p b : Nat) (s : State) : (raiseFirst p b s).rgr = s.rgr := (raiseFirst_onlyBus p b s).rgr
@[simp] theorem raiseFirst_hif (p b : Nat) (s : State) : (raiseFirst p b s).hif = s.hif := (raiseFirst_onlyBus p b s).hif
@[simp] theorem raiseFirst_anx (p b : Nat) (s : State) : (raiseFirst p b s).anx = s.anx := (raiseFirst_onlyBus p b s).anx
@[simp] theorem raiseFirst_cur (p b : Nat) (s : State) : (raiseFirst p b s).cur = s.cur := (raiseFirst_onlyBus p b s).cur
@[simp] theorem raiseFirst_pwr (p b : Nat) (s : State) : (raiseFirst p b s).pwr = s.pwr := (raiseFirst_onlyBus p b s).pwr
@[simp] theorem raiseFirst_lcs (p b : Nat) (s : State) : (raiseFirst p b s).lcs = s.lcs := (raiseFirst_onlyBus p b s).lcs
@[simp] theorem raiseFirst_dev (p b : Nat) (s : State) : (raiseFirst p b s).dev = s.dev := (raiseFirst_onlyBus p b s).dev
@[simp] theorem raiseFirst_ldg (p b : Nat) (s : State) : (raiseFirst p b s).ldg = s.ldg := (raiseFirst_onlyBus p b s).ldg
@[simp] theorem raiseFirst_pending (p b : Nat) (s : State) : (raiseFirst p b s).pending = s.pending := (raiseFirst_onlyBus p b s).pending

@[simp] theorem reportFault_part (p kind addr : Nat) (inj : Bool) (s : State) : (reportFault p kind addr inj s).part = s.part := (reportFault_onlyBus p kind addr inj s).part
@[simp] theorem reportFault_tab (p kind addr : Nat) (inj : Bool) (s : State) : (reportFault p kind addr inj s).tab = s.tab := (reportFault_onlyBus p kind addr inj s).tab
@[simp] theorem reportFault_time (p kind addr : Nat) (inj : Bool) (s : State) : (reportFault p kind addr inj s).time = s.time := (reportFault_onlyBus p kind addr inj s).time
@[simp] theorem reportFault_frames (p kind addr : Nat) (inj : Bool) (s : State) : (reportFault p kind addr inj s).frames = s.frames := (reportFault_onlyBus p kind addr inj s).frames
@[simp] theorem reportFault_nextId (p kind addr : Nat) (inj : Bool) (s : State) : (reportFault p kind addr inj s).nextId = s.nextId := (reportFault_onlyBus p kind addr inj s).nextId
@[simp] theorem reportFault_nextSeq (p kind addr : Nat) (inj : Bool) (s : State) : (reportFault p kind addr inj s).nextSeq = s.nextSeq := (reportFault_onlyBus p kind addr inj s).nextSeq
@[simp] theorem reportFault_copies (p kind addr : Nat) (inj : Bool) (s : State) : (reportFault p kind addr inj s).copies = s.copies := (reportFault_onlyBus p kind addr inj s).copies
@[simp] theorem reportFault_nextCopy (p kind addr : Nat) (inj : Bool) (s : State) : (reportFault p kind addr inj s).nextCopy = s.nextCopy := (reportFault_onlyBus p kind addr inj s).nextCopy
@[simp] theorem reportFault_lnk (p kind addr : Nat) (inj : Bool) (s : State) : (reportFault p kind addr inj s).lnk = s.lnk := (reportFault_onlyBus p kind addr inj s).lnk
@[simp] theorem reportFault_doc (p kind addr : Nat) (inj : Bool) (s : State) : (reportFault p kind addr inj s).doc = s.doc := (reportFault_onlyBus p kind addr inj s).doc
@[simp] theorem reportFault_cat (p kind addr : Nat) (inj : Bool) (s : State) : (reportFault p kind addr inj s).cat = s.cat := (reportFault_onlyBus p kind addr inj s).cat
@[simp] theorem reportFault_lpm (p kind addr : Nat) (inj : Bool) (s : State) : (reportFault p kind addr inj s).lpm = s.lpm := (reportFault_onlyBus p kind addr inj s).lpm
@[simp] theorem reportFault_vit (p kind addr : Nat) (inj : Bool) (s : State) : (reportFault p kind addr inj s).vit = s.vit := (reportFault_onlyBus p kind addr inj s).vit
@[simp] theorem reportFault_prv (p kind addr : Nat) (inj : Bool) (s : State) : (reportFault p kind addr inj s).prv = s.prv := (reportFault_onlyBus p kind addr inj s).prv
@[simp] theorem reportFault_csv (p kind addr : Nat) (inj : Bool) (s : State) : (reportFault p kind addr inj s).csv = s.csv := (reportFault_onlyBus p kind addr inj s).csv
@[simp] theorem reportFault_hal (p kind addr : Nat) (inj : Bool) (s : State) : (reportFault p kind addr inj s).hal = s.hal := (reportFault_onlyBus p kind addr inj s).hal
@[simp] theorem reportFault_dpt (p kind addr : Nat) (inj : Bool) (s : State) : (reportFault p kind addr inj s).dpt = s.dpt := (reportFault_onlyBus p kind addr inj s).dpt
@[simp] theorem reportFault_tmg (p kind addr : Nat) (inj : Bool) (s : State) : (reportFault p kind addr inj s).tmg = s.tmg := (reportFault_onlyBus p kind addr inj s).tmg
@[simp] theorem reportFault_tsn (p kind addr : Nat) (inj : Bool) (s : State) : (reportFault p kind addr inj s).tsn = s.tsn := (reportFault_onlyBus p kind addr inj s).tsn
@[simp] theorem reportFault_vlt (p kind addr : Nat) (inj : Bool) (s : State) : (reportFault p kind addr inj s).vlt = s.vlt := (reportFault_onlyBus p kind addr inj s).vlt
@[simp] theorem reportFault_arc (p kind addr : Nat) (inj : Bool) (s : State) : (reportFault p kind addr inj s).arc = s.arc := (reportFault_onlyBus p kind addr inj s).arc
@[simp] theorem reportFault_rgr (p kind addr : Nat) (inj : Bool) (s : State) : (reportFault p kind addr inj s).rgr = s.rgr := (reportFault_onlyBus p kind addr inj s).rgr
@[simp] theorem reportFault_hif (p kind addr : Nat) (inj : Bool) (s : State) : (reportFault p kind addr inj s).hif = s.hif := (reportFault_onlyBus p kind addr inj s).hif
@[simp] theorem reportFault_anx (p kind addr : Nat) (inj : Bool) (s : State) : (reportFault p kind addr inj s).anx = s.anx := (reportFault_onlyBus p kind addr inj s).anx
@[simp] theorem reportFault_cur (p kind addr : Nat) (inj : Bool) (s : State) : (reportFault p kind addr inj s).cur = s.cur := (reportFault_onlyBus p kind addr inj s).cur
@[simp] theorem reportFault_pwr (p kind addr : Nat) (inj : Bool) (s : State) : (reportFault p kind addr inj s).pwr = s.pwr := (reportFault_onlyBus p kind addr inj s).pwr
@[simp] theorem reportFault_lcs (p kind addr : Nat) (inj : Bool) (s : State) : (reportFault p kind addr inj s).lcs = s.lcs := (reportFault_onlyBus p kind addr inj s).lcs
@[simp] theorem reportFault_dev (p kind addr : Nat) (inj : Bool) (s : State) : (reportFault p kind addr inj s).dev = s.dev := (reportFault_onlyBus p kind addr inj s).dev
@[simp] theorem reportFault_ldg (p kind addr : Nat) (inj : Bool) (s : State) : (reportFault p kind addr inj s).ldg = s.ldg := (reportFault_onlyBus p kind addr inj s).ldg
@[simp] theorem reportFault_pending (p kind addr : Nat) (inj : Bool) (s : State) : (reportFault p kind addr inj s).pending = s.pending := (reportFault_onlyBus p kind addr inj s).pending

@[simp] theorem noteAccess_part (a : Nat) (s : State) : (noteAccess a s).part = s.part := (noteAccess_onlyBus a s).part
@[simp] theorem noteAccess_tab (a : Nat) (s : State) : (noteAccess a s).tab = s.tab := (noteAccess_onlyBus a s).tab
@[simp] theorem noteAccess_time (a : Nat) (s : State) : (noteAccess a s).time = s.time := (noteAccess_onlyBus a s).time
@[simp] theorem noteAccess_frames (a : Nat) (s : State) : (noteAccess a s).frames = s.frames := (noteAccess_onlyBus a s).frames
@[simp] theorem noteAccess_nextId (a : Nat) (s : State) : (noteAccess a s).nextId = s.nextId := (noteAccess_onlyBus a s).nextId
@[simp] theorem noteAccess_nextSeq (a : Nat) (s : State) : (noteAccess a s).nextSeq = s.nextSeq := (noteAccess_onlyBus a s).nextSeq
@[simp] theorem noteAccess_copies (a : Nat) (s : State) : (noteAccess a s).copies = s.copies := (noteAccess_onlyBus a s).copies
@[simp] theorem noteAccess_nextCopy (a : Nat) (s : State) : (noteAccess a s).nextCopy = s.nextCopy := (noteAccess_onlyBus a s).nextCopy
@[simp] theorem noteAccess_lnk (a : Nat) (s : State) : (noteAccess a s).lnk = s.lnk := (noteAccess_onlyBus a s).lnk
@[simp] theorem noteAccess_doc (a : Nat) (s : State) : (noteAccess a s).doc = s.doc := (noteAccess_onlyBus a s).doc
@[simp] theorem noteAccess_cat (a : Nat) (s : State) : (noteAccess a s).cat = s.cat := (noteAccess_onlyBus a s).cat
@[simp] theorem noteAccess_lpm (a : Nat) (s : State) : (noteAccess a s).lpm = s.lpm := (noteAccess_onlyBus a s).lpm
@[simp] theorem noteAccess_vit (a : Nat) (s : State) : (noteAccess a s).vit = s.vit := (noteAccess_onlyBus a s).vit
@[simp] theorem noteAccess_prv (a : Nat) (s : State) : (noteAccess a s).prv = s.prv := (noteAccess_onlyBus a s).prv
@[simp] theorem noteAccess_csv (a : Nat) (s : State) : (noteAccess a s).csv = s.csv := (noteAccess_onlyBus a s).csv
@[simp] theorem noteAccess_hal (a : Nat) (s : State) : (noteAccess a s).hal = s.hal := (noteAccess_onlyBus a s).hal
@[simp] theorem noteAccess_dpt (a : Nat) (s : State) : (noteAccess a s).dpt = s.dpt := (noteAccess_onlyBus a s).dpt
@[simp] theorem noteAccess_tmg (a : Nat) (s : State) : (noteAccess a s).tmg = s.tmg := (noteAccess_onlyBus a s).tmg
@[simp] theorem noteAccess_tsn (a : Nat) (s : State) : (noteAccess a s).tsn = s.tsn := (noteAccess_onlyBus a s).tsn
@[simp] theorem noteAccess_vlt (a : Nat) (s : State) : (noteAccess a s).vlt = s.vlt := (noteAccess_onlyBus a s).vlt
@[simp] theorem noteAccess_arc (a : Nat) (s : State) : (noteAccess a s).arc = s.arc := (noteAccess_onlyBus a s).arc
@[simp] theorem noteAccess_rgr (a : Nat) (s : State) : (noteAccess a s).rgr = s.rgr := (noteAccess_onlyBus a s).rgr
@[simp] theorem noteAccess_hif (a : Nat) (s : State) : (noteAccess a s).hif = s.hif := (noteAccess_onlyBus a s).hif
@[simp] theorem noteAccess_anx (a : Nat) (s : State) : (noteAccess a s).anx = s.anx := (noteAccess_onlyBus a s).anx
@[simp] theorem noteAccess_cur (a : Nat) (s : State) : (noteAccess a s).cur = s.cur := (noteAccess_onlyBus a s).cur
@[simp] theorem noteAccess_pwr (a : Nat) (s : State) : (noteAccess a s).pwr = s.pwr := (noteAccess_onlyBus a s).pwr
@[simp] theorem noteAccess_lcs (a : Nat) (s : State) : (noteAccess a s).lcs = s.lcs := (noteAccess_onlyBus a s).lcs
@[simp] theorem noteAccess_dev (a : Nat) (s : State) : (noteAccess a s).dev = s.dev := (noteAccess_onlyBus a s).dev
@[simp] theorem noteAccess_ldg (a : Nat) (s : State) : (noteAccess a s).ldg = s.ldg := (noteAccess_onlyBus a s).ldg
@[simp] theorem noteAccess_pending (a : Nat) (s : State) : (noteAccess a s).pending = s.pending := (noteAccess_onlyBus a s).pending

@[simp] theorem noteGone_part (a : Nat) (s : State) : (noteGone a s).part = s.part := (noteGone_onlyBus a s).part
@[simp] theorem noteGone_tab (a : Nat) (s : State) : (noteGone a s).tab = s.tab := (noteGone_onlyBus a s).tab
@[simp] theorem noteGone_time (a : Nat) (s : State) : (noteGone a s).time = s.time := (noteGone_onlyBus a s).time
@[simp] theorem noteGone_frames (a : Nat) (s : State) : (noteGone a s).frames = s.frames := (noteGone_onlyBus a s).frames
@[simp] theorem noteGone_nextId (a : Nat) (s : State) : (noteGone a s).nextId = s.nextId := (noteGone_onlyBus a s).nextId
@[simp] theorem noteGone_nextSeq (a : Nat) (s : State) : (noteGone a s).nextSeq = s.nextSeq := (noteGone_onlyBus a s).nextSeq
@[simp] theorem noteGone_copies (a : Nat) (s : State) : (noteGone a s).copies = s.copies := (noteGone_onlyBus a s).copies
@[simp] theorem noteGone_nextCopy (a : Nat) (s : State) : (noteGone a s).nextCopy = s.nextCopy := (noteGone_onlyBus a s).nextCopy
@[simp] theorem noteGone_lnk (a : Nat) (s : State) : (noteGone a s).lnk = s.lnk := (noteGone_onlyBus a s).lnk
@[simp] theorem noteGone_doc (a : Nat) (s : State) : (noteGone a s).doc = s.doc := (noteGone_onlyBus a s).doc
@[simp] theorem noteGone_cat (a : Nat) (s : State) : (noteGone a s).cat = s.cat := (noteGone_onlyBus a s).cat
@[simp] theorem noteGone_lpm (a : Nat) (s : State) : (noteGone a s).lpm = s.lpm := (noteGone_onlyBus a s).lpm
@[simp] theorem noteGone_vit (a : Nat) (s : State) : (noteGone a s).vit = s.vit := (noteGone_onlyBus a s).vit
@[simp] theorem noteGone_prv (a : Nat) (s : State) : (noteGone a s).prv = s.prv := (noteGone_onlyBus a s).prv
@[simp] theorem noteGone_csv (a : Nat) (s : State) : (noteGone a s).csv = s.csv := (noteGone_onlyBus a s).csv
@[simp] theorem noteGone_hal (a : Nat) (s : State) : (noteGone a s).hal = s.hal := (noteGone_onlyBus a s).hal
@[simp] theorem noteGone_dpt (a : Nat) (s : State) : (noteGone a s).dpt = s.dpt := (noteGone_onlyBus a s).dpt
@[simp] theorem noteGone_tmg (a : Nat) (s : State) : (noteGone a s).tmg = s.tmg := (noteGone_onlyBus a s).tmg
@[simp] theorem noteGone_tsn (a : Nat) (s : State) : (noteGone a s).tsn = s.tsn := (noteGone_onlyBus a s).tsn
@[simp] theorem noteGone_vlt (a : Nat) (s : State) : (noteGone a s).vlt = s.vlt := (noteGone_onlyBus a s).vlt
@[simp] theorem noteGone_arc (a : Nat) (s : State) : (noteGone a s).arc = s.arc := (noteGone_onlyBus a s).arc
@[simp] theorem noteGone_rgr (a : Nat) (s : State) : (noteGone a s).rgr = s.rgr := (noteGone_onlyBus a s).rgr
@[simp] theorem noteGone_hif (a : Nat) (s : State) : (noteGone a s).hif = s.hif := (noteGone_onlyBus a s).hif
@[simp] theorem noteGone_anx (a : Nat) (s : State) : (noteGone a s).anx = s.anx := (noteGone_onlyBus a s).anx
@[simp] theorem noteGone_cur (a : Nat) (s : State) : (noteGone a s).cur = s.cur := (noteGone_onlyBus a s).cur
@[simp] theorem noteGone_pwr (a : Nat) (s : State) : (noteGone a s).pwr = s.pwr := (noteGone_onlyBus a s).pwr
@[simp] theorem noteGone_lcs (a : Nat) (s : State) : (noteGone a s).lcs = s.lcs := (noteGone_onlyBus a s).lcs
@[simp] theorem noteGone_dev (a : Nat) (s : State) : (noteGone a s).dev = s.dev := (noteGone_onlyBus a s).dev
@[simp] theorem noteGone_ldg (a : Nat) (s : State) : (noteGone a s).ldg = s.ldg := (noteGone_onlyBus a s).ldg
@[simp] theorem noteGone_pending (a : Nat) (s : State) : (noteGone a s).pending = s.pending := (noteGone_onlyBus a s).pending

@[simp] theorem putWord_bus (a : Nat) (v : W32) (s : State) : (putWord a v s).bus = s.bus := rfl
@[simp] theorem putWord_part (a : Nat) (v : W32) (s : State) : (putWord a v s).part = s.part := rfl
@[simp] theorem putWord_time (a : Nat) (v : W32) (s : State) : (putWord a v s).time = s.time := rfl
@[simp] theorem putWord_frames (a : Nat) (v : W32) (s : State) : (putWord a v s).frames = s.frames := rfl
@[simp] theorem putWord_nextId (a : Nat) (v : W32) (s : State) : (putWord a v s).nextId = s.nextId := rfl
@[simp] theorem putWord_nextSeq (a : Nat) (v : W32) (s : State) : (putWord a v s).nextSeq = s.nextSeq := rfl
@[simp] theorem putWord_copies (a : Nat) (v : W32) (s : State) : (putWord a v s).copies = s.copies := rfl
@[simp] theorem putWord_nextCopy (a : Nat) (v : W32) (s : State) : (putWord a v s).nextCopy = s.nextCopy := rfl
@[simp] theorem putWord_lnk (a : Nat) (v : W32) (s : State) : (putWord a v s).lnk = s.lnk := rfl
@[simp] theorem putWord_doc (a : Nat) (v : W32) (s : State) : (putWord a v s).doc = s.doc := rfl
@[simp] theorem putWord_cat (a : Nat) (v : W32) (s : State) : (putWord a v s).cat = s.cat := rfl
@[simp] theorem putWord_lpm (a : Nat) (v : W32) (s : State) : (putWord a v s).lpm = s.lpm := rfl
@[simp] theorem putWord_vit (a : Nat) (v : W32) (s : State) : (putWord a v s).vit = s.vit := rfl
@[simp] theorem putWord_prv (a : Nat) (v : W32) (s : State) : (putWord a v s).prv = s.prv := rfl
@[simp] theorem putWord_csv (a : Nat) (v : W32) (s : State) : (putWord a v s).csv = s.csv := rfl
@[simp] theorem putWord_hal (a : Nat) (v : W32) (s : State) : (putWord a v s).hal = s.hal := rfl
@[simp] theorem putWord_dpt (a : Nat) (v : W32) (s : State) : (putWord a v s).dpt = s.dpt := rfl
@[simp] theorem putWord_tmg (a : Nat) (v : W32) (s : State) : (putWord a v s).tmg = s.tmg := rfl
@[simp] theorem putWord_tsn (a : Nat) (v : W32) (s : State) : (putWord a v s).tsn = s.tsn := rfl
@[simp] theorem putWord_vlt (a : Nat) (v : W32) (s : State) : (putWord a v s).vlt = s.vlt := rfl
@[simp] theorem putWord_arc (a : Nat) (v : W32) (s : State) : (putWord a v s).arc = s.arc := rfl
@[simp] theorem putWord_rgr (a : Nat) (v : W32) (s : State) : (putWord a v s).rgr = s.rgr := rfl
@[simp] theorem putWord_hif (a : Nat) (v : W32) (s : State) : (putWord a v s).hif = s.hif := rfl
@[simp] theorem putWord_anx (a : Nat) (v : W32) (s : State) : (putWord a v s).anx = s.anx := rfl
@[simp] theorem putWord_cur (a : Nat) (v : W32) (s : State) : (putWord a v s).cur = s.cur := rfl
@[simp] theorem putWord_pwr (a : Nat) (v : W32) (s : State) : (putWord a v s).pwr = s.pwr := rfl
@[simp] theorem putWord_lcs (a : Nat) (v : W32) (s : State) : (putWord a v s).lcs = s.lcs := rfl
@[simp] theorem putWord_dev (a : Nat) (v : W32) (s : State) : (putWord a v s).dev = s.dev := rfl
@[simp] theorem putWord_ldg (a : Nat) (v : W32) (s : State) : (putWord a v s).ldg = s.ldg := rfl
@[simp] theorem putWord_pending (a : Nat) (v : W32) (s : State) : (putWord a v s).pending = s.pending := rfl

@[simp] theorem putFrame_bus (f : Frame) (s : State) : (putFrame f s).bus = s.bus := rfl
@[simp] theorem putFrame_part (f : Frame) (s : State) : (putFrame f s).part = s.part := rfl
@[simp] theorem putFrame_tab (f : Frame) (s : State) : (putFrame f s).tab = s.tab := rfl
@[simp] theorem putFrame_time (f : Frame) (s : State) : (putFrame f s).time = s.time := rfl
@[simp] theorem putFrame_nextId (f : Frame) (s : State) : (putFrame f s).nextId = s.nextId := rfl
@[simp] theorem putFrame_nextSeq (f : Frame) (s : State) : (putFrame f s).nextSeq = s.nextSeq := rfl
@[simp] theorem putFrame_copies (f : Frame) (s : State) : (putFrame f s).copies = s.copies := rfl
@[simp] theorem putFrame_nextCopy (f : Frame) (s : State) : (putFrame f s).nextCopy = s.nextCopy := rfl
@[simp] theorem putFrame_lnk (f : Frame) (s : State) : (putFrame f s).lnk = s.lnk := rfl
@[simp] theorem putFrame_doc (f : Frame) (s : State) : (putFrame f s).doc = s.doc := rfl
@[simp] theorem putFrame_cat (f : Frame) (s : State) : (putFrame f s).cat = s.cat := rfl
@[simp] theorem putFrame_lpm (f : Frame) (s : State) : (putFrame f s).lpm = s.lpm := rfl
@[simp] theorem putFrame_vit (f : Frame) (s : State) : (putFrame f s).vit = s.vit := rfl
@[simp] theorem putFrame_prv (f : Frame) (s : State) : (putFrame f s).prv = s.prv := rfl
@[simp] theorem putFrame_csv (f : Frame) (s : State) : (putFrame f s).csv = s.csv := rfl
@[simp] theorem putFrame_hal (f : Frame) (s : State) : (putFrame f s).hal = s.hal := rfl
@[simp] theorem putFrame_dpt (f : Frame) (s : State) : (putFrame f s).dpt = s.dpt := rfl
@[simp] theorem putFrame_tmg (f : Frame) (s : State) : (putFrame f s).tmg = s.tmg := rfl
@[simp] theorem putFrame_tsn (f : Frame) (s : State) : (putFrame f s).tsn = s.tsn := rfl
@[simp] theorem putFrame_vlt (f : Frame) (s : State) : (putFrame f s).vlt = s.vlt := rfl
@[simp] theorem putFrame_arc (f : Frame) (s : State) : (putFrame f s).arc = s.arc := rfl
@[simp] theorem putFrame_rgr (f : Frame) (s : State) : (putFrame f s).rgr = s.rgr := rfl
@[simp] theorem putFrame_hif (f : Frame) (s : State) : (putFrame f s).hif = s.hif := rfl
@[simp] theorem putFrame_anx (f : Frame) (s : State) : (putFrame f s).anx = s.anx := rfl
@[simp] theorem putFrame_cur (f : Frame) (s : State) : (putFrame f s).cur = s.cur := rfl
@[simp] theorem putFrame_pwr (f : Frame) (s : State) : (putFrame f s).pwr = s.pwr := rfl
@[simp] theorem putFrame_lcs (f : Frame) (s : State) : (putFrame f s).lcs = s.lcs := rfl
@[simp] theorem putFrame_dev (f : Frame) (s : State) : (putFrame f s).dev = s.dev := rfl
@[simp] theorem putFrame_ldg (f : Frame) (s : State) : (putFrame f s).ldg = s.ldg := rfl
@[simp] theorem putFrame_pending (f : Frame) (s : State) : (putFrame f s).pending = s.pending := rfl

@[simp] theorem putCopy_bus (c : Copy) (s : State) : (putCopy c s).bus = s.bus := rfl
@[simp] theorem putCopy_part (c : Copy) (s : State) : (putCopy c s).part = s.part := rfl
@[simp] theorem putCopy_tab (c : Copy) (s : State) : (putCopy c s).tab = s.tab := rfl
@[simp] theorem putCopy_time (c : Copy) (s : State) : (putCopy c s).time = s.time := rfl
@[simp] theorem putCopy_frames (c : Copy) (s : State) : (putCopy c s).frames = s.frames := rfl
@[simp] theorem putCopy_nextId (c : Copy) (s : State) : (putCopy c s).nextId = s.nextId := rfl
@[simp] theorem putCopy_nextSeq (c : Copy) (s : State) : (putCopy c s).nextSeq = s.nextSeq := rfl
@[simp] theorem putCopy_nextCopy (c : Copy) (s : State) : (putCopy c s).nextCopy = s.nextCopy := rfl
@[simp] theorem putCopy_lnk (c : Copy) (s : State) : (putCopy c s).lnk = s.lnk := rfl
@[simp] theorem putCopy_doc (c : Copy) (s : State) : (putCopy c s).doc = s.doc := rfl
@[simp] theorem putCopy_cat (c : Copy) (s : State) : (putCopy c s).cat = s.cat := rfl
@[simp] theorem putCopy_lpm (c : Copy) (s : State) : (putCopy c s).lpm = s.lpm := rfl
@[simp] theorem putCopy_vit (c : Copy) (s : State) : (putCopy c s).vit = s.vit := rfl
@[simp] theorem putCopy_prv (c : Copy) (s : State) : (putCopy c s).prv = s.prv := rfl
@[simp] theorem putCopy_csv (c : Copy) (s : State) : (putCopy c s).csv = s.csv := rfl
@[simp] theorem putCopy_hal (c : Copy) (s : State) : (putCopy c s).hal = s.hal := rfl
@[simp] theorem putCopy_dpt (c : Copy) (s : State) : (putCopy c s).dpt = s.dpt := rfl
@[simp] theorem putCopy_tmg (c : Copy) (s : State) : (putCopy c s).tmg = s.tmg := rfl
@[simp] theorem putCopy_tsn (c : Copy) (s : State) : (putCopy c s).tsn = s.tsn := rfl
@[simp] theorem putCopy_vlt (c : Copy) (s : State) : (putCopy c s).vlt = s.vlt := rfl
@[simp] theorem putCopy_arc (c : Copy) (s : State) : (putCopy c s).arc = s.arc := rfl
@[simp] theorem putCopy_rgr (c : Copy) (s : State) : (putCopy c s).rgr = s.rgr := rfl
@[simp] theorem putCopy_hif (c : Copy) (s : State) : (putCopy c s).hif = s.hif := rfl
@[simp] theorem putCopy_anx (c : Copy) (s : State) : (putCopy c s).anx = s.anx := rfl
@[simp] theorem putCopy_cur (c : Copy) (s : State) : (putCopy c s).cur = s.cur := rfl
@[simp] theorem putCopy_pwr (c : Copy) (s : State) : (putCopy c s).pwr = s.pwr := rfl
@[simp] theorem putCopy_lcs (c : Copy) (s : State) : (putCopy c s).lcs = s.lcs := rfl
@[simp] theorem putCopy_dev (c : Copy) (s : State) : (putCopy c s).dev = s.dev := rfl
@[simp] theorem putCopy_ldg (c : Copy) (s : State) : (putCopy c s).ldg = s.ldg := rfl
@[simp] theorem putCopy_pending (c : Copy) (s : State) : (putCopy c s).pending = s.pending := rfl

@[simp] theorem putCell_bus (c : Nat) (k : CellSt) (s : State) : (putCell c k s).bus = s.bus := rfl
@[simp] theorem putCell_part (c : Nat) (k : CellSt) (s : State) : (putCell c k s).part = s.part := rfl
@[simp] theorem putCell_tab (c : Nat) (k : CellSt) (s : State) : (putCell c k s).tab = s.tab := rfl
@[simp] theorem putCell_time (c : Nat) (k : CellSt) (s : State) : (putCell c k s).time = s.time := rfl
@[simp] theorem putCell_frames (c : Nat) (k : CellSt) (s : State) : (putCell c k s).frames = s.frames := rfl
@[simp] theorem putCell_nextId (c : Nat) (k : CellSt) (s : State) : (putCell c k s).nextId = s.nextId := rfl
@[simp] theorem putCell_nextSeq (c : Nat) (k : CellSt) (s : State) : (putCell c k s).nextSeq = s.nextSeq := rfl
@[simp] theorem putCell_copies (c : Nat) (k : CellSt) (s : State) : (putCell c k s).copies = s.copies := rfl
@[simp] theorem putCell_nextCopy (c : Nat) (k : CellSt) (s : State) : (putCell c k s).nextCopy = s.nextCopy := rfl
@[simp] theorem putCell_lnk (c : Nat) (k : CellSt) (s : State) : (putCell c k s).lnk = s.lnk := rfl
@[simp] theorem putCell_doc (c : Nat) (k : CellSt) (s : State) : (putCell c k s).doc = s.doc := rfl
@[simp] theorem putCell_cat (c : Nat) (k : CellSt) (s : State) : (putCell c k s).cat = s.cat := rfl
@[simp] theorem putCell_lpm (c : Nat) (k : CellSt) (s : State) : (putCell c k s).lpm = s.lpm := rfl
@[simp] theorem putCell_vit (c : Nat) (k : CellSt) (s : State) : (putCell c k s).vit = s.vit := rfl
@[simp] theorem putCell_prv (c : Nat) (k : CellSt) (s : State) : (putCell c k s).prv = s.prv := rfl
@[simp] theorem putCell_csv (c : Nat) (k : CellSt) (s : State) : (putCell c k s).csv = s.csv := rfl
@[simp] theorem putCell_dpt (c : Nat) (k : CellSt) (s : State) : (putCell c k s).dpt = s.dpt := rfl
@[simp] theorem putCell_tmg (c : Nat) (k : CellSt) (s : State) : (putCell c k s).tmg = s.tmg := rfl
@[simp] theorem putCell_tsn (c : Nat) (k : CellSt) (s : State) : (putCell c k s).tsn = s.tsn := rfl
@[simp] theorem putCell_vlt (c : Nat) (k : CellSt) (s : State) : (putCell c k s).vlt = s.vlt := rfl
@[simp] theorem putCell_arc (c : Nat) (k : CellSt) (s : State) : (putCell c k s).arc = s.arc := rfl
@[simp] theorem putCell_rgr (c : Nat) (k : CellSt) (s : State) : (putCell c k s).rgr = s.rgr := rfl
@[simp] theorem putCell_hif (c : Nat) (k : CellSt) (s : State) : (putCell c k s).hif = s.hif := rfl
@[simp] theorem putCell_anx (c : Nat) (k : CellSt) (s : State) : (putCell c k s).anx = s.anx := rfl
@[simp] theorem putCell_cur (c : Nat) (k : CellSt) (s : State) : (putCell c k s).cur = s.cur := rfl
@[simp] theorem putCell_pwr (c : Nat) (k : CellSt) (s : State) : (putCell c k s).pwr = s.pwr := rfl
@[simp] theorem putCell_lcs (c : Nat) (k : CellSt) (s : State) : (putCell c k s).lcs = s.lcs := rfl
@[simp] theorem putCell_dev (c : Nat) (k : CellSt) (s : State) : (putCell c k s).dev = s.dev := rfl
@[simp] theorem putCell_ldg (c : Nat) (k : CellSt) (s : State) : (putCell c k s).ldg = s.ldg := rfl
@[simp] theorem putCell_pending (c : Nat) (k : CellSt) (s : State) : (putCell c k s).pending = s.pending := rfl

end Sys2Proof.Machine
end

