-- ==== Sys2Proof/Laws/Registers.lean ====
section
/-!
SUPPORT. What the shared operations on registers, counters and events do: one lemma each, which later proofs cite in place of the
definition.
-/
namespace Sys2Proof.Machine

/-! ## Register words and fields -/

@[simp] theorem rd_wr_same (a : Nat) (v : W32) (s : State) : rd (wr a v s) a = v := sGet_sPut_same _ _ _ _

theorem rd_wr_ne {a b : Nat} (v : W32) (s : State) (h : b ≠ a) : rd (wr a v s) b = rd s b := sGet_sPut_ne _ _ _ h _

theorem rd_wr (a b : Nat) (v : W32) (s : State) : rd (wr a v s) b = if b = a then v else rd s b := by
  by_cases h : b = a
  · subst h; simp
  · rw [rd_wr_ne v s h, if_neg h]

@[simp] theorem rd_wf_same (a hi lo v : Nat) (s : State) : rd (wf a hi lo v s) a = setFld (rd s a) hi lo v := rd_wr_same _ _ _

theorem rd_wf_ne {a b : Nat} (hi lo v : Nat) (s : State) (h : b ≠ a) : rd (wf a hi lo v s) b = rd s b := rd_wr_ne _ _ h

theorem rf_wf_same (a hi lo v : Nat) (s : State) (h : lo ≤ hi) (h32 : hi < 32) :
    rf (wf a hi lo v s) a hi lo = v % 2 ^ (hi + 1 - lo) := by
  rw [rf, rd_wf_same, fld_setFld_same _ _ _ _ h h32]

theorem rf_wf_field_ne (a hi lo v hi' lo' : Nat) (s : State) (h : lo ≤ hi) (h32 : hi < 32) (hd : hi < lo' ∨ hi' < lo) :
    rf (wf a hi lo v s) a hi' lo' = rf s a hi' lo' := by
  rw [rf, rd_wf_same, fld_setFld_ne _ _ _ _ _ _ h h32 hd, rf]

theorem rf_wf_ne {a b : Nat} (hi lo v hi' lo' : Nat) (s : State) (h : b ≠ a) : rf (wf a hi lo v s) b hi' lo' = rf s b hi' lo' := by
  rw [rf, rd_wf_ne _ _ _ _ h, rf]

theorem rb_wf_same (a i v : Nat) (s : State) (h32 : i < 32) : rb (wf a i i v s) a i = v.testBit 0 := by
  rw [rb, rd_wf_same, bit_setFld_one _ _ _ h32]

theorem rb_wf_bit_ne (a hi lo v i : Nat) (s : State) (h : lo ≤ hi) (h32 : hi < 32) (hd : i < lo ∨ hi < i) :
    rb (wf a hi lo v s) a i = rb s a i := by
  rw [rb, rd_wf_same, bit_setFld_ne _ _ _ _ _ h h32 hd, rb]

theorem rb_wf_ne {a b : Nat} (hi lo v i : Nat) (s : State) (h : b ≠ a) : rb (wf a hi lo v s) b i = rb s b i := by
  rw [rb, rd_wf_ne _ _ _ _ h, rb]

/-! ## Counters -/

@[simp] theorem ctr_wr (a : Nat) (v : W32) (s : State) (c : Nat) : ctr (wr a v s) c = ctr s c := rfl
@[simp] theorem ctr_wf (a hi lo v : Nat) (s : State) (c : Nat) : ctr (wf a hi lo v s) c = ctr s c := rfl
@[simp] theorem ctr_recordErr (p code detail addr : Nat) (s : State) (c : Nat) : ctr (recordErr p code detail addr s) c = ctr s c := rfl
@[simp] theorem ctr_sendMsg (p kind addr : Nat) (inj : Bool) (s : State) (c : Nat) : ctr (sendMsg p kind addr inj s) c = ctr s c := rfl
@[simp] theorem ctr_ledger (e : LdgEvent) (s : State) (c : Nat) : ctr (ledger e s) c = ctr s c := rfl
@[simp] theorem ctr_answer (v : Nat) (s : State) (c : Nat) : ctr (answer v s) c = ctr s c := rfl
@[simp] theorem rd_sendMsg (p kind addr : Nat) (inj : Bool) (s : State) (a : Nat) : rd (sendMsg p kind addr inj s) a = rd s a := rfl
@[simp] theorem rd_ledger (e : LdgEvent) (s : State) (a : Nat) : rd (ledger e s) a = rd s a := rfl
@[simp] theorem rd_answer (v : Nat) (s : State) (a : Nat) : rd (answer v s) a = rd s a := rfl

@[simp] theorem rd_bumpN (a n : Nat) (s : State) (b : Nat) : rd (bumpN a n s) b = rd s b := by
  unfold bumpN; split <;> rfl

@[simp] theorem rd_bump (a : Nat) (s : State) (b : Nat) : rd (bump a s) b = rd s b := rd_bumpN a 1 s b

theorem ctr_bumpN_same (a n : Nat) (s : State) (h : n ≠ 0) : ctr (bumpN a n s) a = (ctr s a + n) % 2 ^ 64 := by
  rw [bumpN, if_neg h]; exact sGet_sPut_same _ _ _ _

theorem ctr_bumpN_ne {a b : Nat} (n : Nat) (s : State) (h : b ≠ a) : ctr (bumpN a n s) b = ctr s b := by
  unfold bumpN
  split
  · rfl
  · exact sGet_sPut_ne _ _ _ h _

theorem ctr_bump (a b : Nat) (s : State) : ctr (bump a s) b = if b = a then (ctr s a + 1) % 2 ^ 64 else ctr s b := by
  by_cases h : b = a
  · subst h; rw [if_pos rfl]; exact ctr_bumpN_same b 1 s (by decide)
  · rw [if_neg h]; exact ctr_bumpN_ne 1 s h

/-! ## Error records -/

/-- An error record writes the three registers of its page and no other. -/
theorem regsBut_recordErr (p code detail addr : Nat) (s : State) :
    RegsBut [H_ERR_CAUSE p, H_ERR_ADDR_LO p, H_ERR_ADDR_HI p] s (recordErr p code detail addr s) := by
  intro a ha
  simp only [List.mem_cons, List.not_mem_nil, or_false, not_or] at ha
  simp only [recordErr, rd_wr_ne _ _ ha.1, rd_wr_ne _ _ ha.2.1, rd_wr_ne _ _ ha.2.2]

/-- The cause that an error record leaves: its code, the count one up to 255, and its detail. -/
theorem cause_recordErr (p code detail addr : Nat) (s : State) : rd (recordErr p code detail addr s) (H_ERR_CAUSE p) =
    w32 (code % 256 * 2 ^ 24 + min (rf s (H_ERR_CAUSE p) 23 16 + 1) 255 * 2 ^ 16 + detail % 2 ^ 16) := by
  have h1 : H_ERR_CAUSE p ≠ H_ERR_ADDR_HI p := by simp only [H_ERR_CAUSE, H_ERR_ADDR_HI, bar0]; omega
  have h2 : H_ERR_CAUSE p ≠ H_ERR_ADDR_LO p := by simp only [H_ERR_CAUSE, H_ERR_ADDR_LO, bar0]; omega
  rw [recordErr, rd_wr_ne _ _ h1, rd_wr_ne _ _ h2, rd_wr_same]

/-! ## Interrupt messages and event bits -/

/-- The waiting events reach the Ledger's counters and nothing else of the registers and counters. -/
theorem ledgerFlush_changes (s : State) :
    RegsBut [] s (ledgerFlush s) ∧ ∀ a, ¬onLedger a → ctr (ledgerFlush s) a = ctr s a := by
  have pass : ∀ (l : List Nat) (f : State → Nat → State),
      (∀ b n, n ∈ l → RegsBut [] b (f b n) ∧ ∀ a, ¬onLedger a → ctr (f b n) a = ctr b a) →
      ∀ b, RegsBut [] b (l.foldl f b) ∧ ∀ a, ¬onLedger a → ctr (l.foldl f b) a = ctr b a := by
    intro l f
    induction l with
    | nil => intro _ b; exact ⟨fun _ _ => rfl, fun _ _ => rfl⟩
    | cons n r ih =>
      intro hf b
      obtain ⟨h1, h2⟩ := hf b n (List.mem_cons_self ..)
      obtain ⟨g1, g2⟩ := ih (fun c m hm => hf c m (List.mem_cons_of_mem _ hm)) (f b n)
      exact ⟨fun a ha => (g1 a ha).trans (h1 a ha), fun a ha => (g2 a ha).trans (h2 a ha)⟩
  unfold ledgerFlush
  split
  · exact ⟨fun _ _ => rfl, fun _ _ => rfl⟩
  · refine pass (List.range 16) _ (fun b g hg => ?_) s
    split
    · refine pass (List.range 64) _ (fun c n hn => ?_) b
      dsimp only
      split
      · refine ⟨fun _ _ => rfl, fun a ha => sGet_sPut_ne _ _ _ (fun e => ha ?_) _⟩
        rw [List.mem_range] at hg hn
        simp only [e, LDG_CTR, pageLDG, bar0, onLedger]
        omega
      · exact ⟨fun _ _ => rfl, fun _ _ => rfl⟩
    · exact ⟨fun _ _ => rfl, fun _ _ => rfl⟩

/-- An interrupt message on one of the 256 vectors changes its pending bits and no other register, and no counter but HIF_CNT_8 and those
of the Ledger. -/
theorem sendMsix_changes (v : Nat) (s : State) (h : v < 256) :
    RegsBut ((List.range 8).map HIF_MSIX_PBA) s (sendMsix v s) ∧ CtrsBut [HIF_CNT 8] s (sendMsix v s) := by
  unfold sendMsix
  split
  · refine ⟨fun a ha => rd_wr_ne _ _ fun e => ha ?_, fun a _ _ => rfl⟩
    exact List.mem_map.mpr ⟨v / 32, List.mem_range.mpr (by omega), e.symm⟩
  · refine ⟨fun a _ => ?_, fun a ha hl => ?_⟩
    · exact (rd_bump _ _ _).trans ((ledgerFlush_changes s).1 a (by simp))
    · rw [ctr_bump, if_neg (by simpa using ha)]
      exact (ledgerFlush_changes s).2 a fun h => hl ⟨by simp, h⟩

theorem pendEdge_changes (p : Nat) (before : Bool) (s : State) :
    RegsBut ((List.range 8).map HIF_MSIX_PBA) s (pendEdge p before s) ∧ CtrsBut [HIF_CNT 8] s (pendEdge p before s) := by
  unfold pendEdge
  split
  · exact sendMsix_changes _ s (by rw [rf]; exact fld_lt _ 15 8)
  · exact ⟨fun _ _ => rfl, fun _ _ _ => rfl⟩

/-- What `raiseAs` does before the pending bit is judged: the event bit is set and nothing else of the registers and counters
changes. -/
theorem raiseAs_shape (inj : Bool) (p b : Nat) (s : State) (h : rb s (H_INT_STAT p) b = false) :
    ∃ t, raiseAs inj p b s = pendEdge p (pendBit s p) t ∧
      rd t (H_INT_STAT p) = (rd s (H_INT_STAT p) ||| w32 (2 ^ b)) ∧ RegsBut [H_INT_STAT p] s t ∧ CtrsBut [] s t := by
  have h' : bit (rd s (H_INT_STAT p)) b ≠ true := by rw [rb] at h; rw [h]; decide
  have hmsg : ∀ (c : Bool) (k n : Nat) (x : State) (a : Nat), rd (if c = true then sendMsg p k n inj x else x) a = rd x a ∧
      ctr (if c = true then sendMsg p k n inj x else x) a = ctr x a := by
    intro c k n x a; cases c <;> exact ⟨rfl, rfl⟩
  unfold raiseAs
  dsimp only
  rw [if_neg h']
  refine ⟨_, rfl, ?_, fun a ha => ?_, fun a _ _ => ?_⟩
  · refine (hmsg _ _ _ _ _).1.trans ?_
    split
    · split <;> simp only [rd_ledger, rd_wr_same]
    · exact rd_wr_same _ _ _
  · have hw := rd_wr_ne (rd s (H_INT_STAT p) ||| w32 (2 ^ b)) s (show a ≠ H_INT_STAT p by simpa using ha)
    refine (hmsg _ _ _ _ _).1.trans ?_
    split
    · split <;> exact hw
    · exact hw
  · refine (hmsg _ _ _ _ _).2.trans ?_
    split
    · split <;> rfl
    · rfl

/-- An event bit that was set changes nothing. -/
theorem raiseAs_set (inj : Bool) (p b : Nat) (s : State) (h : rb s (H_INT_STAT p) b = true) : raiseAs inj p b s = s := by
  unfold raiseAs
  exact if_pos h

/-- An event changes INT_STAT of its page and pending bits of vectors, and no counter but HIF_CNT_8. -/
theorem raiseAs_changes (inj : Bool) (p b : Nat) (s : State) :
    RegsBut (eventRegs p) s (raiseAs inj p b s) ∧ CtrsBut [HIF_CNT 8] s (raiseAs inj p b s) := by
  by_cases h : rb s (H_INT_STAT p) b = true
  · rw [raiseAs_set inj p b s h]; exact ⟨fun _ _ => rfl, fun _ _ _ => rfl⟩
  · obtain ⟨t, ht, -, hr, hc⟩ := raiseAs_shape inj p b s (by simpa using h)
    rw [ht]
    obtain ⟨h1, h2⟩ := pendEdge_changes p (pendBit s p) t
    refine ⟨fun a ha => ?_, fun a ha hl => ?_⟩
    · simp only [eventRegs, List.mem_cons, not_or] at ha
      rw [h1 a ha.2, hr a (by simpa using ha.1)]
    · rw [h2 a ha hl, hc a (by simp) (by simp)]

/-- INT_STAT is no pending word of a vector. -/
theorem intStat_not_pba (p : Nat) : H_INT_STAT p ∉ (List.range 8).map HIF_MSIX_PBA := by
  intro h
  obtain ⟨i, hi, e⟩ := List.mem_map.mp h
  simp only [List.mem_range] at hi
  simp only [H_INT_STAT, HIF_MSIX_PBA, bar0] at e
  omega

/-- An event sets its bit and keeps every other bit of INT_STAT. -/
theorem intStat_raiseAs (inj : Bool) (p b : Nat) (s : State) :
    rd (raiseAs inj p b s) (H_INT_STAT p) = (rd s (H_INT_STAT p) ||| w32 (2 ^ b)) ∨
      rb s (H_INT_STAT p) b = true ∧ rd (raiseAs inj p b s) (H_INT_STAT p) = rd s (H_INT_STAT p) := by
  by_cases h : rb s (H_INT_STAT p) b = true
  · exact .inr ⟨h, by rw [raiseAs_set inj p b s h]⟩
  · obtain ⟨t, ht, hv, -, -⟩ := raiseAs_shape inj p b s (by simpa using h)
    left
    rw [ht, (pendEdge_changes p _ t).1 _ (intStat_not_pba p), hv]

theorem bit_or_pow (w : W32) (b i : Nat) (h : i < 32) : bit (w ||| w32 (2 ^ b)) i = (bit w i || decide (b = i)) := by
  rw [bit, BitVec.toNat_or, Nat.testBit_or, bit, w32, BitVec.toNat_ofNat, Nat.testBit_mod_two_pow, Nat.testBit_two_pow]
  simp [h]

/-- After an event its bit of INT_STAT is 1, and every other bit as before. -/
theorem rb_raise (p b i : Nat) (s : State) (h : i < 32) :
    rb (raise p b s) (H_INT_STAT p) i = (rb s (H_INT_STAT p) i || decide (b = i)) := by
  rcases intStat_raiseAs false p b s with e | ⟨hb, e⟩
  · rw [rb, raise, e, bit_or_pow _ _ _ h, rb]
  · rw [rb, raise, e, ← rb]
    by_cases hi : b = i
    · subst hi; rw [hb]; rfl
    · simp [hi]

theorem raise_changes (p b : Nat) (s : State) : RegsBut (eventRegs p) s (raise p b s) ∧ CtrsBut [HIF_CNT 8] s (raise p b s) :=
  raiseAs_changes false p b s

@[simp] theorem rd_reportFault (p kind addr : Nat) (inj : Bool) (s : State) (a : Nat) : rd (reportFault p kind addr inj s) a = rd s a := by
  unfold reportFault; split <;> rfl

@[simp] theorem ctr_reportFault (p kind addr : Nat) (inj : Bool) (s : State) (c : Nat) :
    ctr (reportFault p kind addr inj s) c = ctr s c := by
  unfold reportFault; split <;> rfl

/-! ## Host accesses -/

/-- A host write to a page that answers and needs no wake is the write's own effect. -/
theorem hostDo_open (a : Nat) (f : State → State) (s : State) (h : reach s a = .open) (hn : noteAccess a s = s) :
    hostDo a f s = f s := by
  rw [hostDo, h]; simp only [hn]

/-- A host write to a register that does not answer changes nothing but, for a PARKED gallery's page, its power state. -/
theorem hostDo_shut (a : Nat) (f : State → State) (s : State) (h : reach s a = .shut ∨ reach s a = .kept) :
    hostDo a f s = noteAccess a s := by
  rcases h with h | h <;> rw [hostDo, h]

/-- A header access wakes nothing. -/
theorem noteAccess_header (a : Nat) (s : State) (h : a % 0x10000 < 0x100) : noteAccess a s = s := by
  rw [noteAccess, if_pos h]

/-- An access to a page of no gallery wakes nothing. -/
theorem noteAccess_plain (a : Nat) (s : State) (h : pageGallery s.part (a / 0x10000) = none) : noteAccess a s = s := by
  unfold noteAccess
  split
  · rfl
  · rw [h]

end Sys2Proof.Machine
end

