-- ==== Sys2Proof/Laws/Table.lean ====
section
/-!
SUPPORT. Table words and host memory: what a read finds after a write, and that every write keeps the canonical form.
-/
namespace Sys2Proof.Machine

/-! ## Words -/

@[simp] theorem tw_wr (a : Nat) (v : W32) (s : State) (b : Nat) : tw (wr a v s) b = tw s b := rfl

@[simp] theorem tw_putWord_same (a : Nat) (v : W32) (s : State) : tw (putWord a v s) a = v &&& wordMask a := sGet_sPut_same _ _ _ _

theorem tw_putWord_ne {a b : Nat} (v : W32) (s : State) (h : b ≠ a) : tw (putWord a v s) b = tw s b := sGet_sPut_ne _ _ _ h _

/-- A run of words reads back, each through the mask of its place, and every other word is as before. -/
theorem tw_putWords : ∀ (ws : List W32) (a b : Nat) (s : State), tw (putWords a ws s) b =
    if a ≤ b ∧ b < a + 4 * ws.length ∧ (b - a) % 4 = 0 then ws.getD ((b - a) / 4) 0 &&& wordMask b else tw s b
  | [], a, b, s => by
    rw [putWords, if_neg]
    simp only [List.length_nil]
    omega
  | v :: r, a, b, s => by
    rw [putWords, tw_putWords r (a + 4) b (putWord a v s)]
    simp only [List.length_cons]
    by_cases hab : b = a
    · subst hab
      have h1 : ¬(b + 4 ≤ b ∧ b < b + 4 + 4 * r.length ∧ (b - (b + 4)) % 4 = 0) := by omega
      have h2 : b ≤ b ∧ b < b + 4 * (r.length + 1) ∧ (b - b) % 4 = 0 := by omega
      rw [if_neg h1, if_pos h2, tw_putWord_same, Nat.sub_self, Nat.zero_div]
      rfl
    · rw [tw_putWord_ne v s hab]
      by_cases h : a + 4 ≤ b ∧ b < a + 4 + 4 * r.length ∧ (b - (a + 4)) % 4 = 0
      · have h2 : a ≤ b ∧ b < a + 4 * (r.length + 1) ∧ (b - a) % 4 = 0 := by omega
        have h3 : (b - a) / 4 = (b - (a + 4)) / 4 + 1 := by omega
        rw [if_pos h, if_pos h2, h3]
        rfl
      · have h2 : ¬(a ≤ b ∧ b < a + 4 * (r.length + 1) ∧ (b - a) % 4 = 0) := by omega
        rw [if_neg h, if_neg h2]

theorem putWords_ecc : ∀ (ws : List W32) (a : Nat) (s : State), (putWords a ws s).tab.ecc = s.tab.ecc
  | [], _, _ => rfl
  | v :: r, a, s => by rw [putWords, putWords_ecc r (a + 4)]; rfl

theorem putWords_merges : ∀ (ws : List W32) (a : Nat) (s : State), (putWords a ws s).tab.merges = s.tab.merges
  | [], _, _ => rfl
  | v :: r, a, s => by rw [putWords, putWords_merges r (a + 4)]; rfl

/-- Stored words change the table space alone. -/
theorem putWords_rest : ∀ (ws : List W32) (a : Nat) (s : State), putWords a ws s = { s with tab := (putWords a ws s).tab }
  | [], _, _ => rfl
  | v :: r, a, s => by rw [putWords, putWords_rest r (a + 4)]; rfl

/-! ## ECC state of words -/

@[simp] theorem unclear_tab (b : Nat) (s : State) : (unclear b s).tab = s.tab := by
  unfold unclear
  dsimp only
  split
  · split <;> rfl
  · split <;> rfl

@[simp] theorem unclear_hif (b : Nat) (s : State) : (unclear b s).hif = s.hif := by
  unfold unclear
  dsimp only
  split
  · split <;> rfl
  · split <;> rfl

@[simp] theorem putEcc_words (b : Nat) (e : Ecc) (s : State) : (putEcc b e s).tab.words = s.tab.words := rfl

@[simp] theorem putEcc_merges (b : Nat) (e : Ecc) (s : State) : (putEcc b e s).tab.merges = s.tab.merges := rfl

@[simp] theorem putEcc_ecc (b : Nat) (e : Ecc) (s : State) : (putEcc b e s).tab.ecc = sPut ⟨.never, 0, false⟩ b e s.tab.ecc := rfl

@[simp] theorem tw_putEcc (b : Nat) (e : Ecc) (s : State) (a : Nat) : tw (putEcc b e s) a = tw s a := by
  rw [tw, putEcc_words, tw]

/-- A word whose base is `b` has the side data just stored there, and every other word its own. -/
theorem eccOf_putEcc (b : Nat) (e : Ecc) (s : State) (a : Nat) : eccOf (putEcc b e s) a = if eccBase a = b then e else eccOf s a := by
  rw [eccOf, putEcc_ecc, sGet_sPut]; rfl

/-- ovf_high is all that a write's judgement of the overflow count can set. -/
theorem ovfEdge_onlyBus (old s : State) : OnlyBus s (ovfEdge old s) := by
  have one : ∀ (c : Prop) [Decidable c] (w : Nat) (x : State), OnlyBus x (if c then raise (pageCAT w) 2 x else x) := by
    intro c _ w x
    split
    · exact raise_onlyBus _ _ _
    · rfl
  unfold ovfEdge
  simp only [List.foldl_cons, List.foldl_nil]
  exact (one _ 1 _).trans' (one _ 0 s)

/-- What a write does beyond the memory leaves the table space and the host's memory alone. -/
theorem wordWritten_keeps (b : Nat) (old s : State) : (wordWritten b old s).tab = s.tab ∧ (wordWritten b old s).hif = s.hif := by
  have h : ∀ t : State, t = (if (eccOf s b).st = .good then unclear b s else s) → t.tab = s.tab ∧ t.hif = s.hif := by
    intro t ht
    rw [ht]
    split
    · exact ⟨unclear_tab b s, unclear_hif b s⟩
    · exact ⟨rfl, rfl⟩
  unfold wordWritten
  dsimp only
  split
  · obtain ⟨h1, h2⟩ := h _ rfl
    exact ⟨(ovfEdge_onlyBus old _).tab.trans h1, (ovfEdge_onlyBus old _).hif.trans h2⟩
  · exact h _ rfl

@[simp] theorem wordWritten_tab (b : Nat) (old s : State) : (wordWritten b old s).tab = s.tab := (wordWritten_keeps b old s).1

@[simp] theorem wordWritten_hif (b : Nat) (old s : State) : (wordWritten b old s).hif = s.hif := (wordWritten_keeps b old s).2

@[simp] theorem tw_wordWritten (b : Nat) (old s : State) (a : Nat) : tw (wordWritten b old s) a = tw s a := by
  rw [tw, wordWritten_tab, tw]

/-- With no merge waiting, settling changes nothing. -/
theorem settle_none (s : State) (h : s.tab.merges = []) : settle s = s := by
  unfold settle
  rw [h]
  simp only [List.foldl_nil]
  cases s with
  | mk part bus tab => cases tab; cases h; rfl

/-! ## Canonical form -/

theorem memoryWf_parts (s t : State) (hw : sWf (fun _ => (0 : W32)) s.tab.words = true → sWf (fun _ => (0 : W32)) t.tab.words = true)
    (hm : t.hif.mem = s.hif.mem) (h : Memory.wf s = true) : Memory.wf t = true := by
  simp only [Memory.wf, Bool.and_eq_true] at h ⊢
  exact ⟨hw h.1, by rw [hm]; exact h.2⟩

theorem memoryWf_putWord (a : Nat) (v : W32) (s : State) (h : Memory.wf s = true) : Memory.wf (putWord a v s) = true :=
  memoryWf_parts s _ (sWf_sPut (fun _ => (0 : W32)) a _ _) rfl h

theorem memoryWf_putWords : ∀ (ws : List W32) (a : Nat) (s : State), Memory.wf s = true → Memory.wf (putWords a ws s) = true
  | [], _, _, h => h
  | v :: r, a, s, h => memoryWf_putWords r (a + 4) _ (memoryWf_putWord a v s h)

/-- What leaves the stored words and the host's memory alone keeps their form. -/
theorem memoryWf_same (s t : State) (hw : t.tab.words = s.tab.words) (hm : t.hif.mem = s.hif.mem) (h : Memory.wf s = true) :
    Memory.wf t = true := memoryWf_parts s t (by rw [hw]; exact id) hm h

@[simp] theorem putEcc_hif (b : Nat) (e : Ecc) (s : State) : (putEcc b e s).hif = s.hif := rfl

theorem memoryWf_putEcc (b : Nat) (e : Ecc) (s : State) (h : Memory.wf s = true) : Memory.wf (putEcc b e s) = true :=
  memoryWf_same s _ (putEcc_words b e s) (by rw [putEcc_hif]) h

theorem memoryWf_wordWritten (b : Nat) (old s : State) (h : Memory.wf s = true) : Memory.wf (wordWritten b old s) = true :=
  memoryWf_same s _ (by rw [wordWritten_tab]) (by rw [wordWritten_hif]) h

theorem memoryWf_onlyBus {s t : State} (o : OnlyBus s t) (h : Memory.wf s = true) : Memory.wf t = true :=
  memoryWf_same s t (by rw [o.tab]) (by rw [o.hif]) h

theorem memoryWf_runMerge (m : Merge) (s : State) (h : Memory.wf s = true) : Memory.wf (runMerge m s) = true := by
  have hp : ∀ e, Memory.wf (wordWritten (eccBase m.addr) s (putWords m.addr m.words (putEcc (eccBase m.addr) e s))) = true :=
    fun e => memoryWf_wordWritten _ _ _ (memoryWf_putWords _ _ _ (memoryWf_putEcc _ _ _ h))
  unfold runMerge
  dsimp only
  split
  · exact memoryWf_onlyBus (raiseFirst_onlyBus _ _ _) (memoryWf_onlyBus (bump_onlyBus _ _) (hp _))
  · exact memoryWf_onlyBus (bump_onlyBus _ _) (hp _)
  · exact hp _
  · exact hp _

theorem memoryWf_merges : ∀ (l : List Merge) (s : State), Memory.wf s = true → Memory.wf (l.foldl (fun a m => runMerge m a) s) = true
  | [], _, h => h
  | m :: r, s, h => memoryWf_merges r _ (memoryWf_runMerge m s h)

theorem memoryWf_settle (s : State) (h : Memory.wf s = true) : Memory.wf (settle s) = true := memoryWf_merges _ _ (memoryWf_same s _ rfl rfl h)

theorem memoryWf_writeEcc (a : Nat) (ws : List W32) (s : State) (h : Memory.wf s = true) : Memory.wf (writeEcc a ws s) = true := by
  unfold writeEcc
  split
  · refine memoryWf_wordWritten _ _ _ (memoryWf_putEcc _ _ _ (memoryWf_putWords _ _ _ ?_))
    split
    · exact memoryWf_settle s h
    · exact h
  · refine memoryWf_onlyBus (bump_onlyBus _ _) ?_
    dsimp only
    split
    · exact memoryWf_same _ _ rfl rfl h
    · split
      · exact memoryWf_same _ _ rfl rfl h
      · rename_i m r _
        exact memoryWf_same _ _ rfl rfl (memoryWf_runMerge m _ (memoryWf_same s _ rfl rfl h))

theorem memoryWf_writeTable : ∀ (n a : Nat) (ws : List W32) (s : State), Memory.wf s = true → Memory.wf (writeTable n a ws s) = true
  | 0, _, _, _, h => h
  | n + 1, a, ws, s, h => by
    rw [writeTable]
    split
    · exact h
    · exact memoryWf_writeTable n _ _ _ (memoryWf_writeEcc _ _ _ h)

theorem memoryWf_engWrite (a : Nat) (ws : List W32) (s : State) (h : Memory.wf s = true) : Memory.wf (engWrite a ws s) = true :=
  memoryWf_wordWritten _ _ _ (memoryWf_putEcc _ _ _ (memoryWf_putWords _ _ _ (memoryWf_settle s h)))

theorem memoryWf_engWriteBoth (r o : Nat) (ws : List W32) (s : State) (h : Memory.wf s = true) : Memory.wf (engWriteBoth r o ws s) = true :=
  memoryWf_engWrite _ _ _ (memoryWf_engWrite _ _ _ h)

theorem memoryWf_hostWrite : ∀ (l : List Byte) (a : Nat) (s : State), Memory.wf s = true → Memory.wf (hostWrite a l s) = true
  | [], _, _, h => h
  | b :: r, a, s, h => by
    refine memoryWf_hostWrite r (a + 1) _ ?_
    simp only [Memory.wf, Bool.and_eq_true] at h ⊢
    exact ⟨h.1, sWf_sPut (fun _ => (none : Option Byte)) a _ _ h.2⟩

/-- The engine's write to the host's memory is read back, and every other byte is as before. -/
theorem mem_hostWrite : ∀ (l : List Byte) (a b : Nat) (s : State), sGet none b (hostWrite a l s).hif.mem =
    if a ≤ b ∧ b < a + l.length then some (l.getD (b - a) 0) else sGet none b s.hif.mem
  | [], a, b, s => by
    rw [hostWrite, if_neg]
    simp only [List.length_nil]
    omega
  | v :: r, a, b, s => by
    rw [hostWrite, mem_hostWrite r (a + 1) b]
    simp only [List.length_cons]
    by_cases hab : b = a
    · subst hab
      have h1 : ¬(b + 1 ≤ b ∧ b < b + 1 + r.length) := by omega
      have h2 : b ≤ b ∧ b < b + (r.length + 1) := by omega
      rw [if_neg h1, if_pos h2, sGet_sPut_same, Nat.sub_self]
      rfl
    · rw [sGet_sPut_ne _ _ _ hab]
      by_cases h : a + 1 ≤ b ∧ b < a + 1 + r.length
      · have h2 : a ≤ b ∧ b < a + (r.length + 1) := by omega
        have h3 : b - a = b - (a + 1) + 1 := by omega
        rw [if_pos h, if_pos h2, h3]
        rfl
      · have h2 : ¬(a ≤ b ∧ b < a + (r.length + 1)) := by omega
        rw [if_neg h, if_neg h2]

theorem memoryWf_reset : Memory.wf State.reset = true := rfl

end Sys2Proof.Machine
end

