-- ==== Sys2Proof/WellFormed.lean ====
section
/-!
DEFINITION. Well-formed commands: operands that an agent outside the engine may send under the spec's own limits. The machine runs
an ill-formed command too; well-formedness is what a sender keeps.
-/
namespace Sys2Proof

/-- Bytes arrive: a frame has at least one, and a frame that goes on arriving starts with its first 256 (R73, R103). -/
def rxWf : RxEvent → Bool
  | .whole bytes _ => bytes != []
  | .head bytes len => decide (256 ≤ bytes.length) && decide (bytes.length < len)
  | .tail _ _ => true

/-- A PFC frame carries eight quanta (R76). -/
def pauseWf : PauseFrame → Bool
  | .pause _ => true
  | .pfc _ quanta => quanta.length == 8

/-- Operands within what the spec lets a sender send: aligned register accesses (R11), ring entries of 32 bytes (chapter 16, Rings),
accesses the table window accepts (R501), segments of at most 256 payload bytes (R540), chunks of 4 KiB (R596), cells and
rows named once. -/
def Instr.wellFormed : Instr → Bool
  | .registerWrite a _ => a.toNat % 4 == 0
  | .bar0AccessError _ _ _ _ => true
  | .counterLoRead a => a.toNat % 8 == 0
  | .softReset _ => true
  | .enableWrite _ _ => true
  | .blockStartComplete _ => true
  | .blockStopComplete _ => true
  | .stopTimeout _ => true
  | .rxFrame _ ev _ => rxWf ev
  | .pauseFrameRx _ pf => pauseWf pf
  | .pauseFrameTx _ => true
  | .flitRetry _ _ _ => true
  | .standbyRetrain _ _ => true
  | .octetModeWrite _ _ _ => true
  | .laneStateReq _ _ _ => true
  | .trainComplete _ _ _ _ => true
  | .lossOfLock _ _ => true
  | .holdRestoreTimeout _ _ => true
  | .retuneComplete _ _ _ _ _ _ => true
  | .retuneAbort _ _ _ _ => true
  | .modCmdGo _ _ => true
  | .modDone _ _ _ => true
  | .tsFifoPop _ => true
  | .d2dStatRead _ => true
  | .dispatch _ => true
  | .docNop _ _ => true
  | .docAdd _ _ => true
  | .docSub _ _ => true
  | .docAnd _ _ => true
  | .docOr _ _ => true
  | .docXor _ _ => true
  | .docShl _ _ => true
  | .docShr _ _ => true
  | .docAddi _ _ => true
  | .docAndi _ _ => true
  | .docOri _ _ => true
  | .docXori _ _ => true
  | .docShli _ _ => true
  | .docShri _ _ => true
  | .docLui _ _ => true
  | .docExt _ _ => true
  | .docLdb _ _ => true
  | .docLdw _ _ => true
  | .docLdd _ _ => true
  | .docLdbx _ _ => true
  | .docLdwx _ _ => true
  | .docLddx _ _ => true
  | .docAdv _ _ => true
  | .docAdvr _ _ => true
  | .docSetc _ _ => true
  | .docGetc _ _ => true
  | .docStf _ _ => true
  | .docStf2 _ _ => true
  | .docCpf _ _ => true
  | .docMark _ _ => true
  | .docMarkr _ _ => true
  | .docLdf _ _ => true
  | .docJmp _ _ => true
  | .docBeq _ _ => true
  | .docBne _ _ => true
  | .docBltu _ _ => true
  | .docBgeu _ _ => true
  | .docBeqi _ _ => true
  | .docBnei _ _ => true
  | .docBbs _ _ => true
  | .docMatch _ _ _ => true
  | .docSets _ _ => true
  | .docCkv4 _ _ => true
  | .docDone _ _ => true
  | .docFail _ _ => true
  | .budgetExpiry _ _ => true
  | .pressureCut _ _ => true
  | .docentCoreFault _ _ => true
  | .reorderRelease _ => true
  | .catLookup _ _ => true
  | .routeLookup _ => true
  | .vitSearch _ _ => true
  | .ingressResolution _ => true
  | .lastCellWritten _ => true
  | .cellFree _ _ => true
  | .chainWalkerFree => true
  | .quarantineRelease _ => true
  | .hallRead _ _ => true
  | .hallBankFail _ => true
  | .hallSpareCmd _ => true
  | .hallBankSpared bad => decide (bad.Nodup)
  | .xoffExit _ _ => true
  | .pfcRefresh _ => true
  | .dequeueSelect _ => true
  | .headDiscard _ => true
  | .wheelRelease => true
  | .shaperRateWrite _ _ => true
  | .shaperForgive _ _ => true
  | .shaperBurstWrite _ _ => true
  | .editorEdit _ => true
  | .frameTransmit _ _ => true
  | .samplerRound => true
  | .archiveCapture _ => true
  | .archiveRecordWrite _ => true
  | .arcRingCfgWrite _ _ _ => true
  | .rplHeaderCmd _ => true
  | .rplBusyClear => true
  | .catInsert => true
  | .catReplace => true
  | .catDelete => true
  | .catFind => true
  | .accessionLearn _ => true
  | .learnRetry _ => true
  | .deaccessionPass => true
  | .routeAdd => true
  | .routeReplace => true
  | .routeDelete => true
  | .routeFind => true
  | .nhSet => true
  | .nhDelete => true
  | .groupSet => true
  | .groupReplaceMember => true
  | .groupRemoveMember => true
  | .groupDelete => true
  | .vitPlace => true
  | .vitInsert => true
  | .vitReplace => true
  | .vitDelete => true
  | .vitFind => true
  | .polSet => true
  | .vitBankFail _ _ => true
  | .vitSpareCmd _ _ => true
  | .vitBankSpared _ => true
  | .tplSet => true
  | .tplDelete => true
  | .tplFind => true
  | .commandDispatch => true
  | .commit => true
  | .discard => true
  | .epochRetire => true
  | .walkerWork => true
  | .drainSlow => true
  | .doorbell _ => true
  | .entryFetch _ e _ => e.length == 8
  | .ringCfgWrite _ _ _ _ => true
  | .h2t _ _ => true
  | .t2h _ => true
  | .t2t _ => true
  | .fill _ => true
  | .h2h _ _ => true
  | .dmaComplete _ _ => true
  | .injectJob _ bytes => decide (bytes.length ≤ 12284)
  | .bufferPost _ e => e.length == 8
  | .puntDelivery _ => true
  | .irqTimer _ _ => true
  | .apertureRead _ off len => (len == 4 || len == 8) && off.toNat % len.toNat == 0
  | .apertureWrite _ off bytes => bytes != [] && bytes.length % 4 == 0 && off.toNat % 4 == 0 && decide (off.toNat % 64 + bytes.length ≤ 64)
  | .narrowWriteMerge => true
  | .d3hotEntry _ _ => true
  | .d0Resume _ _ => true
  | .pciePerstN speed width => width.val == 0 || (decide (3 ≤ speed.val) && [1, 2, 4, 8].contains width.val)
  | .functionLevelReset => true
  | .dataSegmentRx _ payload _ => decide (payload.length ≤ 256)
  | .creditSegmentRx _ payload _ => decide (payload.length ≤ 256)
  | .linkSegmentRx _ payload _ => decide (payload.length ≤ 256)
  | .segmentTx => true
  | .creditReturn _ _ => true
  | .linkSegmentTx => true
  | .annexTrainDone => true
  | .annexLockLoss _ => true
  | .port513DownTimer => true
  | .ledgerWrap _ _ => true
  | .counterClear _ _ _ => true
  | .userPageRead off wide => off.toNat % (if wide then 8 else 4) == 0
  | .userPageWrite _ => true
  | .ldgUserStatRead => true
  | .docCycStatRead _ => true
  | .sojournMaxRead _ => true
  | .scrubPass _ ce ue => decide ((ce ++ ue).Nodup)
  | .scrubWriteBack => true
  | .ceLeak _ => true
  | .imageComparePass _ rows keys => decide rows.Nodup && decide keys.Nodup
  | .shadowChunkCompare _ bytes busErr => busErr || bytes.length == 4096
  | .shadowRecheck _ => true
  | .eccInject _ => true
  | .vaultModeEntry _ => true
  | .spillWrite => true
  | .returnRead _ _ _ => true
  | .vaultModeExit _ => true
  | .refreshPerBank _ _ _ => true
  | .activate _ _ _ => true
  | .actTableClear _ _ => true
  | .rfmRequest _ _ => true
  | .stackTempRead _ _ => true
  | .pseudoChannelFail _ _ => true
  | .pcFailCmd _ => true
  | .pcFence _ => true
  | .selfRefreshEntry => true
  | .selfRefreshExit => true
  | .tsnStep _ => true
  | .tsnTimeSet _ => true
  | .timeReadLatch => true
  | .timeInputLoss => true
  | .timeInputLock => true
  | .ppsOutPulse => true
  | .ppsInCapture => true
  | .gclGo _ _ => true
  | .gclChange _ => true
  | .gateEntryAdvance _ => true
  | .srfTimeout _ => true
  | .srfResetCmd _ => true
  | .curatorPeriod _ => true
  | .lockstepMismatch _ => true
  | .codedMessage => true
  | .intSetWrite _ _ => true
  | .injectMessage _ => true
  | .hostFence _ => true
  | .fenceRelease _ => true
  | .blockFault _ _ _ => true
  | .galleryFault _ _ => true
  | .takeoverLinkSwitch _ => true
  | .plannedTakeover _ => true
  | .giveBack _ => true
  | .errCauseRead _ => true
  | .errCauseClear _ => true
  | .galleryPark _ => true
  | .galleryWake _ _ => true
  | .galleryDormant _ => true
  | .dormantWake _ _ => true
  | .poreset => true
  | .resetN => true
  | .pwrRstCmd _ => true
  | .refclkLoss _ => true
  | .refclkRecover => true
  | .laneRefclkLoss _ => true
  | .railUndervolt => true
  | .sensorRead _ _ => true
  | .bootRound _ _ _ => true
  | .bootBackoffExpiry _ _ _ => true
  | .hostFedLoad _ => true
  | .vubexRunning => true
  | .vubexStartTimeout _ => true
  | .lifeHoursTick => true
  | .ageMonitor _ _ => true
  | .lifecycleTransition _ _ => true
  | .keyProgram _ _ => true
  | .keyRevoke _ _ => true
  | .versionRaise _ _ => true
  | .nonceRead => true
  | .gpioEdge _ _ => true
  | .smbWrite a _ _ => a.toNat % 4 == 0
  | .smbSetAddress a _ => a.toNat % 4 == 0
  | .smbRead => true
  | .pauseQuantaExpiry _ _ => true
  | .ringConsumerWrite _ _ => true
  | .msixVectorUnmask _ => true
  | .busMasterEnableClear => true
  | .anxLinkEnWrite _ => true
  | .anxChanCfgWrite _ _ => true
  | .catCfgWrite _ _ => true
  | .catAgeCfgWrite _ _ => true
  | .vitBankCfgWrite _ _ _ => true
  | .vltPoolCfgWrite _ _ => true
  | .curLogCfgWrite _ _ => true
  | .pcieRefclkLoss => true
  | .laneRefclkReturn _ => true

end Sys2Proof
end

