-- ==== Sys2Proof/Tests/Slice0.lean ====
section
/-!
SUPPORT. Tests of one step on small states. Each theorem shows states and operands that meet the premises of a statement, and what the
rule it cites expects of the step; expected values come from the rule, worked by hand.
-/
set_option Elab.async false
namespace Sys2Proof.Tests
open Sys2Proof.Machine

/-- The state an outcome answers. -/
def after (r : Res) : State :=
  match r with
  | .next s => s
  | .fault _ | .refused _ => State.reset

/-- A command's next state. -/
def run (c : Instr) (s : State) : State := after (exec c s)

/-- The blocks of the home pages `ps` ON. -/
def up (ps : List Nat) (s : State) : State := ps.foldl (fun a p => setBlk p 2 a) s

/-- After boot: clocks locked, phase 3, PCIe up with Bus Master Enable, in D0. -/
def base : State := wr HIF_PCIE_STAT 0x1200 (setPhase 3 (clocksUp State.reset))

/-- A store of equal values reads as that value at each of its keys. -/
theorem sGet_all_equal {α : Type} (d v : α) (k : Nat) : ∀ l : List (Nat × α), (∀ e, e ∈ l → e.2 = v) → (∃ w, (k, w) ∈ l) → sGet d k l = v
  | [], _, ⟨_, h⟩ => nomatch h
  | (j, w) :: r, h, ⟨x, hx⟩ => by
    by_cases hj : j = k
    · simpa [sGet, hj] using h (j, w) (by simp)
    · have hr : (k, x) ∈ r := by
        rcases List.mem_cons.mp hx with he | he
        · exact absurd (Prod.mk.inj he).1.symm hj
        · exact he
      simpa [sGet, hj] using sGet_all_equal d v k r (fun e he => h e (List.mem_cons_of_mem _ he)) ⟨x, hr⟩

/-- A word that was written and holds no error is readable. -/
theorem readable_of_good (s : State) (a : Nat) (h : eccOf s a = ⟨.good, 0, false⟩) : readable s a = true := by
  simp [readable, rdStat, h]

/-! ## The machine as a whole -/

theorem test_step_runs_front : after (step { base with pending := [.poreset] }) = run .poreset base := by decide +kernel

theorem test_idle_ticks : base.pending = [] ∧ after (step base) = tick base := by decide +kernel

theorem test_step_invariants_hold : Memory.wf base = true ∧ base.prv.c < 256 ∧ base.prv.o < 256 ∧ liveCount base ≤ 4 := by
  decide +kernel

theorem test_frame_untouched : Part.lpm ∉ touches (.docNop 0 0) ∧ (run (.docNop 0 0) base).lpm = base.lpm := by decide +kernel

theorem test_numbers_fresh : idsFresh base := ⟨by decide +kernel, by decide +kernel⟩

/-! ## The common page header (R13, R690-R692) -/

/-- DEV's page with an error record (code 0x08, count 3) at address 0x1_2345_6789. -/
def errState : State :=
  wr (H_ERR_ADDR_HI pageDEV) 1 (wr (H_ERR_ADDR_LO pageDEV) 0x23456789 (wr (H_ERR_CAUSE pageDEV) 0x08030001 base))

theorem test_err_cause_read : reach errState (H_ERR_CAUSE (0 : Page)) = .open ∧
    (run (.errCauseRead 0) errState).bus.readData = 0x08030001 ∧
    latched (run (.errCauseRead 0) errState) (H_ERR_ADDR_HI 0) = some 1 := by decide +kernel

theorem test_err_cause_clear : rd (run (.errCauseClear 0) errState) (H_ERR_CAUSE 0) = 0 ∧
    rd (run (.errCauseClear 0) errState) (H_ERR_ADDR_LO 0) = 0 := by decide +kernel

/-- PWR_CNT_2 at 2^32 + 5. -/
def ctrState : State := { base with bus := { base.bus with ctr := [(PWR_CNT 2, 2 ^ 32 + 5)], latch := [(PWR_CNT 3 + 4, some 7)] } }

theorem test_counter_pair : reach ctrState (PWR_CNT 2) = .open ∧ counterWord ctrState (shownAt ctrState (PWR_CNT 2)) = true ∧
    shownAt ctrState (PWR_CNT 2) % 8 = 0 ∧
    (run (.counterLoRead (BitVec.ofNat 26 (PWR_CNT 2))) ctrState).bus.readData = 5 ∧
    latched (run (.counterLoRead (BitVec.ofNat 26 (PWR_CNT 2))) ctrState) (PWR_CNT 2 + 4) = some 1 ∧
    counterWord ctrState (shownAt ctrState (PWR_CNT 3 + 4)) = true ∧ shownAt ctrState (PWR_CNT 3 + 4) % 8 ≠ 0 ∧
    (run (.counterLoRead (BitVec.ofNat 26 (PWR_CNT 3 + 4))) ctrState).bus.readData = 7 := by decide +kernel

theorem test_header_reached : (List.range 0x100).all (fun x => reach base (bar0 (4 : Page) x) == .open) = true := by decide +kernel

theorem test_register_write : rf (run (.registerWrite (BitVec.ofNat 26 (H_MSG_CFG 4)) 0x40000000) base) (H_MSG_CFG 4) 31 30 = 1 ∧
    (let s := wr (H_INT_STAT 4) 0x3 base;
      rd (run (.registerWrite (BitVec.ofNat 26 (H_INT_STAT 4)) 0x2) s) (H_INT_STAT 4) = 1) ∧
    rd (run (.registerWrite (BitVec.ofNat 26 (H_ID 4)) 0xFFFFFFFF) base) (H_ID 4) = rd base (H_ID 4) := by decide +kernel

/-- A completion waits in HIF, and DPT is over-committed. -/
def lastingState : State :=
  wf DPT_CAP_STAT 20 0 0xFFFFF { base with hif := { base.hif with waiting := [⟨0, 0, [], false⟩] } }

theorem test_lasting_events : heldPage lastingState pageHIF = false ∧ heldPage lastingState pageDPT = false ∧
    lastingState.hif.waiting ≠ [] ∧ overCommitted lastingState = true ∧
    rb (run (.registerWrite (BitVec.ofNat 26 (H_INT_STAT pageHIF)) 0xFFFFFFFF) lastingState) (H_INT_STAT pageHIF) 3 = true ∧
    rb (run (.registerWrite (BitVec.ofNat 26 (H_INT_STAT pageDPT)) 0xFFFFFFFF) lastingState) (H_INT_STAT pageDPT) 4 = true := by
  decide +kernel

theorem test_bad_access : heldPage base pageDEV = false ∧
    rd (run (.bar0AccessError 0x1234561 true 0x3 true) base) (H_ERR_CAUSE pageDEV) = 0x08012003 ∧
    (run (.bar0AccessError 0x1234561 true 0x3 true) base).bus.readData = 0xFFFFFFFF := by decide +kernel

theorem test_injection : reach base (H_INT_SET (0x201 : Page)) = .open ∧ rb base RGR_INJ_CFG 0 = false ∧
    eventBits base.part 0x201 ≠ 0 ∧
    rd (run (.intSetWrite 0x201 0xFFFFFFFF) base) (H_INT_STAT 0x201) = w32 (eventBits base.part 0x201) := by decide +kernel

/-! ## Blocks and fences (R61, R64, R613-R617, R686-R688) -/

theorem test_enable : pageBlk base.part 0x201 = some (.lpm, 0, 0) ∧ home 0x201 = 0x201 ∧ reach base (H_CTRL (0x201 : Page)) = .open ∧
    lcState base ≠ 4 ∧ blkState base 0x201 = 0 ∧ mayLeaveOff base 0x201 = true ∧
    blkState (run (.enableWrite 0x201 true) base) 0x201 = 1 ∧
    (let s := up [0x201] base; blkState s 0x201 = 2 ∧ blkState (run (.enableWrite 0x201 false) s) 0x201 = 3) ∧
    (let s := setBlk 0x201 3 base; blkState s 0x201 = 3 ∧ reenable (run (.enableWrite 0x201 true) s) 0x201 = true) ∧
    (let s := setBlk 0x201 4 base; blkState s 0x201 = 4 ∧ reenable (run (.enableWrite 0x201 true) s) 0x201 = true ∧
      reenable (run (.enableWrite 0x201 false) s) 0x201 = false) := by decide +kernel

theorem test_enable_vault : pageBlk base.part 0x280 = some (.vlt, 0, 0) ∧ carveOk base = true ∧
    blkState (run (.enableWrite 0x280 true) base) 0x280 = 1 := by decide +kernel

/-- LPM STARTING with enable 1, no tier-0 block STARTING. -/
def startingState : State := wf (H_CTRL 0x201) 0 0 1 (setBlk 0x201 1 (up [1, 2, 4] base))

theorem test_start_complete : plainBlk .lpm = true ∧ heldPage startingState 0x201 = false ∧ blkState startingState 0x201 = 1 ∧
    stopPending startingState 0x201 = false ∧ lowerStarting startingState (blkTier .lpm) = false ∧
    blkState (run (.blockStartComplete 0x201) startingState) 0x201 = 2 ∧
    (let s := setBlk 0x248 1 startingState; lowerStarting s (blkTier .lpm) = true ∧ run (.blockStartComplete 0x201) s = s) := by
  decide +kernel

theorem test_stop_complete : (let s := setBlk 0x201 3 base;
      blkState s 0x201 = 3 ∧ drained .lpm 0 s = true ∧ blkState (run (.blockStopComplete 0x201) s) 0x201 = 0 ∧
      rb s (H_MSG_CFG 0x201) 31 = true ∧ s.bus.msgQ.length < 2 ∧ (run (.stopTimeout 0x201) s).bus.msgQ = [⟨0x201, 0x15, 0, 0, false⟩]) ∧
    (let s := setReenable 0x201 1 (setBlk 0x201 3 base);
      mayLeaveOff s 0x201 = true ∧ blkState (run (.blockStopComplete 0x201) s) 0x201 = 1) := by decide +kernel

theorem test_soft_reset : (let s := up [0x201] base;
      reach s (H_CTRL (0x201 : Page)) = .open ∧ blkState s 0x201 ≠ 0 ∧ rf (run (.softReset 0x201) s) (H_ERR_CAUSE 0x201) 31 24 = 6) ∧
    (let s := wr (LPM_PROF_CTRL 0 0) 0xFF base;
      blkState s 0x201 = 0 ∧ rd (run (.softReset 0x201) s) (LPM_PROF_CTRL 0 0) = regReset s.part (LPM_PROF_CTRL 0 0)) := by
  decide +kernel

theorem test_host_fence : reach base (H_FENCE (0x2B0 : Page)) = .open ∧ pageBlk base.part 0x2B0 = some (.csv, 0, 0) ∧
    neverFenced .csv = false ∧ plainBlk .csv = true ∧ blkState base 0x2B0 ≠ 4 ∧
    blkState (run (.hostFence 0x2B0) base) 0x2B0 = 4 ∧ rf (run (.hostFence 0x2B0) base) (H_FENCE 0x2B0) 13 8 = 0x1E ∧
    pageBlk base.part 4 = some (.rgr, 0, 0) ∧ neverFenced .rgr = true ∧ run (.hostFence 4) base = base ∧
    pageBlk base.part 0x102 = some (.gal, 0, 0) ∧ blkState (run (.hostFence 0x102) base) 0x102 = 4 ∧
    blkState (run (.hostFence 0x280) base) 0x280 = 4 := by decide +kernel

theorem test_fence_release : (let s := setBlk 0x2B0 4 base;
      blkState s 0x2B0 = 4 ∧ blkState (run (.fenceRelease 0x2B0) s) 0x2B0 = 0) ∧
    (let s := setReenable 0x2B0 1 (setBlk 0x2B0 4 base);
      reenable s 0x2B0 = true ∧ mayLeaveOff s 0x2B0 = true ∧ blkState (run (.fenceRelease 0x2B0) s) 0x2B0 = 1) := by decide +kernel

theorem test_block_fault : heldPage base 0x260 = false ∧ pageBlk base.part 0x260 = some (.tsn, 0, 0) ∧ home 0x260 = 0x260 ∧
    reportsBlock .tsn 0x10 = true ∧ blkState (run (.blockFault 0x260 0x10 0) base) 0x260 = 4 ∧
    rf (run (.blockFault 0x260 0x10 0) base) (H_FENCE 0x260) 13 8 = 0x10 ∧
    reportsBlock .lnk 0x12 = true ∧ (run (.blockFault 0x40 0x12 0) base).bus.regs = base.bus.regs := by decide +kernel

theorem test_gallery_fault : let s := wf RGR_SPARE_CFG 0 0 0 base
    galPresent s.part 1 = true ∧ heldPage s (pageGAL 1) = false ∧ galFenced s 1 = false ∧
    rb s RGR_SPARE_CFG 0 = false ∧ galState (run (.galleryFault 1 false) s) 1 = 3 ∧
    rb (run (.galleryFault 1 true) s) (H_INT_STAT (pageGAL 1)) 0 = true ∧
    rb (run (.galleryFault 1 false) s) (H_INT_STAT (pageGAL 1)) 0 = false ∧
    rb (run (.galleryFault 1 false) s) (H_INT_STAT pageRGR) 1 = true := by decide +kernel

/-! ## The Registrar, gallery power and the Curator -/

/-- A message of page 0x201, kind 0x06, with sequence number 3; the last one taken had number 0. -/
def msgState (kind : Nat) : State :=
  { base with
    bus := { base.bus with msgQ := [⟨0x201, kind, 0xABCDE, 3, false⟩] }
    rgr := { base.rgr with lastSeq := [(0x201, 1)] } }

theorem test_message_recorded : nextSource (msgState 6) = some 0x201 ∧
    ((msgState 6).bus.msgQ.find? fun x => x.source == 0x201) = some ⟨0x201, 6, 0xABCDE, 3, false⟩ ∧
    ctr (run .codedMessage (msgState 6)) (RGR_CNT 1) = 2 ∧ rd (run .codedMessage (msgState 6)) RGR_HIST_TOTAL = 1 ∧
    rb (run .codedMessage (msgState 6)) (H_INT_STAT pageRGR) 1 = true ∧
    rb (run .codedMessage (msgState 7)) (H_INT_STAT pageRGR) 1 = true ∧
    rb (run .codedMessage (msgState 2)) (H_INT_STAT pageRGR) 5 = true ∧
    rb (run .codedMessage (msgState 0xE)) (H_INT_STAT pageRGR) 6 = true ∧
    rb (run .codedMessage (msgState 0xF)) (H_INT_STAT pageRGR) 7 = true ∧
    rb (run .codedMessage (msgState 0x11)) (H_INT_STAT pageRGR) 7 = true ∧
    rb (run .codedMessage (msgState 0x16)) (H_INT_STAT pageRGR) 8 = true := by decide +kernel

theorem test_message_injected : reach base RGR_INJ_MSG_HI = .open ∧
    (run (.injectMessage 0x40410001) (wr RGR_INJ_MSG_LO 0x22 base)).bus.msgQ = [⟨0x101, 1, 0x1000000, 0x22, true⟩] := by
  decide +kernel

/-- Gallery 2 ON, its standby link trained. -/
def spareState : State := wf (LNK_D2D_STAT 2) 2 2 1 (up [0x120, 0x121, 0x122, 0x100 + 0x80] base)

theorem test_planned_takeover : reach spareState RGR_SPARE_CMD = .open ∧ spareRuns spareState = false ∧
    galPresent spareState.part 2 = true ∧ galOn spareState 2 = true ∧ (carries spareState 2).isSome = true ∧ gsReady spareState = true ∧
    rb spareState (LNK_D2D_STAT 2) 2 = true ∧ blkState (run (.plannedTakeover 2) spareState) (pageDOC 2) = 3 ∧
    (let s := wf (LNK_D2D_STAT 2) 2 2 0 spareState; ctr (run (.plannedTakeover 2) s) (RGR_CNT 5) = 1) ∧
    (let s := wf RGR_SPARE_STAT 31 31 1 spareState; spareRuns s = true ∧ (run (.plannedTakeover 2) s).rgr = s.rgr) := by
  decide +kernel

theorem test_give_back : let s := wf RGR_SPARE_STAT 19 16 2 spareState
    reach s RGR_SPARE_CMD = .open ∧ spareRuns s = false ∧ spareTarget s = 2 ∧ galOn s 2 = true ∧ isOn s (pageDOC 8) = true ∧
    blkState (run (.giveBack 2) s) (pageDOC 8) = 3 := by decide +kernel

theorem test_link_switch : (let s := { wf RGR_SPARE_STAT 31 31 1 (wf RGR_SPARE_STAT 19 16 2 spareState) with
        rgr := { base.rgr with switching := some (2, false) } };
      rb (run (.takeoverLinkSwitch 77) s) (LNK_D2D_STAT 2) 0 = true ∧ rf (run (.takeoverLinkSwitch 77) s) RGR_SPARE_STAT 15 0 = 77 ∧
      spareRuns (run (.takeoverLinkSwitch 77) s) = false ∧ ctr (run (.takeoverLinkSwitch 77) s) (RGR_CNT 4) = 1) ∧
    (let s := { wf RGR_SPARE_STAT 31 31 1 (wf RGR_SPARE_STAT 19 16 2 spareState) with
        rgr := { base.rgr with switching := some (2, true) } };
      rb (run (.takeoverLinkSwitch 77) s) (LNK_D2D_STAT 2) 1 = true ∧ spareTarget (run (.takeoverLinkSwitch 77) s) = 15 ∧
      ctr (run (.takeoverLinkSwitch 77) s) (RGR_CNT 6) = 1) := by decide +kernel

/-- Gallery 3 allowed to park and to go dormant. -/
def parkState : State := wf (GAL_PARK_CFG 3) 1 0 3 base

theorem test_gallery_park : galPresent parkState.part 3 = true ∧ galState parkState 3 = 0 ∧ galFenced parkState 3 = false ∧
    parkAllow parkState 3 = true ∧ galIdle parkState 3 = true ∧ gateKeeps parkState 3 = false ∧ heldPage parkState (pageGAL 3) = false ∧
    galState (run (.galleryPark 3) parkState) 3 = 1 ∧ rf (run (.galleryPark 3) parkState) PWR_GAL_STAT 7 6 = 1 := by decide +kernel

theorem test_gallery_wake : let s := setGalState 3 4 parkState
    wakeAsked s 3 = true ∧ galState (run (.galleryWake 3 true) s) 3 = 0 ∧
    rb (run (.galleryWake 3 true) s) (H_INT_STAT (pageGAL 3)) 1 = true := by decide +kernel

theorem test_gallery_dormant : let s := setGalState 3 1 parkState
    galState s 3 = 1 ∧ dormantAllow s 3 = true ∧ allAsleep s 3 = true ∧ galState (run (.galleryDormant 3) s) 3 = 2 ∧
    ctr (run (.galleryDormant 3) s) (PWR_CNT 2) = 1 := by decide +kernel

theorem test_dormant_wake : let s := wf (GAL_PARK_CFG 3) 1 0 0 (setGalState 3 2 parkState)
    galState s 3 = 2 ∧ dormantAllow s 3 = false ∧ galState (run (.dormantWake 3 false) s) 3 = 0 := by decide +kernel

/-- The ECN and spill knobs enabled, with envelopes of 100 to 200 cells, and ECN threshold 0 at 150. -/
def curState : State :=
  let s := wr CUR_CFG 0x6 (up [pageCUR] base)
  let s1 := (List.range 16).foldl (fun a i => wr (CUR_ENV_ECN_MIN i) 100 (wr (CUR_ENV_ECN_MAX i) 200
    (wr (CUR_ENV_SPILL_MIN i) 100 (wr (CUR_ENV_SPILL_MAX i) 200 a)))) s
  wf (HAL_ECN_CFG 0) 20 0 150 (up [pageHAL] s1)

theorem test_curator_envelope : envValid curState 1 0 = true ∧ decided 1 100 200 150 1000 = (162, true) ∧
    decided 1 100 200 50 0 = (100, true) := by decide +kernel

theorem test_curator_period : isOn curState pageCUR = true ∧ curState.cur.switch = false ∧
    (List.range 5).all (fun n => (List.range 16).all fun i => !knobOn curState n || envValid curState n i) = true ∧
    ctr (run (.curatorPeriod (some [])) curState) (CUR_CNT 0) = 1 ∧ ctr (run (.curatorPeriod none) curState) (CUR_CNT 0) = 1 := by decide +kernel

theorem test_curator_decision : knobOn curState 1 = true ∧ knobFree curState 1 0 = true ∧
    reach curState (knobField 1 0).1 = .open ∧ rf curState (HAL_ECN_CFG 0) 20 0 = 150 := by decide +kernel

/-- A decision for ECN threshold 0, read as 150. -/
def ecnDecision : CurDecision := { knob := 1, inst := 0, target := 1000, seen := 150, reason := 0, meas := 0 }

theorem test_curator_writes : rf (run (.curatorPeriod (some [ecnDecision])) curState) (HAL_ECN_CFG 0) 20 0 = 162 ∧
    (let s := wf (HAL_ECN_CFG 0) 20 0 151 curState; rf (run (.curatorPeriod (some [ecnDecision])) s) (HAL_ECN_CFG 0) 20 0 = 151) := by
  decide +kernel

theorem test_lockstep : curState.pwr.starting = none ∧ pairFenced curState (curPair curState) = false ∧
    pairFenced curState (1 - curPair curState) = false ∧ (run (.lockstepMismatch none) curState).cur.switch = true ∧
    (let s := wf CUR_STAT 2 2 1 curState; pairFenced s (1 - curPair s) = true ∧ pairFenced s (curPair s) = false ∧
      blkState (run (.lockstepMismatch none) s) pageCUR = 4) := by decide +kernel

theorem test_log_config : reach base CUR_LOG_CFG = .open ∧ rb base CUR_LOG_CFG 31 = false ∧
    rd (run (.curLogCfgWrite 1 0x1234567F) base) CUR_LOG_BASE_LO = 0x12345660 ∧
    (let s := wf CUR_LOG_CFG 31 31 1 base; rb s CUR_LOG_CFG 31 = true ∧
      rf (run (.curLogCfgWrite 1 0x1234567F) s) (H_ERR_CAUSE pageCUR) 31 24 = 1 ∧
      rf s CUR_LOG_CFG 19 16 ≠ fld 0x800F0000 19 16 ∧
      rf (run (.curLogCfgWrite 0 0x800F0000) s) (H_ERR_CAUSE pageCUR) 31 24 = 1) := by decide +kernel

/-- Port 5's queues sampled. -/
def sampState : State :=
  wr (TMG_SAMP_PORTS 0) 0x20 ((List.range 17).foldl (fun a i => wr (TMG_SAMP_PORTS i) 0 a)
    (wf TMG_SAMP_CFG 31 31 1 (up [pageTMG, pageCUR] base)))

theorem test_sampler_premises : isOn sampState pageTMG = true ∧ rb sampState TMG_SAMP_CFG 31 = true ∧ rb sampState TMG_SAMP_CFG 30 = false ∧
    isOn sampState pageCUR = true := by decide +kernel

theorem test_sampler : (run .samplerRound sampState).cur.samples.length = 16 := by decide +kernel

/-! ## Lane chiplets -/

/-- Chiplet 1 ON with its primary link trained; octet 0 in mode 0x4 (eight ports of one lane). -/
def lnkState : State := wf (LNK_D2D_STAT 1) 1 1 1 (wf (LNK_OCTET_MODE 1 0) 3 0 4 (up [0x48] base))

/-- Its lane 3 in lane state `n`. -/
def laneAt (n : Nat) : State := wf (LNK_LANE_STAT 1 3) 2 0 n lnkState

theorem test_quiet_port : ∀ i, quietPort lnkState i := fun _ => ⟨rfl, fun _ h => nomatch h⟩

theorem test_lane_requests : reach (laneAt 0) (LNK_LANE_CTRL 1 3) = .open ∧ isOn (laneAt 0) (pageLNK 1) = true ∧
    laneState (laneAt 0) (laneNo 1 3) = 0 ∧ laneState (laneAt 4) (laneNo 1 3) = 4 ∧
    laneState (run (.laneStateReq 1 3 2) (laneAt 0)) (laneNo 1 3) = 2 ∧ laneState (run (.laneStateReq 1 3 1) (laneAt 0)) (laneNo 1 3) = 0 ∧
    laneState (run (.laneStateReq 1 3 1) (laneAt 3)) (laneNo 1 3) = 1 ∧ laneState (run (.laneStateReq 1 3 2) (laneAt 4)) (laneNo 1 3) = 3 ∧
    laneState (run (.laneStateReq 1 3 0) (laneAt 3)) (laneNo 1 3) = 0 ∧ laneState (run (.laneStateReq 1 3 3) (laneAt 3)) (laneNo 1 3) = 0 ∧
    (laneSt (run (.laneStateReq 1 3 2) (laneAt 1)) 1 3).restoring = true ∧
    (let s := setBlk 0x48 0 (laneAt 0); isOn s (pageLNK 1) = false ∧ laneState (run (.laneStateReq 1 3 2) s) (laneNo 1 3) = 0) := by
  decide +kernel

/-- Lane 3 asked UP. -/
def askedUp (n : Nat) : State := wf (LNK_LANE_CTRL 1 3) 1 0 2 (laneAt n)

theorem test_lane_trains : isOn (askedUp 2) (pageLNK 1) = true ∧ mayLock (askedUp 2) 1 = true ∧ laneReq (askedUp 2) 1 3 = 2 ∧
    laneState (run (.trainComplete 1 3 9 0x55) (askedUp 2)) (laneNo 1 3) = 3 ∧
    (laneSt (run (.trainComplete 1 3 9 0x55) (askedUp 2)) 1 3).coef = 9 ∧
    laneUp (askedUp 3) (laneNo 1 3) = true ∧ laneState (run (.lossOfLock 1 3) (askedUp 3)) (laneNo 1 3) = 2 ∧
    portUp (run (.lossOfLock 1 3) (askedUp 3)) 67 = false := by decide +kernel

theorem test_restore_timeout : let s := { askedUp 1 with lnk := { base.lnk with lanes := [(laneNo 1 3, ⟨5, 5, true, 0⟩)] } }
    laneState s (laneNo 1 3) = 1 ∧ (laneSt s 1 3).restoring = true ∧
    laneState (run (.holdRestoreTimeout 1 3) s) (laneNo 1 3) = 2 ∧ mayLock s 1 = true ∧
    laneState (run (.trainComplete 1 3 9 0x55) s) (laneNo 1 3) = 3 := by decide +kernel

/-- Lane 3 in RETUNE, with coefficients 7 and saved ones 5. -/
def retuneState : State := { askedUp 4 with lnk := { base.lnk with lanes := [(laneNo 1 3, ⟨7, 5, false, 0⟩)] } }

theorem test_retune : laneState retuneState (laneNo 1 3) = 4 ∧ rb retuneState CUR_LOG_CFG 31 = false ∧
    (laneSt (run (.retuneComplete 1 3 8 0 0 0) retuneState) 1 3).coef = 8 ∧
    (laneSt (run (.retuneAbort 1 3 0 0) retuneState) 1 3).coef = 5 ∧
    ctr (run (.retuneAbort 1 3 0 0) retuneState) (CUR_CNT 6) = 1 ∧ isFirst retuneState pageCUR 0 = true ∧
    rb (run (.retuneAbort 1 3 0 0) retuneState) (H_INT_STAT pageCUR) 0 = true := by decide +kernel

theorem test_octet_modes : reach (laneAt 0) (LNK_OCTET_MODE 1 0) = .open ∧
    octetMode (run (.octetModeWrite 1 0 8) (laneAt 0)) 8 = 8 ∧
    rf (run (.octetModeWrite 1 0 9) (laneAt 0)) (H_ERR_CAUSE 0x48) 31 24 = 2 ∧
    rf (run (.octetModeWrite 1 0 2) (laneAt 3)) (H_ERR_CAUSE 0x48) 31 24 = 1 ∧
    octetMode (run (.octetModeWrite 1 0 2) (laneAt 3)) 8 = 4 := by decide +kernel

/-- The standby link enabled. -/
def standbyState : State := wf (LNK_D2D_CTRL 1) 0 0 1 lnkState

theorem test_links : rb standbyState (LNK_D2D_CTRL 1) 0 = true ∧ rb standbyState (LNK_D2D_STAT 1) 0 = false ∧
    rb (run (.standbyRetrain 1 true) standbyState) (LNK_D2D_STAT 1) 2 = true ∧
    (let s := wf (LNK_D2D_STAT 1) 2 2 1 standbyState; rb (run (.standbyRetrain 1 false) s) (H_INT_STAT 0x48) 5 = true ∧
      (let u := { s with lnk := { s.lnk with fails := [(3, 15)] } };
        rb u (LNK_D2D_STAT 1) 2 = true ∧ rb (run (.flitRetry 1 true false) u) (LNK_D2D_STAT 1) 2 = false ∧
        rf (run (.flitRetry 1 true true) u) (LNK_D2D_STAT 1) 31 16 = 1)) ∧
    rf (run (.flitRetry 1 false false) standbyState) (LNK_D2D_STAT 1) 31 16 = 1 ∧
    reach standbyState (LNK_D2D_STAT 1) = .open ∧
    (let s := wf (LNK_D2D_STAT 1) 31 16 9 standbyState; (run (.d2dStatRead 1) s).bus.readData = 0x90002 ∧
      rf (run (.d2dStatRead 1) s) (LNK_D2D_STAT 1) 31 16 = 0) := by decide +kernel

theorem test_chiplet_services : reach lnkState (LNK_MOD_CMD 1) = .open ∧ rb lnkState (LNK_MOD_CMD 1) 30 = false ∧
    rb (run (.modCmdGo 1 0x80000000) lnkState) (LNK_MOD_CMD 1) 30 = true ∧
    rf (run (.modDone 1 false 0x5A) (wf (LNK_MOD_CMD 1) 30 28 5 lnkState)) (LNK_MOD_CMD 1) 7 0 = 0x5A ∧
    reach lnkState (LNK_TS_FIFO 1 3) = .open ∧
    (let s := { lnkState with lnk := { base.lnk with fifo := [(1, [⟨8, 3, 4⟩, ⟨9, 3, 5⟩])] } };
      sGet [] 1 (run (.tsFifoPop 1) s).lnk.fifo = [⟨9, 3, 5⟩]) ∧
    lnkPresent lnkState.part 1 = true ∧ (1 : Nat) ∉ lnkState.pwr.lnrefLost ∧
    (run (.laneRefclkLoss 1) (askedUp 3)).pwr.lnrefLost = [1] ∧ laneUp (run (.laneRefclkLoss 1) (askedUp 3)) (laneNo 1 3) = false ∧
    (run (.laneRefclkReturn 1) (run (.laneRefclkLoss 1) (askedUp 3))).pwr.lnrefLost = [] := by decide +kernel

/-! ## MACs -/

/-- Port 67 (chiplet 1, lane 3) up and enabled, frames of up to 1,518 bytes. -/
def macState : State := wf (LNK_PORT_CFG 1 3) 29 16 1518 (wf (LNK_PORT_CFG 1 3) 1 0 1 (laneAt 3))

/-- A frame of 64 bytes with a good FCS. -/
def goodFrame : List Byte := let b := (List.range 60).map fun i => byte (7 * i); b ++ fcsBytes b

theorem test_mac_on : macOn macState 67 = true ∧ rb macState (LNK_PORT_CFG 1 3) 1 = false ∧ sGet none 67 macState.lnk.rx = none ∧
    linkCut macState 67 = false ∧ hbAdmits macState 67 = true ∧ macState.frames = [] := by decide +kernel

theorem test_rx_cause : rxCause 1518 64 false (fcsGood goodFrame) = none ∧ asPause goodFrame = none ∧
    rxCause 1518 64 true true = some 3 ∧ rxCause 1518 63 false true = some 4 ∧ rxCause 1518 1519 false true = some 5 ∧
    rxCause 1518 64 false false = some 2 := by decide +kernel

theorem test_rx_good : ctr (run (.rxFrame 67 (.whole goodFrame false) []) macState) (LNK_PORT_CNT 1 3 0) = 1 ∧
    (run (.rxFrame 67 (.whole goodFrame false) []) macState).frames.map (fun f => (f.id, f.port, f.bad, f.whole, f.stage)) =
      [(0, 67, false, true, Stage.hold)] := by decide +kernel

theorem test_rx_bad : let s := run (.rxFrame 67 (.whole (goodFrame.drop 1 ++ [0]) false) []) macState
    ctr s (LNK_PORT_CNT 1 3 2) = 1 ∧ s.frames.map (fun f => f.bad) = [true] := by decide +kernel

theorem test_rx_runt : let s := run (.rxFrame 67 (.whole (goodFrame.take 63) false) []) macState
    ctr s (LNK_PORT_CNT 1 3 4) = 1 ∧ s.frames = [] := by decide +kernel

/-- Lane 3 of chiplet 1, UP in the mode 0x4, receives three codewords (R78). -/
theorem test_codewords :
    let s := run (.rxFrame 67 (.whole goodFrame false) [(3, some 0), (3, some 2), (3, none), (9, some 1)]) macState
    octetMode macState 8 = 4 ∧ ctr s (LNK_LANE_CNT 1 3 0) = 1 ∧ ctr s (LNK_LANE_CNT 1 3 1) = 1 ∧ ctr s (LNK_LANE_CNT 1 3 2) = 1 ∧
    ctr s (LNK_LANE_CNT 1 3 4) = 1 ∧ ctr s (LNK_LANE_CNT 1 9 0) = 0 := by decide +kernel

/-- Port 67 already holds its 12 KiB of the hold buffer. -/
def fullState : State := { wf (LNK_HB_CFG 1) 11 0 12 macState with
  frames := (List.range 48).map fun i => { newFrame base 67 (List.replicate 256 0) true false 0 with id := i }
  nextId := 48 }

theorem test_rx_refused : (∀ f, f ∈ fullState.frames → f.id < fullState.nextId) ∧ hbAdmits fullState 67 = false ∧
    (run (.rxFrame 67 (.whole goodFrame false) []) fullState).frames.length = 48 ∧
    ctr (run (.rxFrame 67 (.whole goodFrame false) []) fullState) (LNK_PORT_CNT 1 3 11) = 1 := by decide +kernel

theorem test_rx_cut : let s := { macState with rgr := { base.rgr with switching := some (1, false) } }
    linkCut s 67 = true ∧ (run (.rxFrame 67 (.whole goodFrame false) []) s).frames = [] ∧
    ctr (run (.rxFrame 67 (.whole goodFrame false) []) s) (LNK_PORT_CNT 1 3 12) = 1 := by decide +kernel

theorem test_rx_parts : let s := run (.rxFrame 67 (.head goodFrame 68) []) macState
    sGet none 67 s.lnk.rx = some ⟨goodFrame, some 0, [], none, [], 68⟩ ∧ s.frames.map (·.whole) = [false] ∧
    (frameOf s 0).map (·.stage) = some .hold ∧ (frameOf s 0).map (·.counted) = some [] ∧ (frameOf s 0).map (·.total) = some 68 ∧
    (frameOf (run (.rxFrame 67 (.tail [1, 2, 3, 4] false) []) s) 0).map (fun f => (f.whole, f.bad, f.bytes.length)) =
      some (true, true, 68) := by decide +kernel

theorem test_pause : (sGet 0 67 (run (.pauseFrameRx 67 (.pause 5)) macState).tmg.paused).testBit 8 = true ∧
    ctr (run (.pauseFrameRx 67 (.pause 5)) macState) (LNK_PORT_CNT 1 3 6) = 1 ∧
    sGet 0 67 (run (.pauseFrameRx 67 (.pfc 0x3 [9, 0, 0, 0, 0, 0, 0, 0])) { macState with tmg := { base.tmg with paused := [(67, 2)] } }).tmg.paused = 1 ∧
    sGet 0 67 (run (.pauseQuantaExpiry 67 8) { macState with tmg := { base.tmg with paused := [(67, 0x103)] } }).tmg.paused = 3 := by
  decide +kernel

/-- A PFC frame for priority 2, as the MAC of another engine builds it. -/
theorem test_pause_frame : let bs := pauseBytes (List.replicate 6 0) 2 9
    asPause bs = some (.pfc 4 [0, 0, 9, 0, 0, 0, 0, 0]) ∧ rxCause 1518 bs.length false (fcsGood bs) = none ∧
    (let s := run (.rxFrame 67 (.whole bs false) []) macState;
      s.frames = [] ∧ sGet 0 67 s.tmg.paused = 4 ∧ ctr s (LNK_PORT_CNT 1 3 6) = 1 ∧ ctr s (LNK_PORT_CNT 1 3 0) = 0) := by decide +kernel

/-- An uncorrectable codeword on a lane in RETUNE (R96). -/
theorem test_codeword_aborts : let s := rxCodewords 64 [(3, none)] retuneState
    laneUp retuneState 67 = true ∧ octetMode retuneState 8 = 4 ∧ laneState s 67 = 3 ∧ (laneSt s 1 3).coef = 5 ∧
    ctr s (LNK_LANE_CNT 1 3 1) = 1 := by decide +kernel

theorem test_pause_tx : let s := { macState with lnk := { macState.lnk with pauseReq := [(3, 8, 9), (67, 2, 100), (67, 2, 0)] } }
    (s.copies.any fun c => c.port == 67 && c.stage == .sending) = false ∧
    (s.lnk.pauseReq.find? fun x => x.1 == 67) = some (67, 2, 100) ∧
    (run (.pauseFrameTx 67) s).lnk.pauseReq = [(3, 8, 9), (67, 2, 0)] ∧
    ctr (run (.pauseFrameTx 67) s) (LNK_PORT_CNT 1 3 10) = 1 := by decide +kernel

/-- Frame 0 of port 64, stored whole in the Hall. -/
def hallFrame : Frame :=
  { newFrame base 64 goodFrame true false 0 with stage := .hall, cells := [200], lastDone := true }

/-- A copy of it for port 67, queue 2. -/
def copyFor (st : CStage) : Copy :=
  { id := 0, frame := 0, holder := 0x1234, port := 67, queue := 2, kind := .forwarded, plain := false, nh := none, template := 0,
    trunc := 0, qCells := 1, seg := .head, stage := st, cut := false, rdNext := 0, rdWait := false, vault := none, buf := 0, spoiled := false,
    reason := 0, sess := 0, edit := none, overrun := false }

/-- The copy edited: its 60 bytes without the FCS. -/
def editedCopy (st : CStage) : Copy := { copyFor st with rdNext := 1, edit := some { pre := goodFrame.take 60, cont := 508, mark := none } }

def txState (f : Frame) (c : Copy) : State := { macState with frames := [f], copies := [c], nextId := 1, nextCopy := 1 }

theorem test_tx_start : let s := txState hallFrame (editedCopy .edited)
    macOn s 67 = true ∧ nextTx s 67 = some (editedCopy .edited) ∧ copyOf s 0 = some (editedCopy .edited) ∧
    (s.lnk.pauseReq.any fun r => r.1 == 67) = false ∧
    (copyOf (run (.frameTransmit 67 .start) s) 0).map (·.stage) = some .sending := by decide +kernel

theorem test_tx_finish : let s := txState hallFrame (editedCopy .sending)
    (s.copies.find? fun x => x.port == 67 && x.stage == .sending) = some (editedCopy .sending) ∧
    cellsWanted s (editedCopy .sending) ≤ 1 ∧ rb s (LNK_PORT_CFG 1 3) 1 = false ∧
    ctr (run (.frameTransmit 67 .finish) s) (LNK_PORT_CNT 1 3 7) = 1 ∧
    sGet [] 67 (run (.frameTransmit 67 .finish) s).lnk.txLast = goodFrame := by decide +kernel

theorem test_tx_stomp : let s := txState { hallFrame with bad := true } (editedCopy .sending)
    ctr (run (.frameTransmit 67 .finish) s) (LNK_PORT_CNT 1 3 9) = 1 ∧ ctr (run (.frameTransmit 67 .finish) s) (LNK_PORT_CNT 1 3 7) = 0 := by
  decide +kernel

/-! ## Lookups -/

/-- One whole ECC word of 64 bytes written with zeros. -/
def blank (a : Nat) (s : State) : State := engWrite a (List.replicate 16 0) s

/-- A frame of port 70 released to the lookups in epoch 0, an IPv4 packet by slot 20. -/
def luFrame : Frame := { newFrame base 70 goodFrame true false 0 with stage := .lookup, gal := 1, fv := [(20, 0x0800), (21, 0x0A00), (22, 0x0001)] }

/-- Catalogue profile 0 of wing E: SRC, learning, hit_upd, key type 0x80; port 70 makes lookup A with it. The bucket of the frame's key is
written in both replicas. -/
def catState : State :=
  let s := wr (CAT_PORT_PROF 0 70) 0x100 (wr (CAT_PROF_CTRL 0 0) 0xB8800000 (up [0x200, 0x210] base))
  let s1 := { s with frames := [luFrame], nextId := 1 }
  let b := catBucket s1 (catKeyOf s1 luFrame 0)
  [catAddr 0 (4 * b), catAddr 0 (4 * b) + 64, catAddr 1 (4 * b), catAddr 1 (4 * b) + 64].foldl (fun a x => blank x a) s1

def luKey : List Byte := catKeyOf catState luFrame 0

/-- The same with an entry of that key in slot 1. -/
def catHitState : State :=
  putEntryBoth (4 * catBucket catState luKey + 1) luKey (2 * 2 ^ 60 + 5) (2 ^ 31 + 2 ^ 24) catState

theorem test_cat_premises : frameOf catState 0 = some luFrame ∧ catProf catState luFrame false = some 0 ∧ catState.tab.merges = [] ∧
    catSearch catState 0 luKey 0 = .inr [] ∧ rf catState (CAT_PROF_CTRL 0 0) 30 29 = 1 ∧ rb catState (CAT_PROF_CTRL 0 0) 27 = true ∧
    isOn catState (pageCAT 0) = true ∧ rb catState (CAT_PROF_CTRL 0 0) 28 = true := by decide +kernel

theorem test_cat_miss : (frameOf (run (.catLookup 0 false) catState) 0).map (fun f => (f.catA, f.learn.length)) =
    some (some .miss, 1) ∧ ctr (run (.catLookup 0 false) catState) (CAT_CNT 0 0) = 1 := by decide +kernel

theorem test_cat_hit : catSearch catHitState 0 luKey 0 = .inr [4 * catBucket catState luKey + 1] ∧
    (frameOf (run (.catLookup 0 false) catHitState) 0).map (·.catA) =
      some (some (.hit (4 * catBucket catState luKey + 1) (BitVec.ofNat 64 (2 * 2 ^ 60 + 5)))) ∧
    bit (catCtl (run (.catLookup 0 false) catHitState) 0 (4 * catBucket catState luKey + 1)) 29 = true := by decide +kernel

theorem test_cat_unreadable : let s := { catState with tab := { catState.tab with ecc := [] } }
    catSearch s 0 luKey 0 = .inl (4 * catBucket catState luKey) ∧
    rb (run (.catLookup 0 false) s) (H_INT_STAT 0x200) 3 = true := by decide +kernel

/-- Route profile 0 of wing E for IPv4 by slot 20, address in slots 21 and 22; two prefixes of 10.0.0.0. -/
def routeState (addr : Nat) : State :=
  let s := wr (LPM_PORT_PROF 0 70) 0x00140100 (wr (LPM_PROF_CTRL 0 0) 0x80001500 (up [0x201] base))
  { s with
    frames := [luFrame]
    lpm := { routes := [⟨0, 0, 8, addr, BitVec.ofNat 64 (6 * 2 ^ 60 + 3), 0, 0, false, true, 0⟩,
      ⟨0, 0, 24, addr, BitVec.ofNat 64 (6 * 2 ^ 60 + 7), 0, 0, false, true, 1⟩] } }

theorem test_route_premises : let s := routeState 0x0A000000
    frameOf s 0 = some luFrame ∧ catDone s luFrame = true ∧ s.tab.merges = [] ∧ routeProf s luFrame = some 0 ∧
    terminate s luFrame = none ∧ (rb s (LPM_PROF_CTRL 0 0) 30 && rb s (LPM_PROF_CTRL 0 0) 23) = false ∧
    routeAddr s luFrame 0 = 0x0A000001 ∧ (routeFind s 0 0 0x0A000001 0).map (·.len) = some 24 ∧
    routeFind (routeState 0x0B000000) 0 0 0x0A000001 0 = none ∧
    routeProf { base with frames := [luFrame] } luFrame = none := by decide +kernel

def routeOf (s : State) : Option RouteRes := (frameOf s 0).bind (·.route)

theorem test_route : routeOf (run (.routeLookup 0) (routeState 0x0A000000)) = some (.found 0 (.punt 7 0) none) ∧
    routeOf (run (.routeLookup 0) (routeState 0x0B000000)) = some (.missed 0) ∧
    ctr (run (.routeLookup 0) (routeState 0x0B000000)) (LPM_CNT 0 3) = 1 ∧
    routeOf (run (.routeLookup 0) { base with frames := [luFrame] }) = some .notMade := by decide +kernel

/-- Vitrine search 0 of port 70 by profile 0 of wing E: bank 2 a head bank of one unit per entry, the first selector slot 21. -/
def vitState : State :=
  let s := wr (VIT_PORT_PROF 0 70) 0x20 (wr (VIT_PROF_CTRL 0 0) 0x92000000 (wr (VIT_PROF_SEL 0 0 0) 0x15
    (wr (VIT_PROF_MASK 0 0 4) 0xFFFF0000 (wr (VIT_BANK_CFG 0 2) 0 (up [0x220] base)))))
  { s with frames := [luFrame] }

/-- Row 8 of bank 2 matches slot 21 = 0x0A00 with priority 5 and an action of value 0x44. -/
def vitHitState : State :=
  engWrite (vitActAddr 0 2 8) [0x44, 0, 0, 0] (engWrite (vitAddr 0 2 8) [0, 0, 0, 0]
    (engWrite (vitAddr 0 2 8 + 16) [0x0A000000, 0xA0000005, 0, 0] vitState))

theorem test_vit_premises : frameOf vitHitState 0 = some luFrame ∧ vitProf vitHitState luFrame 0 = some 0 ∧
    catDone vitHitState luFrame = true ∧ vitHitState.tab.merges = [] ∧
    (headBank vitHitState 2 && bankWidth vitHitState 2 == 1) = true ∧ (chainOf vitHitState 2).any (bankDown vitHitState 0) = false := by
  decide +kernel

def vitOf (s : State) : List (Nat × VitRes) := ((frameOf s 0).map (·.vit)).getD []

theorem test_vit_search : vitOf (run (.vitSearch 0 0) vitHitState) = [(0, .hit 2 8 0x44)] ∧
    vitOf (run (.vitSearch 0 0) vitState) = [(0, .miss)] ∧
    bit (vitCtl (run (.vitSearch 0 0) vitHitState) 0 2 8) 28 = true ∧
    vitOf (run (.vitSearch 0 0) { vitHitState with vit := { base.vit with failed := [2] } }) = [(0, .bankFailed)] ∧
    (let s := wr (VIT_BANK_CFG 0 2) 1 vitHitState;
      vitOf (run (.vitSearch 0 0) s) = [(0, .miss)] ∧ rb (run (.vitSearch 0 0) s) (H_INT_STAT (pageVIT 0)) 5 = true) := by
  decide +kernel

/-! ## Ingress resolution and the Hall -/

/-- The lookup frame with nothing to look up, 2 frames of epoch 0 in flight. -/
def inState (f : Frame) : State := { base with frames := [f], nextId := 1, prv := { base.prv with drain := [(0, 2)] } }

def learnFrame : Frame := { luFrame with bad := true, learn := [⟨goodFrame.take 20, 5⟩] }

theorem test_ingress_bad : resolvable (inState learnFrame) learnFrame = true ∧
    (run (.ingressResolution 0) (inState learnFrame)).frames = [] ∧
    sGet 0 0 (run (.ingressResolution 0) (inState learnFrame)).prv.drain = 1 ∧
    ctr (run (.ingressResolution 0) (inState learnFrame)) (CAT_CNT 0 4) = 0 ∧
    ctr (run (.ingressResolution 0) (wf (CAT_CFG 0) 1 1 1 (inState learnFrame))) (CAT_CNT 0 4) = 1 := by decide +kernel

/-- A frame whose parse ended with exception 3. -/
def excFrame : Frame := { luFrame with exc := 3 }

theorem test_ingress_exception : let s := inState excFrame
    resolvable s excFrame = true ∧ rf s (DOC_PORT_DEF 1 (portIndex 70)) 1 0 = 0 ∧ rb s (ARC_PORT_MIR 70) 4 = false ∧
    (run (.ingressResolution 0) s).frames = [] := by decide +kernel

/-- A frame of 200 bytes that has arrived whole, with no cell written yet. -/
def longFrame : Frame :=
  { newFrame base 64 (List.replicate 200 0) true false 0 with stage := .hall, cells := [], lastDone := false }

theorem test_last_cell : let s := { base with frames := [longFrame], copies := [copyFor .queued], nextId := 1 }
    cellsFor longFrame.bytes.length - longFrame.cells.length ≤ allocatable s ∧
    (frameOf (run (.lastCellWritten 0) s) 0).map (fun g => (g.lastDone, g.cells.length)) = some (true, 1) := by decide +kernel

/-- Cell 200 of frame 0 with `n` holders and residual 0x1234. -/
def cellState (n : Nat) : State :=
  { base with frames := [hallFrame], nextId := 1, hal := { base.hal with cells := [(200, ⟨true, n, 0x1234, false, false, 0⟩)] } }

theorem test_cell_free : ctr (run (.cellFree 201 0x1234) (cellState 1)) (DPT_CNT 3) = 1 ∧
    (cellOf (cellState 1) 201).alloc = false ∧ rb (run (.cellFree 201 0x1234) (cellState 1)) (H_INT_STAT pageDPT) 0 = true ∧
    cellOf (run (.cellFree 200 0x1111) (cellState 2)) 200 = ⟨true, 1, 0x325, false, false, 0⟩ ∧
    cellOf (run (.cellFree 200 0x1234) (cellState 1)) 200 = cellNone ∧
    (cellOf (run (.cellFree 200 0x1235) (cellState 1)) 200).quar = true ∧
    rd (run (.cellFree 200 0x1235) (cellState 1)) DPT_ERR_HOLDER = 0x12351234 := by decide +kernel

theorem test_cells_returned : (let s := { cellState 1 with dpt := { base.dpt with walk := [⟨200, 0x1234, none⟩] } };
      (run .chainWalkerFree s).dpt.walk = [] ∧ (cellOf (run .chainWalkerFree s) 200).alloc = false) ∧
    (let s := run (.cellFree 200 0x1235) (cellState 1);
      reach s DPT_QUAR_CMD = .open ∧ (cellOf (run (.quarantineRelease 1) s) 200).quar = false ∧
      (cellOf (run (.quarantineRelease 0) s) 200).quar = true) := by decide +kernel

/-- Copy 0 of frame 0 waits for its read of cell 200 in bank 72. -/
def readState (st : CStage) : State :=
  { cellState 2 with
    copies := [{ copyFor st with rdWait := true }]
    nextCopy := 1
    hal := { (cellState 2).hal with readQ := [(72, [0])] } }

theorem test_hall_read : wantRead (readState .edited) 72 = [] ∧ nextRead (readState .edited) 72 = some 0 ∧
    (chainOfCopy (readState .edited) (copyFor .edited))[0]? = some 200 ∧ (cellOf (readState .edited) 200).poison = false ∧
    (copyOf (run (.hallRead 72 .good) (readState .edited)) 0).map (fun c => (c.rdNext, c.rdWait, c.qCells)) = some (1, false, 0) ∧
    (run (.hallRead 72 .ue) (readState .edited)).copies = [] ∧
    (copyOf (run (.hallRead 72 .ue) (readState .sending)) 0).map (·.spoiled) = some true := by decide +kernel

/-- Bank 9 with one uncorrectable read counted, under auto. -/
def bankState : State := incSat (HAL_BANK_UE 9) 7 0 (wf HAL_SPARE_CFG 8 0 0x101 (up [pageHAL] base))

/-- The same with both spares used. -/
def noSpare : State := wf HAL_SPARE_STAT 15 8 3 (wf HAL_SPARE_STAT 23 16 4 bankState)

theorem test_hall_banks : bankState.hal.taking = none ∧ spareFree bankState = true ∧ rb bankState HAL_SPARE_CFG 8 = true ∧
    max 1 (rf bankState HAL_SPARE_CFG 7 0) ≤ rf bankState (HAL_BANK_UE 9) 7 0 ∧
    (run (.hallBankFail 9) bankState).hal.taking = some 9 ∧
    spareFree noSpare = false ∧ (run (.hallBankFail 9) noSpare).hal.fenced = [9] ∧
    reach bankState HAL_SPARE_CMD = .open ∧ (run (.hallSpareCmd 0x80000009) bankState).hal.taking = some 9 := by decide +kernel

theorem test_bank_spared : let s := run (.hallBankFail 72) (incSat (HAL_BANK_UE 72) 7 0 { bankState with hal := (cellState 1).hal })
    s.hal.taking = some 72 ∧ rf (run (.hallBankSpared [1]) s) HAL_SPARE_STAT 15 8 = 72 ∧
    (cellOf (run (.hallBankSpared [1]) s) 200).poison = true := by decide +kernel

/-- Priority 3 of port 67 in XOFF, PFC enabled. -/
def xoffState : State :=
  wf DPT_PFC_TIMER 31 16 500 (wf (DPT_PFC_STAT 67) 3 3 1 (wf (LNK_PORT_CFG 1 3) 8 8 1 macState))

theorem test_xoff : inXoff xoffState 67 3 = true ∧ xoffMayEnd xoffState 67 3 = true ∧ rb xoffState (LNK_PORT_CFG 1 3) 8 = true ∧
    (run (.xoffExit 67 3) xoffState).lnk.pauseReq = [(67, 3, 0)] ∧ inXoff (run (.xoffExit 67 3) xoffState) 67 3 = false ∧
    (run (.pfcRefresh 67) xoffState).lnk.pauseReq = [(67, 3, 500)] ∧
    (let s := wf (LNK_PORT_CFG 1 3) 8 8 0 xoffState;
      rb s (LNK_PORT_CFG 1 3) 8 = false ∧ (run (.pfcRefresh 67) s).lnk.pauseReq = [(67, 8, 500)]) := by decide +kernel

/-! ## The Docent -/

/-- Core 5 of gallery 1 holds frame 0 and stands at word 0 of its store, which holds `w`. -/
def docState (w : W32) (k : CoreSt) : State :=
  let s := putCore 1 5 (some k) { base with frames := [{ luFrame with stage := .core, bytes := goodFrame }], nextId := 1 }
  engWrite (storeAddr 1 0) [w, 0, 0, 0] s

def docFrame : Frame := { luFrame with stage := .core, bytes := goodFrame }

/-- Cursor 14, G1 = 0x80000001, G2 = 35, G3 = 0xFFFFFFFF, slot 9 = 0x1234, 20 cycles so far. -/
def coreK : CoreSt :=
  { frame := 0, pc := 0, cursor := 14, s := 6, g := [(1, 0x80000001), (2, 35), (3, 0xFFFFFFFF)], fv := [(9, 0x1234)],
    ofs := [(0, 0)], overread := false, matchMiss := false, ckBad := false, cycles := 20,
    start := 0, search := none, cut := false }

/-- Core 5 after `i` on word `w`. -/
def coreAfter (w : W32) (i : Instr) : Option CoreSt := coreOf (run i (docState w coreK)) 1 5

/-- G4 and the cycles so far after `i` on word `w`. -/
def g4 (w : W32) (i : Instr) : Option (W32 × Nat) := (coreAfter w i).map fun k => (getG k 4, k.cycles)

theorem test_stands_at : StandsAt 1 5 0x05048000 docFrame coreK (docState 0x05048000 coreK) ∧ coreK.cycles + 9 ≤ 96 :=
  ⟨⟨by decide +kernel, by decide +kernel, by decide +kernel, by decide +kernel, by decide +kernel, rfl⟩, by decide +kernel⟩

/-- Words of format A and B with gd = 4, from R113's fields: op [31:26], gd [25:22], ga [21:18], gb [17:14]. -/
theorem test_doc_alu : g4 0x05048000 (.docAdd 1 5) = some (0x80000024, 21) ∧ g4 0x09088000 (.docSub 1 5) = some (0, 21) ∧
    g4 0x0D04C000 (.docAnd 1 5) = some (0x80000001, 21) ∧ g4 0x11048000 (.docOr 1 5) = some (0x80000023, 21) ∧
    g4 0x15048000 (.docXor 1 5) = some (0x80000022, 21) ∧ g4 0x19048000 (.docShl 1 5) = some (8, 21) ∧
    g4 0x1D048000 (.docShr 1 5) = some (0x10000000, 21) := by decide +kernel

theorem test_doc_alu_imm : g4 0x2108FFFF (.docAddi 1 5) = some (34, 21) ∧ g4 0x250CFFF0 (.docAndi 1 5) = some (0xFFF0, 21) ∧
    g4 0x29081000 (.docOri 1 5) = some (0x1023, 21) ∧ g4 0x2D080003 (.docXori 1 5) = some (32, 21) ∧
    g4 0x31080004 (.docShli 1 5) = some (560, 21) ∧ g4 0x35040008 (.docShri 1 5) = some (0x00800000, 21) ∧
    g4 0x3900ABCD (.docLui 1 5) = some (0xABCD0000, 21) ∧ g4 0x3D0C00A7 (.docExt 1 5) = some (0xFF, 21) ∧
    g4 0x6D000000 (.docGetc 1 5) = some (14, 21) ∧ g4 0x95000009 (.docLdf 1 5) = some (0x1234, 21) := by decide +kernel

/-- A write of G0 is discarded (R111). -/
theorem test_doc_g0 : (coreAfter 0x04048000 (.docAdd 1 5)).map (·.g) = some coreK.g := by decide +kernel

/-- Byte n of the frame is 7n mod 256. -/
theorem test_doc_loads : g4 0x41000001 (.docLdb 1 5) = some (105, 21) ∧ g4 0x45000000 (.docLdw 1 5) = some (0x6269, 21) ∧
    g4 0x49000000 (.docLdd 1 5) = some (0x62697077, 21) ∧ g4 0x4D040000 (.docLdbx 1 5) = some (105, 21) ∧
    g4 0x51040000 (.docLdwx 1 5) = some (0x6970, 21) ∧ g4 0x55040000 (.docLddx 1 5) = some (0x6970777E, 21) ∧
    (coreAfter 0x49000030 (.docLdd 1 5)).map (·.overread) = some true ∧ coreAfter 0x490000F2 (.docLdd 1 5) = none := by decide +kernel

/-- A header of five words whose one's complement sum is all ones, at byte 14. -/
def ipFrame : List Byte := List.replicate 14 0 ++ [0x45, 0, 0xBA, 0xFF] ++ List.replicate 46 0

theorem test_doc_ckv4 : let s := { docState 0xC9000000 coreK with frames := [{ docFrame with bytes := ipFrame }] }
    (coreOf (run (.docCkv4 1 5) s) 1 5).map (fun k => (getG k 4, k.ckBad, k.cycles)) = some (1, false, 23) ∧
    (coreAfter 0xC9000000 (.docCkv4 1 5)).map (fun k => (getG k 4, k.ckBad)) = some (0, true) := by decide +kernel

theorem test_doc_cursor : (coreAfter 0x60000004 (.docAdv 1 5)).map (·.cursor) = some 18 ∧
    (coreAfter 0x64080000 (.docAdvr 1 5)).map (·.cursor) = some 49 ∧ (coreAfter 0x68080000 (.docSetc 1 5)).map (·.cursor) = some 35 ∧
    coreAfter 0x640C0000 (.docAdvr 1 5) = none := by decide +kernel

theorem test_doc_fields : (coreAfter 0x8C000005 (.docMark 1 5)).map (fun k => sGet 512 5 k.ofs) = some 14 ∧
    (coreAfter 0x90080005 (.docMarkr 1 5)).map (fun k => sGet 512 5 k.ofs) = some 35 ∧
    (coreAfter 0xC4000007 (.docSets 1 5)).map (·.s) = some 7 ∧
    (coreAfter 0x8008000A (.docStf 1 5)).map (fun k => sGet 0 10 k.fv) = some 35 ∧
    (coreAfter 0x80080003 (.docStf 1 5)).map (·.fv) = some [(9, 0x1234)] ∧
    (coreAfter 0x8404000A (.docStf2 1 5)).map (fun k => (sGet 0 10 k.fv, sGet 0 11 k.fv)) = some (0x8000, 1) ∧
    (coreAfter 0x8840000A (.docCpf 1 5)).map (fun k => (sGet 0 10 k.fv, sGet 0 11 k.fv)) = some (0x6269, 0x7077) := by decide +kernel

theorem test_doc_branches : (coreAfter 0xA0000100 (.docJmp 1 5)).map (fun k => (k.pc, k.cycles)) = some (0x100, 23) ∧
    (coreAfter 0xA4480100 (.docBeq 1 5)).map (fun k => (k.pc, k.cycles)) = some (1, 21) ∧
    (coreAfter 0xA8480100 (.docBne 1 5)).map (·.pc) = some 0x100 ∧ (coreAfter 0xAC840100 (.docBltu 1 5)).map (·.pc) = some 0x100 ∧
    (coreAfter 0xB0840100 (.docBgeu 1 5)).map (·.pc) = some 1 ∧ (coreAfter 0xB488C100 (.docBeqi 1 5)).map (·.pc) = some 0x100 ∧
    (coreAfter 0xB888C100 (.docBnei 1 5)).map (·.pc) = some 1 ∧ (coreAfter 0xBC47C100 (.docBbs 1 5)).map (·.pc) = some 0x100 := by
  decide +kernel

theorem test_doc_match_bad : matchBad (settle (docState 0xC0800100 coreK)) 1 ≠ none ∧
    coreAfter 0xC0800100 (.docMatch 1 0 5) = none := by decide +kernel

/-- The match table written whole: entry 3 for S = 6 and key 35, which gives S 9, an advance of 20 and the target 0x200. -/
def matchState : State :=
  let s := docState 0xC0800100 coreK
  { s with tab := { s.tab with
    words := s.tab.words ++ [(matchAddr 1 3, 0x80060023), (matchAddr 1 3 + 4, 0xFFFF), (matchAddr 1 3 + 8, 0x09140200)]
    ecc := (storeAddr 1 0, ⟨.good, 0, false⟩) :: (List.range 2048).map fun e => (matchAddr 1 e, ⟨.good, 0, false⟩) } }

theorem test_doc_match_whole : matchBad (settle matchState) 1 = none := by
  have hm : settle matchState = matchState := rfl
  rw [hm]
  refine List.find?_eq_none.mpr fun e he => ?_
  have he' : e < 2048 := List.mem_range.mp he
  have hr : matchAddr 1 e / 0x4000000 = 17 := by simp only [matchAddr]; omega
  have hz : eccSize (matchAddr 1 e) = 16 := by simp [eccSize, hr]
  have hb : eccBase (matchAddr 1 e) = matchAddr 1 e := by rw [eccBase, hz]; simp only [matchAddr]; omega
  have h : eccOf matchState (matchAddr 1 e) = ⟨.good, 0, false⟩ := by
    rw [eccOf, hb]
    refine sGet_all_equal _ _ _ _ (fun x hx => ?_) ⟨⟨.good, 0, false⟩, ?_⟩
    · rcases List.mem_cons.mp hx with h | h
      · rw [h]
      · obtain ⟨n, -, rfl⟩ := List.mem_map.mp h; rfl
    · exact List.mem_cons_of_mem _ (List.mem_map.mpr ⟨e, he, rfl⟩)
  rw [readable_of_good _ _ h]
  decide

theorem test_doc_match : StandsAt 1 5 0xC0800100 docFrame coreK matchState ∧ matchFind (settle matchState) 1 6 35 = some 3 :=
  ⟨⟨by decide +kernel, by decide +kernel, by decide +kernel, by decide +kernel, by decide +kernel, rfl⟩, by decide +kernel⟩

theorem test_doc_ends : (run (.docDone 1 5) (docState 0xE0000000 coreK)).frames.map (fun f => (f.stage, f.exc, sGet 0 9 f.fv)) =
      [(.ring, 0, 0x1234)] ∧ coreAfter 0xE0000000 (.docDone 1 5) = none ∧
    (run (.docFail 1 5) (docState 0xE4000005 coreK)).frames.map (fun f => (f.exc, f.fv)) = [(16, [(7, 0x1000)])] ∧
    (run (.docFail 1 5) (docState 0xE4000022 coreK)).frames.map (·.exc) = [0x22] ∧
    opListed (opOf 0xFC000000) = false ∧ (run (.docNop 1 5) (docState 0xFC000000 coreK)).frames.map (·.exc) = [3] ∧
    (coreAfter 0 (.docNop 1 5)).map (·.pc) = some 1 := by decide +kernel

theorem test_doc_limits : (let k := { coreK with pc := 4 };
      readable (settle (docState 0 k)) (storeAddr 1 4) = false ∧ (run (.docNop 1 5) (docState 0 k)).frames.map (·.exc) = [4]) ∧
    (run (.budgetExpiry 1 5) (docState 0 { coreK with cycles := 96 })).frames.map (·.exc) = [1] ∧
    coreFenced (docState 0 coreK) 1 5 = false ∧ (run (.docentCoreFault 1 5) (docState 0 coreK)).frames.map (·.exc) = [6] ∧
    coreFenced (run (.docentCoreFault 1 5) (docState 0 coreK)) 1 5 = true := by decide +kernel

/-- Gallery 1's hold buffer over the level of R122 with a threshold of 0, its core after 48 cycles. -/
def pressState : State :=
  let s := docState 0 { coreK with cycles := 48 }
  let f := { newFrame base 67 (List.replicate 1024 0) true false 0 with id := 7 }
  wf (DOC_BUDGET_CFG 1) 6 0 48 (wf (DOC_BUDGET_CFG 1) 23 12 0 { s with frames := s.frames ++ [f], nextId := 8 })

theorem test_pressure : cutCycles pressState 1 = 48 ∧ pressed pressState 1 = true ∧
    ((run (.pressureCut 1 5) pressState).frames.map (·.exc)).head? = some 5 := by decide +kernel

/-- Gallery 1 ON and ACTIVE, port 67 with a frame to dispatch, entry 0x30 with S 2. -/
def dispState : State :=
  let s := wr (DOC_PORT_CFG 1 (portIndex 67)) 0x00300002 (up [pageDOC 1] macState)
  { s with frames := [newFrame base 67 goodFrame true false 0], nextId := 1 }

theorem test_dispatch : mayDispatch base 1 = false ∧ mayDispatch dispState 1 = true ∧ nextPort dispState 1 = some 67 ∧
    freeCore dispState 1 = some 0 ∧ (headOfPort dispState 67).map (·.id) = some 0 ∧ ringUsed dispState 1 < 512 ∧
    (coreOf (run (.dispatch 1) dispState) 1 0).map (fun k => (k.pc, k.s, getF 0 k)) = some (0x30, 2, 67) ∧
    sGet 0 0 (run (.dispatch 1) dispState).prv.drain = 1 := by decide +kernel

theorem test_dispatch_full : let s := (List.range 6).foldl (fun a i => wr (DOC_CORE_ACTIVE 1 i) 0 a) dispState
    freeCore s 1 = none ∧ (run (.dispatch 1) s).frames = s.frames := by decide +kernel

/-- Two frames of port 67, the later one's parse ended first. -/
def ringState (a b : Stage) : State :=
  { base with
    frames := [{ newFrame base 67 goodFrame true false 0 with stage := a, gal := 1, seq := 4 },
      { newFrame base 67 goodFrame true false 0 with id := 1, stage := b, gal := 1, seq := 5 }]
    nextId := 2 }

theorem test_reorder : releasable (ringState .core .ring) 1 = none ∧ (releasable (ringState .ring .ring) 1).map (·.id) = some 0 ∧
    (run (.reorderRelease 1) (ringState .core .ring)).frames.map (·.stage) = [.core, .ring] ∧
    (run (.reorderRelease 1) (ringState .ring .ring)).frames.map (·.stage) = [.lookup, .lookup] := by decide +kernel

theorem test_cyc_stat : let s := wf (DOC_CYC_STAT 1) 22 16 77 base
    reach s (DOC_CYC_STAT 1) = .open ∧ fld ((run (.docCycStatRead 1) s).bus.readData.truncate 32) 22 16 = 77 ∧
    rf (run (.docCycStatRead 1) s) (DOC_CYC_STAT 1) 22 16 = 0 := by decide +kernel

/-! ## The traffic manager, the Editor and the Archive -/

/-- The copy of frame 0 waits in queue 2 of port 67; TMG and gallery 1's Editor ON. -/
def selState : State := up [pageTMG, pageEDT 1] (txState hallFrame (copyFor .queued))

theorem test_select_premises : (67 : Nat) ∈ galPorts selState 1 ∧ (selState.copies.all fun x => x.port == 67) = true ∧
    staleFrame selState hallFrame (16 * 67 + 2) = false ∧ portOk (judgePort 67 selState) 67 = true ∧
    chooseQueue (judgePort 67 selState) 67 = some (16 * 67 + 2) ∧
    headCopy (judgePort 67 selState) (16 * 67 + 2) = some (copyFor .queued) := by decide +kernel

/-- A frame of 64 bytes with ovh at its reset value costs 64 + ovh bytes of the queue's weight. -/
theorem test_select : (selectPort 67 selState).1 = true ∧
    (copyOf (selectPort 67 selState).2 0).map (·.stage) = some .selected ∧
    ctr (selectPort 67 selState).2 (TMG_CNT 1) = (64 + signed 8 (rf selState (TMG_PORT_CFG 67) 7 0)).toNat := by decide +kernel

/-- The same with port 67 down. -/
theorem test_head_discard : run (.headDiscard 67) selState = selState ∧
    (let s := wf (LNK_LANE_STAT 1 3) 2 0 2 selState;
      portPresent s 67 = true ∧ portUp s 67 = false ∧ ((List.range 16).findSome? fun j => headCopy s (16 * 67 + j)) = some (copyFor .queued) ∧
      (run (.headDiscard 67) s).copies = [] ∧ rd (run (.headDiscard 67) s) (DPT_MC_DROP 67) = 1) := by decide +kernel

/-- E at 1,000 ns; queue 5's shaper at 8,000 Mbit/s with -400 bytes of tokens since E = 0, due on the wheel at 400 ns. -/
def shpState (t : Int) : State :=
  let s := wf (rateReg 5) 20 0 8000 { base with time := { base.time with e := 1000 * 204800000000 } }
  { s with tmg := { s.tmg with buckets := [(5, ⟨t, 0⟩)], wheel := [(400, 5)] } }

theorem test_wheel : wheelNext (shpState (-400 * 32000)) = some (400, 5) ∧ eNs (shpState 0) = 1000 ∧
    earned (shpState (-400 * 32000)) 5 = 600 * 32000 ∧
    onWheel (run .wheelRelease (shpState (-400 * 32000))) 5 = false ∧
    bucketAt (run .wheelRelease (shpState (-400 * 32000))) 5 = ⟨600 * 32000, 1000⟩ := by decide +kernel

theorem test_shaper_writes : reach (shpState 0) (rateReg 5) = .open ∧ 0 ≤ earned (shpState 0) 5 ∧ earned (shpState (-2000 * 32000)) 5 < 0 ∧
    bucketAt (run (.shaperRateWrite 5 1000) (shpState (-2000 * 32000))) 5 = ⟨-1000 * 32000, 1000⟩ ∧
    (run (.shaperRateWrite 5 1000) (shpState (-2000 * 32000))).tmg.wheel = [(9000, 5)] ∧
    bucketAt (run (.shaperForgive 5 1000) (shpState (-2000 * 32000))) 5 = ⟨0, 1000⟩ ∧
    (run (.shaperForgive 5 1000) (shpState (-2000 * 32000))).tmg.wheel = [] ∧
    reach (shpState 0) (burstReg 5) = .open ∧ bucketAt (run (.shaperBurstWrite 5 100) (shpState 0)) 5 = ⟨100 * 32000, 1000⟩ := by
  decide +kernel

theorem test_sojourn : let s := wr (TMG_Q_SOJ_MAX 7) 99 base
    reach s (TMG_Q_SOJ_MAX 7) = .open ∧ (run (.sojournMaxRead 7) s).bus.readData = 99 ∧
    rd (run (.sojournMaxRead 7) s) (TMG_Q_SOJ_MAX 7) = 0 := by decide +kernel

/-- The copy selected, its head cell read. -/
def editState (c : Copy) : State := up [pageEDT 1] (txState hallFrame { c with stage := .selected, rdNext := 1 })

theorem test_edit_null : headCells (editState (copyFor .selected)) hallFrame (copyFor .selected) ≤ 1 ∧
    (editState (copyFor .selected)).tab.merges = [] ∧ (goodFrame.take 60).length + 4 ≤ maxFrame (editState (copyFor .selected)) 67 ∧
    (copyOf (run (.editorEdit 0) (editState (copyFor .selected))) 0).map (fun c => (c.stage, c.edit)) =
      some (.edited, some ⟨goodFrame.take 60, 508, none⟩) := by decide +kernel

/-- Template 3 written in both versions' first words, neither valid. -/
def tplState : State :=
  let s := editState { copyFor .selected with template := 3 }
  [tplAddr 0 3 0, tplAddr 0 3 1].foldl (fun a x => blank x a) s

theorem test_edit_no_version : tplVersion tplState 0 3 0 = none ∧ editBad tplState 0 3 0 none false = none ∧
    galWing tplState 1 = 0 ∧ (run (.editorEdit 0) tplState).copies = [] ∧
    rb (run (.editorEdit 0) tplState) (H_INT_STAT (pageEDT 1)) 2 = true := by decide +kernel

/-- A drop capture for ring 3, which is on with a ring of host memory. -/
def arcCap : Cap := mkCap State.reset 1 hallFrame 3 0x0A 1 0 64 67 2 none

def arcState : State :=
  let s := wr (ARC_RING_BASE_LO 3) 0x10000 (wr (ARC_RING_CFG 3) 0x80100020 (up [pageARC, pageHIF] base))
  { s with arc := { s.arc with pend := [arcCap] } }

theorem test_capture_staged : rb arcState (ARC_RING_CFG 3) 31 = true ∧ arcState.arc.pend = [arcCap] ∧ arcCap.stored = none ∧
    sGet [] 3 (run (.archiveCapture .good) arcState).arc.staged = [arcCap] ∧
    (let s := wr (ARC_RING_CFG 3) 0 arcState;
      rb s (ARC_RING_CFG 3) 31 = false ∧ rd (run (.archiveCapture .good) s) (ARC_RING_LOST 3) = 1) := by decide +kernel

theorem test_record_write : let s := { arcState with arc := { arcState.arc with pend := [], staged := [(3, [arcCap])], seq := [(3, 9)] } }
    rb s (ARC_RING_CFG 3) 30 = false ∧ memOk s = true ∧ arcUnread s 3 < arcSize s 3 ∧
    rd (run (.archiveRecordWrite 3) s) (ARC_RING_PROD 3) = 1 ∧ sGet 0 3 (run (.archiveRecordWrite 3) s).arc.seq = 10 ∧
    (run (.archiveRecordWrite 3) s).hif.mem.length = 160 := by decide +kernel

theorem test_archive_config : reach base (ARC_RING_CFG 3) = .open ∧ reach base (ARC_RING_BASE_LO 3) = .open ∧
    reach base (ARC_RING_BASE_HI 3) = .open ∧ rb base (ARC_RING_CFG 3) 31 = false ∧
    rd (run (.arcRingCfgWrite 3 0 0x12345678) base) (ARC_RING_BASE_LO 3) = 0x12345640 ∧
    blkState arcState pageARC ≠ 0 ∧ rf (run (.arcRingCfgWrite 3 0 0x12345678) arcState) (H_ERR_CAUSE pageARC) 31 24 = 1 ∧
    rd (run (.arcRingCfgWrite 3 0 0x12345678) arcState) (ARC_RING_BASE_LO 3) = 0x10000 := by decide +kernel

theorem test_rpl_header : reach base DPT_RPL_CMD = .open ∧ rb base DPT_RPL_STAT 0 = false ∧
    rb (run (.rplHeaderCmd 0x80000005) base) DPT_RPL_STAT 0 = true ∧
    rb (run .rplBusyClear (run (.rplHeaderCmd 0x80000005) base)) DPT_RPL_STAT 0 = false := by decide +kernel

/-! ## Table commands -/

/-- Every block a command needs is ON; ring 0 completes in a ring of 16 entries at 0x1000. -/
def cmdBase : State :=
  let s := up ([pageHIF, pageTMG] ++ (List.range 2).flatMap fun w => [pageCAT w, pageLPM w, pageVIT w, pagePRV w]) base
  let s1 := (List.range 9).foldl (fun a g => setBlk (pageEDT g) 2 a) s
  wr (HIF_CQ_CFG 0) 0x80000004 (wr (HIF_CQ_BASE_LO 0) 0x1000 s1)

/-- A command of ring 0 with tag 0x77. -/
def cmd (op : Nat) (payload : List Byte) (entries : Nat) : Cmd := ⟨0, op, 0x77, payload, entries, false, false⟩

/-- The command `c` is the next of its executor. -/
def give (c : Cmd) (s : State) : State := putExq (executorOf c.op) [c] s

/-- `RunsNext` as a check. -/
def runsNow (c : Cmd) (s : State) : Bool :=
  nextCmd s (executorOf c.op) c.op == some c && !c.bad && !c.orphan && decide (c.op < 256) && decide (c.tag < 65536) &&
  (entriesOf c == none || entriesOf c == some c.entries) && tableOn s (executorOf c.op) && (!longCmd c || tableOn s 0) &&
  (!changes c.op || decide (liveCount s < 4)) && decide (s.prv.c < 256) && decide (s.prv.o < 256) && decide (liveCount s ≤ 4) &&
  s.tab.merges.isEmpty && rb s (HIF_CQ_CFG (cqOf s c.ring)) 31 && memOk s && !outFull s false (cqOf s c.ring) && s.hif.waiting.isEmpty

theorem runsNext_of_check (c : Cmd) (s : State) (h : runsNow c s = true) : RunsNext c s := by
  simp only [runsNow, Bool.and_eq_true, Bool.or_eq_true, Bool.not_eq_true', decide_eq_true_eq, beq_iff_eq, List.isEmpty_iff] at h
  obtain ⟨⟨⟨⟨⟨⟨⟨⟨⟨⟨⟨⟨⟨⟨⟨⟨h1, h2⟩, ho⟩, h3⟩, h4⟩, h5⟩, h6⟩, hl⟩, h7⟩, h8⟩, h9⟩, h10⟩, h11⟩, h12⟩, h13⟩, h14⟩, h15⟩ := h
  exact ⟨h1, ⟨h2, ho, h3, h4⟩, h5, ⟨h6, fun hc => hl.resolve_left (by simp [hc])⟩, fun hc => h7.resolve_left (by simp [hc]),
    ⟨h8, h9, h10⟩, h11, ⟨h12, h13, h14, h15⟩⟩

/-- The status and the low byte of the first index in the completion, and whether the executor's queue is empty. -/
def done (e : Nat) (t : State) : Option Byte × Option Byte × Bool :=
  (sGet none 0x1007 t.hif.mem, sGet none 0x1008 t.hif.mem, (exqOf t e).isEmpty)

/-- A Catalogue key of type 0x80, and INSERT's payload for it with result 5 of kind 2. -/
def key : List Byte := 0x80 :: List.replicate 19 0x11
def insPay : List Byte := key ++ leBytes 8 (2 * 2 ^ 60 + 5) ++ List.replicate 28 0
def bkt : Nat := catBucket cmdBase key

/-- The key's bucket written with zeros in both replicas. -/
def catRoom : State :=
  [catAddr 0 (4 * bkt), catAddr 0 (4 * bkt) + 64, catAddr 1 (4 * bkt), catAddr 1 (4 * bkt) + 64].foldl (fun a x => blank x a) cmdBase

/-- The key in slot 2, settled and dynamic. -/
def catHas : State := putEntryBoth (4 * bkt + 2) key (2 * 2 ^ 60 + 9) (2 ^ 31 + 2 ^ 26) catRoom

theorem test_command_checks : nextCmd (give (cmd 1 insPay 1) catRoom) 0 1 = some (cmd 1 insPay 1) ∧
    runsNow (cmd 1 insPay 2) (give (cmd 1 insPay 2) catRoom) = true ∧
    entriesOf (cmd 1 insPay 1) = some 2 ∧ done 0 (run .catInsert (give (cmd 1 insPay 1) catRoom)) = (some 8, some 0xFF, true) ∧
    done 0 (run .catInsert (give (cmd 1 insPay 2) (setBlk (pageCAT 1) 0 catRoom))) = (some 0x0A, some 0xFF, true) ∧
    (let s := { catRoom with prv := { catRoom.prv with c := 3, o := 0 } };
      liveCount s = 4 ∧ done 0 (run .catInsert (give (cmd 1 insPay 2) s)) = (some 4, some 0xFF, true)) := by decide +kernel

theorem test_cat_commands_run : RunsNext (cmd 1 insPay 2) (give (cmd 1 insPay 2) catRoom) :=
  runsNext_of_check _ _ (by decide +kernel)

theorem test_cat_premises_commands : badKey key = false ∧ catBadAny catRoom key = none ∧ catCurrent catRoom key = none ∧
    freeSlot catRoom 0 key = some (4 * bkt) ∧ readable catRoom (catAddr 0 (4 * bkt)) = true ∧ readable catRoom (catAddr 1 (4 * bkt)) = true ∧
    catCurrent catHas key = some (4 * bkt + 2) ∧ catBadAny catHas key = none := by decide +kernel

theorem test_cat_insert : done 0 (run .catInsert (give (cmd 1 insPay 2) catRoom)) = (some 0, some (byte (4 * bkt)), true) ∧
    catCurrent (run .catInsert (give (cmd 1 insPay 2) catRoom)) key = some (4 * bkt) ∧
    (done 0 (run .catInsert (give (cmd 1 insPay 2) catHas))).1 = some 1 := by decide +kernel

theorem test_cat_replace : catCurrent (run .catReplace (give (cmd 2 insPay 2) catHas)) key = some (4 * bkt) ∧
    (recVer (run .catReplace (give (cmd 2 insPay 2) catHas)) 0 1 (4 * bkt + 2)) = ⟨0, 1, true, true⟩ ∧
    (done 0 (run .catReplace (give (cmd 2 insPay 2) catRoom))).1 = some 2 := by decide +kernel

theorem test_cat_delete_find : catCurrent (run .catDelete (give (cmd 3 insPay 1) catHas)) key = none ∧
    (let p := key ++ leBytes 8 0x9000;
      memBytes (run .catFind (give (cmd 4 p 1) catHas)) 0x9000 20 = key.map some ∧
      (done 0 (run .catFind (give (cmd 4 p 1) catRoom))).1 = some 2) := by decide +kernel

/-- Wing E's Accession unit with a learn of the key. -/
def learnOf : Learn := ⟨key, BitVec.ofNat 64 (2 ^ 60 + 70)⟩
def accState (s : State) : State :=
  wf (CAT_CFG 0) 1 1 1 { s with cat := { s.cat with learnQ := [(0, [learnOf])], filter := [(0, [key])] } }

theorem test_accession : accessionOn (accState catRoom) 0 = true ∧ meetsCmd (accState catRoom) 0 learnOf = false ∧
    catUnreadable (accState catRoom) 0 key = none ∧ catMatches (accState catRoom) 0 key = [] ∧
    freeSlot (accState catRoom) 0 key = some (4 * bkt) ∧
    catValid (run (.accessionLearn 0) (accState catRoom)) 1 (4 * bkt) = true ∧
    catMatches (accState catHas) 0 key = [4 * bkt + 2] ∧ accessionOn catRoom 0 = false := by decide +kernel

theorem test_accession_known : let s := accState (putEntryBoth (4 * bkt + 2) key (2 ^ 60 + 70) (2 ^ 31 + 2 ^ 26) catRoom)
    catResult s 0 (4 * bkt + 2) = learnOf.result ∧ bit (catCtl (run (.accessionLearn 0) s) 0 (4 * bkt + 2)) 29 = true ∧
    ctr (run (.accessionLearn 0) s) (CAT_CNT 0 7) = 1 := by decide +kernel

theorem test_accession_retry : let s := give (cmd 1 insPay 2) (accState catRoom)
    meetsCmd s 0 learnOf = true ∧ sGet none 0 (run (.accessionLearn 0) s).cat.retry = some learnOf ∧
    ctr (run (.learnRetry 0) (run (.accessionLearn 0) s)) (CAT_CNT 0 8) = 1 ∧
    catValid (run (.learnRetry 0) (putExq 0 [] (run (.accessionLearn 0) s))) 0 (4 * bkt) = true := by decide +kernel

/-- The key's entry with age 3, and with its hit bit set. -/
def ageState (ctl : Nat) : State := wf (CAT_CFG 0) 0 0 1 (putEntryBoth (4 * bkt + 2) key 5 (2 ^ 31 + 2 ^ 26 + ctl) catRoom)

theorem test_deaccession : Memory.wf (ageState 0) = true ∧ isOn (ageState 0) (pageCAT 0) = true ∧ rb (ageState 0) (CAT_CFG 0) 0 = true ∧
    fld (catCtl (run .deaccessionPass (wf (CAT_AGE_CFG 0) 5 0 9 (ageState (3 * 65536)))) 1 (4 * bkt + 2)) 21 16 = 4 ∧
    catValid (run .deaccessionPass (wf (CAT_AGE_CFG 0) 5 0 4 (ageState (3 * 65536)))) 1 (4 * bkt + 2) = false ∧
    fld (catCtl (run .deaccessionPass (ageState (2 ^ 29 + 3 * 65536))) 0 (4 * bkt + 2)) 21 16 = 0 ∧
    rd (run .deaccessionPass (ageState 0)) (CAT_AGE_STAT 0) = 1 := by decide +kernel

theorem test_cat_config : reach base (CAT_CFG 0) = .open ∧ reach base (CAT_AGE_CFG 1) = .open ∧
    rf (run (.catCfgWrite 0 0x00010003) cmdBase) (CAT_CFG 0) 17 0 = 3 + 2 ^ 16 * rf cmdBase (CAT_CFG 0) 17 16 ∧
    rf (run (.catCfgWrite 0 0x00010003) cmdBase) (H_ERR_CAUSE (pageCAT 0)) 31 24 = 1 ∧
    rd (run (.catAgeCfgWrite 1 0x12345678) base) (CAT_AGE_CFG 0) = rd base (CAT_AGE_CFG 0) ∧
    rd (run (.catAgeCfgWrite 0 0x12345678) base) (CAT_AGE_CFG 0) = 0x12340038 := by decide +kernel

/-- ROUTE_ADD's payload for 10.1.0.0/16 of VRF 4, punted to queue 3. -/
def rtPay : List Byte := leBytes 2 4 ++ [16, 0] ++ [10, 1] ++ List.replicate 14 0 ++ leBytes 8 (6 * 2 ^ 60 + 3)
/-- The prefix that it names. -/
def rtPfx : Pfx := pfxOf (cmd 0x10 rtPay 1)

/-- Every word of the prefix regions written and readable. -/
def pfxEcc : List (Nat × Ecc) := (List.range (2 * prefixCount)).map fun n => (prefixAddr n, ⟨.good, 0, false⟩)
def pfxBase : State := { cmdBase with tab := { cmdBase.tab with ecc := pfxEcc } }

theorem give_tab (c : Cmd) (s : State) : (give c s).tab = s.tab := rfl

theorem prefixGood_addr (n : Nat) (hn : n < 2 * prefixCount) : prefixGood (prefixAddr n, ⟨.good, 0, false⟩) = true := by
  have hc : prefixCount = 241664 := rfl
  have h0 : symErrs ⟨.good, 0, false⟩ ≤ eccLimit (prefixAddr n) := Nat.zero_le _
  have h1 : 2 * 0x4000000 ≤ prefixAddr n ∧ prefixAddr n < 4 * 0x4000000 := by simp only [prefixAddr, hc] at hn ⊢; omega
  have h2 : prefixAddr n % 0x4000000 < 0xEC0000 ∧ prefixAddr n % 64 = 0 := by simp only [prefixAddr, hc] at hn ⊢; omega
  simp only [prefixGood, h0, h1.1, h1.2, h2.1, h2.2]
  rfl

/-- Nothing that a route command reads there is unreadable. -/
theorem prefixClean_pfxEcc (s : State) (h : s.tab.ecc = pfxEcc) : prefixClean s = true := by
  have hf : pfxEcc.filter prefixGood = pfxEcc := List.filter_eq_self.mpr fun e he => by
    obtain ⟨n, hn, rfl⟩ := List.mem_map.mp he
    exact prefixGood_addr n (List.mem_range.mp hn)
  rw [prefixClean, h, hf, pfxEcc, List.length_map, List.length_range, beq_self_eq_true]

theorem prefixMet_pfxEcc (s : State) (h : s.tab.ecc = pfxEcc) : (prefixMet s).1 = none := by
  rw [prefixMet, prefixClean_pfxEcc s h]
  rfl

/-- The prefix staged in the structure. -/
def rtHas : State := (structPut false rtPfx (leAt (cmd 0x10 rtPay 1) 20 8) cmdBase).2

theorem test_route_commands_run : RunsNext (cmd 0x10 rtPay 1) (give (cmd 0x10 rtPay 1) pfxBase) ∧
    (prefixMet (give (cmd 0x10 rtPay 1) pfxBase)).1 = none :=
  ⟨runsNext_of_check _ _ (by decide +kernel), prefixMet_pfxEcc _ (by simp only [give_tab, pfxBase])⟩

/-- Where no word of the prefix region has been written, whichever one the command reads cannot be read. -/
theorem test_route_unread : (prefixMet cmdBase).1 ≠ none := by
  have hc : prefixClean cmdBase = false := by decide +kernel
  have hw : ∀ a, readable cmdBase a = false := fun a => by
    have he : eccOf cmdBase a = ⟨.never, 0, false⟩ := rfl
    simp [readable, rdStat, he]
  rw [prefixMet, hc]
  simp [hw]

theorem test_route_commands : badPfx cmdBase rtPfx = false ∧ longPfx rtPfx = false ∧
    routeKind (leAt (cmd 0x10 rtPay 1) 20 8) = true ∧ unitsUsed cmdBase + 1 ≤ 2097152 ∧
    rtHas.lpm.routes.map (fun r => (r.vrf, r.len, r.addr, r.birth, r.slot)) = [(4, 16, 0x0A010000, 1, 0)] ∧
    (1, 0, 0, 1) ∈ rtHas.prv.marks.map (fun m => (m.table, m.wing, m.chunk, m.epoch)) := by decide +kernel

/-- The same prefix settled in the structure, with another result. -/
def rtSet : State := { cmdBase with lpm := { routes := [⟨0, 4, 16, 0x0A010000, BitVec.ofNat 64 (6 * 2 ^ 60 + 1), 0, 0, false, true, 0⟩] } }

theorem test_route_changes : (structPut false rtPfx (6 * 2 ^ 60 + 3) rtSet).1.status = 1 ∧
    ((structPut true rtPfx (6 * 2 ^ 60 + 3) rtSet).2.lpm.routes.filter (routeCurrent rtSet rtPfx)).map
      (fun r => (r.birth, valueOf r.result, r.slot)) = [(1, 3, 1)] ∧
    (structPut true rtPfx (6 * 2 ^ 60 + 3) cmdBase).1.status = 2 ∧
    (retireRoute rtPfx rtSet).lpm.routes.map (fun r => (r.mortal, r.death)) = [(true, 1)] ∧
    (rtSet.lpm.routes.find? (routeCurrent rtSet rtPfx)).isSome = true := by decide +kernel

/-- Next hop 7: both versions written in both replicas, none valid; and NH_SET's payload: a unicast to port 67. -/
def nhRoom : State :=
  [nhAddr 0 7 0, nhAddr 0 7 1, nhAddr 1 7 0, nhAddr 1 7 1].foldl (fun a x => engWrite x [0, 0, 0, 0] a) cmdBase
def nhPay : List Byte := leBytes 4 7 ++ leBytes 4 (67 * 65536) ++ leBytes 4 0x11223344 ++ leBytes 4 0x15566 ++ leBytes 4 3 ++ List.replicate 8 0
def nhHas : State := run .nhSet (give (cmd 0x14 nhPay 1) nhRoom)

theorem test_nh_run : RunsNext (cmd 0x14 nhPay 1) (give (cmd 0x14 nhPay 1) nhRoom) := runsNext_of_check _ _ (by decide +kernel)

theorem test_nh_set : nhBadAny nhRoom 7 = none ∧ otherVersion nhRoom 2 7 = some 0 ∧ done 1 nhHas = (some 0, some 7, true) ∧
    tw nhHas (nhAddr 1 7 0) = 0x80430001 ∧ tw nhHas (nhAddr 1 7 0 + 4) = 0x11223344 ∧ recCurrent nhHas 2 14 = true := by decide +kernel

theorem test_nh_delete : let s := setCtl 2 14 29 1 nhHas
    ([0, 1].find? fun v => recCurrent s 2 (2 * 7 + v)) = some 0 ∧
    recVer (run .nhDelete (give (cmd 0x15 nhPay 1) s)) 2 0 14 = ⟨1, 1, true, true⟩ ∧
    ([0, 1].find? fun v => recCurrent nhRoom 2 (2 * 7 + v)) = none ∧ (done 1 (run .nhDelete (give (cmd 0x15 nhPay 1) nhRoom))).1 = some 2 := by
  decide +kernel

/-- Group 5 with a settled version 0: a block of two buckets at 8, next hops 7 and 9. -/
def grpRoom : State := [grpAddr 0 5 0, grpAddr 1 5 0].foldl (fun a x => engWrite x [0, 0, 0, 0] a) cmdBase
def grpHas : State := [0, 1].foldl (fun a w =>
  engWrite (bktAddr w 8) [0x80000007, 0x80000009, 0, 0] (engWrite (grpAddr w 5 0) [0xA1000008, 0, 0, 0] a)) cmdBase
/-- GROUP_SET with two buckets, one to each of next hops 7 and 9; and 7 changed to 11. -/
def grpPay : List Byte := [5, 0, 1, 0, 0, 0, 2, 0] ++ leBytes 4 (2 ^ 18 + 7) ++ leBytes 4 (2 ^ 18 + 9) ++ List.replicate 12 0
def chgPay : List Byte := [5, 0, 0, 0] ++ leBytes 4 7 ++ leBytes 4 11 ++ List.replicate 16 0

theorem test_group_run : RunsNext (cmd 0x16 grpPay 1) (give (cmd 0x16 grpPay 1) grpRoom) := runsNext_of_check _ _ (by decide +kernel)

theorem test_group_set : grpBadAny grpRoom 5 = none ∧ otherVersion grpRoom 3 5 = some 0 ∧
    (fillRounds 512 [(7, 1), (9, 1)]) = [7, 9] ∧ (allocBlock 2 grpRoom).1.isSome = true ∧
    (done 1 (run .groupSet (give (cmd 0x16 (grpPay.set 6 1) 1) grpRoom))).1 = some 7 := by decide +kernel

theorem test_group_members : (grpCur grpHas 5).map (fun d => (d.base, d.size)) = some (8, 1) ∧
    bucketNhs grpHas ⟨8, 1, false, 0⟩ = [some 7, some 9] ∧ firstBad grpHas 2 (bucketOffs ⟨8, 1, false, 0⟩) = none ∧
    otherVersion grpHas 3 5 = some 1 ∧ membersOf [some 7, some 9] ≠ [7] ∧ giveAway 7 [9] 0 [some 7, some 9] = [some 9, some 9] ∧
    (done 1 (run .groupReplaceMember (give (cmd 0x17 (chgPay.set 4 6) 1) grpHas))).1 = some 2 := by decide +kernel

theorem test_group_delete : recVer (run .groupDelete (give (cmd 0x19 grpPay 1) grpHas)) 3 1 10 = ⟨0, 1, true, true⟩ ∧
    (done 1 (run .groupDelete (give (cmd 0x19 grpPay 1) grpRoom))).1 = some 2 := by decide +kernel

/-! ## Vitrine commands and banks -/

/-- Positions 0 to 3 of the chain of bank 2 (one row per entry) written with zeros in both replicas. -/
def vitRoom : State :=
  let s := wr (VIT_BANK_CFG 0 2) 0 cmdBase
  [0, 1].foldl (fun a w => [0, 1, 2, 3].foldl (fun b r =>
    engWrite (vitActAddr w 2 r) [0, 0] (engWrite (vitAddr w 2 r + 16) [0, 0, 0, 0] (engWrite (vitAddr w 2 r) [0, 0, 0, 0] b))) a) s

/-- Position `p` valid and settled in both replicas. -/
def vitFill (p : Nat) (s : State) : State :=
  [0, 1].foldl (fun a w => engWrite (vitAddr w 2 p + 16) [0, 0xA0000000 + w32 p, 0, 0] a) s

/-- An entry of bank 2 with priority 9 for position `p`, action of value 0x33. -/
def vitPay (p : Nat) : List Byte := [2, 0, 9, 0] ++ leBytes 4 p ++ leBytes 8 0x33 ++ List.replicate 20 0xAB ++ List.replicate 20 0

theorem test_vit_run : RunsNext (cmd 0x20 (vitPay 0) 2) (give (cmd 0x20 (vitPay 0) 2) vitRoom) := runsNext_of_check _ _ (by decide +kernel)

theorem test_vit_good : vitRoom.vit.move = none ∧ cmdTaking vitRoom (cmd 0x21 (vitPay 1) 2) = false ∧ badPos vitRoom (cmd 0x21 (vitPay 1) 2) false = false ∧
    badWidth vitRoom (cmd 0x21 (vitPay 1) 2) = false ∧ badFwd (cmd 0x21 (vitPay 1) 2) = false ∧
    freeFrom (vitFill 0 vitRoom) 2 (chainLen vitRoom 2) 0 = .at 1 ∧ freeFrom (vitFill 1 vitRoom) 2 (chainLen vitRoom 2 - 1) 1 = .at 2 := by
  decide +kernel

theorem test_vit_place : done 2 (run .vitPlace (give (cmd 0x20 (vitPay 0) 2) (vitFill 0 vitRoom))) = (some 0, some 1, true) ∧
    vitCtl (run .vitPlace (give (cmd 0x20 (vitPay 0) 2) (vitFill 0 vitRoom))) 1 2 1 = 0x80000009 := by decide +kernel

theorem test_vit_insert : done 2 (run .vitInsert (give (cmd 0x21 (vitPay 1) 2) vitRoom)) = (some 0, some 1, true) ∧
    (let s := give (cmd 0x21 (vitPay 1) 2) (vitFill 1 vitRoom);
      (run .vitInsert s).vit.move = some ⟨cmd 0x21 (vitPay 1) 2, 2, 1, 1, 2, 2, false⟩ ∧
      vitCtl (run .vitInsert (run .vitInsert s)) 0 2 2 = 0xA0000001 ∧
      done 2 (run .vitInsert (run .vitInsert (run .vitInsert s))) = (some 0, some 1, true)) := by decide +kernel

theorem test_vit_replace : recCurrent (vitFill 1 vitRoom) 4 (posRec vitRoom 2 1) = true ∧
    (done 2 (run .vitReplace (give (cmd 0x22 (vitPay 1) 2) vitRoom))).1 = some 2 ∧
    (let t := run .vitReplace (run .vitReplace (run .vitReplace (give (cmd 0x22 (vitPay 1) 2) (vitFill 1 vitRoom))));
      vitCtl t 0 2 1 = 0x80000009 ∧ recVer t 4 0 (posRec vitRoom 2 2) = ⟨0, 1, true, true⟩) := by decide +kernel

theorem test_vit_delete : posBad vitRoom 2 1 = none ∧
    recVer (run .vitDelete (give (cmd 0x23 (vitPay 1) 1) (vitFill 1 vitRoom))) 4 1 (posRec vitRoom 2 1) = ⟨0, 1, true, true⟩ ∧
    (done 2 (run .vitDelete (give (cmd 0x23 (vitPay 1) 1) vitRoom))).1 = some 2 := by decide +kernel

theorem test_vit_find : let p := ((vitPay 1).take 8) ++ leBytes 8 0x9000
    entryBad vitRoom 2 1 = none ∧ byteOf (cmd 0x24 p 1) 1 % 2 = 0 ∧
    memBytes (run .vitFind (give (cmd 0x24 p 1) (vitFill 1 vitRoom))) 0x9014 4 = [some 1, some 0, some 0, some 0xA0] := by decide +kernel

/-- POL_SET of policer 3 of Wing W. -/
def polPay : List Byte := [1, 0, 0, 0] ++ leBytes 4 3 ++ leBytes 4 0x123 ++ leBytes 4 0x456 ++ leBytes 4 0x789 ++ leBytes 4 0xABC

theorem test_pol_set : leAt (cmd 0x25 polPay 1) 8 4 / 2 ^ 30 ≠ 3 ∧
    tws (run .polSet (give (cmd 0x25 polPay 1) vitRoom)) (polAddr 1 3) 4 = [0x123, 0x456, 0x789, 0xABC] := by decide +kernel

/-- The move of `test_vit_insert` with the hole at 2, and at its position. -/
def moveState (target : Nat) : State :=
  let s := vitFill 1 vitRoom
  { s with vit := { s.vit with move := some ⟨cmd 0x21 (vitPay 1) 2, 2, 1, 1, 2, target, decide (target = 1)⟩ } }

theorem test_move_premises : sGet none 0 (moveState 2).vit.taking = none ∧ sGet none 1 (moveState 2).vit.taking = none ∧ headBank (moveState 2) 2 = true ∧ bankWidth (moveState 2) 2 ≠ 0 ∧
    2 < chainLen (moveState 2) 2 ∧ readable (moveState 2) (posAddr (moveState 2) 1 2 1) = true ∧
    (run .vitInsert (moveState 2)).vit.move.map (·.target) = some 1 ∧ (run .vitInsert (moveState 1)).vit.move = none := by decide +kernel

theorem test_vit_bank_fail : let s := { base with vit := { base.vit with differ := [(19, 200)] } }
    rf s (VIT_SPARE_CFG 1) 7 0 < 200 ∧ spareBusy s 1 = false ∧ rb (run (.vitBankFail 1 3) s) (H_INT_STAT (pageVIT 1)) 2 = true ∧
    (let u := wf (VIT_SPARE_STAT 1) 8 8 1 s; spareBusy u 1 = true ∧ (run (.vitBankFail 1 3) u).vit.failed = [19]) := by decide +kernel

theorem test_vit_spare : reach base (VIT_SPARE_CMD 1) = .open ∧ spareBusy base 1 = false ∧
    sGet none 1 (run (.vitSpareCmd 1 0x80000003) base).vit.taking = some 3 ∧
    rd (run (.vitBankSpared 1) (run (.vitSpareCmd 1 0x80000003) base)) (VIT_SPARE_STAT 1) = 0x103 := by decide +kernel

theorem test_vit_bank_cfg : reach vitRoom (VIT_BANK_CFG 0 2) = .open ∧ bankHeld vitRoom 2 = false ∧ bankNamed vitRoom 2 = false ∧
    rd (run (.vitBankCfgWrite 0 2 0xFF) vitRoom) (VIT_BANK_CFG 0 2) = 0x13 ∧ vitOff vitRoom = false ∧
    bankHeld (vitFill 1 vitRoom) 2 = true ∧
    rf (run (.vitBankCfgWrite 0 2 1) (vitFill 1 vitRoom)) (H_ERR_CAUSE (pageVIT 0)) 31 24 = 1 ∧
    rd (run (.vitBankCfgWrite 0 2 1) (vitFill 1 vitRoom)) (VIT_BANK_CFG 0 2) = 0 := by decide +kernel

/-! ## Template commands and epochs -/

/-- Template 3: every word of both versions written with zeros in both replicas; TPL_SET's payload with a pop of 4 bytes. -/
def tplRoom : State :=
  [0, 1].foldl (fun a w => (List.range 8).foldl (fun b k => blank ((6 + w) * 0x4000000 + 512 * 3 + 64 * k) b) a) cmdBase
def tplPay : List Byte := leBytes 4 3 ++ leBytes 4 (4 * 2 ^ 12) ++ leBytes 4 0 ++ List.replicate 212 0
def tplHas : State := run .tplSet (give (cmd 0x30 tplPay 8) tplRoom)

theorem test_tpl_run : RunsNext (cmd 0x30 tplPay 8) (give (cmd 0x30 tplPay 8) tplRoom) := runsNext_of_check _ _ (by decide +kernel)

theorem test_tpl_set : badTpl (cmd 0x30 tplPay 8) = false ∧ tplBadAny tplRoom 3 = none ∧ otherVersion tplRoom 5 3 = some 0 ∧
    done 3 tplHas = (some 0, some 3, true) ∧ tw tplHas (tplAddr 1 3 0) = 0x80000001 ∧ tw tplHas (tplAddr 1 3 0 + 4) = 0x4000 ∧
    badTpl (cmd 0x30 (List.replicate 224 0) 8) = true ∧
    (done 3 (run .tplSet (give (cmd 0x30 (List.replicate 224 0) 8) tplRoom))).1 = some 7 := by decide +kernel

/-- TPL_FIND to 0x9000. -/
def tplFindPay : List Byte := leBytes 4 3 ++ leBytes 4 0 ++ leBytes 8 0x9000

theorem test_tpl_delete_find : ([0, 1].find? fun v => recCurrent tplHas 5 (2 * 3 + v)) = some 0 ∧
    recValid (run .tplDelete (give (cmd 0x31 tplFindPay 1) tplHas)) 5 0 6 = false ∧ tplVersion tplHas 0 3 (nextEpoch tplHas) = some 0 ∧
    ([64, 128, 192].all fun o => readable tplHas (tplAddr 0 3 0 + o)) = true ∧
    memBytes (run .tplFind (give (cmd 0x32 tplFindPay 1) tplHas)) 0x9000 4 = [some 1, some 0, some 0, some 0x80] ∧
    tplVersion tplRoom 0 3 (nextEpoch tplRoom) = none ∧ (done 3 (run .tplFind (give (cmd 0x32 tplFindPay 1) tplRoom))).1 = some 2 ∧
    (done 3 (run .tplDelete (give (cmd 0x31 (leBytes 4 8192 ++ List.replicate 24 0) 1) tplRoom))).1 = some 2 := by decide +kernel

theorem test_dispatch_held : let s := { cmdBase with prv := { cmdBase.prv with held := some (cmd 1 insPay 2) } }
    isOn s (pagePRV 0) = true ∧ exqOf (run .commandDispatch s) 0 = [cmd 1 insPay 2] := by decide +kernel

theorem test_dispatch_ring : let s := wr (PRV_CMD_RINGS 0) 1 (putReady 0 (some (.table (cmd 1 insPay 2))) cmdBase)
    commitOpen s = false ∧ readyCmd s 0 = some (cmd 1 insPay 2) ∧
    ((((List.range 32).map fun i => (s.prv.rr + 1 + i) % 32).find? fun x => (readyCmd s x).isSome) = some 0) ∧
    exqOf (run .commandDispatch s) 0 = [cmd 1 insPay 2] ∧ readyJob (run .commandDispatch s) 0 = none := by decide +kernel

theorem test_commit_run : RunsNext (cmd 0x40 [] 1) (give (cmd 0x40 [] 1) cmdBase) ∧ RunsNext (cmd 0x41 [] 1) (give (cmd 0x41 [] 1) cmdBase) :=
  ⟨runsNext_of_check _ _ (by decide +kernel), runsNext_of_check _ _ (by decide +kernel)⟩

theorem test_commit : barrier (give (cmd 0x40 [] 1) cmdBase) = true ∧
    (run .commit (give (cmd 0x40 [] 1) cmdBase)).prv.c = 1 ∧ (run .commit (give (cmd 0x40 [] 1) cmdBase)).prv.o = 0 ∧
    (let s := { cmdBase with prv := { cmdBase.prv with c := 3 } };
      liveCount s = 4 ∧ done 4 (run .commit (give (cmd 0x40 [] 1) s)) = (some 4, some 0xFF, true)) := by decide +kernel

theorem test_discard : let s := give (cmd 0x41 [] 1) rtHas
    (⟨1, 0, 0, nextEpoch s⟩ : Mark) ∈ s.prv.marks ∧ (run .discard s).lpm.routes = [] ∧ (run .discard s).prv.marks = [] := by decide +kernel

/-- Epoch 1 current and 0 oldest, a prefix born in 0 not yet settled. -/
def walkState : State :=
  { rtSet with
    lpm := { routes := rtSet.lpm.routes.map fun r => { r with settled := false } }
    prv := { cmdBase.prv with c := 1, o := 0, marks := [⟨1, 0, 0, 0⟩, ⟨1, 1, 0, 0⟩] } }

theorem test_walker : isOn walkState (pagePRV 0) = true ∧ marksOf walkState 0 = [⟨1, 0, 0, 0⟩, ⟨1, 1, 0, 0⟩] ∧
    (run .walkerWork walkState).lpm.routes.map (·.settled) = [true] ∧ marksOf (run .walkerWork walkState) 0 = [] := by decide +kernel

theorem test_retire : let s := run .walkerWork walkState
    s.prv.o ≠ s.prv.c ∧ sGet 0 s.prv.o s.prv.drain = 0 ∧ marksOf s s.prv.o = [] ∧ (run .epochRetire s).prv.o = 1 ∧
    run .epochRetire walkState = walkState ∧ rb (run .drainSlow s) (H_INT_STAT (pagePRV 0)) 3 = true := by decide +kernel

/-! ## Full tables -/

theorem units_replicate (r : Route) (h : routeUnits r = 1) : ∀ n k, (List.replicate n r).foldl (fun a r => a + routeUnits r) k = k + n
  | 0, _ => rfl
  | n + 1, k => by rw [List.replicate_succ, List.foldl_cons, units_replicate r h n, h]; omega

def fullRoute : Route := ⟨0, 9, 16, 0x0A010000, 0, 0, 0, false, true, 0⟩
def routesFull (n : Nat) : State := { pfxBase with lpm := { routes := List.replicate n fullRoute } }

theorem test_routes_full_runs : RunsNext (cmd 0x10 rtPay 1) (give (cmd 0x10 rtPay 1) (routesFull 2097152)) ∧
    (prefixMet (give (cmd 0x10 rtPay 1) (routesFull 2097152))).1 = none :=
  ⟨runsNext_of_check _ _ (by decide +kernel), prefixMet_pfxEcc _ (by simp only [give_tab, routesFull, pfxBase])⟩

theorem test_routes_full : ¬(unitsUsed (routesFull 2097152) + 1 ≤ 2097152) ∧
    (routesFull 2097152).lpm.routes.any (routeCurrent (routesFull 2097152) (pfxOf (cmd 0x10 rtPay 1))) = false := by
  generalize hn : 2097152 = n
  refine ⟨?_, ?_⟩
  · have h : unitsUsed (routesFull n) = 0 + n := units_replicate fullRoute (by decide) n 0
    omega
  · have h2 : samePfx (pfxOf (cmd 0x10 rtPay 1)) fullRoute = false := by decide +kernel
    refine List.any_eq_false.mpr fun x hx => ?_
    rw [List.eq_of_mem_replicate (n := n) (a := fullRoute) hx, routeCurrent, h2, Bool.false_and, Bool.false_and]
    exact Bool.false_ne_true

/-- Control words of the bucket's four slots and of all 8,192 overflow entries. -/
def catSlots : List (Nat × W32) := [0, 1, 2, 3].map fun j => (catAddr 0 (4 * bkt + j) + 28, 0x80000000)
def catOvf : List (Nat × W32) := (List.range 8192).map fun k => (catAddr 0 (0x100000 + k) + 28, 0x80000000)

/-- All of them valid in replica E, with keys of zeros. -/
def catFull : State := { catRoom with tab := { catRoom.tab with words := catSlots ++ catOvf } }

theorem catFull_words : catFull.tab.words = catSlots ++ catOvf := rfl
theorem catFull_bucket : catBucket catFull key = bkt := by decide +kernel

theorem catFull_ctl_words : ∀ e, e ∈ catFull.tab.words → e.1 % 32 = 28 := by
  intro e he
  rw [catFull_words] at he
  rcases List.mem_append.mp he with h | h <;> obtain ⟨n, -, rfl⟩ := List.mem_map.mp h <;> simp only [catAddr] <;> omega

/-- A store reads as unlisted at a key that none of its keys is congruent to. -/
theorem sGet_unlisted {α : Type} (d : α) (k : Nat) : ∀ l : List (Nat × α), (∀ e, e ∈ l → e.1 ≠ k) → sGet d k l = d
  | [], _ => rfl
  | (j, w) :: r, h => by
    have hj : j ≠ k := h (j, w) (by simp)
    simpa [sGet, hj] using sGet_unlisted d k r fun e he => h e (List.mem_cons_of_mem _ he)

theorem catFull_key (w x : Nat) : catKey catFull w x = List.replicate 20 0 := by
  have h : ∀ i, i < 5 → tw catFull (catAddr w x + 4 * i) = 0 := fun i hi => sGet_unlisted _ _ _ fun e he hx => by
    have := catFull_ctl_words e he
    have h2 : (catAddr w x + 4 * i) % 32 = 4 * i := by simp only [catAddr]; omega
    omega
  have h5 : tws catFull (catAddr w x) 5 = [0, 0, 0, 0, 0] := by
    simp only [tws, List.range_succ, List.range_zero, List.nil_append, List.map_append, List.map_cons, List.map_nil]
    rw [h 0 (by omega), h 1 (by omega), h 2 (by omega), h 3 (by omega), h 4 (by omega)]
    rfl
  rw [catKey, h5]
  decide

theorem catFull_candidates (w : Nat) : catCandidates catFull w key = [4 * bkt, 4 * bkt + 1, 4 * bkt + 2, 4 * bkt + 3] := by
  have hk : (List.replicate 20 (0 : Byte) == key) = false := by decide
  have hf : ((ovfValid catFull w).filter fun x =>
      catKey catFull w x == key && !(catFull.cat.cleared.contains (w * 8192 + (x - 0x100000)))) = [] :=
    List.filter_eq_nil_iff.mpr fun x _ => by simp only [catFull_key, hk, Bool.false_and, Bool.false_eq_true, not_false_eq_true]
  simp only [catCandidates, catFull_bucket, hf, List.append_nil]

theorem catFull_matches : catMatches catFull 0 key = [] := by
  have hk : (List.replicate 20 (0 : Byte) == key) = false := by decide
  rw [catMatches]
  exact List.filter_eq_nil_iff.mpr fun x _ => by simp only [catFull_key, hk, Bool.and_false, Bool.false_eq_true, not_false_eq_true]

theorem catFull_readable (w : Nat) (hw : w < 2) : catUnreadable catFull w key = none := by
  rw [catUnreadable, catFull_candidates]
  rcases (by omega : w = 0 ∨ w = 1) with rfl | rfl <;> decide +kernel

theorem catFull_overflow_words : (catOvf.filter fun e => decide (catAddr 0 0x100000 ≤ e.1) && decide (e.1 < catAddr 0 0x102000) &&
    e.1 % 32 == 28 && bit e.2 31) = catOvf := by
  refine List.filter_eq_self.mpr fun e he => ?_
  obtain ⟨k, hk, rfl⟩ := List.mem_map.mp he
  have hk' : k < 8192 := List.mem_range.mp hk
  have h1 : bit (0x80000000 : W32) 31 = true := by decide
  have h2 : catAddr 0 0x100000 ≤ catAddr 0 (0x100000 + k) + 28 := by simp only [catAddr]; omega
  have h3 : catAddr 0 (0x100000 + k) + 28 < catAddr 0 0x102000 := by simp only [catAddr]; omega
  have h4 : (catAddr 0 (0x100000 + k) + 28) % 32 = 28 := by simp only [catAddr]; omega
  rw [h1, decide_eq_true h2, decide_eq_true h3, h4]
  rfl

theorem catFull_overflow (n : Nat) (hn : catOvf.length = n) : n ≤ (ovfValid catFull 0).length := by
  rw [ovfValid, catFull_words, List.filter_append, catFull_overflow_words, List.length_map, List.length_append, hn]
  exact Nat.le_add_left _ _

theorem catFull_slots : ([4 * bkt, 4 * bkt + 1, 4 * bkt + 2, 4 * bkt + 3].find? fun x => !catValid catFull 0 x) = none := by decide +kernel

theorem test_cat_full_runs : RunsNext (cmd 1 insPay 2) (give (cmd 1 insPay 2) catFull) := runsNext_of_check _ _ (by decide +kernel)

theorem test_cat_full : catBadAny catFull key = none ∧ catMatches catFull 0 key = [] ∧ catCurrent catFull key = none ∧
    freeSlot catFull 0 key = none := by
  refine ⟨?_, catFull_matches, ?_, ?_⟩
  · rw [catBadAny, catFull_readable 0 (by decide), catFull_readable 1 (by decide)]
    rfl
  · rw [catCurrent, catFull_matches]
    rfl
  · have hl : 8192 ≤ (ovfValid catFull 0).length := catFull_overflow 8192 (by rw [catOvf, List.length_map, List.length_range])
    rw [freeSlot]
    simp only [catFull_bucket, catFull_slots]
    rw [if_pos hl]

/-- Control words of every position of bank 2 with four rows to an entry, and the ECC words that hold them. -/
def vitFullWords : List (Nat × W32) := (List.range 1024).map fun p => (vitAddr 0 2 (4 * p) + 20, 0xA0000000)
def vitFullEcc : List (Nat × Ecc) := (List.range 1024).map (fun p => (vitAddr 0 2 (4 * p) + 16, ⟨.good, 0, false⟩)) ++
  (List.range 1024).map fun p => (vitAddr 1 2 (4 * p) + 16, ⟨.good, 0, false⟩)

/-- Every position of bank 2 valid in replica E and readable in both. -/
def vitFull : State :=
  let s := wr (VIT_BANK_CFG 0 2) 2 cmdBase
  { s with tab := { s.tab with words := vitFullWords, ecc := vitFullEcc } }

theorem vitFull_ecc : vitFull.tab.ecc = vitFullEcc := by simp only [vitFull]
theorem vitFull_words : vitFull.tab.words = vitFullWords := by simp only [vitFull]
theorem vitFull_width : bankWidth vitFull 2 = 4 := by decide +kernel

theorem freeFrom_full (s : State) (h : Nat) : ∀ n a, (∀ p, a ≤ p → p < a + n → posBad s h p = none ∧ posValid s h p = true) →
    freeFrom s h n a = .full
  | 0, _, _ => rfl
  | n + 1, a, hp => by
    have h0 := hp a (by omega) (by omega)
    rw [freeFrom, h0.1, h0.2]
    exact freeFrom_full s h n (a + 1) fun p h1 h2 => hp p (by omega) (by omega)

theorem vitFull_place (p : Nat) (hp : p < 1024) : posBank vitFull 2 p = 2 ∧ posRow vitFull 2 p = 4 * p := by
  have hd : 4096 / max 4 1 = 1024 := by decide
  rw [posBank, posRow, vitFull_width, hd]
  omega

theorem vitFull_readable (p w : Nat) (hp : p < 1024) (hw : w < 2) : readable vitFull (vitAddr w 2 (4 * p) + 16) = true := by
  have hd : (vitAddr w 2 (4 * p) + 16) / 0x4000000 = 4 + w := by simp only [vitAddr]; omega
  have hz : eccSize (vitAddr w 2 (4 * p) + 16) = 16 := by
    rcases (by omega : w = 0 ∨ w = 1) with rfl | rfl <;> simp [eccSize, hd]
  have he : eccBase (vitAddr w 2 (4 * p) + 16) = vitAddr w 2 (4 * p) + 16 := by rw [eccBase, hz]; simp only [vitAddr]; omega
  have hg : eccOf vitFull (vitAddr w 2 (4 * p) + 16) = ⟨.good, 0, false⟩ := by
    rw [eccOf, vitFull_ecc, he]
    refine sGet_all_equal _ _ _ _ (fun x hx => ?_) ⟨⟨.good, 0, false⟩, ?_⟩
    · rcases List.mem_append.mp hx with h | h <;> obtain ⟨n, -, rfl⟩ := List.mem_map.mp h <;> rfl
    · rcases (by omega : w = 0 ∨ w = 1) with rfl | rfl
      · exact List.mem_append.mpr (.inl (List.mem_map.mpr ⟨p, List.mem_range.mpr hp, rfl⟩))
      · exact List.mem_append.mpr (.inr (List.mem_map.mpr ⟨p, List.mem_range.mpr hp, rfl⟩))
  exact readable_of_good _ _ hg

theorem vitFull_valid (p : Nat) (hp : p < 1024) : posValid vitFull 2 p = true := by
  have hc : (verLoc 4 0 (4096 * 2 + 4 * p)).ctl = vitAddr 0 2 (4 * p) + 20 := by
    have ha : (4096 * 2 + 4 * p) / 4096 = 2 := by omega
    have hm : (4096 * 2 + 4 * p) % 4096 = 4 * p := by omega
    simp only [verLoc, ha, hm]
  have hw : tw vitFull (vitAddr 0 2 (4 * p) + 20) = 0xA0000000 := by
    rw [tw, vitFull_words]
    refine sGet_all_equal _ _ _ _ (fun x hx => ?_) ⟨0xA0000000, List.mem_map.mpr ⟨p, List.mem_range.mpr hp, rfl⟩⟩
    obtain ⟨n, -, rfl⟩ := List.mem_map.mp hx; rfl
  rw [posValid, recValid, posRec, (vitFull_place p hp).1, (vitFull_place p hp).2, hc, hw]
  decide

theorem vitFull_position (p : Nat) (hp : p < 1024) : posBad vitFull 2 p = none ∧ posValid vitFull 2 p = true := by
  refine ⟨?_, vitFull_valid p hp⟩
  have h : ([0, 1].find? fun w => !readable vitFull (posAddr vitFull w 2 p + 16)) = none := by
    simp only [posAddr, vitFull_place p hp, List.find?_cons, vitFull_readable p 0 hp (by decide), vitFull_readable p 1 hp (by decide),
      Bool.not_true, List.find?_nil]
  rw [posBad, h]
  rfl

/-- VIT_PLACE of an entry of four rows. -/
def widePay : List Byte := [2, 2, 9, 0] ++ List.replicate 108 0

theorem test_vit_full : RunsNext (cmd 0x20 widePay 4) (give (cmd 0x20 widePay 4) vitFull) ∧
    badPos vitFull (cmd 0x20 widePay 4) true = false ∧ badWidth vitFull (cmd 0x20 widePay 4) = false ∧
    badFwd (cmd 0x20 widePay 4) = false ∧ freeFrom vitFull 2 (chainLen vitFull 2) 0 = .full := by
  have hc : chainLen vitFull 2 = 1024 := by decide +kernel
  refine ⟨runsNext_of_check _ _ (by decide +kernel), by decide +kernel, by decide +kernel, by decide +kernel, ?_⟩
  rw [hc]
  exact freeFrom_full vitFull 2 1024 0 fun p _ h => vitFull_position p (by omega)

/-! ## The host interface -/

/-- Submission ring 5 enabled with a role, expecting phase 1; it completes in ring 0, on channel 2. -/
def sqState (role : Nat) : State :=
  wr (HIF_SQ_HEAD 5) 0x10000 (wr (HIF_SQ_CFG 5) (w32 (2 ^ 31 + role * 2 ^ 29 + 2 * 256 + 4)) cmdBase)

/-- Ring 5 being scanned. -/
def scanState (role : Nat) : State := let s := sqState role; { s with hif := { s.hif with scan := [5] } }

theorem test_doorbell : reach (sqState 0) (HIF_SQ_DB 5) = .open ∧ isOn (sqState 0) pageHIF = true ∧ sqLive (sqState 0) 5 = true ∧
    (run (.doorbell 5) (sqState 0)).hif.scan = [5] ∧ (run (.doorbell 5) (scanState 0)).hif.again = [5] := by decide +kernel

/-- An entry of a type with phase, first and last set, op 3, tag 0x77; words 1 to 7 count up. -/
def entry (ty : Nat) : List W32 := w32 (2 ^ 31 + 2 ^ 30 + 2 ^ 29 + ty * 2 ^ 24 + 3 * 65536 + 0x77) :: (List.range 7).map fun i => w32 (i + 1)

theorem test_entry_fetch : mayFetch (scanState 0) 5 = true ∧ owned (scanState 0) 5 ((entry 2).getD 0 0) = true ∧
    (readyJob (run (.entryFetch 5 (entry 2) none) (scanState 0)) 5).map (fun j => match j with | .dma d => d.len | _ => 0) =
      some (dmaOf 5 (entry 2) false).len ∧
    (readyJob (run (.entryFetch 5 (entry 3) none) (scanState 1)) 5).isSome = true ∧
    rf (run (.entryFetch 5 (entry 2) none) (scanState 0)) (HIF_SQ_HEAD 5) 15 0 = 1 ∧
    rb (run (.entryFetch 5 (entry 2) (some .sq)) (scanState 0)) (HIF_SQ_CFG 5) 31 = false ∧
    (run (.entryFetch 5 [0] none) (scanState 0)).hif.scan = [] := by decide +kernel

theorem test_entry_fetch_table : let s := wr (PRV_CMD_RINGS 0) 0x20 (scanState 0)
    sqRole s 5 = 4 ∧ openChain s 5 = none ∧
    readyJob (run (.entryFetch 5 (entry 1) none) s) 5 = some (.table ⟨5, 3, 0x77, entryPayload (entry 1), 1, false, false⟩) := by decide +kernel

/-- Event ring 6 with buffers of ring 7. -/
def evtState : State :=
  wr (HIF_EQ_BASE_LO 6) 0x4000 (wr (HIF_EQ_CFG 6) 0x80070004 (wr (HIF_SQ_HEAD 7) 0x10000 (wr (HIF_SQ_CFG 7) 0xC0000004 cmdBase)))

theorem test_buffer_post : let e : List W32 := [0xE4000011, 0x8000, 0, 512]
    puntOk evtState 6 = true ∧ hostAwake evtState = true ∧ owned evtState 7 (e.getD 0 0) = true ∧
    sGet [] 6 (run (.bufferPost 6 e) evtState).hif.bufs = [⟨0x11, 0x8000, 512⟩] := by decide +kernel

/-- A DMA job ready on ring 5 for channel 2. -/
def dmaState (d : Dma) (s : State) : State := putReady 5 (some (.dma d)) s

/-- A job of 64 bytes between Catalogue entries at 0 and at 0x80 and host memory at 0x8000. -/
def dmaJob (op src dst : Nat) : Dma := ⟨5, op, false, 0x77, src, dst, 64, false⟩

theorem runs_of_check (op : Nat) (d : Dma) (s : State) (h : nextJob s 2 = some d ∧ d.op = op ∧ d.bad = false ∧ dmaArgsOk s.part d = true ∧
    dmaGals d = [] ∧ isOn s pageHIF = true ∧ memOk s = true ∧ s.tab.merges = []) : JobRuns 2 op d s :=
  ⟨h.1, ⟨h.2.1, h.2.2.1, h.2.2.2.1⟩, h.2.2.2.2.1, h.2.2.2.2.2.1, h.2.2.2.2.2.2.1, h.2.2.2.2.2.2.2⟩

/-- The word at 0 of replica E written with rising words. -/
def srcState : State := engWrite 0 ((List.range 16).map fun i => w32 (i + 1)) (sqState 0)

theorem test_dma_runs : JobRuns 2 0 (dmaJob 0 0x8000 0x80) (dmaState (dmaJob 0 0x8000 0x80) srcState) ∧
    JobRuns 2 1 (dmaJob 1 0 0x8000) (dmaState (dmaJob 1 0 0x8000) srcState) ∧
    JobRuns 2 2 (dmaJob 2 0 0x80) (dmaState (dmaJob 2 0 0x80) srcState) ∧
    JobRuns 2 3 (dmaJob 3 5 0x80) (dmaState (dmaJob 3 5 0x80) srcState) ∧
    JobRuns 2 4 (dmaJob 4 0x8000 0x8010) (dmaState (dmaJob 4 0x8000 0x8010) srcState) :=
  ⟨runs_of_check _ _ _ (by decide +kernel), runs_of_check _ _ _ (by decide +kernel), runs_of_check _ _ _ (by decide +kernel),
    runs_of_check _ _ _ (by decide +kernel), runs_of_check _ _ _ (by decide +kernel)⟩

theorem test_dma_tables : tw (run (.h2t 2 (List.replicate 64 0x5A)) (dmaState (dmaJob 0 0x8000 0x80) srcState)) 0x84 = 0x5A5A5A5A ∧
    tw (run (.fill 2) (dmaState (dmaJob 3 (7 * 2 ^ 32 + 5) 0x80) srcState)) 0x84 = 7 ∧
    tw (run (.t2t 2) (dmaState (dmaJob 2 0 0x80) srcState)) 0x84 = 2 ∧
    memBytes (run (.t2h 2) (dmaState (dmaJob 1 0 0x8000) srcState)) 0x8004 4 = [some 2, some 0, some 0, some 0] ∧
    (runOf (run (.t2h 2) (dmaState (dmaJob 1 0x40 0x8000) srcState)) 2).map (fun r => (r.status, r.addr)) = some (0x11, 0x40) := by decide +kernel

theorem test_dma_reads_good : ((List.range 16).all fun j => rdStat srcState (4 * j) == .good && !prefixWord srcState (4 * j)) = true ∧
    rdStat srcState 0x40 = .never := by decide +kernel

theorem test_h2h : memBytes (run (.h2h 2 (List.replicate 64 0x5A)) (dmaState (dmaJob 4 0x8000 0x8010) srcState)) 0x804F 2 = [some 0x5A, none] := by
  decide +kernel

/-- A finished job of channel 2. -/
def ranState : State := putRun 2 (some ⟨dmaJob 0 0x8000 0x80, 0, 64, 0, false⟩) (sqState 0)

theorem test_completion_open : CplOpen 5 ranState := ⟨by decide +kernel, by decide +kernel, by decide +kernel, by decide +kernel⟩

theorem test_dma_complete : runOf (run (.dmaComplete 2 false) ranState) 2 = none ∧
    memBytes (run (.dmaComplete 2 false) ranState) 0x1000 4 = [some 0x77, some 0, some 0, some 0xE9] ∧
    rf (run (.dmaComplete 2 false) ranState) (HIF_DMA_STAT 2) 15 0 = 1 ∧
    (let s := dmaState { dmaJob 6 0 0 with bad := true } (sqState 0);
      runOf s 2 = none ∧ (nextJob s 2).isSome = true ∧ sGet none 0x1002 (run (.dmaComplete 2 false) s).hif.mem = some 8) := by decide +kernel

/-- An inject job of 100 bytes ready on ring 5. -/
def injState (len : Nat) : State := putReady 5 (some (.inject ⟨5, false, false, 0x77, 0x8000, len, 0, 0, false⟩)) (sqState 1)

theorem test_inject : (injectReady (injState 100) 5).map (·.len) = some 100 ∧
    (run (.injectJob 5 (List.replicate 100 7)) (injState 100)).frames.map (fun f => (f.port, f.bytes.length, f.stage)) = [(512, 104, .hold)] ∧
    sGet none 0x1002 (run (.injectJob 5 []) (injState 59)).hif.mem = some 7 := by decide +kernel

theorem test_inject_completes : CplOpen 5 (injState 100) := ⟨by decide +kernel, by decide +kernel, by decide +kernel, by decide +kernel⟩

/-- A punted copy of frame 0 edited for port 512, its event ring 6 with one buffer of 512 bytes at 0x8000. -/
def puntState : State :=
  let s := wr (HIF_PUNT_MAP 0) 0x00060000 evtState
  { s with
    frames := [hallFrame]
    copies := [{ copyFor .edited with port := 512, rdNext := 1, kind := .punt, edit := some ⟨goodFrame.take 60, 508, none⟩ }]
    nextId := 1
    nextCopy := 1
    hif := { s.hif with bufs := [(6, [⟨0x11, 0x8000, 512⟩])] } }

theorem test_punt : (puntNext puntState 6).map (·.id) = some 0 ∧ hostAwake puntState = true ∧ puntOk puntState 6 = true ∧
    outFull puntState true 6 = false ∧ sGet 0 0 puntState.hif.punt = 0 ∧ (run (.puntDelivery 6) puntState).copies = [] ∧
    memBytes (run (.puntDelivery 6) puntState) 0x8020 4 = [some 0, some 7, some 14, some 21] ∧
    memBytes (run (.puntDelivery 6) puntState) 0x4000 4 = [some 0x11, some 0, some 0, some 0xEC] := by decide +kernel

/-- Every register of a HIF page that is neither held nor FENCED answers. -/
theorem reach_hif (s : State) (a u v : Nat) (h1 : heldPage s (a / 0x10000) = false) (h2 : pageBlk s.part (a / 0x10000) = some (.hif, u, v))
    (h3 : blkState s (a / 0x10000) ≠ 4) (h4 : pageGallery s.part (a / 0x10000) = none) : reach s a = .open := by
  simp [reach, h1, h2, h3, h4]

theorem test_ring_reach : ∀ k x, reach base (ringPage k * 0x10000 + 0x100 + x % 0x1000) = .open := by
  intro k x
  have hp : ∀ p, (p * 0x10000 + 0x100 + x % 0x1000) / 0x10000 = p := fun p => by omega
  have h : heldPage base (ringPage k) = false ∧ (∃ u v, pageBlk base.part (ringPage k) = some (.hif, u, v)) ∧
      blkState base (ringPage k) ≠ 4 ∧ pageGallery base.part (ringPage k) = none := by
    cases k <;> exact ⟨by decide +kernel, ⟨_, _, rfl⟩, by decide +kernel, by decide +kernel⟩
  obtain ⟨h1, ⟨u, v, h2⟩, h3, h4⟩ := h
  exact reach_hif _ _ u v (by rw [hp]; exact h1) (by rw [hp]; exact h2) (by rw [hp]; exact h3) (by rw [hp]; exact h4)

theorem test_ring_config : rb base (ringCfg .sq 5) 31 = false ∧ rd (run (.ringCfgWrite .sq 5 0 0x12345678) base) (HIF_SQ_BASE_LO 5) = 0x12345660 ∧
    rd (run (.ringCfgWrite .sq 5 2 0xFFFFFFFF) base) (HIF_SQ_HEAD 5) = 0x10000 ∧ rb (sqState 0) (ringCfg .sq 5) 31 = true ∧
    rf (run (.ringCfgWrite .sq 5 0 0x12345678) (sqState 0)) (H_ERR_CAUSE (pageHIF + 1)) 31 24 = 1 := by decide +kernel

/-- Completion ring 0 full with one completion waiting. -/
def waitState : State :=
  let s := wr (HIF_CQ_PROD 0) 0x10000 cmdBase
  { s with hif := { s.hif with waiting := [⟨0, 0, [0x68000077], true⟩] } }

theorem test_consumer : reach waitState (HIF_CQ_CONS 0) = .open ∧ outFull waitState false 0 = true ∧ memOk waitState = true ∧
    ringFull 0x10000 (rd waitState (HIF_CQ_PROD 0)) = false ∧ (run (.ringConsumerWrite (.cq 0) 0x10000) waitState).hif.waiting = [] ∧
    reach waitState (HIF_EQ_CONS 0) = .open ∧ reach waitState (ARC_RING_CONS 3) = .open := by decide +kernel

/-- Ring 0's moderation timer runs with two entries counted, vector 3 unmasked. -/
def irqState (mask : W32) : State :=
  let s := wr (HIF_MSIX_TABLE (4 * 3 + 3)) mask (wr (HIF_CQ_IRQ 0) 0x03000000 cmdBase)
  { s with hif := { s.hif with irqCnt := [(0, 2)], irqTimer := [0] } }

theorem test_irq_timer : outKey false 0 ∈ (irqState 0).hif.irqTimer ∧ sGet 0 3 (run (.irqTimer false 0) (irqState 0)).bus.msiSent = 1 ∧
    rb (run (.irqTimer false 0) (irqState 1)) (HIF_MSIX_PBA 0) 3 = true ∧ reach (irqState 1) (HIF_MSIX_TABLE (4 * 3 + 3)) = .open ∧
    sGet 0 3 (run (.msixVectorUnmask 3) (run (.irqTimer false 0) (irqState 1))).bus.msiSent = 1 := by decide +kernel

theorem test_host_sleep : rf (run (.d3hotEntry true false) base) HIF_PCIE_STAT 11 10 = 3 ∧ memOk base = true ∧
    memOk (run (.d3hotEntry true false) base) = false ∧ rb base HIF_PCIE_STAT 9 = true ∧
    memOk (run (.d0Resume true false) (run (.d3hotEntry true false) base)) = true ∧ memOk (run .busMasterEnableClear base) = false := by
  decide +kernel

theorem test_host_resets : rd (run .functionLevelReset (sqState 0)) (HIF_SQ_CFG 5) = regReset base.part (HIF_SQ_CFG 5) ∧
    rb (run .functionLevelReset (sqState 0)) HIF_PCIE_STAT 9 = true ∧ rb (run .pcieRefclkLoss base) HIF_PCIE_STAT 9 = false ∧
    onHif (HIF_SQ_CFG 5) = true ∧ onHif (CAT_CFG 0) = false ∧
    rf (run (.pciePerstN 5 8) base) HIF_PCIE_STAT 8 0 = 5 + 16 * 8 := by decide +kernel

/-- Aperture 1 maps the Catalogue's replica E from address 0. -/
theorem test_window_read : heldPage srcState pageHIF = false ∧ srcState.tab.merges = [] ∧
    twinMapped srcState (twinAddr srcState 0 4) 4 = true ∧ twinAddr srcState 0 4 / 0x4000000 ≠ 0xB ∧
    rdStat srcState (twinAddr srcState 0 4) = .good ∧ prefixWord srcState (twinAddr srcState 0 4) = false ∧
    (run (.apertureRead 0 4 4) srcState).bus.readData = 2 ∧ readable srcState (twinAddr srcState 0 0x40) = false ∧
    (run (.apertureRead 0 0x40 4) srcState).bus.readData = 0xFFFFFFFF ∧
    rb (run (.apertureRead 0 2 4) srcState) (H_INT_STAT pageHIF) 2 = true := by decide +kernel

theorem test_window_write : twinMapped srcState (twinAddr srcState 0 8) 4 = true ∧
    tw (settle (run (.apertureWrite 0 8 [1, 2, 3, 4]) srcState)) 8 = 0x04030201 ∧
    tw (settle (run (.apertureWrite 0 8 [1, 2, 3, 4]) srcState)) 12 = 4 ∧
    rb (run (.apertureWrite 0 8 [1, 2, 3]) srcState) (H_INT_STAT pageHIF) 2 = true := by decide +kernel

/-! ## The Annex -/

/-- The Annex ON with its link in state `n`; channel 3 carries frames with 4 receive credits. -/
def anxState (n : Nat) : State := wr (ANX_CHAN_CFG 3) 0x40000004 (wf ANX_LINK_STAT 1 0 n (up [pageANX] base))

/-- Channel 3 UP with 4 credits given to the other end and sequence number 9 expected. -/
def anxRx : State := let s := anxState 3; { s with anx := { s.anx with rxLeft := [(3, 4)], rxSeq := [(3, 9)] } }

/-- A DATA segment header of channel 3, sequence number 9, first, of `n` bytes. -/
def dataHdr (last : Bool) (n : Nat) : BitVec 64 := BitVec.ofNat 64 (segHeader 1 3 true last n 0 9 0)

/-- A frame of 60 bytes behind its header of 16. -/
def anxBytes : List Byte := leBytes 4 0 ++ leBytes 4 60 ++ List.replicate 8 0 ++ goodFrame.take 60

theorem test_data_rx : anxLink anxRx = 3 ∧ bitsOf (dataHdr false 76).toNat 31 16 = sGet 0 3 anxRx.anx.rxSeq ∧
    sGet 0 3 anxRx.anx.rxLeft ≠ 0 ∧ sGet none 3 anxRx.anx.rxPart = none ∧ bitsOf (dataHdr false 76).toNat 53 45 = 76 ∧
    sGet none 3 (run (.dataSegmentRx (dataHdr false 76) anxBytes true) anxRx).anx.rxPart = some (anxBytes, 1) ∧
    sGet 0 3 (run (.dataSegmentRx (dataHdr false 76) anxBytes true) anxRx).anx.rxLeft = 3 := by decide +kernel

theorem test_data_rx_frame : galFenced anxRx (galOf anxRx 513) = false ∧ blkState anxRx pageANX ≠ 3 ∧
    fld ((bytesWords (slice anxBytes 0 16)).getD 1 0) 13 0 = (anxBytes.drop 16).length ∧
    (run (.dataSegmentRx (dataHdr true 76) anxBytes true) anxRx).frames.map (fun f => (f.port, f.bytes.length, f.stage)) =
      [(513, 64, .hold)] ∧
    anxLink (run (.dataSegmentRx (dataHdr true 76) anxBytes false) anxRx) = 1 := by decide +kernel

theorem test_credit_rx : let h := BitVec.ofNat 64 (segHeader 2 3 false false 0 0 0 700)
    bitsOf h.toNat 63 60 = 2 ∧ rf (run (.creditSegmentRx h [] true) anxRx) (ANX_CHAN_STAT 3) 31 16 = 700 := by decide +kernel

theorem test_link_rx : let h := BitVec.ofNat 64 (segHeader 3 0 false false 2 0 0 0)
    anxLink (anxState 2) = 2 ∧ anxLink (run (.linkSegmentRx h [1, 1] true) (anxState 2)) = 3 ∧
    anxLink (anxState 1) < 2 ∧ run (.linkSegmentRx h [1, 1] true) (anxState 1) = anxState 1 := by decide +kernel

/-- Channel 3 sends a record of 300 bytes with 2 credits; sequence number 7 next. -/
def anxTxState : State :=
  let s := wf (ANX_CHAN_STAT 3) 31 16 2 (anxState 3)
  { s with anx := { s.anx with tx := [(3, some ⟨0x11, none, List.replicate 300 5, true⟩)], txSeq := [(3, 7)] } }

theorem test_segment_tx : anxTxState.anx.grant = [] ∧ anxTxState.anx.gath = [] ∧ anxTxState.anx.rxHeld = [] ∧
    (run .segmentTx anxTxState).anx.sent = some (segHeader 1 3 true false 256 0x11 7 0, List.replicate 256 5) ∧
    rf (run .segmentTx anxTxState) (ANX_CHAN_STAT 3) 31 16 = 1 ∧
    (run .segmentTx (run .segmentTx anxTxState)).anx.sent = some (segHeader 1 3 false true 44 0x11 8 0, List.replicate 44 5) := by
  decide +kernel

theorem test_credit_return : let s := { anxState 3 with anx := { base.anx with gath := [(3, 5)] } }
    (run (.creditReturn 3 true) s).anx.sent = some (segHeader 2 3 false false 0 0 0 5, []) ∧
    sGet 0 3 (run (.creditReturn 3 true) s).anx.rxLeft = 5 := by decide +kernel

theorem test_link_tx : (run .linkSegmentTx (anxState 2)).anx.sent = some (segHeader 3 0 false false 2 0 0 0, [1, 0]) ∧
    run .linkSegmentTx (anxState 3) = anxState 3 := by decide +kernel

theorem test_anx_link : reach (anxState 0) ANX_CFG = .open ∧ isOn (anxState 0) pageANX = true ∧
    (List.range 16).foldl (fun a k => a + rf (anxState 0) (ANX_CHAN_CFG k) 11 0) 0 ≤ 4096 ∧
    anxLink (run (.anxLinkEnWrite 0x80000000) (anxState 0)) = 1 ∧ anxLink (run (.anxLinkEnWrite 0) (anxState 3)) = 0 ∧
    anxLink (run .annexTrainDone (anxState 1)) = 2 ∧ anxLink (run (.annexLockLoss 0x7F) (anxState 3)) = 1 ∧
    rf (run (.annexLockLoss 0x7F) (anxState 3)) ANX_LINK_STAT 15 8 = 0x7F := by decide +kernel

/-- The link in TRAIN with port 513 still up. -/
def anxFell : State := let s := anxState 1; { s with anx := { s.anx with portDown := false } }

theorem test_port_513 : anxFell.anx.portDown = false ∧ anxLink anxFell ≠ 3 ∧ quietPort anxFell 513 ∧
    (run .port513DownTimer anxFell).anx.portDown = true ∧ portUp (run .port513DownTimer anxFell) 513 = false :=
  ⟨by decide +kernel, by decide +kernel, ⟨rfl, fun _ h => nomatch h⟩, by decide +kernel, by decide +kernel⟩

theorem test_anx_config : reach (anxState 0) (anxCfgReg 17) = .open ∧ rb (anxState 0) ANX_CFG 31 = false ∧
    rd (run (.anxChanCfgWrite 3 0xFFFFFFFF) (anxState 0)) (ANX_CHAN_CFG 3) = 0xC0000FFF ∧
    rf (run (.anxChanCfgWrite 3 0xFFFFFFFF) (anxState 3)) (H_ERR_CAUSE pageANX) 31 24 = 1 := by decide +kernel

/-! ## The Ledger -/

/-- Counter 3 of group 2 has wrapped twice; counter 4 is chained behind it at 9. -/
def ldgState : State :=
  let s := wf (LDG_CTR_CFG 2 4) 31 31 1 (wf (LDG_CTR_CFG 2 3) 28 28 1 (up [pageLDG 2] base))
  { s with bus := { s.bus with ctr := [(LDG_CTR 2 3, 2 ^ 32 + 6), (LDG_CTR 2 4, 9)], wraps := [(131, 2)] } }

theorem test_ledger_wrap : sGet 0 (64 * 2 + 3) ldgState.bus.wraps = 2 ∧ rb (run (.ledgerWrap 2 3) ldgState) (LDG_OVF 2 0) 3 = true ∧
    ctr (run (.ledgerWrap 2 3) ldgState) (LDG_CTR 2 4) = 11 ∧ run (.ledgerWrap 2 7) ldgState = ldgState := by decide +kernel

theorem test_counter_clear : reach ldgState (LDG_CTR_CLR 2 (b2n false)) = .open ∧
    ctr (run (.counterClear 2 false 0x8) ldgState) (LDG_CTR 2 3) = 0 ∧ ctr (run (.counterClear 2 false 0x8) ldgState) (LDG_CTR 2 4) = 9 := by
  decide +kernel

theorem test_user_page : heldPage ldgState (pageLDG 2) = false ∧ blkState ldgState (pageLDG 2) ≠ 4 ∧
    rb ldgState (LDG_USER_CFG 0) 2 = false ∧ (run (.userPageRead 0x2018 true) ldgState).bus.readData = 0 ∧
    (let s := wf (LDG_USER_CFG 0) 2 2 1 ldgState;
      rb s (LDG_USER_CFG 0) 2 = true ∧ (run (.userPageRead 0x2018 true) s).bus.readData = BitVec.ofNat 64 (2 ^ 32 + 6) ∧
      (run (.userPageRead 0x2018 false) s).bus.readData = 6 ∧ (run (.userPageRead 0x201C false) (run (.userPageRead 0x2018 false) s)).bus.readData = 1) ∧
    rf (run (.userPageWrite 0x2018) ldgState) (LDG_USER_STAT 0) 31 16 = 1 ∧ reach ldgState (LDG_USER_STAT 0) = .open ∧
    rd (run .ldgUserStatRead (run (.userPageWrite 0) ldgState)) (LDG_USER_STAT 0) = 0 := by decide +kernel

/-! ## The Conservator -/

/-- Table words 0x100… of the DOC-independent multicast region (16-byte ECC words): `e` is the state of the word at 0x10000000. -/
def csvState (e : Ecc) : State :=
  let s := wr CSV_CFG 1 (up [pageCSV] base)
  { s with tab := { s.tab with ecc := [(0x10000000, e)] } }

def mergeState (e : Ecc) : State :=
  let s := csvState e
  { s with tab := { s.tab with merges := [⟨0x10000000, [7, 8]⟩] } }

theorem test_merge_premises : eccSize 0x10000000 = 16 ∧ (0x10000000 : Nat) % 4 = 0 ∧ 0x10000000 % eccSize 0x10000000 + 4 * 2 ≤ 16 ∧
    rdStat (mergeState ⟨.never, 0, false⟩) 0x10000000 = .never ∧ rdStat (mergeState ⟨.poisoned, 0, false⟩) 0x10000000 = .ue ∧
    rdStat (mergeState ⟨.good, 7, false⟩) 0x10000000 = .ue ∧ rdStat (mergeState ⟨.good, 3, false⟩) 0x10000000 = .corrected := by
  decide +kernel

theorem test_merge : (run .narrowWriteMerge (mergeState ⟨.good, 3, false⟩)).tab.words = [(0x10000000, 7), (0x10000004, 8)] ∧
    rdStat (run .narrowWriteMerge (mergeState ⟨.good, 3, false⟩)) 0x10000000 = .good ∧
    ctr (run .narrowWriteMerge (mergeState ⟨.never, 0, false⟩)) (CSV_CNT 4) = 1 ∧
    rdStat (run .narrowWriteMerge (mergeState ⟨.good, 7, false⟩)) 0x10000000 = .ue ∧
    ctr (run .narrowWriteMerge (mergeState ⟨.good, 7, false⟩)) (CSV_CNT 5) = 1 := by decide +kernel

theorem test_ce_leak : rf (run (.ceLeak ⟨0x200, by decide⟩) (wf (H_CE_BUCKET 0x200) 31 20 6 base)) (H_CE_BUCKET 0x200) 31 20 = 5 ∧
    rf (run (.ceLeak ⟨0x200, by decide⟩) base) (H_CE_BUCKET 0x200) 31 20 = 0 := by decide +kernel

theorem test_scrub : isOn (csvState ⟨.good, 1, false⟩) pageCSV = true ∧ rb (csvState ⟨.good, 1, false⟩) CSV_CFG 0 = true ∧
    eccBase 0x10000000 = 0x10000000 ∧ rdStat (csvState ⟨.good, 1, false⟩) 0x10000000 = .corrected ∧
    (run (.scrubPass false [] []) (csvState ⟨.good, 1, false⟩)).csv.backQ = [0x10000000] ∧
    (eccOf (run (.scrubPass false [] []) (csvState ⟨.good, 7, false⟩)) 0x10000000).st = .poisoned ∧
    ctr (run (.scrubPass false [] []) (csvState ⟨.good, 7, false⟩)) (CSV_CNT 1) = 1 := by decide +kernel

/-- A word waits for its write-back. -/
def backState (n : Nat) : State := let s := csvState ⟨.good, n, false⟩; { s with csv := { s.csv with backQ := [0x10000000] } }

theorem test_write_back : rdStat (run .scrubWriteBack (backState 1)) 0x10000000 = .good ∧
    ctr (run .scrubWriteBack (backState 1)) (CSV_CNT 0) = 1 ∧ rdStat (backState 0) 0x10000000 = .good ∧
    ctr (run .scrubWriteBack (backState 0)) (CSV_CNT 6) = 1 := by decide +kernel

/-- R591: a table word need not wait; a Hall cell waits while the Depot allocates one in its bank (cell 129 stands in bank 1). -/
theorem test_write_back_bank : (backState 1).csv.backQ = [0x10000000] ∧ isOn (backState 1) pageCSV = true ∧
    mayWriteBack (backState 1) 0x10000000 = true ∧
    (let s : State := { backState 1 with csv := { (backState 1).csv with backQ := [2 ^ 32 + 129] }, hal := { (backState 1).hal with wrote := [1] } }
     (run .scrubWriteBack s).csv.backQ = [2 ^ 32 + 129]) := by decide +kernel

/-- One whole ECC word of 64 bytes of Catalogue replica E written, and the injection address there. -/
def eccInjState : State :=
  let s := wr CSV_INJ_ADDR 0x40 (up [pageCSV] base)
  { s with tab := { s.tab with ecc := [(0x40, ⟨.good, 0, false⟩)] } }

theorem test_ecc_inject : reach eccInjState CSV_INJ_CMD = .open ∧ mapped eccInjState.part 0x40 = true ∧ eccSize 0x40 = 64 ∧
    rdStat (run (.eccInject 0x80000004) eccInjState) 0x40 = .corrected ∧ rdStat (run (.eccInject 0x80000005) eccInjState) 0x40 = .ue ∧
    (eccOf (run (.eccInject 0x80000005) eccInjState) 0x40) = ⟨.good, 0x1F, true⟩ := by decide +kernel

/-- Row 8 of bank 2 of wing E with a readable image. -/
def imageState : State :=
  let s := up [pageCSV] base
  { s with tab := { s.tab with ecc := [(vitAddr 0 2 8, ⟨.good, 0, false⟩), (vitAddr 0 2 8 + 16, ⟨.good, 0, false⟩)] } }

theorem test_image : isOn imageState pageCSV = true ∧ imageState.tab.merges = [] ∧
    (imageState.tab.ecc.all fun e => rdStat imageState e.1 == .good) = true ∧ readable imageState (vitAddr 0 2 8) = true ∧
    readable imageState (vitAddr 0 2 8 + 16) = true ∧
    ctr (run (.imageComparePass 0 [(2, 8)] []) imageState) (VIT_CNT 0 6) = 1 ∧
    sGet 0 2 (run (.imageComparePass 0 [(2, 8)] []) imageState).vit.differ = 1 := by decide +kernel

/-- The shadow comparison of table 1 at chunk 5, `mem` allowed or not. -/
def shadowState (pcie : W32) : State := wr HIF_PCIE_STAT pcie (wr (CSV_SHADOW_STAT 1) 5 (wr CSV_CFG 2 (up [pageCSV] base)))

theorem test_shadow_skip : rb (shadowState 0) CSV_CFG 1 = true ∧ memOk (shadowState 0) = false ∧ memOk (shadowState 0x1200) = true ∧
    rf (shadowState 0) (CSV_SHADOW_STAT 1) 15 0 + 1 < shadowChunks 1 ∧
    rd (run (.shadowChunkCompare 1 [] false) (shadowState 0)) (CSV_SHADOW_STAT 1) = 6 ∧
    rb (run (.shadowChunkCompare 1 [] true) (shadowState 0x1200)) (H_INT_STAT pageCSV) 4 = true ∧
    ctr (run (.shadowChunkCompare 1 [] true) (shadowState 0x1200)) (CSV_CNT 12) = 1 := by decide +kernel

/-- Next hop record 6 with its versions in both replicas: settled, with word 1 = `e` in Wing E and `w` in Wing W; it awaits its
re-check. -/
def recheckState (e w : W32) : State :=
  let s := wr CSV_CFG 6 (up [pageCSV] base)
  let s1 := engWrite (recAddr 1 1 6) [0xA0000000, w, 0, 0] (engWrite (recAddr 0 1 6) [0xA0000000, e, 0, 0] s)
  { s1 with csv := { s1.csv with rechecks := [⟨1, 6⟩] } }

/-- The shadow's record. -/
def shadowRec : List Byte := leBytes 4 0xA0000000 ++ leBytes 4 7 ++ List.replicate 8 0

theorem test_recheck_none : memOk (recheckState 7 7) = true ∧ recDiff (recheckState 7 7) 1 6 (bytesWords (slice shadowRec 0 16)) = 0 ∧
    run (.shadowRecheck shadowRec) (recheckState 7 7) = { recheckState 7 7 with csv := { base.csv with rechecks := [] } } := by
  decide +kernel

theorem test_recheck_both : recDiff (recheckState 8 9) 1 6 (bytesWords (slice shadowRec 0 16)) = 3 ∧
    ctr (run (.shadowRecheck shadowRec) (recheckState 8 9)) (CSV_CNT 11) = 1 := by decide +kernel

theorem test_recheck_one : recDiff (recheckState 7 9) 1 6 (bytesWords (slice shadowRec 0 16)) = 2 ∧
    rb (recheckState 7 9) CSV_CFG 2 = true ∧
    tws (run (.shadowRecheck shadowRec) (recheckState 7 9)) (recAddr 1 1 6) 4 = [0xA0000000, 7, 0, 0] ∧
    ctr (run (.shadowRecheck shadowRec) (recheckState 7 9)) (CSV_CNT 10) = 1 := by decide +kernel

/-! ## The Vault -/

/-- Queue 1074 (port 67, queue 2) with 3 copies of a frame of 64 bytes and a spill profile of threshold 0; pools of 4 buffers. -/
def vltState : State :=
  let s := wf (HAL_Q_USE 1074) 20 0 3 (wr (HAL_SPILL_CFG 0) 0x80000000 (wf (VLT_PROF_CFG 0) 16 0 1 (up [pageVLT] macState)))
  let s1 := wf (VLT_POOL_CAP 0) 23 0 512 (wr (VLT_POOL_CFG 0) 4 (wf VLT_CFG 0 0 1 s))
  { s1 with frames := [hallFrame], copies := [copyFor .queued], nextId := 1, nextCopy := 1 }

theorem test_vault_entry : inVault vltState 1074 = false ∧ spillReady vltState 1074 = true ∧ isOn vltState pageVLT = true ∧
    rb vltState VLT_CFG 0 = true ∧ anyStack vltState = true ∧ vltState.vlt.selfRef = false ∧
    ([0, 1, 2].all fun k => decide (rf vltState (VLT_POOL_STAT k) 31 30 < 2)) = true ∧ underQuota vltState 1074 = true ∧
    portUp vltState 67 = true ∧ portFenced vltState 67 = false := by decide +kernel

theorem test_vault_enters : inVault (run (.vaultModeEntry 1074) vltState) 1074 = true ∧
    ctr (run (.vaultModeEntry 1074) vltState) (VLT_CNT 7) = 1 := by decide +kernel

/-- The queue in vault mode, its copy in segment `g`. -/
def spillState (g : Seg) : State :=
  let s := wf VLT_MODE_STAT 13 0 1 (wf (VLT_Q_STAT 1074) 31 31 1 vltState)
  { s with
    copies := [{ copyFor .queued with holder := 0, seg := g }]
    vlt := { s.vlt with lastWr := 1073, lastRd := 1073 }
    hal := { s.hal with cells := [(200, ⟨true, 1, 0, false, false, 0⟩)] } }

theorem test_vault_exit : inVault (spillState .tail) 1074 = true ∧
    (queued (spillState .tail) 1074).all (fun c => c.seg != .middle) = true ∧ writesInFlight (spillState .tail) 1074 = false ∧
    inVault (run (.vaultModeExit 1074) (spillState .tail)) 1074 = false ∧
    inVault (run (.vaultModeExit 1074) (spillState .middle)) 1074 = true ∧
    (let s := { spillState .tail with vlt := { base.vlt with wq := [(0, [(7, 1074)])] } };
      inVault (run (.vaultModeExit 1074) s) 1074 = true) := by decide +kernel

theorem test_spill_premises : anyStack (spillState .tail) = true ∧ mayWrite (spillState .tail) = true ∧
    nextQueue 1073 (spillable (spillState .tail)) = some 1074 ∧
    tailCopy (spillState .tail) 1074 = some { copyFor .queued with holder := 0, seg := .tail } ∧
    keptInHall (spillState .tail) { copyFor .queued with holder := 0, seg := .tail } = false ∧
    vaultRoom (spillState .tail) 64 = some (0, 0) := by decide +kernel

/-- One codeword, its 64 bytes, enters the write queue; the writer's cap runs for the 128 that the frame takes. -/
theorem test_spill : (run .spillWrite (spillState .tail)).copies.map (fun c => (c.seg, c.vault, c.buf)) =
      [(Seg.middle, some (0, 0), 0)] ∧ bufsUsed (run .spillWrite (spillState .tail)) 0 0 = 1 ∧
    (run .spillWrite (spillState .tail)).vlt.wq = [(0, [(0, 1074)])] ∧ mayWrite (run .spillWrite (spillState .tail)) = false ∧
    writesInFlight (run .spillWrite (spillState .tail)) 1074 = true := by decide +kernel

/-- A frame with two holders stays in the Hall, and one that no pool has a buffer for stays in the Tail. -/
theorem test_spill_kept : let s := spillState .tail
    let two := { s with hal := { s.hal with cells := [(200, ⟨true, 2, 0, false, false, 0⟩)] } }
    let c := { copyFor .queued with holder := 0, seg := .tail }
    keptInHall two c = true ∧ nextQueue 1073 (spillable two) = some 1074 ∧
    (run .spillWrite two).copies.map (fun c => (c.seg, c.vault)) = [(Seg.middle, none)] ∧
    (let u := [0, 1, 2].foldl (fun a k => wr (VLT_POOL_CFG k) 0 a) s;
      vaultRoom u 64 = none ∧ keptInHall u c = false ∧ (run .spillWrite u).copies = u.copies ∧
      ctr (run .spillWrite u) (VLT_CNT 15) = 1) := by decide +kernel

theorem test_return : canTurn (spillState .middle) 1074 = true ∧
    nextQueue 1073 (canTurn (spillState .middle)) = some 1074 ∧
    middleCopy (spillState .middle) 1074 = some { copyFor .queued with holder := 0, seg := .middle } ∧
    (run (.returnRead .good 0 0) (spillState .middle)).copies.map (·.seg) = [.head] ∧
    (run (.returnRead .good 0 0) (spillState .middle)).vlt.lastRd = 1074 := by decide +kernel

/-- The copy in buffer 0 of pseudo-channel 0, with `r` of its codewords asked for and read. -/
def storedState (r : List (Nat × Nat × Nat)) : State :=
  let s := spillState .middle
  { s with
    copies := [{ copyFor .queued with holder := 0, seg := .middle, vault := some (0, 0), buf := 0, qCells := 0 }]
    frames := [{ hallFrame with cells := [], charge := 0 }]
    hal := base.hal
    vlt := { s.vlt with bufs := [(0, [0])], reads := r } }

/-- The record is asked for first, then the 64 bytes, then the frame is back in the Hall. -/
theorem test_return_stored : canTurn (storedState []) 1074 = true ∧ canTurn (storedState [(0, 1, 1)]) 1074 = true ∧
    canTurn (storedState [(0, 2, 2)]) 1074 = true ∧ cellsFor 64 ≤ allocatable (storedState [(0, 2, 2)]) ∧
    (run (.returnRead .good 0 0) (storedState [])).vlt.rq = [(0, [(0, 0)])] ∧
    (run (.returnRead .good 0 0) (storedState [(0, 1, 1)])).vlt.reads = [(0, 2, 2)] ∧
    (run (.returnRead .good 0 0) (storedState [(0, 2, 2)])).copies.map (fun c => (c.seg, c.vault, c.qCells)) = [(.head, none, 1)] ∧
    bufsUsed (run (.returnRead .good 0 0) (storedState [(0, 2, 2)])) 0 0 = 0 := by decide +kernel

/-- Bank 5 of pseudo-channel 2 (number 69) with `n` refreshes owed, activate table `l`, `w` targeted refreshes waiting. -/
def refState (n : Nat) (l : List (Nat × Nat)) (w : List (List Nat)) : State :=
  let s := up [pageVLT] base
  { s with vlt := { s.vlt with owed := [(69, n)], acts := [(69, l)], trq := [(69, w)], refRow := [(69, 10), (70, 4)] } }

theorem test_refresh : bankNo 2 5 = 69 ∧ vltRuns (refState 3 [] []) = true ∧
    sGet 0 69 (run (.refreshPerBank 2 5 true) (refState 3 [] [])).vlt.owed = 4 ∧
    sGet 0 69 (run (.refreshPerBank 2 5 true) (refState 4 [] [])).vlt.owed = 4 ∧
    sGet 0 69 (run (.refreshPerBank 2 5 false) (refState 3 [] [])).vlt.owed = 0 ∧
    (run (.refreshPerBank 2 5 false) (refState 3 [] [])).vlt.refRow = [(69, 18), (70, 4)] := by decide +kernel

theorem test_activate : sGet [] 69 (run (.activate 2 5 9) (refState 0 [(8, 6)] [])).vlt.acts = [(8, 6), (9, 1)] ∧
    ctr (run (.activate 2 5 9) (refState 0 [] (List.replicate 8 [3]))) (VLT_CNT 13) = 1 ∧
    ctr (run (.rfmRequest 2 5) (refState 0 [] [])) (VLT_CNT 12) = 1 ∧
    sGet [] 69 (run (.actTableClear 2 5) (refState 0 [(8, 6)] [])).vlt.acts = [] := by decide +kernel

/-- The 2,048th activate of a row asks for a refresh of the rows around it, which the next refresh of the bank sends. -/
theorem test_targeted : let s := run (.activate 2 5 9) (refState 0 [(8, 6), (9, 2047)] [])
    ((sGet [] 69 (refState 0 [(8, 6), (9, 2047)] []).vlt.acts).find? fun e => e.1 == 9) = some (9, 2047) ∧
    sGet [] 69 s.vlt.acts = [(8, 6), (9, 0)] ∧ sGet [] 69 s.vlt.trq = [[7, 8, 10, 11]] ∧ ctr s (VLT_CNT 10) = 1 ∧
    sGet 0 69 s.vlt.openRow = 10 ∧ sGet [] 69 (run (.refreshPerBank 2 5 false) s).vlt.trq = [] := by decide +kernel

theorem test_self_refresh : let s := wf (H_CTRL pageVLT) 2 2 1 (up [pageVLT] base)
    vaultEmpty s = true ∧ s.vlt.wq = [] ∧ rf s VLT_MODE_STAT 13 0 = 0 ∧ (run .selfRefreshEntry s).vlt.selfRef = true := by decide +kernel

theorem test_self_refresh_exit : let s := { vltState with vlt := { base.vlt with selfRef := true } }
    spillReady s 1074 = true ∧ blkState s pageVLT ≠ 0 ∧ (run .selfRefreshExit s).vlt.selfRef = false := by decide +kernel

theorem test_temp : rf (run (.stackTempRead 2 (some 106)) base) VLT_THERM_STAT 23 16 = 106 ∧
    rd (run (.stackTempRead 2 (some 106)) base) VLT_THERM_FLAGS = 0x44 ∧
    stackTakes (run (.stackTempRead 2 (some 106)) base) 2 = false ∧
    stackTakes (run (.stackTempRead 2 (some 20)) (wr VLT_THERM_FLAGS 0x44 base)) 2 = true := by decide +kernel

theorem test_temp_fails : let s := { base with vlt := { base.vlt with tempFails := [(1, 2)] } }
    rd (run (.stackTempRead 1 none) s) VLT_THERM_FLAGS = 0x222 ∧ ctr (run (.stackTempRead 1 none) s) (VLT_CNT 14) = 1 := by decide +kernel

/-- Pseudo-channel 9 with 5 uncorrectable codewords; it fails at 4, under auto. -/
def pcBad : State := wf (VLT_PC_STAT 9) 23 16 5 (wr VLT_PC_CFG 0x104 (up [pageVLT] base))

theorem test_pc_fail : pcState pcBad 9 = 0 ∧ max 1 (rf pcBad VLT_PC_CFG 7 0) ≤ rf pcBad (VLT_PC_STAT 9) 23 16 ∧
    pcState (run (.pseudoChannelFail 9 false) pcBad) 9 = 1 ∧ reach pcBad VLT_PC_CMD = .open ∧
    pcState (run (.pcFailCmd 0x80000009) pcBad) 9 = 1 ∧ rb (run (.pcFailCmd 0x80000009) pcBad) (H_INT_STAT pageVLT) 1 = true := by
  decide +kernel

theorem test_pc_fence : let s := wf (VLT_PC_STAT 9) 31 30 1 (wr (VLT_POOL_CFG 1) 10 base)
    pcState s 9 = 1 ∧ ([0, 1, 2].all fun k => bufsUsed s k 9 == 0) = true ∧ pcState (run (.pcFence 9) s) 9 = 2 ∧
    rf (run (.pcFence 9) s) (VLT_POOL_CAP 1) 23 0 = 1270 := by decide +kernel

theorem test_pool_cfg : reach base (VLT_POOL_CFG 1) = .open ∧ blkState base pageVLT = 0 ∧
    rf (run (.vltPoolCfgWrite 1 10) base) (VLT_POOL_CAP 1) 23 0 = 1280 ∧ rd (run (.vltPoolCfgWrite 1 10) base) (VLT_POOL_CFG 1) = 10 ∧
    rf (run (.vltPoolCfgWrite 1 10) (up [pageVLT] base)) (H_ERR_CAUSE pageVLT) 31 24 = 1 := by decide +kernel

/-! ## The time counter, gates and recovery -/

/-- TSN ON at 3 s. -/
def tsnState : State := let s := up [pageTSN] base; { s with time := { s.time with d := 12000000000 } }

theorem test_step : reach tsnState TSN_STEP_NS = .open ∧ tsnState.tsn.pend = [] ∧ tsnState.tsn.oper = [] ∧
    (run (.tsnStep 0xFFFFFFFF) (wr TSN_STEP_SEC 2 tsnState)).time.d = 12000000000 + 4 * 1999999999 := by decide +kernel

theorem test_time_set : reach tsnState TSN_TIME_SET_NS = .open ∧ reach tsnState TSN_TIME_NS = .open ∧
    nowQ (run (.tsnTimeSet 17) (wr TSN_TIME_SET_SEC_LO 5 tsnState)) = 20000000017 ∧
    rd (run .timeReadLatch tsnState) TSN_TIME_SEC_LO = 3 ∧ (run .timeReadLatch tsnState).bus.readData = 0 := by decide +kernel

theorem test_time_input : rf (run .timeInputLock (wr TSN_CLK_CFG 1 tsnState)) TSN_CLK_CFG 2 1 = 1 ∧
    rf (run .timeInputLoss (wr TSN_CLK_CFG 3 tsnState)) TSN_CLK_CFG 2 1 = 2 ∧
    rb (run .timeInputLoss (wr TSN_CLK_CFG 3 tsnState)) (H_INT_STAT pageTSN) 1 = true ∧ rb (wr TSN_CLK_CFG 3 tsnState) TSN_CLK_CFG 1 = true := by
  decide +kernel

theorem test_pps : let s := wr TSN_PPS_CFG 0xC0500000 tsnState
    rb s TSN_PPS_CFG 31 = true ∧ ppsPhase s < 6 ∧ (run .ppsOutPulse s).tsn.ppsHigh = true ∧
    rb s TSN_PPS_CFG 30 = true ∧ rd (run .ppsInCapture s) TSN_PPS_CAP_SEC = 3 := by decide +kernel

/-- Administrative list of port 9: two entries from entry 4, 1 ms cycle, base 0. -/
def gclAdm (len : Nat) : State :=
  wf (TSN_GCL_ADM_CYCLE 9) 29 0 1000000 (wf (TSN_GCL_ADM_LIST 9) 26 16 len (wf (TSN_GCL_ADM_LIST 9) 9 0 4 tsnState))

theorem test_gcl_go : reach (gclAdm 2) (TSN_GCL_CTRL 9) = .open ∧ (gclAdm 2).tab.merges = [] ∧
    sGet none 9 (run (.gclGo 9 0x80000001) (gclAdm 2)).tsn.pend = some (⟨4, 2, 1000000, 0⟩, 3001000000) ∧
    rf (run (.gclGo 9 0x80000001) (gclAdm 1021)) (H_ERR_CAUSE pageTSN) 31 24 = 2 ∧ reach (gclAdm 1021) (TSN_GCL_CTRL 9) = .open := by
  decide +kernel

/-- Gate entries 4 and 5 of port 9 readable: 0.4 ms and the rest of the cycle. -/
def gclState (pend : Bool) : State :=
  let s := engWrite (gateAddr 9 4) [0xFF, 400000, 0x0F, 600000] tsnState
  let g : Gcl := ⟨4, 2, 1000000, 0⟩
  { s with
    time := { s.time with d := 12000000000 + 4 * 500000 }
    tsn := if pend then { s.tsn with pend := [(9, some (g, 3000000000))] } else { s.tsn with oper := [(9, some g)] } }

theorem test_gcl_change : (sGet none 9 (gclState true).tsn.pend) = some (⟨4, 2, 1000000, 0⟩, 3000000000) ∧
    4 * 3000000000 ≤ nowQ (gclState true) ∧ sGet none 9 (run (.gclChange 9) (gclState true)).tsn.oper = some ⟨4, 2, 1000000, 0⟩ ∧
    sGet none 9 (run (.gclChange 9) (gclState true)).tsn.pend = none := by decide +kernel

theorem test_gate_entry : sGet none 9 (gclState false).tsn.oper = some ⟨4, 2, 1000000, 0⟩ ∧
    gateBad (gclState false) 9 ⟨4, 2, 1000000, 0⟩ = none ∧ gateEntry (gclState false) 9 ⟨4, 2, 1000000, 0⟩ = 5 ∧
    rf (run (.gateEntryAdvance 9) (gclState false)) (TSN_GCL_STAT 9) 9 0 = 5 := by decide +kernel

/-- Recovery function 3: enabled reset after 5 ms. -/
def srfState : State := engWrite (srfAddr 3) [0x80000005, 0, 0, 0, 0, 0, 0, 0] tsnState

theorem test_srf_reset : reach srfState TSN_SRF_RESET = .open ∧ readable srfState (srfAddr 3) = true ∧
    bit (tw (run (.srfResetCmd 3) srfState) (srfAddr 3 + 4)) 0 = true ∧ ctr (run (.srfResetCmd 3) srfState) (TSN_CNT 7) = 1 := by
  decide +kernel

theorem test_srf_timeout : let s := { srfState with time := { srfState.time with e := 204800000000 * 5000000 } }
    isOn s pageTSN = true ∧ bit (tw s (srfAddr 3)) 31 = true ∧ fld (tw s (srfAddr 3)) 15 0 = 5 ∧ bit (tw s (srfAddr 3 + 4)) 0 = false ∧
    sGet 0 3 s.tsn.srfLast + 5 * 1000000 ≤ eNs s ∧
    bit (tw (run (.srfTimeout 3) s) (srfAddr 3 + 4)) 0 = true := by decide +kernel

/-! ## Power, boot and lifecycle -/

theorem test_poreset : bootPhase (run .poreset State.reset) = 3 ∧ rf (run .poreset State.reset) PWR_CLK_STAT 3 0 = 15 ∧
    (run .poreset { State.reset with lcs := { State.reset.lcs with pairs := [(1, 1)] } }).lcs.pairs = [(1, 2)] := by decide +kernel

theorem test_reset_n : base.pwr.held = .none ∧ bootPhase (run .resetN base) = 3 ∧ rb (run .resetN base) PWR_RST_CAUSE 1 = true ∧
    rd (run .resetN (wr RGR_CFG 0x1234 (wr (HAL_Q_STALE 0) 7 base))) RGR_CFG = 0x1234 ∧
    rd (run .resetN (wr RGR_CFG 0x1234 (wr (HAL_Q_STALE 0) 7 base))) (HAL_Q_STALE 0) = 0 := by decide +kernel

theorem test_refclk : bootPhase (run (.refclkLoss 2) base) = 1 ∧ rf (run (.refclkLoss 2) base) PWR_CLK_STAT 3 0 = 0xB ∧
    rf (run (.refclkLoss 0) base) PWR_CLK_STAT 3 0 = 0 ∧ ctr (run (.refclkLoss 2) base) (PWR_CNT 6) = 1 ∧
    bootPhase (run .refclkRecover (run (.refclkLoss 2) base)) = 3 ∧ (run (.refclkLoss 2) base).pwr.held = .clock ∧
    run .refclkRecover base = base := by decide +kernel

theorem test_rst_cmd : reach base PWR_RST_CMD = .open ∧ rb (run (.pwrRstCmd 0x800000A5) base) PWR_RST_CAUSE 2 = true ∧
    run (.pwrRstCmd 0x800000A4) base = base ∧ run (.pwrRstCmd 0xA5) base = base := by decide +kernel

theorem test_rail : (run .railUndervolt base).pwr.held = .rail ∧ heldPage (run .railUndervolt base) 3 = true ∧
    heldPage (run .railUndervolt base) pageRGR = true := by decide +kernel

theorem test_sensor : base.pwr.held ≠ .rail ∧ rd (run (.sensorRead 3 0xF0) base) (PWR_TEMP 3) = 0xF0 ∧
    rd (run (.sensorRead 3 0xF0) base) (H_INT_STAT pagePWR) = rd base (H_INT_STAT pagePWR) ∧
    rb (run (.sensorRead 3 111) base) (H_INT_STAT pagePWR) 4 = true ∧ bootPhase (run (.sensorRead 3 114) base) = 3 ∧
    bootPhase (run (.sensorRead 3 115) base) = 0xE ∧ thermtripLow (run (.sensorRead 3 115) base) = true := by decide +kernel

/-- At 95 °C an hour is an equivalent hour: one second is 1 / 3,600 of it (R715). -/
theorem test_life_step : lifeStep 95 = 2 ^ 64 / 3600 ∧ lifeStep 110 > 2 * lifeStep 95 ∧ 10 * lifeStep 60 < lifeStep 95 := by
  decide +kernel

/-- One second of 95 °C below 2 hours, with a limit of 0 thousand hours. -/
def lifeState : State :=
  let s := wr PWR_LIFE_HOURS 1 (wf PWR_AGE_CFG 31 16 0 (wr (PWR_TEMP 0) 95 base))
  { s with pwr := { s.pwr with lifeFrac := 2 ^ 64 - 1 } }

theorem test_life : rd (run .lifeHoursTick lifeState) PWR_LIFE_HOURS = 2 ∧ rb (run .lifeHoursTick lifeState) (H_INT_STAT pagePWR) 5 = true ∧
    (run .lifeHoursTick lifeState).pwr.lifeFrac = 2 ^ 64 / 3600 - 1 ∧ lifeState.pwr.hoursSaid = false := by decide +kernel

theorem test_age : rd (run (.ageMonitor 9 5) base) PWR_AGE_STAT = 0x905 ∧
    rb (run (.ageMonitor 9 5) (wf PWR_AGE_CFG 7 0 5 base)) (H_INT_STAT pagePWR) 5 = true ∧
    rb (run (.ageMonitor 9 6) (wf PWR_AGE_CFG 7 0 5 base)) (H_INT_STAT pagePWR) 5 = false := by decide +kernel

theorem test_boot_fails : base.pwr.hostGo = false ∧ bootPhase base ≤ 3 ∧ rb base PWR_BOOT_CFG 0 = false ∧
    bootCode base (lcState base) none = 2 ∧ bootCode base (lcState base) (some [1]) = 3 ∧
    bootPhase (run (.bootRound [] none (some [1])) base) = 7 ∧ (run (.bootRound [] none (some [1])) base).pwr.backOff = true ∧
    rd (run (.bootRound [] none (some [1])) base) PWR_BOOT_STAT = 0x13207 := by decide +kernel

/-- A failed round waits. -/
def backOffState : State := let s := setPhase 7 base; { s with pwr := { s.pwr with backOff := true } }

theorem test_boot_wait : bootPhase backOffState = 7 ∧ rd (run (.bootBackoffExpiry [] none none) backOffState) PWR_BOOT_STAT = 0x12207 ∧
    bootPhase (run (.bootRound [] none none) (wr PWR_BOOT_CFG 1 base)) = 7 ∧
    (run (.bootRound [] none none) (wr PWR_BOOT_CFG 1 base)).pwr.backOff = false := by decide +kernel

theorem test_host_fed : reach backOffState PWR_BOOT_HOST_CMD = .open ∧ memOk backOffState = true ∧
    bootPhase (run (.hostFedLoad []) backOffState) = 7 ∧ rb (run (.hostFedLoad []) backOffState) (H_INT_STAT pagePWR) 3 = true ∧
    run (.hostFedLoad []) (setPhase 0xB base) = setPhase 0xB base := by decide +kernel

/-- Vubex of slot A, version 3, starts; slot B is left to try if `o`. -/
def vubexState (o : Bool) : State :=
  let s := setPhase 0xA base
  { s with pwr := { s.pwr with starting := some (1, 3), other := if o then some 2 else none } }

theorem test_vubex : bootPhase (vubexState false) = 0xA ∧ bootPhase (run .vubexRunning (vubexState false)) = 0xB ∧
    rf (run .vubexRunning (vubexState false)) PWR_BOOT_STAT 7 6 = 1 ∧ (run .vubexRunning (vubexState false)).pwr.runVer = some 3 ∧
    blkState (run .vubexRunning (wf (H_CTRL pageCUR) 0 0 1 (vubexState false))) pageCUR = 1 := by decide +kernel

theorem test_vubex_fails : rf (run (.vubexStartTimeout none) (vubexState false)) PWR_BOOT_STAT 11 8 = 7 ∧
    rf (run (.lockstepMismatch none) (vubexState false)) PWR_BOOT_STAT 11 8 = 8 ∧
    (run (.lockstepMismatch none) (vubexState false)).pwr.bootPair = 1 ∧
    rf (run (.vubexStartTimeout none) (vubexState true)) PWR_BOOT_STAT 15 12 = 2 ∧
    bootPhase (run (.vubexStartTimeout none) (vubexState true)) = 7 := by decide +kernel

/-- Lifecycle state `n`, with owner slots 0 and 1 programmed, running version 5. -/
def lcsAt (n : Nat) : State :=
  { base with
    lcs := { base.lcs with pairs := [(1, 2), (2, 2), (3, 2), (4, 2)].take n, keys := [(0, 2), (1, 2)] }
    pwr := { base.pwr with runVer := some 5 } }

theorem test_lcs_states : lcState (lcsAt 0) = 0 ∧ lcState (lcsAt 1) = 1 ∧ lcState (lcsAt 2) = 2 ∧
    slotLive (lcsAt 1) 0 = true ∧ reach base LCS_TRANS_CMD = .open ∧ tokenCheck (lcsAt 2) 3 = 2 := by decide +kernel

theorem test_transition : lcState (run (.lifecycleTransition 0x805A0001 2) (lcsAt 0)) = 1 ∧
    lcState (run (.lifecycleTransition 0x805A0002 1) (lcsAt 1)) = 2 ∧
    rd (run (.lifecycleTransition 0x805A0001 0) (lcsAt 0)) LCS_TRANS_STAT = 4 ∧
    rd (run (.lifecycleTransition 0x805A0003 2) (lcsAt 1)) LCS_TRANS_STAT = 1 ∧
    rd (run (.lifecycleTransition 0x805A0003 2) (lcsAt 2)) LCS_TRANS_STAT = 2 ∧
    run (.lifecycleTransition 0x80590001 2) (lcsAt 0) = lcsAt 0 := by decide +kernel

theorem test_keys : reach base LCS_KEY_PROG = .open ∧ blown (run (.keyProgram 2 2) (lcsAt 1)).lcs.keys 2 = true ∧
    rd (run (.keyProgram 0 2) (lcsAt 1)) LCS_TRANS_STAT = 1 ∧ rd (run (.keyProgram 2 0) (lcsAt 1)) LCS_TRANS_STAT = 4 ∧
    blown (run (.keyRevoke 0 2) (lcsAt 2)).lcs.revs 0 = true ∧
    rd (run (.keyRevoke 1 2) (run (.keyRevoke 0 2) (lcsAt 2))) LCS_TRANS_STAT = 1 ∧
    rd (run (.keyRevoke 0 2) (lcsAt 0)) LCS_TRANS_STAT = 1 := by decide +kernel

theorem test_version : reach base LCS_VER_PROG = .open ∧ minVer (run (.versionRaise 4 2) (lcsAt 1)) = 4 ∧
    rd (run (.versionRaise 6 2) (lcsAt 1)) LCS_TRANS_STAT = 1 ∧ minVer (lcsAt 1) = 0 := by decide +kernel

theorem test_nonce : reach base LCS_NONCE_LO = .open ∧ (run .nonceRead base).lcs.nonce.isSome = true := by decide +kernel

/-! ## Pins and the management slave -/

theorem test_gpio : heldPage base pageDEV = false ∧ isOn base pageDEV = false ∧ bit (run (.gpioEdge 4 true) base).dev.gpioPins 4 = true ∧
    (let s := wr DEV_GPIO_RISE_EN 0x10 (up [pageDEV] base)
     rb s DEV_GPIO_OE 4 = false ∧ rb (run (.gpioEdge 4 true) s) DEV_GPIO_IN 4 = true ∧
     rb (run (.gpioEdge 4 true) s) DEV_GPIO_EDGE 4 = true ∧ rb (run (.gpioEdge 4 true) s) (H_INT_STAT pageDEV) 1 = true) ∧
    (let s := wr DEV_GPIO_IN 0x10 (wr DEV_GPIO_FALL_EN 0x10 (up [pageDEV] base))
     rb (run (.gpioEdge 4 false) s) DEV_GPIO_EDGE 4 = true) := by decide +kernel

theorem test_smb : smbAnswers base = true ∧ smbAnswers State.reset = false ∧ smbReach 0x10118 true = true ∧ smbReach 0x20118 true = false ∧
    (run (.smbWrite 0x10118 5 false) base).dev.smbNack = true ∧ (run (.smbSetAddress 0x20030 true) base).dev.smbAddr = 0x20030 ∧
    (run .smbRead { base with dev := { base.dev with smbAddr := 0x30000 } }).bus.readData = 0xFFFFFFFF ∧
    smbReach 0x30000 false = false ∧ run .smbRead State.reset = State.reset := by decide +kernel

theorem test_smb_reads : smbReach 0x10000 false = true ∧ reach base 0x10000 = .open ∧ counterWord base (shownAt base 0x10000) = false ∧
    (run .smbRead { base with dev := { base.dev with smbAddr := 0x10000 } }).bus.readData = BitVec.ofNat 64 (readValue base 0x10000).toNat := by
  decide +kernel

/-! ## Well-formed commands: an ill-formed command for each check, refused by it -/

theorem test_ill_register : (Instr.registerWrite 2 0).wellFormed = false ∧ (Instr.counterLoRead 4).wellFormed = false ∧
    (Instr.smbWrite 2 0 true).wellFormed = false ∧ (Instr.smbSetAddress 3 true).wellFormed = false := by decide

theorem test_ill_frame : (Instr.rxFrame 0 (.whole [] false) []).wellFormed = false ∧ (Instr.rxFrame 0 (.head [1] 64) []).wellFormed = false ∧
    (Instr.pauseFrameRx 0 (.pfc 1 [1])).wellFormed = false := by decide

theorem test_ill_hall : (Instr.hallBankSpared [3, 3]).wellFormed = false ∧ (Instr.scrubPass false [.cell 3] [.cell 3]).wellFormed = false ∧
    (Instr.imageComparePass 0 [(1, 1), (1, 1)] []).wellFormed = false ∧ (Instr.imageComparePass 0 [] [2, 2]).wellFormed = false := by decide

theorem test_ill_host : (Instr.entryFetch 0 [] none).wellFormed = false ∧ (Instr.bufferPost 0 []).wellFormed = false ∧
    (Instr.userPageRead 4 true).wellFormed = false ∧ (Instr.userPageRead 2 false).wellFormed = false ∧
    (Instr.shadowChunkCompare 0 [] false).wellFormed = false := by decide

theorem test_ill_inject : (Instr.injectJob 0 (List.replicate 12285 0)).wellFormed = false := by decide +kernel

theorem test_ill_aperture : (Instr.apertureRead 0 0 2).wellFormed = false ∧ (Instr.apertureRead 0 4 8).wellFormed = false ∧
    (Instr.apertureWrite 0 0 []).wellFormed = false ∧ (Instr.apertureWrite 0 0 [1]).wellFormed = false ∧
    (Instr.apertureWrite 0 2 [1, 2, 3, 4]).wellFormed = false ∧
    (Instr.apertureWrite 0 60 [1, 2, 3, 4, 5, 6, 7, 8]).wellFormed = false := by decide

theorem test_ill_segment : (Instr.dataSegmentRx 0 (List.replicate 257 0) true).wellFormed = false ∧
    (Instr.creditSegmentRx 0 (List.replicate 257 0) true).wellFormed = false ∧
    (Instr.linkSegmentRx 0 (List.replicate 257 0) true).wellFormed = false := by decide +kernel

theorem test_no_word_spells : decodeTableWord 32 0xFFFFFFFF = none ∧ base.withFetchWord 32 5 = base := by decide +kernel

theorem test_queue : step { base with pending := [.resetN] } = exec .resetN base ∧ step base = .next (tick base) := ⟨rfl, rfl⟩

/-! ## Premises of the further clauses -/

/-- Gallery 3 DORMANT and asked to wake: its ramp is the next; gallery 4, DORMANT too, waits; a takeover waits for GS. -/
theorem test_ramps : let s := setGalState 4 2 (wf (GAL_PARK_CFG 3) 1 0 0 (setGalState 3 2 parkState))
    ramping (sequencer s) = 3 ∧ galState s 4 = 2 ∧ galState (run (.dormantWake 4 false) s) 4 = 2 ∧
    (let u := { setGalState 8 2 spareState with rgr := { base.rgr with switching := some (2, false) } };
      galState u 8 = 2 ∧ run (.takeoverLinkSwitch 77) u = u) ∧
    galState { spareState with rgr := { base.rgr with switching := some (2, false) } } 8 ≠ 2 := by decide +kernel

theorem test_sampler_due : sampState.tmg.sampDue ≤ eUs sampState ∧
    (run .samplerRound sampState).tmg.sampDue = eUs sampState + sampPeriod sampState ∧
    (let s := { sampState with tmg := { sampState.tmg with sampDue := 16 } }; run .samplerRound s = s) := by decide +kernel

theorem test_stopping_retry : let s := setBlk 0x48 3 lnkState
    blkState s (pageLNK 1) = 3 ∧ rb s (LNK_D2D_STAT 1) 1 = true ∧
    rf (run (.flitRetry 1 false true) s) (LNK_D2D_STAT 1) 31 16 = 1 := by decide +kernel

theorem test_rx_open : goodFrame.length < 68 ∧ pauseLike goodFrame = false ∧ asPause (goodFrame ++ [1, 2, 3, 4]) = none ∧
    (goodFrame ++ [1, 2, 3, 4]).length = 68 := by decide +kernel

/-- In loopback a port hears no pause from outside. -/
theorem test_pause_loopback : let s := wf (LNK_PORT_CFG 1 3) 1 1 1 macState
    macOn s 67 = true ∧ rb s (LNK_PORT_CFG 1 3) 1 = true ∧ run (.pauseFrameRx 67 (.pause 5)) s = s := by decide +kernel

theorem test_xoff_port : let s := wf (LNK_PORT_CFG 1 3) 8 8 0 xoffState
    inXoff s 67 3 = true ∧ xoffMayEnd s 67 3 = true ∧ (run (.xoffExit 67 3) s).lnk.pauseReq = [(67, 8, 0)] ∧
    (let u := wf (DPT_PFC_STAT 67) 4 4 1 s; inXoff u 67 3 = true ∧ (run (.xoffExit 67 3) u).lnk.pauseReq = []) := by decide +kernel

/-- A search whose first selector takes META 0x82 waits for the Catalogue. -/
theorem test_meta_waits : usesMeta vitHitState luFrame 0 = false ∧
    (let s := wr (VIT_PROF_SEL 0 0 0) 0x82 vitHitState; usesMeta s luFrame 0 = true ∧ catDone s luFrame = true) := by decide +kernel

/-- Two frames of gallery 1 resolvable: the one dispatched first goes first. -/
theorem test_turns : let b := { excFrame with id := 1, port := 71, seq := 9 }
    let s := { inState excFrame with frames := [b, excFrame], nextId := 2 }
    itsTurn s excFrame = true ∧ resolvable s b = true ∧ itsTurn s b = false ∧ run (.ingressResolution 1) s = s ∧
    excFrame.direct = none := by decide +kernel

theorem test_last_cell_unheld : let s := { base with frames := [longFrame], nextId := 1 }
    copiesOf s 0 = [] ∧ s.arc.pend = [] ∧ (run (.lastCellWritten 0) s).frames = [] ∧
    (run (.lastCellWritten 0) s).hal.wrote = s.hal.wrote := by decide +kernel

/-- The pressure cut does not fall in a parse of an unpressed gallery; it catches NOP ending cycle 48 and JMP across it. -/
theorem test_meets_cut : meetsCut (docState 0 coreK) 1 20 21 = false ∧
    (let p := fun (w : W32) => (putCore 1 5 (some { coreK with cycles := 47 }) { docState w coreK with
        frames := (docState w coreK).frames ++ [{ newFrame base 67 (List.replicate 1024 0) true false 0 with id := 7 }], nextId := 8 } |>
        wf (DOC_BUDGET_CFG 1) 6 0 48 |> wf (DOC_BUDGET_CFG 1) 23 12 0);
      meetsCut (p 0) 1 47 48 = true ∧ meetsCut (p 0xA0000005) 1 47 50 = true ∧
      (coreOf (run (.docNop 1 5) (p 0)) 1 5).map (fun k => (k.pc, k.cycles, k.cut)) = some (1, 48, true) ∧
      (coreOf (run (.docJmp 1 5) (p 0xA0000005)) 1 5).map (fun k => (k.pc, k.cycles, k.cut)) = some (0, 48, true)) := by decide +kernel

/-- A direct inject at the head of its port goes to ingress resolution without a core. -/
theorem test_dispatch_direct : let f := { newFrame base 67 goodFrame true false 0 with direct := some (70, 1) }
    let s := { dispState with frames := [f] }
    (headOfPort s 67).map (·.direct) = some (some (70, 1)) ∧
    (frameOf (run (.dispatch 1) s) 0).map (fun x => (x.stage, x.defAct, x.direct)) = some (.lookup, true, some (70, 1)) := by decide +kernel

theorem test_edit_waits : let s := { editState (copyFor .selected) with frames := [{ hallFrame with lastDone := false }] }
    stored s (copyFor .selected) = false ∧ stored (editState (copyFor .selected)) (copyFor .selected) = true ∧
    run (.editorEdit 0) s = s := by decide +kernel

theorem test_next_capture : nextCap arcState.arc.pend = some arcCap ∧ isFirst arcState pageARC 11 = true ∧
    nextCap [{ arcCap with clock := 9, gal := 3 }, { arcCap with clock := 9, gal := 1 }] = some { arcCap with clock := 9, gal := 1 } := by
  decide +kernel

/-- A prefix of 96 bits is a Catalogue entry: its command needs both Catalogue blocks ON. -/
def longPay : List Byte := leBytes 2 4 ++ [96, 1] ++ List.replicate 12 0x11 ++ List.replicate 4 0 ++ leBytes 8 (6 * 2 ^ 60 + 3)

theorem test_long_off : longCmd (cmd 0x10 longPay 1) = true ∧
    (let s := give (cmd 0x10 longPay 1) (setBlk (pageCAT 1) 0 cmdBase);
      tableOn s 1 = true ∧ tableOn s 0 = false ∧ done 1 (run .routeAdd s) = (some 0x0A, some 0xFF, true)) := by decide +kernel

theorem test_spans : (∀ n, n ≤ 2 → spanTaking (moveState 2) 2 1 n = false) ∧
    (let s := { moveState 2 with vit := { (moveState 2).vit with taking := [(0, some 2)] } }; spanTaking s 2 1 2 = true) := by
  decide +kernel

/-- Bus errors on the entries of the three kinds of ring. -/
theorem test_rings_lost : let s := wr (HIF_CQ_CFG 5) 0x80000004 (wr (HIF_EQ_CFG 5) 0x80000004 (scanState 0))
    mayFetch s 5 = true ∧ rb s (HIF_CQ_CFG 5) 31 = true ∧ rb s (HIF_EQ_CFG 5) 31 = true ∧
    rb (run (.entryFetch 5 [] (some .cq)) s) (HIF_CQ_CFG 5) 31 = false ∧ rb (run (.entryFetch 5 [] (some .eq)) s) (HIF_EQ_CFG 5) 31 = false ∧
    ctr (run (.entryFetch 5 [] (some .eq)) s) (HIF_CNT 4) = 1 ∧ rb (run (.entryFetch 5 [] (some .eq)) s) (HIF_SQ_CFG 5) 31 = true := by
  decide +kernel

/-- Row 8 of bank 2, valid and cleared, with a readable image. -/
theorem test_cleared_row : let s := { engWrite (vitAddr 0 2 8 + 16) [0, 0xA0000000, 0, 0] imageState with vit := { base.vit with cleared := [8200] } }
    65536 * 0 + 4096 * 2 + 8 ∈ s.vit.cleared ∧ bit (tw s (vitAddr 0 2 8 + 20)) 31 = true ∧
    (run (.imageComparePass 0 [] []) s).vit.cleared = [] := by decide +kernel

theorem test_scrub_tmg : let s := { csvState ⟨.good, 0, false⟩ with tab := base.tab }
    rb s CSV_CFG 0 = true ∧ isOn s pageCSV = true ∧ s.tab.ecc = [] ∧ rb (run (.scrubPass false [] [.own 0x250]) s) (H_INT_STAT pageTMG) 0 = true := by
  decide +kernel

/-- A direct frame of the host names its output, as does one of the Annex. -/
theorem test_direct : let s := putReady 5 (some (.inject ⟨5, true, false, 0x77, 0x8000, 100, 1, 70, false⟩)) (sqState 1)
    (run (.injectJob 5 (List.replicate 100 7)) s).frames.map (fun f => (f.stage, f.direct)) = [(.hold, some (70, 1))] ∧
    (run (.dataSegmentRx (dataHdr true 76) ([70, 0, 1, 0x80] ++ anxBytes.drop 4) true) anxRx).frames.map (·.direct) = [some (70, 1)] := by
  decide +kernel

theorem test_link_widths : linkTrains 5 8 = true ∧ linkTrains 5 3 = false ∧
    rd (run (.pciePerstN 5 3) base) HIF_PCIE_STAT = regReset base.part HIF_PCIE_STAT := by decide +kernel

end Sys2Proof.Tests
end

section
/-!
SUPPORT. What the release of PORESET_N leaves in State.reset: the settled statement about it.
-/
namespace Sys2Proof.Machine

/-- In the state right after reset no register word is stored, so each one reads as its Reset value. -/
theorem rd_reset (a : Nat) : rd State.reset a = regReset State.reset.part a := rfl

/-- The tier-0 blocks are STARTING with CTRL.enable 1 (R687). -/
theorem alwaysOn_starting_reset : ([pagePWR, pageLCS, pageRGR].all fun p =>
    blkState State.reset p == 1 && rb State.reset (H_CTRL p) 0) = true := by decide

/-- Every block of a higher tier that R17 names is OFF. -/
theorem higher_tiers_off_reset : ([pageDEV, pageCUR, pageHIF, pageANX, pageHAL, pageDPT, pageARC, pageTMG, pageTSN, pageVLT,
    pageCSV].all fun p => blkState State.reset p == 0) = true := by decide

/-- No table word has been written. -/
theorem rdStat_reset (a : Nat) : rdStat State.reset a = .never := rfl

theorem cellOf_reset (c : Nat) : cellOf State.reset c = cellNone := rfl

theorem liveCount_reset : liveCount State.reset = 1 := rfl

theorem epochsLive_reset : epochsLive State.reset := by
  refine ⟨by decide, by decide, ?_⟩
  rw [liveCount_reset]
  decide

/-- No fuse of a lifecycle state is blown on a blank part (log 10). -/
theorem lcState_reset : lcState State.reset = 0 := rfl

theorem claims_resetState : Claims.ResetState :=
  ⟨rd_reset, fun _ => rfl, alwaysOn_starting_reset, higher_tiers_off_reset, rfl, rfl, rfl, rdStat_reset,
    fun c => by rw [cellOf_reset]; rfl⟩

theorem claims_resetMeetsInvariants : Claims.ResetMeetsInvariants :=
  ⟨memoryWf_reset, epochsLive_reset, lcState_reset, rfl⟩

/-- Settles O7: the stores of State.reset list nothing, so every register, counter, table word and cell reads as unlisted. -/
theorem resetState : Obligations.ResetState := ⟨claims_resetState, claims_resetMeetsInvariants⟩

end Sys2Proof.Machine
end

section
/-!
SUPPORT. The common page header: where its registers lie, what a host access to one reaches, and the latches of its address registers
(R13, R690-R692).
-/
namespace Sys2Proof.Machine

/-! ## Addresses and pages -/

theorem page_bar0 (p : Nat) {x : Nat} (h : x < 0x10000) : bar0 p x / 0x10000 = p := by rw [bar0]; omega

theorem offset_bar0 (p : Nat) {x : Nat} (h : x < 0x10000) : bar0 p x % 0x10000 = x := by rw [bar0]; omega

/-- A register answers on the pages of a block alone. -/
theorem pageBlk_of_open {s : State} {a : Nat} (h : reach s a = .open) : ∃ b sub i, pageBlk s.part (a / 0x10000) = some (b, sub, i) := by
  cases hb : pageBlk s.part (a / 0x10000) with
  | some k => exact ⟨k.1, k.2.1, k.2.2, rfl⟩
  | none =>
    exfalso
    rw [reach, hb] at h
    dsimp only at h
    split at h <;> cases h

/-- A host read of a register that answers is the read's own effect after its wake. -/
theorem hostAsk_open {s : State} {a : Nat} (f : State → State) (h : reach s a = .open) : hostAsk a f s = f (noteAccess a s) := by
  rw [hostAsk, h]

/-- A header register outside CTRL, STATE and FENCE is its page's own (R693). -/
theorem shownAt_header (s : State) (p : Nat) {x : Nat} (h : x < 0x100) (hm : x ≠ 0x8 ∧ x ≠ 0xC ∧ x ≠ 0x1C) :
    shownAt s (bar0 p x) = bar0 p x := by
  have h1 : ¬0x100 ≤ x := by omega
  have h2 : ¬(0x120 ≤ x ∧ x < 0x140) := by omega
  have h3 : x ≠ 0x10C := by omega
  have h4 : ¬(0x110 ≤ x ∧ x < 0x150) := by omega
  rw [shownAt, page_bar0 p (by omega), offset_bar0 p (by omega)]
  simp only [hm.1, hm.2.1, hm.2.2, h1, h2, h3, h4, or_self, if_false]
  split <;> rfl

/-! ## Latches -/

theorem latched_putLatch_same (a : Nat) (v : Option W32) (s : State) : latched (putLatch a v s) a = v := sGet_sPut_same _ _ _ _

theorem latched_putLatch_ne {a b : Nat} (v : Option W32) (s : State) (h : b ≠ a) : latched (putLatch a v s) b = latched s b :=
  sGet_sPut_ne _ _ _ h _

@[simp] theorem latched_wr (a : Nat) (v : W32) (s : State) (b : Nat) : latched (wr a v s) b = latched s b := rfl
@[simp] theorem latched_wf (a hi lo v : Nat) (s : State) (b : Nat) : latched (wf a hi lo v s) b = latched s b := rfl
@[simp] theorem latched_answer (v : Nat) (s : State) (b : Nat) : latched (answer v s) b = latched s b := rfl
@[simp] theorem rd_putLatch (a : Nat) (v : Option W32) (s : State) (b : Nat) : rd (putLatch a v s) b = rd s b := rfl
@[simp] theorem ctr_putLatch (a : Nat) (v : Option W32) (s : State) (b : Nat) : ctr (putLatch a v s) b = ctr s b := rfl

/-- What wakes a gallery counts nothing and loads no latch. -/
theorem noteAccess_counters (a : Nat) (s : State) :
    (∀ b, ctr (noteAccess a s) b = ctr s b) ∧ ∀ b, latched (noteAccess a s) b = latched s b := by
  have ramp : ∀ g t, (∀ b, ctr (endRamp g t) b = ctr t b) ∧ ∀ b, latched (endRamp g t) b = latched t b := by
    intro g t
    unfold endRamp
    split <;> exact ⟨fun _ => rfl, fun _ => rfl⟩
  unfold noteAccess
  split
  · exact ⟨fun _ => rfl, fun _ => rfl⟩
  · split
    · unfold wakeGal
      split
      · exact ramp _ _
      · exact ⟨fun _ => rfl, fun _ => rfl⟩
    · exact ⟨fun _ => rfl, fun _ => rfl⟩

/-! ## Writes of header registers -/

theorem ctrsBut_of_same {s t : State} (h : ∀ a, ctr t a = ctr s a) (cs : List Nat) : CtrsBut cs s t := fun a _ _ => h a

theorem regsBut_wr (a : Nat) (v : W32) (s : State) : RegsBut [a] s (wr a v s) :=
  fun _ h => rd_wr_ne v s (by simpa using h)

/-- A REGISTER_WRITE of a header register of a page's own, where the page answers, is the header's write. -/
theorem exec_registerWrite_header (p : Page) {x : Nat} (v : W32) {s : State} (hx : x < 0x100) (h4 : x % 4 = 0)
    (hm : x ≠ 0x8 ∧ x ≠ 0xC ∧ x ≠ 0x1C) (ho : reach s (bar0 p x) = .open) :
    exec (.registerWrite (BitVec.ofNat 26 (bar0 p x)) v) s = .next (writeHeader p x v s) := by
  have ha : (BitVec.ofNat 26 (bar0 p x)).toNat / 4 * 4 = bar0 p x := by
    have hp := p.isLt
    simp only [BitVec.toNat_ofNat, bar0]
    omega
  obtain ⟨b, sub, i, hb⟩ := pageBlk_of_open ho
  have hw : writeReg (bar0 p x) v s = writeHeader p x v s := by
    rw [page_bar0 _ (by omega)] at hb
    simp only [writeReg, shownAt_header s p hx hm, page_bar0 _ (show x < 0x10000 by omega), offset_bar0 _ (show x < 0x10000 by omega),
      hb, hx, bne_self_eq_false, if_true, Bool.false_eq_true, if_false]
  show Host.Outcome.next (hostDo _ (writeReg _ v) s) = _
  rw [ha, hostDo_open _ _ _ ho (noteAccess_header _ _ (by rw [offset_bar0 _ (by omega)]; omega)), hw]

/-- A header register with no behaviour of its own is stored by its access codes (R14, R15). -/
theorem writeHeader_stored (p : Nat) {x : Nat} (v : W32) {s : State} {c : RegCard} {i j : Nat} (hx : x < 0x100)
    (hp : x ∉ [0x8, 0x10, 0x14, 0x18, 0x1C, 0x20]) (ho : reach s (bar0 p x) = .open) (hc : cardAt headerCards x = some (c, i, j)) :
    writeHeader p x v s = wr (bar0 p x) (cardWrite c (rwlOpen s) (rd s (bar0 p x)) v) s := by
  have hw : writeHeader p x v s = storeReg (bar0 p x) v s := by
    unfold writeHeader
    split
    case h_7 => rfl
    all_goals exact absurd hp (by decide)
  obtain ⟨b, sub, k, hb⟩ := pageBlk_of_open ho
  rw [page_bar0 _ (by omega)] at hb
  rw [hw, storeReg, page_bar0 _ (by omega), offset_bar0 _ (by omega), cardOfReg, hb]
  simp only [hx, if_true, hc]

/-- A write of INT_STAT clears the bits written 1 on a page without a lasting condition (R690). -/
theorem writeHeader_intStat {p : Nat} (v : W32) (s : State) (hh : p ≠ pageHIF) (hd : p ≠ pageDPT) :
    writeHeader p 0x10 v s = wr (H_INT_STAT p) (rd s (H_INT_STAT p) &&& ~~~v) s := by
  simp only [writeHeader, writeIntStat, hh, hd, false_and, if_false]

/-- Two one-bit fields written from a word, one beside the other, hold that word's two bits. -/
theorem fld_two_bits (w v : W32) (n : Nat) (h : n + 1 < 32) :
    fld (setFld (setFld w (n + 1) (n + 1) (fld v (n + 1) (n + 1))) n n (fld v n n)) (n + 1) n = fld v (n + 1) n := by
  refine Nat.eq_of_testBit_eq fun i => ?_
  rw [testBit_fld, testBit_fld, bit_setFld _ _ _ _ _ (Nat.le_refl _) (by omega), bit_setFld _ _ _ _ _ (Nat.le_refl _) h,
    testBit_fld, testBit_fld]
  rcases i with _ | _ | i
  · simp
  · simp
  · have : ¬(i + 1 + 1 < n + 1 + 1 - n) := by omega
    simp only [this, decide_false, Bool.false_and]

/-! ## The settled statement -/

theorem claims_errorRecordCommands : Claims.ErrorRecordCommands := by
  intro p s ho
  have hlo : H_ERR_ADDR_LO p ≠ H_ERR_ADDR_HI p := by simp only [H_ERR_ADDR_LO, H_ERR_ADDR_HI, bar0]; omega
  have hcl : H_ERR_CAUSE p ≠ H_ERR_ADDR_LO p := by simp only [H_ERR_CAUSE, H_ERR_ADDR_LO, bar0]; omega
  have hch : H_ERR_CAUSE p ≠ H_ERR_ADDR_HI p := by simp only [H_ERR_CAUSE, H_ERR_ADDR_HI, bar0]; omega
  have hn : noteAccess (H_ERR_CAUSE p) s = s :=
    noteAccess_header _ _ (by rw [H_ERR_CAUSE, offset_bar0 _ (by decide)]; decide)
  have hr : hostAsk (H_ERR_CAUSE p) (readErrCause p) s = readErrCause p s := by rw [hostAsk_open _ ho, hn]
  constructor
  · refine ⟨readErrCause p s, congrArg _ hr, rfl, ?_, ?_, fun _ _ => rfl, fun _ _ _ => rfl⟩
    · rw [readErrCause, latched_answer, latched_putLatch_ne _ _ hlo, latched_putLatch_same]
    · rw [readErrCause, latched_answer, latched_putLatch_same]
  · refine ⟨clearErr p s, congrArg _ (hostDo_open _ _ _ ho hn), rd_wr_same _ _ _, ?_, ?_, ?_, ?_, fun a ha => ?_, fun _ _ _ => rfl⟩
    · rw [clearErr, rd_wr_ne _ _ hcl.symm, rd_wr_same]
    · rw [clearErr, rd_wr_ne _ _ hch.symm, rd_wr_ne _ _ hlo.symm, rd_wr_same]
    · simp only [clearErr, latched_wr, latched_putLatch_same]
    · simp only [clearErr, latched_wr, latched_putLatch_ne _ _ hlo.symm, latched_putLatch_same]
    · simp only [List.mem_cons, List.not_mem_nil, or_false, not_or] at ha
      obtain ⟨h1, h2, h3⟩ := ha
      rw [clearErr, rd_wr_ne _ _ h1, rd_wr_ne _ _ h2, rd_wr_ne _ _ h3, rd_putLatch, rd_putLatch]

theorem claims_registerWriteByAccessCode : Claims.RegisterWriteByAccessCode := by
  intro p v s ho
  refine ⟨⟨_, exec_registerWrite_header p v (by decide) (by decide) (by decide) (ho 0x34 (by decide)), ?_⟩, fun hh hd =>
    ⟨_, exec_registerWrite_header p v (by decide) (by decide) (by decide) (ho 0x10 (by decide)), ?_⟩,
    ⟨_, exec_registerWrite_header p v (by decide) (by decide) (by decide) (ho 0x0 (by decide)), ?_⟩⟩
  case refine_1 =>
    have e : writeHeader p 0x34 v s = wr (H_MSG_CFG p) _ s := 
      writeHeader_stored p v (by decide) (by decide) (ho 0x34 (by decide)) rfl
    rw [e]
    refine ⟨?_, regsBut_wr _ _ _, fun _ _ _ => rfl⟩
    rw [rf, rd_wr_same]
    exact fld_two_bits _ v 30 (by decide)
  case refine_2 =>
    rw [writeHeader_intStat v s hh hd]
    exact ⟨rd_wr_same _ _ _, regsBut_wr _ _ _, fun _ _ _ => rfl⟩
  case refine_3 =>
    have e : writeHeader p 0x0 v s = wr (H_ID p) (rd s (H_ID p)) s := 
      writeHeader_stored p v (by decide) (by decide) (ho 0x0 (by decide)) rfl
    rw [e]
    refine ⟨fun a _ => ?_, fun _ _ _ => rfl⟩
    rw [rd_wr]
    split
    · next h => rw [h]
    · rfl

/-- A read of a counter word: _LO answers the low half and latches the high half, _HI answers its latch (R13). -/
theorem readCounter_word (a : Nat) (s : State) (hc : counterWord s (shownAt s a) = true) : readCounter a s =
    if shownAt s a % 8 = 0 then
      answer (ctr s (shownAt s a) % 2 ^ 32) (putLatch (shownAt s a + 4) (some (w32 (ctr s (shownAt s a) / 2 ^ 32))) s)
    else answer ((latched s (shownAt s a)).getD 0).toNat s := by
  rw [readCounter, hc]
  rfl

theorem claims_counterPairRead : Claims.CounterPairRead := by
  intro a s b ho hc
  obtain ⟨hctr, hlat⟩ := noteAccess_counters (a.toNat / 4 * 4) s
  have hpart : (noteAccess (a.toNat / 4 * 4) s).part = s.part := (noteAccess_onlyBus _ s).part
  have hb : shownAt (noteAccess (a.toNat / 4 * 4) s) (a.toNat / 4 * 4) = b := by
    simp only [shownAt, hpart, b]
  have hcw : counterWord (noteAccess (a.toNat / 4 * 4) s) b = true := by rw [counterWord, hpart]; exact hc
  have he : exec (.counterLoRead a) s = .next (readCounter (a.toNat / 4 * 4) (noteAccess (a.toNat / 4 * 4) s)) :=
    congrArg _ (hostAsk_open _ ho)
  rw [he, readCounter_word _ _ (by rw [hb]; exact hcw), hb, hctr, hlat]
  constructor
  · intro h8
    rw [if_pos h8]
    exact ⟨_, rfl, rfl, latched_putLatch_same _ _ _, ctrsBut_of_same hctr _⟩
  · intro h8
    rw [if_neg h8]
    exact ⟨_, rfl, ctrsBut_of_same hctr _, rfl⟩

/-- Settles O8: a header register of a page that answers takes the access itself, since no other page governs it and no access to
the header wakes a gallery; a counter's wake changes neither counts nor latches. -/
theorem headerRegisters : Obligations.HeaderRegisters :=
  ⟨claims_errorRecordCommands, claims_registerWriteByAccessCode, claims_counterPairRead⟩

end Sys2Proof.Machine
end

section
/-!
SUPPORT. Resets, clock losses, rails, sensors and ageing (R17, R645-R651, R708, R713-R716): what each leaves, and the settled statement
about them.
-/
namespace Sys2Proof.Machine

/-! ## Stores filtered by key, and fuses -/

/-- A store of which only the keys with `p` stay, its entries rewritten by a map that keeps keys and leaves key `k` alone. -/
theorem sGet_map_filter {α : Type} (d : α) (p : Nat → Bool) (g : Nat × α → Nat × α) (hg : ∀ e, (g e).1 = e.1) (k : Nat)
    (hk : p k = true → ∀ v, g (k, v) = (k, v)) :
    ∀ l : List (Nat × α), sGet d k ((l.filter fun e => p e.1).map g) = if p k then sGet d k l else d
  | [] => by simp [sGet]
  | (j, v) :: r => by
    have ih := sGet_map_filter d p g hg k hk r
    by_cases hj : j = k
    · subst hj
      cases hp : p j with
      | true => simp [hp, hk hp, sGet]
      | false => simpa [hp] using ih
    · have hj' : (g (j, v)).1 ≠ k := by rw [hg]; exact hj
      cases hp : p j with
      | true => simpa [hp, sGet, hj, hj'] using ih
      | false => simpa [hp, sGet, hj] using ih

/-- The fuses read at power-up: a half-blown pair is completed (R670). -/
theorem sGet_completeFuses (k : Nat) : ∀ l : List (Nat × Nat),
    sGet 0 k (completeFuses l) = if sGet 0 k l = 1 then 2 else sGet 0 k l
  | [] => rfl
  | (j, v) :: r => by
    have ih := sGet_completeFuses k r
    simp only [completeFuses] at ih
    by_cases hj : j = k <;> simp [completeFuses, sGet, hj, ih]

theorem blown_completeFuses (l : List (Nat × Nat)) (k : Nat) : blown (completeFuses l) k = blown l k := by
  rw [blown, blown, sGet_completeFuses]
  split
  · next h => rw [h]; rfl
  · rfl

theorem completeFuses_not_half (l : List (Nat × Nat)) (k : Nat) : sGet 0 k (completeFuses l) ≠ 1 := by
  rw [sGet_completeFuses]
  split
  · decide
  · next h => exact h

/-! ## Frames of register writes -/

/-- A register's word is read from the bus and the order code alone. -/
theorem rd_congr {s t : State} (hb : t.bus = s.bus) (hp : t.part = s.part) (a : Nat) : rd t a = rd s a := by rw [rd, rd, hb, hp]

theorem RegsBut.trans {rs qs : List Nat} {s t u : State} (h : RegsBut rs s t) (g : RegsBut qs t u) : RegsBut (rs ++ qs) s u := by
  intro a ha
  rw [List.mem_append, not_or] at ha
  rw [g a ha.2, h a ha.1]

theorem RegsBut.mono {rs qs : List Nat} {s t : State} (h : RegsBut rs s t) (hs : rs ⊆ qs) : RegsBut qs s t :=
  fun a ha => h a fun hm => ha (hs hm)

theorem regsBut_wf (a hi lo v : Nat) (s : State) : RegsBut [a] s (wf a hi lo v s) := regsBut_wr _ _ _

/-- A register of a page without MSI-X vectors is touched by an event only as its INT_STAT. -/
theorem not_mem_eventRegs {p a : Nat} (h : a ≠ H_INT_STAT p) (hp : a / 0x10000 ≠ pageHIF + 6) : a ∉ eventRegs p := by
  rw [eventRegs, List.mem_cons, not_or]
  refine ⟨h, fun hm => ?_⟩
  obtain ⟨i, hi, rfl⟩ := List.mem_map.mp hm
  rw [List.mem_range] at hi
  exact hp (page_bar0 _ (by omega))

/-- The power state replaced. -/
def withPwr (x : PwrSt) (s : State) : State := { s with pwr := x }

@[simp] theorem withPwr_pwr (x : PwrSt) (s : State) : (withPwr x s).pwr = x := rfl
@[simp] theorem rd_withPwr (x : PwrSt) (s : State) (a : Nat) : rd (withPwr x s) a = rd s a := rfl
@[simp] theorem rf_withPwr (x : PwrSt) (s : State) (a hi lo : Nat) : rf (withPwr x s) a hi lo = rf s a hi lo := rfl
@[simp] theorem ctr_withPwr (x : PwrSt) (s : State) (a : Nat) : ctr (withPwr x s) a = ctr s a := rfl

@[simp] theorem bootPhase_setPhase (v : Nat) (s : State) : bootPhase (setPhase v s) = v % 16 := rf_wf_same _ _ _ _ _ (by decide) (by decide)

theorem setPhase_onlyBus (v : Nat) (s : State) : OnlyBus s (setPhase v s) := wf_onlyBus _ _ _ _ _

theorem regsBut_setPhase (v : Nat) (s : State) : RegsBut [PWR_BOOT_STAT] s (setPhase v s) := regsBut_wf _ _ _ _ _

/-! ## Power-up (R649, R670) -/

/-- The fuses read at power-up change the fuse counts, and may report on the page of the lifecycle. -/
theorem readFuses_changes (s : State) : RegsBut (eventRegs pageLCS) s (readFuses s) ∧
    (readFuses s).lcs.pairs = completeFuses s.lcs.pairs ∧ (readFuses s).lcs.keys = completeFuses s.lcs.keys ∧
    (readFuses s).part = s.part ∧ (readFuses s).time = s.time ∧ (readFuses s).tab = s.tab ∧ (readFuses s).hif = s.hif ∧
    (readFuses s).pwr = s.pwr := by
  unfold readFuses
  dsimp only
  split
  · refine ⟨fun a ha => ((raise_changes _ _ _).1 a ha).trans (rd_congr rfl rfl a), ?_⟩
    simp only [raise_lcs, raise_part, raise_time, raise_tab, raise_hif, raise_pwr, and_self]
  · exact ⟨fun _ _ => rfl, rfl, rfl, rfl, rfl, rfl, rfl, rfl⟩

theorem regsBut_clocksUp (s : State) : RegsBut [PWR_CLK_STAT] s (clocksUp s) := by
  intro a ha
  have h : a ≠ PWR_CLK_STAT := by simpa using ha
  rw [clocksUp, rd_wf_ne _ _ _ _ h, rd_wf_ne _ _ _ _ h]

/-- Every PLL shows lock. -/
theorem locked_clocksUp (s : State) : rf (clocksUp s) PWR_CLK_STAT 3 0 = 15 := by
  rw [clocksUp, rf_wf_field_ne _ _ _ _ _ _ _ (by decide) (by decide) (by decide), rf_wf_same _ _ _ _ _ (by decide) (by decide)]
  rfl

/-! ## A reset of every domain but the always-on one (R648) -/

/-- The registers of the always-on pages that a reset or a lost clock may change. -/
def resetRegs : List Nat := [PWR_BOOT_STAT, PWR_RST_CAUSE, PWR_CLK_STAT, PWR_GAL_STAT, RGR_SPARE_STAT] ++ eventRegs pagePWR

/-- From `s` to `t` a reset has passed that keeps the always-on pages, the time, the fuses and host memory, and returns every other
register to its Reset value (R645, R648). -/
structure KeptOverReset (s t : State) : Prop where
  time : t.time.e = s.time.e
  pairs : t.lcs.pairs = s.lcs.pairs
  keys : t.lcs.keys = s.lcs.keys
  frames : t.frames = []
  copies : t.copies = []
  words : t.tab.words = []
  mem : t.hif.mem = s.hif.mem
  kept : ∀ a, alwaysOn (a / 0x10000) = true → a ∉ resetRegs → rd t a = rd s a
  others : ∀ a, alwaysOn (a / 0x10000) = false → a ≠ HIF_PCIE_STAT → (∀ k, k < 8 → a ≠ LNK_D2D_STAT k) →
    a ∉ eventRegs pagePWR → rd t a = regReset s.part a

/-- What a core reset leaves of the parts of the state other than registers and counters. -/
theorem coreReset_parts (s : State) : (coreReset s).part = s.part ∧ (coreReset s).time.e = s.time.e ∧
    (coreReset s).lcs.pairs = s.lcs.pairs ∧ (coreReset s).lcs.keys = s.lcs.keys ∧ (coreReset s).frames = [] ∧
    (coreReset s).copies = [] ∧ (coreReset s).tab.words = [] ∧ (coreReset s).hif.mem = s.hif.mem ∧
    (coreReset s).pwr.held = s.pwr.held := by
  unfold coreReset
  dsimp only
  split <;> exact ⟨rfl, rfl, rfl, rfl, rfl, rfl, rfl, rfl, rfl⟩

/-- The registers that a core reset shows anew whatever they held. -/
def coreResetShows : List Nat := [PWR_BOOT_STAT, PWR_GAL_STAT, RGR_SPARE_STAT]

/-- A register that a core reset does not show anew: kept, or back at its Reset value. -/
theorem rd_coreReset (s : State) (a : Nat) (ha : a ∉ coreResetShows)
    (hk : resetKeeps s a = true → (alwaysOn (a / 0x10000) || a == HIF_PCIE_STAT) = true) :
    rd (coreReset s) a = if resetKeeps s a then rd s a else regReset s.part a := by
  simp only [coreResetShows, List.mem_cons, List.not_mem_nil, or_false, not_or] at ha
  obtain ⟨hb, hg, hs⟩ := ha
  have hstore := sGet_map_filter (regReset s.part a) (resetKeeps s)
    (fun e => if alwaysOn (e.1 / 0x10000) || e.1 == HIF_PCIE_STAT then e else (e.1, e.2 &&& 1))
    (fun e => by split <;> rfl) a (fun h v => if_pos (hk h)) s.bus.regs
  unfold coreReset
  dsimp only
  rw [rd_wf_ne _ _ _ _ hb, rd_wf_ne _ _ _ _ hb, rd_wf_ne _ _ _ _ hs, rd_wr_ne _ _ hg]
  split
  · exact hstore
  · rw [rd_wf_ne _ _ _ _ hs]
    exact hstore

theorem rd_coreReset_alwaysOn (s : State) {a : Nat} (h : alwaysOn (a / 0x10000) = true) (ha : a ∉ coreResetShows) :
    rd (coreReset s) a = rd s a := by
  rw [rd_coreReset s a ha fun _ => by rw [h]; rfl, if_pos]
  rw [resetKeeps, h]
  rfl

theorem rd_coreReset_others (s : State) {a : Nat} (h : alwaysOn (a / 0x10000) = false) (hp : a ≠ HIF_PCIE_STAT)
    (hl : ∀ k, k < 8 → a ≠ LNK_D2D_STAT k) : rd (coreReset s) a = regReset s.part a := by
  have hk : resetKeeps s a = false := by
    rw [resetKeeps, h, Bool.false_or, Bool.or_eq_false_iff]
    refine ⟨by simpa using hp, List.any_eq_false.mpr fun k hm => ?_⟩
    simp [hl k (List.mem_range.mp hm)]
  have ha : a ∉ coreResetShows := fun hm => by
    have : ∀ b ∈ coreResetShows, alwaysOn (b / 0x10000) = true := by decide
    rw [this a hm] at h
    cases h
  rw [rd_coreReset s a ha (fun hk' => absurd (hk.symm.trans hk') Bool.false_ne_true), hk, if_neg Bool.false_ne_true]

/-- A core reset keeps the counters of the always-on pages. -/
theorem ctr_coreReset_alwaysOn (s : State) {a : Nat} (h : alwaysOn (a / 0x10000) = true) : ctr (coreReset s) a = ctr s a := by
  have hstore := sGet_map_filter 0 (fun a => alwaysOn (a / 0x10000)) id (fun _ => rfl) a (fun _ _ => rfl) s.bus.ctr
  rw [List.map_id, if_pos h] at hstore
  unfold coreReset
  dsimp only
  split <;> exact hstore

/-- The boot's own registers and events may change beside a reset. -/
theorem KeptOverReset.then_regs {s t u : State} (h : KeptOverReset s t) (ho : OnlyBus t u) (hr : RegsBut resetRegs t u) :
    KeptOverReset s u where
  time := by rw [ho.time, h.time]
  pairs := by rw [ho.lcs, h.pairs]
  keys := by rw [ho.lcs, h.keys]
  frames := by rw [ho.frames, h.frames]
  copies := by rw [ho.copies, h.copies]
  words := by rw [ho.tab, h.words]
  mem := by rw [ho.hif, h.mem]
  kept a ha hm := by rw [hr a hm, h.kept a ha hm]
  others a ha hp hl he := by
    rw [hr a, h.others a ha hp hl he]
    intro hm
    rcases List.mem_append.mp hm with hb | hb
    · have hon : ∀ b ∈ [PWR_BOOT_STAT, PWR_RST_CAUSE, PWR_CLK_STAT, PWR_GAL_STAT, RGR_SPARE_STAT],
          alwaysOn (b / 0x10000) = true := by decide
      exact absurd (ha.symm.trans (hon a hb)) Bool.false_ne_true
    · exact he hb

/-- So may the power state. -/
theorem KeptOverReset.withPwr {s t : State} (h : KeptOverReset s t) (x : PwrSt) : KeptOverReset s (withPwr x t) :=
  ⟨h.time, h.pairs, h.keys, h.frames, h.copies, h.words, h.mem, h.kept, h.others⟩

theorem keptOverReset_coreReset (s : State) : KeptOverReset s (coreReset s) := by
  obtain ⟨-, htime, hpairs, hkeys, hframes, hcopies, hwords, hmem, -⟩ := coreReset_parts s
  exact ⟨htime, hpairs, hkeys, hframes, hcopies, hwords, hmem,
    fun a ha hm => rd_coreReset_alwaysOn s ha fun h => hm ((by decide : coreResetShows ⊆ resetRegs) h),
    fun a ha hp hl _ => rd_coreReset_others s ha hp hl⟩

/-! ## RESET_N and PWR_RST_CMD (R647-R650) -/

/-- A reset while nothing holds the domains: boot starts again, the cause is shown, and the rest is a core reset. -/
theorem resetN_running (cause : Nat) (s : State) (hc : cause < 32) (h : s.pwr.held = .none) :
    bootPhase (resetN cause s) = 3 ∧ rb (resetN cause s) PWR_RST_CAUSE cause = true ∧ KeptOverReset s (resetN cause s) := by
  have e : resetN cause s = setPhase 3 (wf PWR_RST_CAUSE cause cause 1 (coreReset s)) := by rw [resetN, h]
  rw [e]
  refine ⟨bootPhase_setPhase _ _, ?_, (keptOverReset_coreReset s).then_regs
    ((setPhase_onlyBus _ _).trans' (wf_onlyBus _ _ _ _ _)) ?_⟩
  · rw [setPhase, rb_wf_ne _ _ _ _ _ (by decide), rb_wf_same _ _ _ _ hc]
    rfl
  · exact ((regsBut_wf _ _ _ _ _).trans (regsBut_setPhase _ _)).mono (by decide)

/-! ## Lost clocks (R645) -/

/-- The PLL locks that the loss of clock `what` takes away: all of them with REFCLK25. -/
def losePll (what : Fin 4) (s : State) : State :=
  if what.val = 0 then wf PWR_CLK_STAT 3 0 0 s else wf PWR_CLK_STAT what.val what.val 0 s

theorem losePll_bit (what : Fin 4) (s : State) : rb (losePll what s) PWR_CLK_STAT what = false := by
  have hw := what.isLt
  unfold losePll
  split
  · next h => rw [rb, rd_wf_same, bit_setFld _ _ _ _ _ (by decide) (by decide), if_pos (by omega), Nat.zero_testBit]
  · rw [rb_wf_same _ _ _ _ (by omega), Nat.zero_testBit]

theorem losePll_changes (what : Fin 4) (s : State) :
    OnlyBus s (losePll what s) ∧ RegsBut [PWR_CLK_STAT] s (losePll what s) ∧ ∀ a, ctr (losePll what s) a = ctr s a := by
  unfold losePll
  split <;> exact ⟨wf_onlyBus _ _ _ _ _, regsBut_wf _ _ _ _ _, fun _ => rfl⟩

/-- What the loss of a clock shows, once the domains are reset: the lock, the cause, the count, the event and the boot phase. -/
def showClockLoss (what : Fin 4) (s : State) : State :=
  setPhase 1 (raise pagePWR 0 (bump (PWR_CNT 6) (wf PWR_RST_CAUSE 3 3 1 (losePll what s))))

/-- The loss of a clock while nothing holds the domains (R645). -/
theorem exec_refclkLoss_running (what : Fin 4) (s : State) (h : s.pwr.held = .none) : exec (.refclkLoss what) s =
    .next (showClockLoss what (withPwr { (coreReset s).pwr with held := .clock } (coreReset s))) := by
  show execRefclkLoss what s = _
  rw [execRefclkLoss, h]
  rfl

theorem showClockLoss_onlyBus (what : Fin 4) (s : State) : OnlyBus s (showClockLoss what s) :=
  (setPhase_onlyBus _ _).trans' <| (raise_onlyBus _ _ _).trans' <| (bump_onlyBus _ _).trans' <| (wf_onlyBus _ _ _ _ _).trans'
    (losePll_changes what s).1

theorem regsBut_showClockLoss (what : Fin 4) (s : State) : RegsBut resetRegs s (showClockLoss what s) := by
  have hbump : RegsBut [] (wf PWR_RST_CAUSE 3 3 1 (losePll what s)) (bump (PWR_CNT 6) (wf PWR_RST_CAUSE 3 3 1 (losePll what s))) :=
    fun _ _ => rd_bump _ _ _
  exact (((((losePll_changes what s).2.1.trans (regsBut_wf _ _ _ _ _)).trans hbump).trans (raise_changes _ _ _).1).trans
    (regsBut_setPhase _ _)).mono (by decide)

/-- A register beside the boot phase and the events of PWR reads after the loss as the lock and the cause leave it. -/
theorem rb_showClockLoss (what : Fin 4) (s : State) {a : Nat} (b : Nat) (hb : a ≠ PWR_BOOT_STAT) (he : a ∉ eventRegs pagePWR) :
    rb (showClockLoss what s) a b = rb (wf PWR_RST_CAUSE 3 3 1 (losePll what s)) a b := by
  rw [showClockLoss, setPhase, rb_wf_ne _ _ _ _ _ hb, rb, (raise_changes _ _ _).1 a he, rd_bump, rb]

theorem showClockLoss_shows (what : Fin 4) (s : State) : bootPhase (showClockLoss what s) = 1 ∧
    rb (showClockLoss what s) PWR_CLK_STAT what = false ∧ rb (showClockLoss what s) PWR_RST_CAUSE 3 = true ∧
    rb (showClockLoss what s) (H_INT_STAT pagePWR) 0 = true ∧
    ctr (showClockLoss what s) (PWR_CNT 6) = (ctr s (PWR_CNT 6) + 1) % 2 ^ 64 := by
  refine ⟨?_, ?_, ?_, ?_, ?_⟩
  · rw [showClockLoss, bootPhase_setPhase]
  · rw [rb_showClockLoss _ _ _ (by decide) (by decide), rb_wf_ne _ _ _ _ _ (by decide), losePll_bit]
  · rw [rb_showClockLoss _ _ _ (by decide) (by decide), rb_wf_same _ _ _ _ (by decide)]
    rfl
  · rw [showClockLoss, setPhase, rb_wf_ne _ _ _ _ _ (by decide), rb_raise _ _ _ _ (by decide), decide_eq_true rfl, Bool.or_true]
  · rw [showClockLoss, setPhase, ctr_wf, (raise_changes _ _ _).2 _ (by decide) (fun h => absurd h.2.1 (by decide)), ctr_bump, if_pos rfl,
      ctr_wf, (losePll_changes what s).2.2]

/-! ## Thermal trip (R651) -/

theorem thermalTrip_running (s : State) (h : s.pwr.held ≠ .trip) : thermalTrip s =
    setPhase 0xE (wf PWR_CLK_STAT 3 1 0 (withPwr { (wr HIF_PCIE_STAT 0 (coreReset s)).pwr with held := .trip }
      (wr HIF_PCIE_STAT 0 (coreReset s)))) := by
  unfold thermalTrip
  split
  · next h' => exact absurd h' h
  · rfl

theorem thermalTrip_tripped (s : State) (h : s.pwr.held = .trip) : thermalTrip s = s := by rw [thermalTrip, h]

theorem thermtripLow_thermalTrip (s : State) : thermtripLow (thermalTrip s) = true := by
  by_cases h : s.pwr.held = .trip
  · rw [thermalTrip_tripped s h, thermtripLow, h]
    rfl
  · rw [thermalTrip_running s h, thermtripLow, setPhase, wf_pwr, wf_pwr, withPwr_pwr]
    rfl

/-- A trip stops the PLLs and leaves the boot in its tripped phase. -/
theorem thermalTrip_shows (s : State) (h : s.pwr.held ≠ .trip) :
    bootPhase (thermalTrip s) = 0xE ∧ rf (thermalTrip s) PWR_CLK_STAT 3 1 = 0 := by
  rw [thermalTrip_running s h]
  refine ⟨bootPhase_setPhase _ _, ?_⟩
  rw [setPhase, rf_wf_ne _ _ _ _ _ _ (by decide), rf_wf_same _ _ _ _ _ (by decide) (by decide), Nat.zero_mod]

/-- A trip keeps the registers of the always-on pages but those that show it. -/
theorem rd_thermalTrip (s : State) {a : Nat} (h : alwaysOn (a / 0x10000) = true) (hc : a ≠ PWR_CLK_STAT) (ha : a ∉ coreResetShows) :
    rd (thermalTrip s) a = rd s a := by
  have hb : a ≠ PWR_BOOT_STAT := fun e => ha (by rw [e]; decide)
  have hp : a ≠ HIF_PCIE_STAT := fun e => absurd h (by rw [e]; decide)
  by_cases ht : s.pwr.held = .trip
  · rw [thermalTrip_tripped s ht]
  · rw [thermalTrip_running s ht, setPhase, rd_wf_ne _ _ _ _ hb, rd_wf_ne _ _ _ _ hc,
      rd_withPwr, rd_wr_ne _ _ hp, rd_coreReset_alwaysOn s h ha]

/-! ## Sensors and ageing (R713-R716) -/

/-- What a sensor's reading leaves before any trip: the reading, and over_temp above the warning limit. -/
def sensorShown (k : Fin 24) (v : BitVec 8) (s : State) : State :=
  let s1 := wr (PWR_TEMP k) (w32 v.toNat) s
  if (min 110 (rf s RGR_CFG 15 8) : Nat) < celsius v.toNat then reportFault pagePWR 0x0E k false (raise pagePWR 4 s1) else s1

theorem exec_sensorRead (k : Fin 24) (v : BitVec 8) (s : State) (h : s.pwr.held ≠ .rail) : exec (.sensorRead k v) s =
    .next (if 115 ≤ celsius v.toNat then thermalTrip (sensorShown k v s) else sensorShown k v s) := by
  have hc : rf (wr (PWR_TEMP k) (w32 v.toNat) s) RGR_CFG 15 8 = rf s RGR_CFG 15 8 := by
    rw [rf, rd_wr_ne _ _ (by simp only [RGR_CFG, PWR_TEMP, pageRGR, pagePWR, bar0]; omega), rf]
  show execSensorRead k v s = _
  simp only [execSensorRead, if_neg h, hc, sensorShown]

theorem pwrTemp_not_event (k : Fin 24) : PWR_TEMP k ∉ eventRegs pagePWR :=
  not_mem_eventRegs (by simp only [PWR_TEMP, H_INT_STAT, bar0]; omega) (by rw [PWR_TEMP, page_bar0 _ (by omega)]; decide)

theorem rd_sensorShown (k : Fin 24) (v : BitVec 8) (s : State) : rd (sensorShown k v s) (PWR_TEMP k) = w32 v.toNat := by
  unfold sensorShown
  dsimp only
  split
  · rw [rd_reportFault, (raise_changes _ _ _).1 _ (pwrTemp_not_event k), rd_wr_same]
  · exact rd_wr_same _ _ _

theorem sensorShown_pwr (k : Fin 24) (v : BitVec 8) (s : State) : (sensorShown k v s).pwr = s.pwr := by
  unfold sensorShown
  dsimp only
  split
  · rw [reportFault_pwr, raise_pwr, wr_pwr]
  · rfl

theorem sensorShown_overTemp (k : Fin 24) (v : BitVec 8) (s : State) (h : (min 110 (rf s RGR_CFG 15 8) : Nat) < celsius v.toNat) :
    rb (sensorShown k v s) (H_INT_STAT pagePWR) 4 = true := by
  rw [sensorShown, if_pos h, rb, rd_reportFault, ← rb, rb_raise _ _ _ _ (by decide), decide_eq_true rfl, Bool.or_true]

/-- An ageing report raises its event and changes nothing of the power state (R716). -/
theorem ageReport_changes (s : State) : RegsBut (eventRegs pagePWR) s (ageReport s) ∧
    rb (ageReport s) (H_INT_STAT pagePWR) 5 = true ∧ (ageReport s).pwr = s.pwr := by
  refine ⟨fun a ha => ?_, ?_, ?_⟩
  · rw [ageReport, rd_reportFault, (raise_changes _ _ _).1 a ha]
  · rw [ageReport, rb, rd_reportFault, ← rb, rb_raise _ _ _ _ (by decide), decide_eq_true rfl, Bool.or_true]
  · rw [ageReport, reportFault_pwr, raise_pwr]

/-- An ageing report made once: where it is due and has not been made, it is made and noted in the power state `x` (R716). -/
def reportOnce (said : Bool) (due : Prop) [Decidable due] (x : PwrSt) (s : State) : State :=
  if !said && decide due then ageReport (withPwr x s) else s

theorem reportOnce_due {due : Prop} [Decidable due] (x : PwrSt) (s : State) (h : due) :
    reportOnce false due x s = ageReport (withPwr x s) := if_pos (by rw [decide_eq_true h]; rfl)

theorem reportOnce_not {said : Bool} {due : Prop} [Decidable due] (x : PwrSt) (s : State) (h : said = true ∨ ¬due) :
    reportOnce said due x s = s := by
  refine if_neg fun hc => ?_
  rw [Bool.and_eq_true, decide_eq_true_iff, Bool.not_eq_true'] at hc
  rcases h with h | h
  · exact absurd (h.symm.trans hc.1) (by decide)
  · exact h hc.2

/-- A report made or not, no register beside the events of PWR changes. -/
theorem rd_reportOnce (said : Bool) (due : Prop) [Decidable due] (x : PwrSt) (s : State) {a : Nat} (ha : a ∉ eventRegs pagePWR) :
    rd (reportOnce said due x s) a = rd s a := by
  unfold reportOnce
  split
  · rw [(ageReport_changes _).1 a ha, rd_withPwr]
  · rfl

theorem reportOnce_pwr (said : Bool) (due : Prop) [Decidable due] (x : PwrSt) (s : State) :
    (reportOnce said due x s).pwr = x ∨ (reportOnce said due x s).pwr = s.pwr := by
  unfold reportOnce
  split
  · exact .inl (ageReport_changes _).2.2
  · exact .inr rfl

/-- The hours' fraction after one more second (R715). -/
def lifeFracNext (s : State) : Nat := s.pwr.lifeFrac + lifeStep (hottest s)

/-- A second's equivalent hours added. -/
def hoursAdded (s : State) : State :=
  addWrap PWR_LIFE_HOURS 31 0 (lifeFracNext s / 2 ^ 64) (withPwr { s.pwr with lifeFrac := lifeFracNext s % 2 ^ 64 } s)

theorem hours_hoursAdded (s : State) :
    rf (hoursAdded s) PWR_LIFE_HOURS 31 0 = (rf s PWR_LIFE_HOURS 31 0 + lifeFracNext s / 2 ^ 64) % 2 ^ 32 :=
  rf_wf_same _ _ _ _ _ (by decide) (by decide)

theorem regsBut_hoursAdded (s : State) : RegsBut [PWR_LIFE_HOURS] s (hoursAdded s) :=
  fun a ha => (regsBut_wf _ _ _ _ _ a ha).trans (rd_withPwr _ _ _)

theorem exec_lifeHoursTick (s : State) (hs : s.pwr.held ≠ .rail) : exec .lifeHoursTick s =
    .next (reportOnce s.pwr.hoursSaid (rf s PWR_AGE_CFG 31 16 * 1000 ≤ rf (hoursAdded s) PWR_LIFE_HOURS 31 0)
      { (hoursAdded s).pwr with hoursSaid := true } (hoursAdded s)) := if_neg hs

/-- The least margin shown. -/
def marginShown (w : Fin 32) (m : Byte) (s : State) : State := wr PWR_AGE_STAT (w32 (w.val * 256 + m.toNat)) s

theorem exec_ageMonitor (w : Fin 32) (m : Byte) (s : State) (hs : s.pwr.held ≠ .rail) : exec (.ageMonitor w m) s =
    .next (reportOnce s.pwr.marginSaid (m.toNat ≤ rf s PWR_AGE_CFG 7 0) { (marginShown w m s).pwr with marginSaid := true }
      (marginShown w m s)) := if_neg hs

/-! ## The settled statement -/

theorem poreset_powersUp (s : State) : ∃ t, exec .poreset s = .next t ∧ bootPhase t = 3 ∧ rf t PWR_CLK_STAT 3 0 = 15 ∧
    t.pwr.held = .none ∧ t.time.e = 0 ∧ t.tab.words = [] ∧ t.hif.mem = s.hif.mem ∧
    (∀ a, a ∉ [PWR_BOOT_STAT, PWR_CLK_STAT] ++ eventRegs pageLCS → rd t a = regReset s.part a) ∧
    ∀ n, (blown t.lcs.pairs n = blown s.lcs.pairs n ∧ blown t.lcs.keys n = blown s.lcs.keys n) ∧ sGet 0 n t.lcs.pairs ≠ 1 := by
  obtain ⟨hregs, hpairs, hkeys, -, htime, htab, hhif, hpwr⟩ := readFuses_changes (powerOn s)
  have ho : OnlyBus (readFuses (powerOn s)) (setPhase 3 (clocksUp (readFuses (powerOn s)))) :=
    (setPhase_onlyBus _ _).trans' ((wf_onlyBus _ _ _ _ _).trans' (wf_onlyBus _ _ _ _ _))
  refine ⟨_, rfl, bootPhase_setPhase _ _, ?_, by rw [ho.pwr, hpwr]; rfl, by rw [ho.time, htime]; rfl, by rw [ho.tab, htab]; rfl,
    by rw [ho.hif, hhif]; rfl, fun a ha => ?_, fun n => ?_⟩
  · rw [setPhase, rf_wf_ne _ _ _ _ _ _ (by decide), locked_clocksUp]
  · have h := ((hregs.trans (regsBut_clocksUp _)).trans (regsBut_setPhase 3 _)).mono
      (qs := [PWR_BOOT_STAT, PWR_CLK_STAT] ++ eventRegs pageLCS) (by decide)
    exact h a ha
  · rw [ho.lcs, hpairs, hkeys]
    exact ⟨⟨blown_completeFuses _ n, blown_completeFuses _ n⟩, completeFuses_not_half _ n⟩

/-- A return of the clocks releases the domains (R645). -/
theorem refclkRecover_releases (s : State) (h : s.pwr.held = .clock) : ∃ t, exec .refclkRecover s = .next t ∧
    t.pwr.held = .none ∧ bootPhase t = 3 ∧ rf t PWR_CLK_STAT 3 0 = 15 ∧ RegsBut [PWR_CLK_STAT, PWR_BOOT_STAT] s t := by
  have e : exec .refclkRecover s =
      .next (setPhase 3 (wf PWR_CLK_STAT 3 0 0xF (withPwr { s.pwr with held := .none } s))) := by
    show execRefclkRecover s = _
    rw [execRefclkRecover, h]
    rfl
  refine ⟨_, e, rfl, bootPhase_setPhase _ _, ?_, fun a ha => ?_⟩
  · rw [setPhase, rf_wf_ne _ _ _ _ _ _ (by decide), rf_wf_same _ _ _ _ _ (by decide) (by decide)]
    rfl
  · exact ((regsBut_wf _ _ _ _ _).trans (regsBut_setPhase _ _)) a ha

/-- A write of PWR_RST_CMD where it answers acts at once: no page of PWR belongs to a gallery. -/
theorem exec_pwrRstCmd_open (v : W32) (s : State) (h : reach s PWR_RST_CMD = .open) :
    exec (.pwrRstCmd v) s = .next (if bit v 31 && fld v 7 0 == 0xA5 then resetN 2 s else s) :=
  congrArg Host.Outcome.next (hostDo_open _ _ _ h (noteAccess_plain _ _ rfl))

theorem claims_powerAndResets : Claims.PowerAndResets := by
  intro s kept
  have hkept : ∀ t, KeptOverReset s t → kept t := fun t h =>
    ⟨h.time, h.pairs, h.keys, h.frames, h.copies, h.words, h.mem, h.kept, h.others⟩
  refine ⟨poreset_powersUp s, fun hn => ⟨?_, fun what => ?_, ?_⟩, refclkRecover_releases s,
    fun v ho => ⟨fun hv => ?_, fun h31 hkey hn => ?_⟩, ⟨_, rfl, fun _ => rfl, fun _ => rfl, rfl, rfl⟩⟩
  · obtain ⟨hphase, hcause, hk⟩ := resetN_running 1 s (by decide) hn
    exact ⟨_, rfl, hphase, hcause, hkept _ hk⟩
  · obtain ⟨hphase, hclk, hcause, hevent, hcount⟩ :=
      showClockLoss_shows what (withPwr { (coreReset s).pwr with held := .clock } (coreReset s))
    refine ⟨_, exec_refclkLoss_running what s hn, ?_, hphase, hclk, hcause, hevent, hkept _ ?_, ?_⟩
    · rw [(showClockLoss_onlyBus _ _).pwr, withPwr_pwr]
    · exact ((keptOverReset_coreReset s).withPwr _).then_regs (showClockLoss_onlyBus _ _) (regsBut_showClockLoss _ _)
    · rw [hcount, ctr_withPwr, ctr_coreReset_alwaysOn s (by decide)]
  · show execRefclkRecover s = _
    rw [execRefclkRecover, hn]
  · rw [exec_pwrRstCmd_open v s ho, if_neg]
    rw [Bool.and_eq_true, beq_iff_eq]
    rintro ⟨h31, hkey⟩
    rcases hv with h | h
    · exact absurd (h31.symm.trans h) (by decide)
    · exact h hkey
  · obtain ⟨hphase, hcause, hk⟩ := resetN_running 2 s (by decide) hn
    refine ⟨_, ?_, hphase, hcause, hkept _ hk⟩
    rw [exec_pwrRstCmd_open v s ho, if_pos]
    rw [h31, hkey]
    rfl

/-- A sensor's reading (R651, R713). -/
theorem sensorRead_effect (k : Fin 24) (v : BitVec 8) (s : State) (hs : s.pwr.held ≠ .rail) :
    ∃ t, exec (.sensorRead k v) s = .next t ∧ rd t (PWR_TEMP k) = w32 v.toNat ∧
      (celsius v.toNat ≤ ((min 110 (rf s RGR_CFG 15 8) : Nat) : Int) → RegsBut [PWR_TEMP k] s t ∧ CtrsBut [] s t ∧ t.pwr = s.pwr) ∧
      (((min 110 (rf s RGR_CFG 15 8) : Nat) : Int) < celsius v.toNat → rb t (H_INT_STAT pagePWR) 4 = true) ∧
      (115 ≤ celsius v.toNat → thermtripLow t = true ∧ (s.pwr.held ≠ .trip → bootPhase t = 0xE ∧ rf t PWR_CLK_STAT 3 1 = 0)) := by
  rw [exec_sensorRead k v s hs]
  by_cases ht : 115 ≤ celsius v.toNat
  · have hwarn : ((min 110 (rf s RGR_CFG 15 8) : Nat) : Int) < celsius v.toNat := by omega
    rw [if_pos ht]
    refine ⟨_, rfl, ?_, fun h => absurd hwarn (by omega), fun _ => ?_, fun _ => ⟨thermtripLow_thermalTrip _, fun h => ?_⟩⟩
    · rw [rd_thermalTrip, rd_sensorShown]
      · rw [PWR_TEMP, page_bar0 _ (by omega)]
        rfl
      · simp only [PWR_TEMP, PWR_CLK_STAT, bar0]
        omega
      · simp only [coreResetShows, List.mem_cons, List.not_mem_nil, or_false, not_or, PWR_TEMP, PWR_BOOT_STAT, PWR_GAL_STAT,
          RGR_SPARE_STAT, bar0, pagePWR, pageRGR]
        omega
    · rw [rb, rd_thermalTrip _ (by decide) (by decide) (by decide), ← rb, sensorShown_overTemp k v s hwarn]
    · exact thermalTrip_shows _ (by rw [sensorShown_pwr]; exact h)
  · rw [if_neg ht]
    refine ⟨_, rfl, rd_sensorShown k v s, fun h => ?_, sensorShown_overTemp k v s, fun h => absurd h ht⟩
    have e : sensorShown k v s = wr (PWR_TEMP k) (w32 v.toNat) s := if_neg (by omega)
    rw [e]
    exact ⟨regsBut_wr _ _ _, fun _ _ _ => rfl, rfl⟩

/-- A second's equivalent hours (R715), and their report (R716). -/
theorem lifeHoursTick_effect (s : State) (hs : s.pwr.held ≠ .rail) :
    ∃ t, exec .lifeHoursTick s = .next t ∧ let f := s.pwr.lifeFrac + lifeStep (hottest s);
      t.pwr.lifeFrac = f % 2 ^ 64 ∧ rf t PWR_LIFE_HOURS 31 0 = (rf s PWR_LIFE_HOURS 31 0 + f / 2 ^ 64) % 2 ^ 32 ∧
      (s.pwr.hoursSaid = true ∨ rf t PWR_LIFE_HOURS 31 0 < rf s PWR_AGE_CFG 31 16 * 1000 → RegsBut [PWR_LIFE_HOURS] s t) ∧
      (s.pwr.hoursSaid = false → rf s PWR_AGE_CFG 31 16 * 1000 ≤ rf t PWR_LIFE_HOURS 31 0 →
        t.pwr.hoursSaid = true ∧ rb t (H_INT_STAT pagePWR) 5 = true) := by
  rw [exec_lifeHoursTick s hs]
  have hsame : rf (reportOnce s.pwr.hoursSaid (rf s PWR_AGE_CFG 31 16 * 1000 ≤ rf (hoursAdded s) PWR_LIFE_HOURS 31 0)
      { (hoursAdded s).pwr with hoursSaid := true } (hoursAdded s)) PWR_LIFE_HOURS 31 0 = rf (hoursAdded s) PWR_LIFE_HOURS 31 0 := by
    rw [rf, rd_reportOnce _ _ _ _ (by decide), rf]
  refine ⟨_, rfl, ?_, hsame.trans (hours_hoursAdded s), fun h => ?_, fun hsaid hdue => ?_⟩
  · rcases reportOnce_pwr s.pwr.hoursSaid (rf s PWR_AGE_CFG 31 16 * 1000 ≤ rf (hoursAdded s) PWR_LIFE_HOURS 31 0)
      { (hoursAdded s).pwr with hoursSaid := true } (hoursAdded s) with e | e <;> rw [e] <;> rfl
  · rw [hsame] at h
    rw [reportOnce_not _ _ (h.imp_right (by omega))]
    exact regsBut_hoursAdded s
  · rw [hsame] at hdue
    rw [hsaid, reportOnce_due _ _ hdue]
    obtain ⟨-, hevent, hpwr⟩ := ageReport_changes (withPwr { (hoursAdded s).pwr with hoursSaid := true } (hoursAdded s))
    exact ⟨by rw [hpwr]; rfl, hevent⟩

/-- The least margin (R716). -/
theorem ageMonitor_effect (w : Fin 32) (m : Byte) (s : State) (hs : s.pwr.held ≠ .rail) :
    ∃ t, exec (.ageMonitor w m) s = .next t ∧ rd t PWR_AGE_STAT = w32 (w.val * 256 + m.toNat) ∧
      (s.pwr.marginSaid = true ∨ rf s PWR_AGE_CFG 7 0 < m.toNat → RegsBut [PWR_AGE_STAT] s t ∧ t.pwr = s.pwr) ∧
      (s.pwr.marginSaid = false → m.toNat ≤ rf s PWR_AGE_CFG 7 0 →
        t.pwr.marginSaid = true ∧ rb t (H_INT_STAT pagePWR) 5 = true) := by
  rw [exec_ageMonitor w m s hs]
  refine ⟨_, rfl, ?_, fun h => ?_, fun hsaid hdue => ?_⟩
  · rw [rd_reportOnce _ _ _ _ (by decide)]
    exact rd_wr_same _ _ _
  · rw [reportOnce_not _ _ (h.imp_right (by omega))]
    exact ⟨regsBut_wr _ _ _, rfl⟩
  · rw [hsaid, reportOnce_due _ _ hdue]
    obtain ⟨-, hevent, hpwr⟩ := ageReport_changes (withPwr { (marginShown w m s).pwr with marginSaid := true } (marginShown w m s))
    exact ⟨by rw [hpwr]; rfl, hevent⟩

theorem claims_sensorsAndAgeing : Claims.SensorsAndAgeing := fun s hs =>
  ⟨fun k v => sensorRead_effect k v s hs, lifeHoursTick_effect s hs, fun w m => ageMonitor_effect w m s hs⟩

/-- Settles O56: every reset is the same core reset, which keeps the always-on pages and returns the rest, with the cause, the event and
the boot phase shown after it; a reading or a monitor writes its register, and the report that may follow writes events alone. -/
theorem resetsAndSensors : Obligations.ResetsAndSensors := ⟨claims_powerAndResets, claims_sensorsAndAgeing⟩

end Sys2Proof.Machine
end

section
/-!
SUPPORT. What the Depot's returns of cells and charges leave alone: the lane chiplets' registers and counters, the copies, the banks written
in this clock, and, but where a frame ends, the frames (R325-R343).
-/
namespace Sys2Proof.Machine

/-! ## What stays -/

/-- Is `a` on a page of a lane chiplet (R693)? -/
def onChiplet (a : Nat) : Prop := 0x40 ≤ a / 0x10000 ∧ a / 0x10000 < 0x80

/-- From `s` to `t` the lane chiplets' registers and counters stay, and the frames that their ports last sent. -/
structure ChipletsStay (s t : State) : Prop where
  regs : ∀ a, onChiplet a → rd t a = rd s a
  ctrs : ∀ a, onChiplet a → ctr t a = ctr s a
  txLast : t.lnk.txLast = s.lnk.txLast

/-- So do the copies, the banks written in this clock, and the count of the Hall's cell writes. -/
structure CopiesStay (s t : State) : Prop extends ChipletsStay s t where
  copies : t.copies = s.copies
  wrote : t.hal.wrote = s.hal.wrote
  written : ctr t (HAL_CNT 0) = ctr s (HAL_CNT 0)

/-- And so do the frames. -/
structure FramesStay (s t : State) : Prop extends CopiesStay s t where
  frames : t.frames = s.frames

theorem ChipletsStay.after {s t u : State} (g : ChipletsStay t u) (h : ChipletsStay s t) : ChipletsStay s u where
  regs a ha := (g.regs a ha).trans (h.regs a ha)
  ctrs a ha := (g.ctrs a ha).trans (h.ctrs a ha)
  txLast := g.txLast.trans h.txLast

theorem CopiesStay.after {s t u : State} (g : CopiesStay t u) (h : CopiesStay s t) : CopiesStay s u where
  toChipletsStay := g.toChipletsStay.after h.toChipletsStay
  copies := g.copies.trans h.copies
  wrote := g.wrote.trans h.wrote
  written := g.written.trans h.written

theorem FramesStay.after {s t u : State} (g : FramesStay t u) (h : FramesStay s t) : FramesStay s u where
  toCopiesStay := g.toCopiesStay.after h.toCopiesStay
  frames := g.frames.trans h.frames

/-- States with the same registers, counters, frames and copies differ in nothing that stays. -/
theorem FramesStay.of_same {s t : State} (part : t.part = s.part := by rfl) (regs : t.bus.regs = s.bus.regs := by rfl)
    (ctrs : t.bus.ctr = s.bus.ctr := by rfl) (frames : t.frames = s.frames := by rfl) (copies : t.copies = s.copies := by rfl)
    (wrote : t.hal.wrote = s.hal.wrote := by rfl) (txLast : t.lnk.txLast = s.lnk.txLast := by rfl) : FramesStay s t where
  regs a _ := by rw [rd, rd, regs, part]
  ctrs a _ := by rw [ctr, ctr, ctrs]
  txLast := txLast
  copies := copies
  wrote := wrote
  written := by rw [ctr, ctr, ctrs]
  frames := frames

theorem FramesStay.refl (s : State) : FramesStay s s := .of_same

/-- What changes registers and counters alone, and none of the chiplets'. -/
theorem FramesStay.of_bus {s t : State} (o : OnlyBus s t) (hr : ∀ a, onChiplet a → rd t a = rd s a)
    (hc : ∀ a, onChiplet a ∨ a = HAL_CNT 0 → ctr t a = ctr s a) : FramesStay s t where
  regs := hr
  ctrs a ha := hc a (.inl ha)
  txLast := by rw [o.lnk]
  copies := o.copies
  wrote := by rw [o.hal]
  written := hc _ (.inr rfl)
  frames := o.frames

/-- A choice between what leaves them and nothing leaves them. -/
theorem FramesStay.ite {s t : State} {c : Prop} [Decidable c] (h : FramesStay s t) : FramesStay s (if c then t else s) := by
  split
  · exact h
  · exact .refl s

theorem framesStay_foldl {α : Type} (l : List α) (f : State → α → State) (h : ∀ a x, FramesStay a (f a x)) (s : State) :
    FramesStay s (l.foldl f s) := List.foldlRecOn (motive := FramesStay s) l f (.refl s) fun _ ha _ _ => (h _ _).after ha

/-! ## Registers, counters and events off the chiplets -/

/-- From page 0x80 up no page is a chiplet's. -/
theorem not_onChiplet {p x : Nat} (h : 0x80 ≤ p) : ¬onChiplet (bar0 p x) := by
  rw [onChiplet, bar0]
  omega

theorem framesStay_wr {a : Nat} (v : W32) (s : State) (h : ¬onChiplet a) : FramesStay s (wr a v s) :=
  .of_bus (wr_onlyBus _ _ _) (fun _ hb => rd_wr_ne _ _ fun e => h (e ▸ hb)) fun _ _ => rfl

theorem framesStay_wf {a : Nat} (hi lo v : Nat) (s : State) (h : ¬onChiplet a) : FramesStay s (wf a hi lo v s) := framesStay_wr _ _ h

theorem framesStay_bump {a : Nat} (s : State) (h : ¬onChiplet a) (h0 : a ≠ HAL_CNT 0) : FramesStay s (bump a s) :=
  .of_bus (bump_onlyBus _ _) (fun _ _ => rd_bump _ _ _) fun _ hb => by
    rw [ctr_bump, if_neg]
    rintro rfl
    exact hb.elim h h0

/-- An event of a page that is no chiplet's. -/
theorem framesStay_raise {p : Nat} (b : Nat) (s : State) (h : 0x80 ≤ p) : FramesStay s (raise p b s) := by
  refine .of_bus (raise_onlyBus _ _ _) (fun a ha => (raise_changes _ _ _).1 a ?_) fun a ha => (raise_changes _ _ _).2 a ?_ ?_
  · rw [eventRegs, List.mem_cons, List.mem_map]
    rintro (rfl | ⟨v, hv, rfl⟩)
    · exact not_onChiplet h ha
    · rw [List.mem_range] at hv
      simp only [onChiplet, HIF_MSIX_PBA, pageHIF, bar0] at ha
      omega
  all_goals simp only [onChiplet, onLedger, HAL_CNT, pageHAL, HIF_CNT, pageHIF, bar0, List.mem_singleton] at ha ⊢; omega

theorem framesStay_raiseFirst {p : Nat} (b : Nat) (s : State) (h : 0x80 ≤ p) : FramesStay s (raiseFirst p b s) := by
  unfold raiseFirst
  dsimp only
  split
  · exact (framesStay_raise _ _ h).after .of_same
  · exact .of_same

/-! ## Charges -/

theorem framesStay_queueDec (q n : Nat) (s : State) : FramesStay s (queueDec q n s) := framesStay_wf _ _ _ _ (not_onChiplet (by decide))

theorem framesStay_judgeLevel (k : Nat) (s : State) : FramesStay s (judgeLevel k s) :=
  (framesStay_raise _ _ (by decide)).ite.after (framesStay_wf _ _ _ _ (not_onChiplet (by decide)))

theorem framesStay_poolDec (k n : Nat) (s : State) : FramesStay s (poolDec k n s) :=
  (framesStay_judgeLevel _ _).after (framesStay_wf _ _ _ _ (not_onChiplet (by decide)))

theorem framesStay_areaSub (a : Area) (n : Nat) (s : State) : FramesStay s (areaSub a n s) := by
  cases a with
  | none => exact .refl s
  | queue q => exact .refl s
  | port p => exact .of_same
  | pool k q =>
    cases q with
    | none => exact framesStay_poolDec k n s
    | some q => exact FramesStay.after .of_same (framesStay_poolDec k n s)
  | headroom i => exact framesStay_wf _ _ _ _ (not_onChiplet (by decide))

theorem framesStay_pauseRequest (i p quanta : Nat) (s : State) : FramesStay s (pauseRequest i p quanta s) :=
  .of_same

theorem framesStay_enterXoff (i p : Nat) (s : State) : FramesStay s (enterXoff i p s) := by
  unfold enterXoff
  split
  · exact .refl s
  · refine (framesStay_bump _ (not_onChiplet (by decide)) (by decide)).after ((framesStay_pauseRequest _ _ _ _).after ?_)
    exact framesStay_wf _ _ _ _ (not_onChiplet (by decide))

theorem framesStay_setPair (i p n : Nat) (s : State) : FramesStay s (setPair i p n s) :=
  (framesStay_enterXoff i p _).ite.after .of_same

/-- A frame replaced leaves the rest. -/
theorem copiesStay_putFrame (f : Frame) (s : State) : CopiesStay s (putFrame f s) := ⟨⟨fun _ _ => rfl, fun _ _ => rfl, rfl⟩, rfl, rfl, rfl⟩

theorem copiesStay_uncharge (id n : Nat) (s : State) : CopiesStay s (uncharge id n s) := by
  unfold uncharge
  split
  · exact (FramesStay.refl s).toCopiesStay
  · exact ((framesStay_setPair _ _ _ _).after (framesStay_areaSub _ _ _)).toCopiesStay.after (copiesStay_putFrame _ s)

/-! ## The end of a frame -/

theorem framesStay_cellBack (c : Nat) (s : State) : FramesStay s (cellBack c s) := by
  have hout : FramesStay s (fieldDec HAL_USE_STAT 20 0 1 (putCell c cellNone s)) :=
    (framesStay_wf (a := HAL_USE_STAT) _ _ _ _ (not_onChiplet (by decide))).after .of_same
  unfold cellBack
  dsimp only
  split
  · exact FramesStay.after .of_same hout
  · exact (framesStay_wf _ _ _ _ (not_onChiplet (by decide))).after (FramesStay.after .of_same hout)

theorem framesStay_descBack (f : Frame) (s : State) : FramesStay s (descBack f s) :=
  framesStay_foldl _ _ (fun a c => (framesStay_poolDec _ _ _).after <|
    (framesStay_bump _ (not_onChiplet (by decide)) (by decide)).after (framesStay_cellBack c a)) s

theorem framesStay_drainDec (epoch : Nat) (s : State) : FramesStay s (drainDec epoch s) := .of_same

theorem framesStay_partToMac (id : Nat) (s : State) : FramesStay s (partToMac id s) := by
  unfold partToMac
  split
  · exact .refl s
  · split
    · exact .refl s
    · split
      · exact .of_same
      · exact .refl s

theorem copiesStay_delFrame (id : Nat) (s : State) : CopiesStay s (delFrame id s) :=
  CopiesStay.after (t := partToMac id s) ⟨⟨fun _ _ => rfl, fun _ _ => rfl, rfl⟩, rfl, rfl, rfl⟩ (framesStay_partToMac id s).toCopiesStay

theorem copiesStay_tryEnd (id : Nat) (s : State) : CopiesStay s (tryEnd id s) := by
  unfold tryEnd
  split
  · exact (FramesStay.refl s).toCopiesStay
  · next f _ =>
    split
    · exact (FramesStay.refl s).toCopiesStay
    · have hback := (framesStay_descBack f _).toCopiesStay.after (copiesStay_uncharge id f.charge s)
      refine (copiesStay_delFrame _ _).after ?_
      split
      · exact hback
      · exact (framesStay_drainDec _ _).toCopiesStay.after hback

/-! ## The end of a copy -/

theorem framesStay_poolStatus (k : Nat) (s : State) : FramesStay s (poolStatus k s) :=
  ((framesStay_raise _ _ (by decide)).ite.after (framesStay_wf _ _ _ _ (not_onChiplet (by decide)))).after
    (framesStay_wf _ _ _ _ (not_onChiplet (by decide)))

theorem framesStay_vaultGive (k c b : Nat) (s : State) : FramesStay s (vaultGive k c b s) :=
  (framesStay_poolStatus k _).after .of_same

theorem framesStay_vaultBytes (q : Nat) (s : State) : FramesStay s (vaultBytes q s) :=
  framesStay_wf _ _ _ _ (not_onChiplet (by decide))

/-- A copy that ends is removed, and nothing of what stays changes beside it. -/
theorem copiesStay_endCopy (c : Copy) (s : State) :
    CopiesStay { s with copies := s.copies.filter fun x => x.id != c.id } (endCopy c s) := by
  unfold endCopy endCopyBut
  refine (copiesStay_tryEnd _ _).after ((framesStay_queueDec _ _ _).after ?_).toCopiesStay
  dsimp only
  split
  · refine (framesStay_vaultBytes _ _).after ((framesStay_vaultGive _ _ _ _).after ?_)
    exact .of_same
  · exact .of_same

theorem chipletsStay_endCopy (c : Copy) (s : State) : ChipletsStay s (endCopy c s) := by
  obtain ⟨hregs, hctrs, hlast⟩ := (copiesStay_endCopy c s).toChipletsStay
  exact ⟨hregs, hctrs, hlast⟩

theorem copyOf_endCopy (c : Copy) (s : State) : copyOf (endCopy c s) c.id = none := by
  rw [copyOf, (copiesStay_endCopy c s).copies, List.find?_eq_none]
  intro x hx
  simpa using (List.mem_filter.mp hx).2

end Sys2Proof.Machine
end

section
/-!
SUPPORT. FRAME_TRANSMIT on a network port: the start of a transmission, and its end stomped or good (R54, R56, R75).
-/
namespace Sys2Proof.Machine

/-! ## Copies by number -/

/-- A copy stored under a number that is in use is found there. -/
theorem copyOf_putCopy {s : State} {c d : Copy} (h : copyOf s c.id = some d) : copyOf (putCopy c s) c.id = some c := by
  have hput : ∀ l : List Copy, (l.find? fun x => x.id == c.id) = some d →
      ((l.map fun x => if x.id = c.id then c else x).find? fun x => x.id == c.id) = some c := by
    intro l
    induction l with
    | nil => intro h; cases h
    | cons x r ih =>
      intro h
      by_cases hx : x.id = c.id
      · simp [hx]
      · simpa [hx] using ih (by simpa [hx] using h)
  exact hput _ h

theorem copyOf_congr {s t : State} (h : t.copies = s.copies) (id : Nat) : copyOf t id = copyOf s id := by rw [copyOf, copyOf, h]

/-! ## A network port's page -/

theorem onChiplet_portCfg (i : NetPort) : onChiplet (LNK_PORT_CFG (i / 64) (i % 64)) := by
  simp only [onChiplet, LNK_PORT_CFG, pageLNK, bar0]
  omega

theorem onChiplet_portCnt (i : NetPort) {n : Nat} (h : n < 16) : onChiplet (LNK_PORT_CNT (i / 64) (i % 64) n) := by
  simp only [onChiplet, LNK_PORT_CNT, pageLNK, bar0]
  omega

theorem portCnt_eq (i : NetPort) (n k : Nat) (s : State) : portCnt i n k s = bumpN (LNK_PORT_CNT (i / 64) (i % 64) n) k s :=
  if_pos i.isLt

theorem ctr_portCnt_same (i : NetPort) (n : Nat) (s : State) : ctr (portCnt i n 1 s) (LNK_PORT_CNT (i / 64) (i % 64) n) =
    (ctr s (LNK_PORT_CNT (i / 64) (i % 64) n) + 1) % 2 ^ 64 := by
  rw [portCnt_eq, ctr_bumpN_same _ _ _ (by decide)]

theorem ctr_portCnt_ne (i : NetPort) {n m : Nat} (k : Nat) (s : State) (h : m ≠ n) :
    ctr (portCnt i n k s) (LNK_PORT_CNT (i / 64) (i % 64) m) = ctr s (LNK_PORT_CNT (i / 64) (i % 64) m) := by
  rw [portCnt_eq, ctr_bumpN_ne _ _ (by simp only [LNK_PORT_CNT, bar0]; omega)]

@[simp] theorem rd_portCnt (i n k : Nat) (s : State) (a : Nat) : rd (portCnt i n k s) a = rd s a := by
  unfold portCnt
  split
  · exact rd_bumpN _ _ _ _
  · rfl

/-- A port that does not loop only keeps what it puts out. -/
theorem putOut_unlooped (i : NetPort) (out : List Byte) (bad : Bool) (s : State) (h : rb s (LNK_PORT_CFG (i / 64) (i % 64)) 1 = false) :
    putOut i out bad s = { s with lnk := { s.lnk with txLast := sPut [] i out s.lnk.txLast } } := by
  rw [putOut, if_pos i.isLt]
  exact if_neg (Bool.eq_false_iff.mp h)

/-! ## The start of a transmission -/

theorem twoStep_copies (i q seqId : Nat) (s : State) : (twoStep i q seqId s).copies = s.copies := by
  unfold twoStep
  dsimp only
  split
  · exact raise_copies _ _ _
  · rfl

theorem stampTx_copies (i : Nat) (e : Edited) (s : State) : (stampTx i e s).2.copies = s.copies := by
  unfold stampTx
  split
  · rfl
  · split
    · rfl
    · exact twoStep_copies _ _ _ _

theorem setPace_copies (i e : Nat) (s : State) : (setPace i e s).copies = s.copies := by
  unfold setPace
  split <;> rfl

/-- A copy that overruns its gate is the same copy, marked as counted (R430). -/
theorem copyOf_overrun {s : State} {c d : Copy} (h : copyOf s c.id = some d) (hs : d.stage = c.stage) (hf : d.frame = c.frame) :
    ∃ x, copyOf (overrun c s) c.id = some x ∧ x.stage = c.stage ∧ x.frame = c.frame := by
  unfold overrun
  split
  · exact ⟨d, h, hs, hf⟩
  · refine ⟨{ c with overrun := true }, copyOf_putCopy (c := { c with overrun := true }) (d := d) ?_, rfl, rfl⟩
    rw [copyOf_congr ((raise_copies _ _ _).trans (bump_copies _ _))]
    exact h

/-- The copy edited first starts on a port that is free to send. -/
theorem txStart_sends (i : NetPort) {c : Copy} {e : Edited} {s : State} (hnext : nextTx s i = some c) (hstage : c.stage = .edited)
    (hedit : c.edit = some e) (hcopy : copyOf s c.id = some c) (hidle : (s.copies.any fun x => x.port == i.val && x.stage == .sending) = false)
    (hpause : (s.lnk.pauseReq.any fun r => r.1 == i.val) = false) :
    ∃ d, copyOf (txStart i s) c.id = some d ∧ d.stage = .sending ∧ d.frame = c.frame := by
  have hpace : paceOpen s i = true := by
    rw [paceOpen, decide_eq_true (by omega), Bool.true_or]
  let c1 : Copy := { c with stage := .sending, edit := some (stampTx i e s).1 }
  let s1 : State := setPace i s.time.e (putCopy c1 (stampTx i e s).2)
  have hc1 : copyOf s1 c1.id = some c1 := by
    rw [copyOf_congr (setPace_copies _ _ _)]
    refine copyOf_putCopy (d := c) ?_
    rw [copyOf_congr (stampTx_copies _ _ _)]
    exact hcopy
  have hstart : txStart i s =
      if gateOpen s1 i c1.queue (chargeOf s1 c1 (lenNow s1 c1)).toNat then s1 else overrun c1 s1 := by
    unfold txStart
    rw [hidle, hpause, hpace, hnext]
    simp only [hstage, hedit, i.isLt, if_true]
    rfl
  rw [hstart]
  split
  · exact ⟨c1, hc1, rfl, rfl⟩
  · exact copyOf_overrun hc1 rfl rfl

/-! ## The end of a transmission -/

theorem chipletsStay_closing (i : Nat) (c : Copy) (s : State) : ChipletsStay s (closing i c s) := by
  unfold closing
  split
  · exact (FramesStay.refl s).toChipletsStay
  · unfold overrun
    split
    · exact (FramesStay.refl s).toChipletsStay
    · have hraised : FramesStay s (raise pageTSN 5 (bump (TSN_CNT 8) s)) :=
        (framesStay_raise _ _ (by decide)).after (framesStay_bump _ (not_onChiplet (by decide)) (by decide))
      obtain ⟨hregs, hctrs, hlast⟩ := hraised.toChipletsStay
      exact ⟨hregs, hctrs, hlast⟩

/-- A frame too long for its port is counted with the Editor, and its event raised (R307). -/
theorem framesStay_tooLong (g : Nat) (s : State) : FramesStay s (raiseFirst (pageEDT g) 3 (bump (EDT_CNT g 6) s)) := by
  have hp : 0x80 ≤ pageEDT g := by rw [pageEDT]; omega
  have h0 : EDT_CNT g 6 ≠ HAL_CNT 0 := by simp only [EDT_CNT, HAL_CNT, pageEDT, pageHAL, bar0]; omega
  exact (framesStay_raiseFirst _ _ hp).after (framesStay_bump _ (not_onChiplet hp) h0)

/-- A stomped transmission ends its copy and counts it so (R54, R56). -/
theorem txStomp_ends (i : NetPort) (c : Copy) {s : State} (hloop : rb s (LNK_PORT_CFG (i / 64) (i % 64)) 1 = false) :
    copyOf (txStomp i c s) c.id = none ∧
    ctr (txStomp i c s) (LNK_PORT_CNT (i / 64) (i % 64) 9) = (ctr s (LNK_PORT_CNT (i / 64) (i % 64) 9) + 1) % 2 ^ 64 ∧
    ctr (txStomp i c s) (LNK_PORT_CNT (i / 64) (i % 64) 7) = ctr s (LNK_PORT_CNT (i / 64) (i % 64) 7) := by
  let u : State := endCopy c (portCnt i 9 1 s)
  have hstay : ChipletsStay (portCnt i 9 1 s) u := chipletsStay_endCopy c _
  have hu : copyOf u c.id = none ∧
      ctr u (LNK_PORT_CNT (i / 64) (i % 64) 9) = (ctr s (LNK_PORT_CNT (i / 64) (i % 64) 9) + 1) % 2 ^ 64 ∧
      ctr u (LNK_PORT_CNT (i / 64) (i % 64) 7) = ctr s (LNK_PORT_CNT (i / 64) (i % 64) 7) := by
    refine ⟨copyOf_endCopy _ _, ?_, ?_⟩
    · rw [hstay.ctrs _ (onChiplet_portCnt i (by decide)), ctr_portCnt_same]
    · rw [hstay.ctrs _ (onChiplet_portCnt i (by decide)), ctr_portCnt_ne _ _ _ (by decide)]
  have hl : rb u (LNK_PORT_CFG (i / 64) (i % 64)) 1 = false := by
    rw [rb, hstay.regs _ (onChiplet_portCfg i), rd_portCnt]
    exact hloop
  unfold txStomp
  dsimp only
  split
  · rw [putOut_unlooped i _ _ _ hl]
    exact hu
  · exact hu

/-- A good transmission is sent with its FCS, ends its copy and counts it so. -/
theorem txGood_sends (i : NetPort) (c : Copy) (bytes : List Byte) {s : State} (hloop : rb s (LNK_PORT_CFG (i / 64) (i % 64)) 1 = false) :
    copyOf (txGood i c bytes s) c.id = none ∧ sGet [] i.val (txGood i c bytes s).lnk.txLast = bytes ++ fcsBytes bytes ∧
    ctr (txGood i c bytes s) (LNK_PORT_CNT (i / 64) (i % 64) 7) = (ctr s (LNK_PORT_CNT (i / 64) (i % 64) 7) + 1) % 2 ^ 64 ∧
    ctr (txGood i c bytes s) (LNK_PORT_CNT (i / 64) (i % 64) 9) = ctr s (LNK_PORT_CNT (i / 64) (i % 64) 9) := by
  let v : State := portCnt i 8 (bytes ++ fcsBytes bytes).length (portCnt i 7 1 s)
  have hstay : ChipletsStay v (endCopy c v) := chipletsStay_endCopy c _
  have hl : rb (endCopy c v) (LNK_PORT_CFG (i / 64) (i % 64)) 1 = false := by
    rw [rb, hstay.regs _ (onChiplet_portCfg i), rd_portCnt, rd_portCnt]
    exact hloop
  have hsent : txGood i c bytes s = _ := putOut_unlooped i (bytes ++ fcsBytes bytes) false (endCopy c v) hl
  rw [hsent]
  refine ⟨copyOf_endCopy _ _, sGet_sPut_same _ _ _ _, ?_, ?_⟩
  · refine (hstay.ctrs _ (onChiplet_portCnt i (by decide))).trans ?_
    rw [ctr_portCnt_ne _ _ _ (by decide), ctr_portCnt_same]
  · refine (hstay.ctrs _ (onChiplet_portCnt i (by decide))).trans ?_
    rw [ctr_portCnt_ne _ _ _ (by decide), ctr_portCnt_ne _ _ _ (by decide)]

section
variable {i : NetPort} {c : Copy} {f : Frame} {e : Edited} {s : State}
  (hsend : (s.copies.find? fun x => x.port == i.val && x.stage == .sending) = some c) (hframe : frameOf s c.frame = some f)
  (hedit : c.edit = some e)
include hsend hframe hedit

/-- The transmission of a frame that has proved bad, or of a spoiled copy, ends stomped. -/
theorem txFinish_stomps (h : f.bad = true ∨ c.spoiled = true) : ∃ u, txFinish i s = txStomp i c u ∧ ChipletsStay s u := by
  have hbad : (f.bad || c.spoiled) = true := by rw [Bool.or_eq_true]; exact h
  unfold txFinish
  simp only [hsend, hframe, hedit, hbad, if_true]
  split
  · exact ⟨_, rfl, (framesStay_tooLong _ _).toChipletsStay.after (chipletsStay_closing i c s)⟩
  · exact ⟨_, rfl, chipletsStay_closing i c s⟩

/-- The transmission of a good frame whose cells have all been read ends good. -/
theorem txFinish_sends (hbad : f.bad = false) (hspoiled : c.spoiled = false) (hcut : c.cut = false) (hdone : f.lastDone = true)
    (hread : cellsWanted s c ≤ c.rdNext) : txFinish i s = txGood i c e.pre (closing i c s) := by
  unfold txFinish
  simp only [hsend, hframe, hedit, hbad, hspoiled, hcut, hdone, txBytes, decide_eq_true hread, Bool.false_and, Bool.or_self, Bool.true_or,
    Bool.and_self, Bool.false_eq_true, if_true, if_false]

end

/-! ## The settled statement -/

theorem exec_frameTransmit (i : NetPort) (ev : TxEvent) {s : State} (h : macOn s i = true) :
    exec (.frameTransmit ⟨i.val, by omega⟩ ev) s = .next (match ev with | .start => txStart i s | .finish => txFinish i s) := by
  have hlive : macLive s i = true := by
    simp only [macOn, Bool.and_eq_true] at h
    simp only [macLive, h, Bool.true_or, Bool.and_self]
  have hruns : (macLive s i || (decide (514 ≤ i.val) && portPresent s i && !portFenced s i)) = true := by rw [hlive, Bool.true_or]
  cases ev <;> exact if_pos hruns

/-- Settles O20: the end of a copy moves charges and cells, none of which stands on a chiplet's page, so the port still does not loop when
it puts the frame out, and its own counts alone show how the frame left. -/
theorem frameSent : Obligations.FrameSent := by
  intro i c f e s p cnt hon hedit hframe
  refine ⟨fun hnext hstage hcopy hidle hpause => ?_, fun hsend hloop => ⟨fun hbad => ?_, fun hbad hspoiled hcut hdone hread => ?_⟩⟩
  · exact ⟨_, exec_frameTransmit i .start hon, txStart_sends i hnext hstage hedit hcopy hidle hpause⟩
  · obtain ⟨u, hu, hstay⟩ := txFinish_stomps hsend hframe hedit hbad
    obtain ⟨hgone, h9, h7⟩ := txStomp_ends i c (s := u) (by rw [rb, hstay.regs _ (onChiplet_portCfg i)]; exact hloop)
    refine ⟨_, exec_frameTransmit i .finish hon, ?_⟩
    dsimp only
    rw [hu, hgone, h9, h7, hstay.ctrs _ (onChiplet_portCnt i (by decide)), hstay.ctrs _ (onChiplet_portCnt i (by decide))]
    exact ⟨rfl, rfl, rfl⟩
  · have hstay := chipletsStay_closing i c s
    obtain ⟨hgone, hlast, h7, h9⟩ := txGood_sends i c e.pre (s := closing i c s) (by
      rw [rb, hstay.regs _ (onChiplet_portCfg i)]; exact hloop)
    refine ⟨_, exec_frameTransmit i .finish hon, ?_⟩
    dsimp only
    rw [txFinish_sends hsend hframe hedit hbad hspoiled hcut hdone hread, hgone, hlast, h7, h9,
      hstay.ctrs _ (onChiplet_portCnt i (by decide)), hstay.ctrs _ (onChiplet_portCnt i (by decide))]
    exact ⟨rfl, rfl, rfl, rfl⟩

end Sys2Proof.Machine
end

section
/-!
SUPPORT. Ingress resolution's ends, discarded or stored (R54, R127, R163, R280), and the write of a frame's last cell (R319, R327).
-/
namespace Sys2Proof.Machine

/-! ## Frames by number -/

theorem frameOf_id {s : State} {id : Nat} {f : Frame} (h : frameOf s id = some f) : f.id = id := by simpa using List.find?_some h

theorem frameOf_congr {s t : State} (h : t.frames = s.frames) (id : Nat) : frameOf t id = frameOf s id := by rw [frameOf, frameOf, h]

/-- Whatever has a frame's number after the frame is stored is that frame. -/
theorem frameOf_putFrame (f : Frame) (s : State) :
    frameOf (putFrame f s) f.id = (frameOf s f.id).map fun _ => f := by
  have hput : ∀ l : List Frame, ((l.map fun x => if x.id = f.id then f else x).find? fun x => x.id == f.id) =
      (l.find? fun x => x.id == f.id).map fun _ => f := by
    intro l
    induction l with
    | nil => rfl
    | cons x r ih =>
      by_cases hx : x.id = f.id
      · simp [hx]
      · simpa [hx] using ih
  exact hput _

theorem frameOf_delFrame (id : Nat) (s : State) : frameOf (delFrame id s) id = none := by
  rw [frameOf, delFrame, List.find?_eq_none]
  intro x hx
  simpa using (List.mem_filter.mp hx).2

/-! ## Discards before the Hall (R280) -/

theorem frameOf_discardFrame (f : Frame) (s : State) : frameOf (discardFrame f s) f.id = none := frameOf_delFrame f.id s

/-- What a discard leaves: the copies, the Hall, the registers and counters; its epoch's drain count is one less. -/
theorem discardFrame_changes (f : Frame) (s : State) : (discardFrame f s).copies = s.copies ∧ (discardFrame f s).hal = s.hal ∧
    (discardFrame f s).bus = s.bus ∧ sGet 0 f.epoch (discardFrame f s).prv.drain = sGet 0 f.epoch s.prv.drain - 1 := by
  have hmac : (partToMac f.id s).copies = s.copies ∧ (partToMac f.id s).hal = s.hal ∧ (partToMac f.id s).bus = s.bus ∧
      (partToMac f.id s).prv = s.prv := by
    unfold partToMac
    split
    · exact ⟨rfl, rfl, rfl, rfl⟩
    · split
      · exact ⟨rfl, rfl, rfl, rfl⟩
      · split <;> exact ⟨rfl, rfl, rfl, rfl⟩
  obtain ⟨hcopies, hhal, hbus, hprv⟩ := hmac
  refine ⟨hcopies, hhal, hbus, ?_⟩
  rw [← hprv]
  exact sGet_sPut_same _ _ _ _

theorem cancelLearn_onlyBus (f : Frame) (s : State) : OnlyBus s (cancelLearn f s) := by
  unfold cancelLearn cancelLearns
  split
  · exact bumpN_onlyBus _ _ _
  · rfl

/-- One pending learn cancelled is counted (R163). -/
theorem ctr_cancelLearn (f : Frame) (s : State) (l : Learn) (hl : f.learn = [l]) (hen : rb s (CAT_CFG (portWing f.port)) 1 = true) :
    ctr (cancelLearn f s) (CAT_CNT (portWing f.port) 4) = (ctr s (CAT_CNT (portWing f.port) 4) + 1) % 2 ^ 64 := by
  rw [cancelLearn, cancelLearns, if_pos hen, hl]
  exact ctr_bumpN_same _ 1 _ (by decide)

/-! ## Drop captures -/

theorem arcLose_keeps (r : Nat) (s : State) : (arcLose r s).frames = s.frames ∧ (arcLose r s).copies = s.copies :=
  ⟨raiseFirst_frames _ _ _, raiseFirst_copies _ _ _⟩

theorem offerCap_keeps (c : Cap) (s : State) : (offerCap c s).frames = s.frames ∧ (offerCap c s).copies = s.copies := by
  unfold offerCap
  split
  · exact ⟨rfl, rfl⟩
  · split
    · exact arcLose_keeps _ _
    · exact ⟨rfl, rfl⟩

theorem dropPicked_copies (g reason : Nat) (s : State) : (dropPicked g reason s).2.copies = s.copies := by
  unfold dropPicked
  split <;> rfl

theorem dropCap_copies (g reason : Nat) (f : Frame) (out queue : Nat) (s : State) :
    (dropCap g reason f out queue s).copies = s.copies := by
  unfold dropCap
  dsimp only
  split
  · rw [(offerCap_keeps _ _).2, dropPicked_copies]
  · exact dropPicked_copies _ _ _

/-! ## A frame stored -/

theorem judgeNode_frames (n : Nat) (ok : Bool) (s : State) : (judgeNode n ok s).frames = s.frames := by
  unfold judgeNode
  dsimp only
  split
  · rfl
  · split <;> rfl

/-- What no step of a fold changes, the fold does not. -/
theorem foldl_frames {α : Type} (l : List α) (f : State → α → State) (h : ∀ a x, (f a x).frames = a.frames) (s : State) :
    (l.foldl f s).frames = s.frames :=
  List.foldlRecOn (motive := fun a => a.frames = s.frames) l f rfl fun a ha x _ => (h a x).trans ha

theorem judgePort_frames (i : Nat) (s : State) : (judgePort i s).frames = s.frames :=
  (foldl_frames _ _ (fun _ _ => judgeNode_frames _ _ _) _).trans (foldl_frames _ _ (fun _ _ => judgeNode_frames _ _ _) _)

theorem chargeShaper_frames (n : Nat) (charge : Int) (s : State) : (chargeShaper n charge s).frames = s.frames := by
  unfold chargeShaper toWheel
  dsimp only
  split
  · rfl
  · split <;> rfl

/-- What a selection charges, tags and counts is no frame (R395). -/
theorem selectCopy_frames (c : Copy) (len : Nat) (s : State) : (selectCopy c len s).frames = s.frames := by
  unfold selectCopy
  dsimp only
  split
  · split <;> simp only [wf_frames, bumpN_frames, bump_frames, chargeShaper_frames] <;> rfl
  · simp only [bumpN_frames, bump_frames, chargeShaper_frames]
    rfl

theorem enqueueCopy_frames (f : Frame) (n len : Nat) (r : CopyReq × Nat) (s : State) : (enqueueCopy f n len r s).frames = s.frames := by
  have hjudged : ∀ (cut : Bool) (i : Nat) (t : State), (if cut then judgePort i t else t).frames = t.frames := by
    intro cut i t
    cases cut
    · rfl
    · exact judgePort_frames i t
  have hcut : ∀ (cut : Bool) (i g q : Nat) (c : Copy) (t : State), (if cut then
      judgePort i (selectCopy c len (judgeNode g true (judgeNode q true (bump (HAL_CNT 10) t)))) else t).frames = t.frames := by
    intro cut i g q c t
    cases cut
    · rfl
    · exact (judgePort_frames _ _).trans ((selectCopy_frames _ _ _).trans ((judgeNode_frames _ _ _).trans
        ((judgeNode_frames _ _ _).trans (bump_frames _ _))))
  unfold enqueueCopy
  exact (hcut _ _ _ _ _ _).trans (hjudged _ _ _)

theorem frameOf_putFrame_hall {f : Frame} {id : Nat} (s : State) (hid : f.id = id) (hstage : f.stage = .hall) :
    frameOf (putFrame f s) id = none ∨ ∃ g, frameOf (putFrame f s) id = some g ∧ g.stage = .hall := by
  subst hid
  rw [frameOf_putFrame]
  cases frameOf s f.id with
  | none => exact .inl rfl
  | some g => exact .inr ⟨f, rfl, hstage⟩

theorem markCe_id (f : Frame) (s : State) : (markCe f s).1.id = f.id := by
  unfold markCe
  split
  · rfl
  · split <;> rfl

/-- A frame stored stands in the Hall; what follows its storing, captures and copies in their queues, leaves it there. -/
theorem storeFrame_stage (f : Frame) (len n : Nat) (x : Adms) (s : State) :
    frameOf (storeFrame f len n x s) f.id = none ∨ ∃ g, frameOf (storeFrame f len n x s) f.id = some g ∧ g.stage = .hall := by
  have hmark : (if x.ce then markCe { f with ce := true } s else (f, s)).1.id = f.id := by
    split
    · exact markCe_id _ _
    · rfl
  unfold storeFrame
  dsimp only
  rw [frameOf_congr ((foldl_frames _ _ (fun _ _ => enqueueCopy_frames _ _ _ _ _) _).trans
    (foldl_frames _ _ (fun _ _ => (offerCap_keeps _ _).1) _))]
  exact frameOf_putFrame_hall _ hmark rfl

/-! ## The end of a resolution -/

theorem frameOf_discardUnstored (f : Frame) (len : Nat) (caps : List (Sum CopyReq (Nat × Nat))) (s : State) :
    frameOf (discardUnstored f len caps s) f.id = none := frameOf_discardFrame f _

theorem discardUnstored_none (f : Frame) (len : Nat) (s : State) : discardUnstored f len [] s = discardFrame f s := rfl

/-- A resolved frame is gone or in the Hall. -/
theorem resolveFrame_stage (f : Frame) (d : Decision) (len : Nat) (s : State) :
    frameOf (resolveFrame f d len s) f.id = none ∨ ∃ g, frameOf (resolveFrame f d len s) f.id = some g ∧ g.stage = .hall := by
  unfold resolveFrame
  dsimp only
  split
  · exact .inl (frameOf_discardUnstored { f with learn := _ } _ _ _)
  · exact storeFrame_stage { f with learn := _ } _ _ _ _

/-- A decision to drop asks for no forwarding copy. -/
theorem forwardReqs_dropped (f : Frame) {d : Decision} {reason : Nat} (s : State) (hd : d.drop = some reason) :
    (forwardReqs f d s).1 = [] ∧ (forwardReqs f d s).2.copies = s.copies := by
  unfold forwardReqs
  rw [hd]
  refine ⟨rfl, ?_⟩
  dsimp only
  split
  · rfl
  · rw [dropCap_copies]
    split <;> rfl

/-- A frame dropped by its decision, with no copy to the host and no mirror, is gone, and makes no copy. -/
theorem resolveFrame_dropped (f : Frame) {d : Decision} {reason : Nat} (len : Nat) (s : State) (hd : d.drop = some reason)
    (hhosts : d.hosts = []) (hmirrors : d.mirrors = []) :
    frameOf (resolveFrame f d len s) f.id = none ∧ (resolveFrame f d len s).copies = s.copies := by
  obtain ⟨hnone, hcopies⟩ := forwardReqs_dropped f s hd
  have hlist : byList d = false := by rw [byList, hd]; rfl
  have hgone : discarded s d = true := by rw [discarded, hd]; rfl
  have hends : ∃ (g : Frame) (t : State), g.id = f.id ∧ t.copies = s.copies ∧ resolveFrame f d len s = discardFrame g t := by
    unfold resolveFrame
    simp only [hnone, hhosts, hmirrors, hlist, hgone, mirrorReqs, List.map_nil, List.append_nil, admitAll, Bool.false_and,
      Bool.not_true, Bool.false_eq_true, if_true, if_false, ite_self, List.isEmpty_nil]
    refine ⟨_, _, ?_, ?_, discardUnstored_none _ len _⟩
    · rfl
    · exact (cancelLearn_onlyBus _ _).copies.trans hcopies
  obtain ⟨g, t, hid, ht, he⟩ := hends
  rw [he, ← hid]
  exact ⟨frameOf_discardFrame g t, (discardFrame_changes g t).1.trans ht⟩

/-- The default action DROP of a port that no mirror session names (R127). -/
theorem decideFrame_defaultDrop {f : Frame} {s : State} (hexc : f.exc ≠ 0) (hfault : f.exc ≠ 6) (hdirect : f.direct = none)
    (hdef : rf s (DOC_PORT_DEF f.gal (portIndex f.port)) 1 0 = 0) (hmir : rb s (ARC_PORT_MIR f.port) 4 = false) :
    decideFrame f s = ({ noDecision with drop := some 1, seed := routeSeed f }, s) := by
  have hact : defaultAction s f = { noDecision with drop := some 1 } := by
    rw [rf] at hdef
    rw [defaultAction, hdef]
    rfl
  have hnone : namedMirrors s f [] = [] := by
    rw [rb] at hmir
    rw [namedMirrors, List.filter_eq_nil_iff]
    simp [hmir]
  rw [decideFrame, if_neg hfault, hdirect]
  dsimp only
  rw [if_pos (.inl hexc), hact, hnone]
  rfl

/-! ## A resolution under its decision -/

/-- What the stream filter and the policers make of a frame, with the state they leave. -/
def filtered (f : Frame) (x : Decision × State) : SfOut × State :=
  let p := policeAll (portWing f.port) (frameLen f) x.1.pols ⟨0, false, none⟩ x.2
  if f.exc != 0 || f.defAct then (⟨false, p.1, false, none⟩, p.2) else streamFilter f (frameLen f) p.1 p.2

/-- A decision as the filter and the policers leave it. -/
def decidedBy (f : Frame) (x : Decision × State) : Decision :=
  let p := policeAll (portWing f.port) (frameLen f) x.1.pols ⟨0, false, none⟩ x.2
  let q := (filtered f x).1
  { x.1 with
    drop := x.1.drop.or (if q.drop || q.meterDrop then some 2 else if p.1.redDrop then some 3 else none)
    dscp := q.pol.remark.or x.1.dscp
    mirrors := if q.drop then [] else x.1.mirrors
    hosts := if q.drop then [] else x.1.hosts }

/-- The frame as its resolution marks it. -/
def decidedFrame (f : Frame) (x : Decision × State) : Frame :=
  let q := filtered f x
  let d := decidedBy f x
  { f with
    colour := q.1.pol.colour, dscp := d.dscp, pcp := d.pcp, srf := q.1.srf, learn := if d.veto then [] else f.learn
    flowHash := match profOf f with
      | none => if d.seed.isSome then groupHash q.2 f none (d.seed.getD 0) else 0
      | some pr => groupHash q.2 f (some pr) (d.seed.getD 0) }

/-- The state in which a decided frame is admitted: a learn that its decision vetoes is cancelled. -/
def decidedState (f : Frame) (x : Decision × State) : State :=
  let q := filtered f x
  putFrame (decidedFrame f x) (if (decidedBy f x).veto && !f.learn.isEmpty then bump (VIT_CNT (portWing f.port) 11) (cancelLearn f q.2) else q.2)

def resolveDecided (f : Frame) (x : Decision × State) : State :=
  resolveFrame (decidedFrame f x) (decidedBy f x) (frameLen f) (decidedState f x)

theorem resolveDecided_stage (f : Frame) (x : Decision × State) :
    frameOf (resolveDecided f x) f.id = none ∨ ∃ g, frameOf (resolveDecided f x) f.id = some g ∧ g.stage = .hall :=
  resolveFrame_stage (decidedFrame f x) _ _ _

/-- After an exception no stream filter is asked; with no policer named, none is asked either. -/
theorem filtered_unpoliced {f : Frame} {x : Decision × State} (hexc : f.exc ≠ 0) (hpols : x.1.pols = []) :
    filtered f x = (⟨false, ⟨0, false, none⟩, false, none⟩, x.2) := by
  have hx : (f.exc != 0 || f.defAct) = true := by simp [hexc]
  rw [filtered, hx, hpols]
  rfl

/-- A frame with an exception whose decision is a drop alone is gone, and makes no copy. -/
theorem resolveDecided_dropped {f : Frame} (hexc : f.exc ≠ 0) (reason : Nat) (seed : Option Nat) (s : State) :
    let x : Decision × State := ({ noDecision with drop := some reason, seed := seed }, s)
    frameOf (resolveDecided f x) f.id = none ∧ (resolveDecided f x).copies = s.copies := by
  intro x
  have hq : filtered f x = (⟨false, ⟨0, false, none⟩, false, none⟩, s) := filtered_unpoliced hexc rfl
  have hhosts : (decidedBy f x).hosts = [] := by rw [decidedBy, hq]; rfl
  have hmirrors : (decidedBy f x).mirrors = [] := by rw [decidedBy, hq]; rfl
  have hstate : (decidedState f x).copies = s.copies := by rw [decidedState, hq]; rfl
  obtain ⟨hgone, hcopies⟩ := resolveFrame_dropped (decidedFrame f x) (frameLen f) (decidedState f x) (reason := reason) rfl hhosts hmirrors
  exact ⟨hgone, hcopies.trans hstate⟩

/-! ## INGRESS_RESOLUTION -/

theorem exec_ingressResolution (id : Nat) (s : State) : exec (.ingressResolution id) s = execIngressResolution id s := rfl

section
variable {id : Nat} {f : Frame} {s : State} (hf : frameOf s id = some f) (hres : resolvable s f = true)
include hf

theorem exec_ingressResolution_waits (hturn : itsTurn s f = false) : exec (.ingressResolution id) s = .next s := by
  rw [exec_ingressResolution, execIngressResolution, hf]
  dsimp only
  rw [hturn, Bool.not_false, Bool.or_true, if_pos rfl]

include hres
variable (hturn : itsTurn s f = true)
include hturn

/-- A frame whose FCS was bad is discarded with its learn (R54). -/
theorem exec_ingressResolution_bad (hwhole : f.whole = true) (hbad : f.bad = true) :
    exec (.ingressResolution id) s = .next (discardFrame f (cancelLearn f s)) := by
  rw [exec_ingressResolution, execIngressResolution, hf]
  dsimp only
  rw [hres, hturn, hwhole, hbad]
  rfl

/-- Any other frame is resolved under its decision. -/
theorem exec_ingressResolution_good (hgood : (f.whole && f.bad) = false) :
    exec (.ingressResolution id) s = .next (resolveDecided f (decideFrame f s)) := by
  rw [exec_ingressResolution, execIngressResolution, hf]
  dsimp only
  rw [hres, hturn, hgood]
  rfl

end

theorem claims_ingressResolves : Claims.IngressResolves := by
  intro id f s hf hres
  have hid := frameOf_id hf
  refine ⟨exec_ingressResolution_waits hf, fun hturn => ⟨?_, fun hwhole hbad => ?_, fun hwhole hgood hexc hfault hdirect hdef hmir => ?_⟩⟩
  · cases hb : f.whole && f.bad with
    | true =>
      rw [Bool.and_eq_true] at hb
      refine ⟨_, exec_ingressResolution_bad hf hres hturn hb.1 hb.2, .inl ?_⟩
      rw [← hid]
      exact frameOf_discardFrame _ _
    | false =>
      refine ⟨_, exec_ingressResolution_good hf hres hturn hb, ?_⟩
      rw [← hid]
      exact resolveDecided_stage f _
  · obtain ⟨hcopies, hhal, hbus, hdrain⟩ := discardFrame_changes f (cancelLearn f s)
    have hc := cancelLearn_onlyBus f s
    refine ⟨_, exec_ingressResolution_bad hf hres hturn hwhole hbad, ?_, hcopies.trans hc.copies, hhal.trans hc.hal, ?_, fun l hl hen => ?_⟩
    · rw [← hid]
      exact frameOf_discardFrame _ _
    · rw [hdrain, hc.prv]
    · rw [ctr, hbus, ← ctr, ctr_cancelLearn f s l hl hen]
  · obtain ⟨hgone, hcopies⟩ := resolveDecided_dropped hexc 1 (routeSeed f) s
    refine ⟨_, exec_ingressResolution_good hf hres hturn (by rw [hgood, Bool.and_false]), ?_, ?_⟩ <;>
      rw [decideFrame_defaultDrop hexc hfault hdirect hdef hmir]
    · rw [← hid]
      exact hgone
    · exact hcopies

/-! ## A frame with copies does not end -/

theorem copiesOf_ne_nil {s : State} {id : Nat} : copiesOf s id ≠ [] ↔ ∃ c ∈ s.copies, c.frame = id := by
  simp [copiesOf, List.filter_eq_nil_iff]

theorem tryEnd_held {s : State} {id : Nat} (h : copiesOf s id ≠ []) : tryEnd id s = s := by
  obtain ⟨c, hc, hid⟩ := copiesOf_ne_nil.mp h
  have hheld : (s.copies.any fun c => c.frame == id) = true := List.any_eq_true.mpr ⟨c, hc, by simpa using hid⟩
  unfold tryEnd
  split
  · rfl
  · rw [if_pos]
    simp [hheld]

/-- A change of its copies' cells leaves a frame its copies. -/
theorem copiesOf_map_ne_nil {s t : State} {id : Nat} {g : Copy → Copy} (ht : t.copies = s.copies.map g) (hg : ∀ c, (g c).frame = c.frame)
    (h : copiesOf s id ≠ []) : copiesOf t id ≠ [] := by
  obtain ⟨c, hc, hid⟩ := copiesOf_ne_nil.mp h
  refine copiesOf_ne_nil.mpr ⟨g c, ?_, (hg c).trans hid⟩
  rw [ht]
  exact List.mem_map_of_mem hc

/-- A return of charge leaves the frame, but for its charge. -/
theorem frameOf_uncharge {s : State} {id : Nat} {f : Frame} (n : Nat) (hf : frameOf s id = some f) :
    frameOf (uncharge id n s) id = some { f with charge := f.charge - min n f.charge } := by
  have hid := frameOf_id hf
  rw [uncharge, hf]
  dsimp only
  rw [frameOf_congr ((framesStay_setPair _ _ _ _).after (framesStay_areaSub _ _ _)).frames]
  subst hid
  rw [frameOf_putFrame (s := s) { f with charge := _ }, hf]
  rfl

/-! ## Cells allocated (R319, R326) -/

theorem nextWrites_keeps (s : State) : (nextWrites s).frames = s.frames ∧ (nextWrites s).copies = s.copies := by
  unfold nextWrites
  split <;> exact ⟨rfl, rfl⟩

theorem bankAny_keeps (s : State) : (bankAny s).2.frames = s.frames ∧ (bankAny s).2.copies = s.copies := by
  unfold bankAny
  dsimp only
  split <;> exact ⟨rfl, rfl⟩

/-- A cell allocated changes no frame and no copy. -/
theorem allocCell_keeps {prev : List Nat} {count residual frame : Nat} {s t : State} {c : Nat}
    (h : allocCell prev count residual frame s = some (c, t)) : t.frames = s.frames ∧ t.copies = s.copies := by
  obtain ⟨hframes, hcopies⟩ := nextWrites_keeps s
  obtain ⟨hanyF, hanyC⟩ := bankAny_keeps (nextWrites s)
  unfold allocCell at h
  dsimp only at h
  split at h
  · cases h
  · cases h
    simp only [addWrap_frames, addWrap_copies, wf_frames, wf_copies, bump_frames, bump_copies, putCell_frames, putCell_copies, drawChoice]
    split
    · exact ⟨hframes, hcopies⟩
    · exact ⟨(bump_frames _ _).trans (hanyF.trans hframes), (bump_copies _ _).trans (hanyC.trans hcopies)⟩

theorem allocCells_keeps (count residual frame n : Nat) (chain : List Nat) (s : State) :
    (allocCells count residual frame n chain s).2.frames = s.frames ∧ (allocCells count residual frame n chain s).2.copies = s.copies := by
  induction n generalizing chain s with
  | zero => exact ⟨rfl, rfl⟩
  | succ n ih =>
    unfold allocCells
    split
    · exact ⟨rfl, rfl⟩
    · next c t ht =>
      obtain ⟨hframes, hcopies⟩ := allocCell_keeps ht
      exact ⟨(ih _ t).1.trans hframes, (ih _ t).2.trans hcopies⟩

/-! ## LAST_CELL_WRITTEN -/

/-- The charge that a whole frame did not use, which its last cell returns (R334). -/
def unusedCharge (f : Frame) : Nat := min f.charge (f.tested - cellsFor f.bytes.length)

/-- A frame whose last cell is written, with its cells and the state that their allocation left. -/
def closeFrame (id : Nat) (f : Frame) (copies : List Copy) (a : List Nat × State) : State :=
  let s2 := uncharge id (unusedCharge f) (putFrame { f with cells := a.1, lastDone := true } a.2)
  copies.foldl (fun b c => queueDec (16 * c.port + c.queue) (min (unusedCharge f) c.qCells) b)
    { s2 with copies := s2.copies.map fun c => if c.frame = id then { c with qCells := c.qCells - unusedCharge f } else c }

/-- A frame closed keeps its bytes and its copies. -/
theorem closeFrame_written {id : Nat} {f : Frame} (copies : List Copy) {a : List Nat × State} (hf : frameOf a.2 id = some f)
    (hheld : copiesOf a.2 id ≠ []) : copiesOf (closeFrame id f copies a) id ≠ [] ∧
    ∃ g, frameOf (closeFrame id f copies a) id = some g ∧ g.lastDone = true ∧ g.bytes = f.bytes := by
  have hid := frameOf_id hf
  have hput : frameOf (putFrame { f with cells := a.1, lastDone := true } a.2) id = some { f with cells := a.1, lastDone := true } := by
    subst hid
    rw [frameOf_putFrame (s := a.2) { f with cells := _, lastDone := _ }, hf]
    rfl
  have hstay := framesStay_foldl copies (fun b c => queueDec (16 * c.port + c.queue) (min (unusedCharge f) c.qCells) b)
    (fun b c => framesStay_queueDec _ _ b)
  constructor
  · refine copiesOf_map_ne_nil ((hstay _).copies.trans (congrArg _ (copiesStay_uncharge _ _ _).copies)) (fun c => ?_) hheld
    split <;> rfl
  · refine ⟨_, (frameOf_congr (hstay _).frames id).trans (frameOf_uncharge (unusedCharge f) hput), rfl, rfl⟩

/-- Closing a frame writes no cell. -/
theorem closeFrame_unwritten (id : Nat) (f : Frame) (copies : List Copy) (a : List Nat × State) :
    (closeFrame id f copies a).hal.wrote = a.2.hal.wrote ∧ ctr (closeFrame id f copies a) (HAL_CNT 0) = ctr a.2 (HAL_CNT 0) := by
  have hput := (copiesStay_uncharge id (unusedCharge f) _).after (copiesStay_putFrame { f with cells := a.1, lastDone := true } a.2)
  have hstay := framesStay_foldl copies (fun b c => queueDec (16 * c.port + c.queue) (min (unusedCharge f) c.qCells) b)
    (fun b c => framesStay_queueDec _ _ b)
  exact ⟨(hstay _).wrote.trans hput.wrote, (hstay _).written.trans hput.written⟩

theorem exec_lastCellWritten (id : Nat) (s : State) : exec (.lastCellWritten id) s = execLastCellWritten id s := rfl

section
variable {id : Nat} {f : Frame} {s : State} (hf : frameOf s id = some f) (hstage : f.stage = .hall) (hwhole : f.whole = true)
  (hlast : f.lastDone = false)
include hf hstage hwhole hlast

/-- A frame with copies takes its remaining cells, when there are so many. -/
theorem exec_lastCellWritten_held (hheld : copiesOf s id ≠ []) (hroom : cellsFor f.bytes.length - f.cells.length ≤ allocatable s) :
    ∃ count residual, exec (.lastCellWritten id) s = .next (tryEnd id (closeFrame id f (copiesOf s id)
      (allocCells count residual id (cellsFor f.bytes.length - f.cells.length) f.cells s))) := by
  have hholders : ∀ l : List Nat, ((copiesOf s id).map (fun c => c.holder) ++ l).isEmpty = false := by simp [hheld]
  have hgo : (f.stage != .hall || !f.whole || f.lastDone) = false := by rw [hstage, hwhole, hlast]; rfl
  rw [exec_lastCellWritten, execLastCellWritten, hf]
  dsimp only
  rw [hgo, hholders, if_neg Bool.false_ne_true, if_neg Bool.false_ne_true, if_neg (Nat.not_lt.mpr hroom)]
  exact ⟨_, _, rfl⟩

/-- A frame whose copies and captures have all ended takes none. -/
theorem exec_lastCellWritten_unheld (hended : copiesOf s id = []) (hpend : s.arc.pend = []) :
    exec (.lastCellWritten id) s = .next (tryEnd id (closeFrame id f [] (f.cells, s))) := by
  have hgo : (f.stage != .hall || !f.whole || f.lastDone) = false := by rw [hstage, hwhole, hlast]; rfl
  rw [exec_lastCellWritten, execLastCellWritten, hf]
  dsimp only
  rw [hgo, hended, hpend, if_neg Bool.false_ne_true]
  rfl

end

theorem claims_lastCellWritten : Claims.LastCellWritten := by
  intro id f s hf hstage hwhole hlast
  refine ⟨fun hheld hroom => ?_, fun hended hpend => ?_⟩
  · obtain ⟨count, residual, he⟩ := exec_lastCellWritten_held hf hstage hwhole hlast hheld hroom
    obtain ⟨hframes, hcopies⟩ := allocCells_keeps count residual id (cellsFor f.bytes.length - f.cells.length) f.cells s
    obtain ⟨hkept, g, hg, hdone, hbytes⟩ := closeFrame_written (copiesOf s id) ((frameOf_congr hframes id).trans hf)
      (show copiesOf _ id ≠ [] by rwa [copiesOf, hcopies])
    rw [tryEnd_held hkept] at he
    exact ⟨_, g, he, hg, hdone, hbytes⟩
  · have hend := copiesStay_tryEnd id (closeFrame id f [] (f.cells, s))
    obtain ⟨hwrote, hwritten⟩ := closeFrame_unwritten id f [] (f.cells, s)
    exact ⟨_, exec_lastCellWritten_unheld hf hstage hwhole hlast hended hpend, hend.wrote.trans hwrote, hend.written.trans hwritten⟩

/-- Settles O24: a resolution discards its frame or stores it in the Hall, and a frame's last cell is written for its holders alone. -/
theorem frameStored : Obligations.FrameStored := ⟨claims_ingressResolves, claims_lastCellWritten⟩

end Sys2Proof.Machine
end

section
/-!
SUPPORT. The registers that no event and no error record of any page touches, and host accesses to a lane chiplet's pages.
-/
namespace Sys2Proof.Machine

/-! ## Registers beyond the header -/

/-- A register beyond its page's header, and no pending word of the MSI-X vectors: no event and no error record changes it. -/
def beyondHeader (a : Nat) : Prop := 0x100 ≤ a % 0x10000 ∧ a / 0x10000 ≠ pageHIF + 6

theorem beyondHeader_bar0 {p x : Nat} (h : 0x100 ≤ x) (hx : x < 0x10000) (hp : p ≠ pageHIF + 6) : beyondHeader (bar0 p x) := by
  rw [beyondHeader, page_bar0 _ hx, offset_bar0 _ hx]
  exact ⟨h, hp⟩

theorem ne_header_of_beyond {a : Nat} (h : beyondHeader a) (p : Nat) {x : Nat} (hx : x < 0x100) : a ≠ bar0 p x := by
  rintro rfl
  have hoff := h.1
  rw [offset_bar0 _ (by omega)] at hoff
  omega

theorem rd_raise_beyond {a : Nat} (h : beyondHeader a) (p b : Nat) (s : State) : rd (raise p b s) a = rd s a :=
  (raise_changes p b s).1 a (not_mem_eventRegs (ne_header_of_beyond h p (by decide)) h.2)

theorem rd_raiseFirst_beyond {a : Nat} (h : beyondHeader a) (p b : Nat) (s : State) : rd (raiseFirst p b s) a = rd s a := by
  unfold raiseFirst
  dsimp only
  split
  · exact rd_raise_beyond h p b _
  · rfl

/-- An event leaves every counter but HIF_CNT_8 and those of the Ledger. -/
theorem ctr_raise {a : Nat} (h : a ≠ HIF_CNT 8) (hl : ¬onLedger a) (p b : Nat) (s : State) : ctr (raise p b s) a = ctr s a :=
  (raise_changes p b s).2 a (by simpa using h) fun g => hl g.2

theorem ctr_raiseFirst {a : Nat} (h : a ≠ HIF_CNT 8) (hl : ¬onLedger a) (p b : Nat) (s : State) : ctr (raiseFirst p b s) a = ctr s a := by
  unfold raiseFirst
  dsimp only
  split
  · exact ctr_raise h hl p b _
  · rfl

/-- An event's own bit is set after it. -/
theorem rb_raise_self (p : Nat) {b : Nat} (s : State) (h : b < 32) : rb (raise p b s) (H_INT_STAT p) b = true := by
  rw [rb_raise _ _ _ _ h, decide_eq_true rfl, Bool.or_true]

/-- An event bit that is set stays set over an event of its page. -/
theorem rb_raise_of_set {p b i : Nat} {s : State} (hi : i < 32) (h : rb s (H_INT_STAT p) i = true) :
    rb (raise p b s) (H_INT_STAT p) i = true := by
  rw [rb_raise _ _ _ _ hi, h, Bool.true_or]

/-! ## A lane chiplet's pages -/

theorem onChiplet_bar0 (k : Chiplet) {j x : Nat} (hj : j < 8) (hx : x < 0x10000) : onChiplet (bar0 (pageLNK k + j) x) := by
  rw [onChiplet, page_bar0 _ hx, pageLNK]
  omega

theorem beyondHeader_chiplet (k : Chiplet) {j x : Nat} (hj : j < 8) (h : 0x100 ≤ x) (hx : x < 0x10000) :
    beyondHeader (bar0 (pageLNK k + j) x) := beyondHeader_bar0 h hx (by simp only [pageLNK, pageHIF]; omega)

/-- A chiplet's page belongs to no gallery, so an access to it wakes none. -/
theorem noteAccess_chiplet {a : Nat} (h : onChiplet a) (s : State) : noteAccess a s = s := by
  refine noteAccess_plain a s ?_
  obtain ⟨hlo, hhi⟩ := h
  have hpages : pageBlk s.part (a / 0x10000) = none ∨ ∃ j k, pageBlk s.part (a / 0x10000) = some (.lnk, j, k) := by
    unfold pageBlk
    repeat rw [if_neg (by omega)]
    rw [if_pos ⟨hlo, hhi⟩]
    split
    · exact .inr ⟨_, _, rfl⟩
    · exact .inl rfl
  rw [pageGallery]
  rcases hpages with h | ⟨j, k, h⟩ <;> rw [h]

theorem hostDo_chiplet {a : Nat} (f : State → State) {s : State} (h : onChiplet a) (ho : reach s a = .open) : hostDo a f s = f s :=
  hostDo_open a f s ho (noteAccess_chiplet h s)

theorem hostAsk_chiplet {a : Nat} (f : State → State) {s : State} (h : onChiplet a) (ho : reach s a = .open) : hostAsk a f s = f s := by
  rw [hostAsk_open f ho, noteAccess_chiplet h]

end Sys2Proof.Machine
end

section
/-!
SUPPORT. Pause and PFC frames received, expiring, requested and sent (R76, R77), and the Depot's requests for them (R342, R343).
-/
namespace Sys2Proof.Machine

/-! ## Paused bits (R76, R396) -/

/-- Bit `b` of a number taken away where it is set. -/
theorem testBit_bitCleared (m b n : Nat) : (m - if m.testBit b then 2 ^ b else 0).testBit n = (n != b && m.testBit n) := by
  have hfield : bitsOf m b b * 2 ^ b = if m.testBit b then 2 ^ b else 0 := by
    have hw : b + 1 - b = 1 := by omega
    rw [bitsOf, hw, Nat.testBit_eq_decide_div_mod_eq]
    rcases Nat.mod_two_eq_zero_or_one (m / 2 ^ b) with h | h <;> simp [h]
  have hset := testBit_setFld_value m b b 0 n (Nat.le_refl b)
  rw [hfield, Nat.zero_mod, Nat.zero_mul, Nat.add_zero, Nat.zero_testBit] at hset
  rw [hset]
  by_cases h : n = b
  · simp [h]
  · rw [if_neg (by omega), bne_iff_ne.mpr h, Bool.true_and]

/-- Bit `b` of a port's paused state set or ended. -/
def pausedBit (m b : Nat) (on : Bool) : Nat := if on then m ||| 2 ^ b else m - (if m.testBit b then 2 ^ b else 0)

theorem testBit_pausedBit (m b : Nat) (on : Bool) (n : Nat) : (pausedBit m b on).testBit n = if n = b then on else m.testBit n := by
  unfold pausedBit
  cases on with
  | true =>
    rw [if_pos rfl, Nat.testBit_or, Nat.testBit_two_pow]
    by_cases h : n = b
    · simp [h]
    · simp [h, Ne.symm h]
  | false =>
    rw [if_neg Bool.false_ne_true, testBit_bitCleared]
    by_cases h : n = b <;> simp [h]

/-- The paused state of a port after a pause frame. -/
def pausedAfter (pf : PauseFrame) (old : Nat) : Nat :=
  match pf with
  | .pause q => pausedBit old 8 (q != 0)
  | .pfc en qs => (List.range 8).foldl (fun m p => if en.toNat.testBit p then pausedBit m p (qs.getD p 0 != 0) else m) old

theorem applyPause_eq (i : Nat) (pf : PauseFrame) (s : State) : applyPause i pf s =
    portCnt i 6 1 { s with tmg := { s.tmg with paused := sPut 0 i (pausedAfter pf (sGet 0 i s.tmg.paused)) s.tmg.paused } } := by
  cases pf <;> rfl

/-- The bits that a pass over `l` sets where `en` holds; every other bit stays. -/
theorem testBit_foldl_pausedBit (en on : Nat → Bool) (b : Nat) (l : List Nat) (old : Nat) :
    (l.foldl (fun m p => if en p then pausedBit m p (on p) else m) old).testBit b =
      if b ∈ l ∧ en b then on b else old.testBit b := by
  induction l generalizing old with
  | nil => simp
  | cons p l ih =>
    rw [List.foldl_cons, ih]
    by_cases hb : b ∈ l ∧ en b
    · rw [if_pos hb, if_pos ⟨List.mem_cons_of_mem _ hb.1, hb.2⟩]
    · rw [if_neg hb]
      by_cases hp : b = p
      · subst hp
        by_cases he : en b
        · simp [he, testBit_pausedBit]
        · simp [he]
      · have hno : ¬(b ∈ p :: l ∧ en b) := by
          rw [List.mem_cons]
          tauto
        rw [if_neg hno]
        split
        · rw [testBit_pausedBit, if_neg hp]
        · rfl

theorem testBit_pausedAfter_pfc (en : BitVec 8) (qs : List (BitVec 16)) (old b : Nat) : (pausedAfter (.pfc en qs) old).testBit b =
    if b < 8 ∧ en.toNat.testBit b then qs.getD b 0 != 0 else old.testBit b := by
  have h := testBit_foldl_pausedBit (fun p => en.toNat.testBit p) (fun p => qs.getD p 0 != 0) b (List.range 8) old
  simp only [List.mem_range] at h
  exact h

/-! ## PAUSE_FRAME_RX and PAUSE_QUANTA_EXPIRY -/

theorem macLive_of_macOn {s : State} {i : Nat} (h : macOn s i = true) : macLive s i = true := by
  simp only [macOn, Bool.and_eq_true] at h
  simp only [macLive, h, Bool.true_or, Bool.and_self]

/-- What a pause frame changes: the paused state of its port and the count of pause frames; no frame and no register. -/
theorem applyPause_changes (i : NetPort) (pf : PauseFrame) (s : State) :
    sGet 0 i.val (applyPause i pf s).tmg.paused = pausedAfter pf (sGet 0 i.val s.tmg.paused) ∧ (applyPause i pf s).frames = s.frames ∧
    (applyPause i pf s).lnk = s.lnk ∧ RegsBut [] s (applyPause i pf s) ∧
    ctr (applyPause i pf s) (LNK_PORT_CNT (i / 64) (i % 64) 6) = (ctr s (LNK_PORT_CNT (i / 64) (i % 64) 6) + 1) % 2 ^ 64 := by
  rw [applyPause_eq]
  have hbus := bumpN_onlyBus (LNK_PORT_CNT (i / 64) (i % 64) 6) 1
  refine ⟨?_, ?_, ?_, fun a _ => rd_portCnt _ _ _ _ a, ctr_portCnt_same _ _ _⟩
  · rw [portCnt_eq, (hbus _).tmg]
    exact sGet_sPut_same _ _ _ _
  · rw [portCnt_eq, (hbus _).frames]
  · rw [portCnt_eq, (hbus _).lnk]

theorem exec_pauseFrameRx (i : NetPort) (pf : PauseFrame) (s : State) : exec (.pauseFrameRx ⟨i.val, by omega⟩ pf) s =
    .next (if macLive s i && !rb s (LNK_PORT_CFG (i / 64) (i % 64)) 1 then applyPause i pf s else s) := rfl

theorem exec_pauseFrameRx_heard {i : NetPort} (pf : PauseFrame) {s : State} (hlive : macLive s i = true)
    (hloop : rb s (LNK_PORT_CFG (i / 64) (i % 64)) 1 = false) :
    exec (.pauseFrameRx ⟨i.val, by omega⟩ pf) s = .next (applyPause i pf s) := by
  rw [exec_pauseFrameRx, hlive, hloop]
  rfl

theorem exec_pauseFrameRx_looped {i : NetPort} (pf : PauseFrame) {s : State} (hloop : rb s (LNK_PORT_CFG (i / 64) (i % 64)) 1 = true) :
    exec (.pauseFrameRx ⟨i.val, by omega⟩ pf) s = .next s := by
  rw [exec_pauseFrameRx, hloop, Bool.not_true, Bool.and_false, if_neg Bool.false_ne_true]

theorem pauseQuantaExpiry_ends (i : NetPort) (b : Fin 9) (s : State) : ∃ t, exec (.pauseQuantaExpiry i b) s = .next t ∧
    ∀ n, (sGet 0 i.val t.tmg.paused).testBit n = (n != b.val && (sGet 0 i.val s.tmg.paused).testBit n) := by
  refine ⟨_, rfl, fun n => ?_⟩
  have hcleared := testBit_bitCleared (sGet 0 i.val s.tmg.paused) b n
  split
  · next h =>
    rw [if_pos h] at hcleared
    exact (congrArg (Nat.testBit · n) (sGet_sPut_same _ _ _ _)).trans hcleared
  · next h =>
    rw [if_neg h, Nat.sub_zero] at hcleared
    exact hcleared

/-! ## A pause frame at the MAC -/

/-- No frame arrives on port `i` any more. -/
def rxDone (i : Nat) (s : State) : State := { s with lnk := { s.lnk with rx := sPut none i none s.lnk.rx } }

theorem pauseLike_of_asPause {bytes : List Byte} {pf : PauseFrame} (h : asPause bytes = some pf) : pauseLike bytes = true := by
  rw [asPause] at h
  cases hp : pauseLike bytes with
  | true => rfl
  | false => rw [hp] at h; cases h

/-- The counters of the MAC's reasons for a bad frame (R73). -/
theorem rxCause_range {max len n : Nat} {fec ok : Bool} (h : rxCause max len fec ok = some n) : 2 ≤ n ∧ n ≤ 5 := by
  unfold rxCause at h
  repeat' split at h
  all_goals cases h <;> decide

/-- The MAC consumes a good pause frame and counts a bad one under its cause; no frame goes on (R76). -/
theorem rxWhole_pause {bytes : List Byte} {pf : PauseFrame} (h : asPause bytes = some pf) (i : Nat) (fec : Bool) (s : State) :
    rxWhole i bytes fec s = match rxCause (maxFrame s i) bytes.length fec (fcsGood bytes) with
      | none => applyPause i pf (rxDone i s)
      | some n => portCnt i n 1 (rxDone i s) := by
  have hstart : (if bytes.length < 64 then (none, s) else rxStart i bytes bytes.length s) = (none, s) := by
    split
    · rfl
    · rw [rxStart, if_pos (pauseLike_of_asPause h)]
  rw [rxWhole, hstart]
  simp only [rxEnd, h]
  cases rxCause (maxFrame s i) bytes.length fec (fcsGood bytes) <;> rfl

/-! ## PAUSE_FRAME_TX (R77) -/

theorem length_beBytes (k n : Nat) : (beBytes k n).length = k := by
  have hle : ∀ k n, (leBytes k n).length = k := by
    intro k
    induction k with
    | zero => intro n; rfl
    | succ k ih => intro n; rw [leBytes, List.length_cons, ih]
  rw [beBytes, List.length_reverse, hle]

theorem byteAt_append_right {pre : List Byte} {n : Nat} (h : pre.length = n) (l : List Byte) (j : Nat) :
    byteAt (pre ++ l) (n + j) = byteAt l j := by
  subst h
  rw [byteAt, byteAt, List.getD_append_right _ _ _ _ (Nat.le_add_right _ _), Nat.add_sub_cancel_left]

theorem slice_append_right {pre : List Byte} {n : Nat} (h : pre.length = n) (l : List Byte) (i m : Nat) :
    slice (pre ++ l) (n + i) m = slice l i m := by
  refine List.map_congr_left fun j _ => ?_
  rw [Nat.add_assoc, byteAt_append_right h]

/-- Twelve bytes of addresses, type 0x8808 and one of the two opcodes make a pause frame. -/
theorem pauseLike_append {pre : List Byte} (h : pre.length = 12) {x : Byte} (hx : x = 0 ∨ x = 1) (rest : List Byte) :
    pauseLike (pre ++ 0x88 :: 0x08 :: x :: 1 :: rest) = true := by
  have hlong : 16 ≤ (pre ++ 0x88 :: 0x08 :: x :: 1 :: rest).length := by
    simp only [List.length_append, List.length_cons, h]
    omega
  have htype : slice (0x88 :: 0x08 :: x :: 1 :: rest) 0 2 = [0x88, 0x08] := rfl
  have hop : slice (0x88 :: 0x08 :: x :: 1 :: rest) 2 2 = [x, 1] := rfl
  rw [pauseLike, decide_eq_true hlong, slice_append_right h _ 0, slice_append_right h _ 2, htype, hop]
  rcases hx with rfl | rfl <;> decide

/-- What a port puts out as a pause or PFC frame is one, whatever its source address. -/
theorem asPause_pauseBytes {sa : List Byte} (h : sa.length = 6) (p quanta : Nat) : ∃ pf, asPause (pauseBytes sa p quanta) = some pf := by
  have hlike : pauseLike (pauseBytes sa p quanta) = true := by
    have hpre : (beBytes 6 0x0180C2000001 ++ sa).length = 12 := by rw [List.length_append, length_beBytes, h]
    have htype : beBytes 2 0x8808 = [0x88, 0x08] := by decide
    have hpause : beBytes 2 1 = [0, 1] := by decide
    have hpfc : beBytes 2 0x0101 = [1, 1] := by decide
    unfold pauseBytes
    dsimp only
    split <;> simp only [htype, hpause, hpfc, List.append_assoc, List.cons_append, List.nil_append] <;> rw [← List.append_assoc]
    · exact pauseLike_append hpre (.inl rfl) _
    · exact pauseLike_append hpre (.inr rfl) _
  rw [asPause, hlike, Bool.not_true, if_neg Bool.false_ne_true]
  split
  · exact ⟨_, rfl⟩
  · exact ⟨_, rfl⟩

/-- A pause frame put out is kept as the port's last frame; a port that loops hears it, which leaves the requests and the count of those
sent. -/
theorem putOut_pause (i : NetPort) {out : List Byte} {pf : PauseFrame} (h : asPause out = some pf) (s : State) :
    (putOut i out false s).lnk.pauseReq = s.lnk.pauseReq ∧ sGet [] i.val (putOut i out false s).lnk.txLast = out ∧
    ctr (putOut i out false s) (LNK_PORT_CNT (i / 64) (i % 64) 10) = ctr s (LNK_PORT_CNT (i / 64) (i % 64) 10) ∧
    (rb s (LNK_PORT_CFG (i / 64) (i % 64)) 1 = false → RegsBut [] s (putOut i out false s)) := by
  cases hloop : rb s (LNK_PORT_CFG (i / 64) (i % 64)) 1 with
  | false =>
    rw [putOut_unlooped i out false s hloop]
    exact ⟨rfl, sGet_sPut_same _ _ _ _, rfl, fun _ _ _ => rfl⟩
  | true =>
    let u : State := { s with lnk := { s.lnk with txLast := sPut [] i.val out s.lnk.txLast } }
    have hput : putOut i out false s = rxWhole i out false u := by
      rw [putOut, if_pos i.isLt]
      exact if_pos hloop
    have hheard : (rxWhole i out false u).lnk = (rxDone i u).lnk ∧
        ctr (rxWhole i out false u) (LNK_PORT_CNT (i / 64) (i % 64) 10) = ctr u (LNK_PORT_CNT (i / 64) (i % 64) 10) := by
      rw [rxWhole_pause h]
      split
      · rw [applyPause_eq, ctr_portCnt_ne _ _ _ (by decide), portCnt_eq, (bumpN_onlyBus _ _ _).lnk]
        exact ⟨rfl, rfl⟩
      · next n hn =>
        have hcause := rxCause_range hn
        rw [ctr_portCnt_ne _ _ _ (show 10 ≠ n by omega), portCnt_eq, (bumpN_onlyBus _ _ _).lnk]
        exact ⟨rfl, rfl⟩
    obtain ⟨hlnk, hcnt⟩ := hheard
    rw [hput, hlnk, hcnt]
    exact ⟨rfl, sGet_sPut_same _ _ _ _, rfl, fun h => nomatch h⟩

/-- At a frame boundary the request made first goes out, from an address of two free values; the counters and registers stay but for its
count. -/
theorem exec_pauseFrameTx {i : NetPort} {s : State} {r : Nat × Nat × Nat} (hlive : macLive s i = true)
    (hidle : (s.copies.any fun c => c.port == i.val && c.stage == .sending) = false)
    (hreq : (s.lnk.pauseReq.find? fun x => x.1 == i.val) = some r) :
    ∃ u sa, sa.length = 6 ∧ u.lnk = { s.lnk with pauseReq := s.lnk.pauseReq.erase r } ∧ (∀ a, rd u a = rd s a) ∧
      (∀ a, ctr u a = ctr s a) ∧
      exec (.pauseFrameTx i) s = .next (putOut i (pauseBytes sa r.2.1 r.2.2) false (portCnt i 10 1 u)) := by
  let x := drawFree { s with lnk := { s.lnk with pauseReq := s.lnk.pauseReq.erase r } }
  let y := drawFree x.2
  refine ⟨y.2, beBytes 4 x.1.toNat ++ beBytes 2 y.1.toNat, ?_, rfl, fun _ => rfl, fun _ => rfl, ?_⟩
  · rw [List.length_append, length_beBytes, length_beBytes]
  · have hgo : (!macLive s i || s.copies.any fun c => c.port == i.val && c.stage == .sending) = false := by rw [hlive, hidle]; rfl
    show execPauseFrameTx i s = _
    rw [execPauseFrameTx, hgo, hreq]
    rfl

theorem pauseFrameTx_sends {i : NetPort} {s : State} {r : Nat × Nat × Nat} (hlive : macLive s i = true)
    (hidle : (s.copies.any fun c => c.port == i.val && c.stage == .sending) = false)
    (hreq : (s.lnk.pauseReq.find? fun x => x.1 == i.val) = some r) :
    ∃ t, exec (.pauseFrameTx i) s = .next t ∧ t.lnk.pauseReq = s.lnk.pauseReq.erase r ∧
      ctr t (LNK_PORT_CNT (i / 64) (i % 64) 10) = (ctr s (LNK_PORT_CNT (i / 64) (i % 64) 10) + 1) % 2 ^ 64 ∧
      (∃ sa : List Byte, sa.length = 6 ∧ sGet [] i.val t.lnk.txLast = pauseBytes sa r.2.1 r.2.2) ∧
      (rb s (LNK_PORT_CFG (i / 64) (i % 64)) 1 = false → RegsBut [] s t) := by
  obtain ⟨u, sa, hsa, hlnk, hrd, hctr, he⟩ := exec_pauseFrameTx hlive hidle hreq
  obtain ⟨pf, hpf⟩ := asPause_pauseBytes hsa r.2.1 r.2.2
  obtain ⟨hq, hlast, hcnt, hregs⟩ := putOut_pause i hpf (portCnt i 10 1 u)
  refine ⟨_, he, ?_, ?_, ⟨sa, hsa, hlast⟩, fun hloop a ha => ?_⟩
  · rw [hq, portCnt_eq, (bumpN_onlyBus _ _ _).lnk, hlnk]
  · rw [hcnt, ctr_portCnt_same, hctr]
  · rw [hregs (by rw [rb, rd_portCnt, hrd]; exact hloop) a ha, rd_portCnt, hrd]

theorem claims_pauseFrames : Claims.PauseFrames := by
  intro i s p old
  refine ⟨fun _ hloop pf => exec_pauseFrameRx_looped pf hloop, fun hon hloop => ⟨fun q => ?_, fun en qs => ?_⟩,
    fun b => pauseQuantaExpiry_ends i b s, fun r hon hidle hreq => pauseFrameTx_sends (macLive_of_macOn hon) hidle hreq⟩
  · obtain ⟨hpaused, hframes, -, hregs, hcnt⟩ := applyPause_changes i (.pause q) s
    refine ⟨_, exec_pauseFrameRx_heard _ (macLive_of_macOn hon) hloop, ?_, fun b hb => ?_, hframes, hcnt, hregs⟩
    · rw [hpaused, pausedAfter, testBit_pausedBit, if_pos rfl]
    · rw [hpaused, pausedAfter, testBit_pausedBit, if_neg hb]
  · obtain ⟨hpaused, hframes, -, hregs, -⟩ := applyPause_changes i (.pfc en qs) s
    refine ⟨_, exec_pauseFrameRx_heard _ (macLive_of_macOn hon) hloop, hframes, hregs, fun b => ?_⟩
    rw [hpaused, testBit_pausedAfter_pfc]

/-! ## XOFF_EXIT and PFC_REFRESH (R342, R343) -/

/-- A request to a MAC is put last, for its priority or, without PFC, for the whole port. -/
theorem pauseReq_pauseRequest (i p quanta : Nat) (s : State) : (pauseRequest i p quanta s).lnk.pauseReq = s.lnk.pauseReq ++
    [(i, (if rb s (LNK_PORT_CFG (i / 64) (i % 64)) 8 then p else 8), quanta)] := rfl

@[simp] theorem rd_pauseRequest (i p quanta : Nat) (s : State) (a : Nat) : rd (pauseRequest i p quanta s) a = rd s a := rfl
@[simp] theorem ctr_pauseRequest (i p quanta : Nat) (s : State) (a : Nat) : ctr (pauseRequest i p quanta s) a = ctr s a := rfl

/-- The pair (i, p) out of XOFF, no pool holding it there. -/
def xoffLeft (i p : Nat) (s : State) : State :=
  let s1 := wf (DPT_PFC_STAT i) p p 0 s
  { s1 with dpt := { s1.dpt with xoffBy := s1.dpt.xoffBy.filter fun e => e.1 != 8 * i + p } }

@[simp] theorem rd_xoffLeft (i p : Nat) (s : State) (a : Nat) : rd (xoffLeft i p s) a = rd (wf (DPT_PFC_STAT i) p p 0 s) a := rfl
@[simp] theorem ctr_xoffLeft (i p : Nat) (s : State) (a : Nat) : ctr (xoffLeft i p s) a = ctr s a := rfl
@[simp] theorem xoffLeft_lnk (i p : Nat) (s : State) : (xoffLeft i p s).lnk = s.lnk := rfl

theorem inXoff_xoffLeft (i : Nat) (p : Fin 8) (s : State) : inXoff (xoffLeft i p s) i p = false := by
  rw [inXoff, rb, rd_xoffLeft, ← rb, rb_wf_same _ _ _ _ (by omega), Nat.zero_testBit]

theorem regsBut_xoffLeft (i p : Nat) (s : State) : RegsBut [DPT_PFC_STAT i] s (xoffLeft i p s) := fun a ha =>
  (rd_xoffLeft i p s a).trans (regsBut_wf _ _ _ _ _ a ha)

theorem portCfg_ne_pfcStat (i : NetPort) : LNK_PORT_CFG (i / 64) (i % 64) ≠ DPT_PFC_STAT i := fun e =>
  not_onChiplet (by decide) (e ▸ onChiplet_portCfg i)

theorem rb_portCfg_xoffLeft (i : NetPort) (p b : Nat) (s : State) :
    rb (xoffLeft i p s) (LNK_PORT_CFG (i / 64) (i % 64)) b = rb s (LNK_PORT_CFG (i / 64) (i % 64)) b := by
  have hrd : rd (xoffLeft i p s) (LNK_PORT_CFG (i / 64) (i % 64)) = rd s (LNK_PORT_CFG (i / 64) (i % 64)) :=
    (rd_xoffLeft _ _ _ _).trans (rd_wf_ne _ _ _ _ (portCfg_ne_pfcStat i))
  rw [rb, rb, hrd]

/-- XON is requested with PFC for the priority, without it once the whole port is out of XOFF. -/
theorem exec_xoffExit {i : NetPort} {p : Fin 8} {s : State} (hin : inXoff s i p = true) (hend : xoffMayEnd s i p = true) :
    exec (.xoffExit i p) s = .next
      (if rb s (LNK_PORT_CFG (i / 64) (i % 64)) 8 || rf (xoffLeft i p s) (DPT_PFC_STAT i) 7 0 == 0 then
        bump (DPT_CNT 7) (pauseRequest i p 0 (xoffLeft i p s)) else xoffLeft i p s) := by
  show execXoffExit i p s = _
  rw [execXoffExit, hin, hend, Bool.and_self, if_pos rfl, ← rb_portCfg_xoffLeft i p 8 s]
  exact (apply_ite Host.Outcome.next _ _ _).symm

/-- A register after a request and its count. -/
theorem regsBut_requested (c i p quanta : Nat) (s : State) : RegsBut [] s (bump c (pauseRequest i p quanta s)) :=
  fun _ _ => (rd_bump _ _ _).trans (rd_pauseRequest _ _ _ _ _)

theorem inXoff_congr {s t : State} {i : Nat} (h : rd t (DPT_PFC_STAT i) = rd s (DPT_PFC_STAT i)) (p : Nat) : inXoff t i p = inXoff s i p := by
  rw [inXoff, inXoff, rb, rb, h]

/-- Whether or not XON is requested, the pair is out of XOFF and only its status register changes. -/
theorem xoffExit_leaves {i : NetPort} {p : Fin 8} {s : State} (hin : inXoff s i p = true) (hend : xoffMayEnd s i p = true) :
    ∃ t, exec (.xoffExit i p) s = .next t ∧ inXoff t i p = false ∧ RegsBut [DPT_PFC_STAT i] s t ∧
      rd t (DPT_PFC_STAT i) = rd (xoffLeft i p s) (DPT_PFC_STAT i) ∧
      (t = bump (DPT_CNT 7) (pauseRequest i p 0 (xoffLeft i p s)) ∨ t = xoffLeft i p s) := by
  refine ⟨_, exec_xoffExit hin hend, ?_⟩
  split
  · have hregs := regsBut_requested (DPT_CNT 7) i p 0 (xoffLeft i p s)
    refine ⟨?_, fun a ha => ?_, hregs _ (List.not_mem_nil), .inl rfl⟩
    · rw [inXoff_congr (hregs _ (List.not_mem_nil)), inXoff_xoffLeft]
    · rw [hregs a (List.not_mem_nil), regsBut_xoffLeft i p s a ha]
  · exact ⟨inXoff_xoffLeft i p s, regsBut_xoffLeft i p s, rfl, .inr rfl⟩

/-- With PFC every pair of a port in XOFF is requested again; the registers stay. -/
theorem pfcRefresh_all {i : NetPort} {q : Nat} (ps : List Nat) {s : State} (hpfc : rb s (LNK_PORT_CFG (i / 64) (i % 64)) 8 = true) :
    (ps.foldl (fun a p => bump (DPT_CNT 6) (pauseRequest i p q a)) s).lnk.pauseReq =
      s.lnk.pauseReq ++ ps.map (fun p => (i.val, p, q)) ∧
    RegsBut [] s (ps.foldl (fun a p => bump (DPT_CNT 6) (pauseRequest i p q a)) s) := by
  induction ps generalizing s with
  | nil => exact ⟨(List.append_nil _).symm, fun _ _ => rfl⟩
  | cons p ps ih =>
    have hregs := regsBut_requested (DPT_CNT 6) i p q s
    obtain ⟨hreq, hrest⟩ := ih (s := bump (DPT_CNT 6) (pauseRequest i p q s)) (by rw [rb, hregs _ (List.not_mem_nil)]; exact hpfc)
    refine ⟨?_, fun a ha => (hrest a ha).trans (hregs a ha)⟩
    rw [List.foldl_cons, hreq, bump_lnk, pauseReq_pauseRequest, if_pos hpfc, List.append_assoc, List.map_cons]
    rfl

theorem exec_pfcRefresh_pfc {i : NetPort} {s : State} (hpfc : rb s (LNK_PORT_CFG (i / 64) (i % 64)) 8 = true) :
    exec (.pfcRefresh i) s = .next (((List.range 8).filter fun p => inXoff s i p).foldl
      (fun a p => bump (DPT_CNT 6) (pauseRequest i p (rf s DPT_PFC_TIMER 31 16) a)) s) := if_pos hpfc

/-- Without PFC the pause of the whole port is requested again while a pair is in XOFF. -/
theorem exec_pfcRefresh_plain {i : NetPort} {s : State} (hpfc : rb s (LNK_PORT_CFG (i / 64) (i % 64)) 8 = false)
    (hin : ∃ p, p < 8 ∧ inXoff s i p = true) :
    exec (.pfcRefresh i) s = .next (bump (DPT_CNT 6) (pauseRequest i 8 (rf s DPT_PFC_TIMER 31 16) s)) := by
  obtain ⟨p, hp, hx⟩ := hin
  have hsome : ((List.range 8).filter fun p => inXoff s i p).isEmpty = false := by
    rw [List.isEmpty_eq_false_iff_exists_mem]
    exact ⟨p, List.mem_filter.mpr ⟨List.mem_range.mpr hp, hx⟩⟩
  show execPfcRefresh i s = _
  rw [execPfcRefresh, hpfc, hsome]
  rfl

theorem claims_xoffRequests : Claims.XoffRequests := by
  intro i s
  refine ⟨fun p hin hend hpfc => ?_, fun p hin hend hpfc => ?_, fun hpfc => ?_, fun hpfc hin => ?_⟩
  · obtain ⟨t, he, hout, hregs, -, -⟩ := xoffExit_leaves hin hend
    have ht : t = bump (DPT_CNT 7) (pauseRequest i p 0 (xoffLeft i p s)) := by
      rw [exec_xoffExit hin hend, hpfc] at he
      exact (Host.Outcome.next.inj he).symm
    refine ⟨t, he, hout, ?_, ?_, hregs⟩
    · rw [ht, bump_lnk, pauseReq_pauseRequest, rb_portCfg_xoffLeft, if_pos hpfc, xoffLeft_lnk]
    · rw [ht, ctr_bump, if_pos rfl, ctr_pauseRequest, ctr_xoffLeft]
  · obtain ⟨t, he, hout, hregs, hstat, -⟩ := xoffExit_leaves hin hend
    refine ⟨t, he, hout, hregs, ?_⟩
    rw [exec_xoffExit hin hend, hpfc, Bool.false_or] at he
    rw [rf, hstat, ← rf]
    by_cases h0 : rf (xoffLeft i p s) (DPT_PFC_STAT i) 7 0 = 0
    · rw [if_pos (beq_iff_eq.mpr h0)] at he
      rw [if_pos h0, ← Host.Outcome.next.inj he, bump_lnk, pauseReq_pauseRequest, rb_portCfg_xoffLeft, hpfc, xoffLeft_lnk]
      rfl
    · rw [if_neg (mt beq_iff_eq.mp h0)] at he
      rw [if_neg h0, ← Host.Outcome.next.inj he, xoffLeft_lnk]
  · obtain ⟨hreq, hregs⟩ := pfcRefresh_all ((List.range 8).filter fun p => inXoff s i p) (q := rf s DPT_PFC_TIMER 31 16) hpfc
    exact ⟨_, exec_pfcRefresh_pfc hpfc, hregs, hreq⟩
  · refine ⟨_, exec_pfcRefresh_plain hpfc hin, ?_, regsBut_requested _ _ _ _ _, fun a ha _ => ?_⟩
    · rw [bump_lnk, pauseReq_pauseRequest, ite_self]
    · rw [ctr_bump, if_neg (by simpa using ha), ctr_pauseRequest]

/-- Settles O19: a port that loops hears only the pause frame it puts out, which the MAC consumes, so the requests stay; whether XON is
requested or not, the pair's own bit is the only register that moves. -/
theorem pauseFlow : Obligations.PauseFlow := ⟨claims_pauseFrames, claims_xoffRequests⟩

end Sys2Proof.Machine
end

section
/-!
SUPPORT. What the upkeep of the table memories leaves alone (R578-R588): reads counted and recorded, merges and the engine's own writes.
-/
namespace Sys2Proof.Machine

/-! ## What stays -/

/-- From `s` to `t` the registers beyond the headers and the lane chiplets' own stay, set event bits stay set, and the lane chiplets and the
waiting rechecks stay. -/
structure UpkeepStays (s t : State) : Prop where
  regs : ∀ a, onChiplet a ∨ beyondHeader a → rd t a = rd s a
  events : ∀ p i, i < 32 → rb s (H_INT_STAT p) i = true → rb t (H_INT_STAT p) i = true
  lnk : t.lnk = s.lnk
  part : t.part = s.part
  rechecks : t.csv.rechecks = s.csv.rechecks

theorem UpkeepStays.after {s t u : State} (g : UpkeepStays t u) (h : UpkeepStays s t) : UpkeepStays s u where
  regs a ha := (g.regs a ha).trans (h.regs a ha)
  events p i hi hs := g.events p i hi (h.events p i hi hs)
  lnk := g.lnk.trans h.lnk
  part := g.part.trans h.part
  rechecks := g.rechecks.trans h.rechecks

/-- A state with the same registers, lane chiplets and rechecks. -/
theorem UpkeepStays.of_same {s t : State} (regs : ∀ a, rd t a = rd s a := by intro; rfl) (lnk : t.lnk = s.lnk := by rfl)
    (part : t.part = s.part := by rfl) (rechecks : t.csv.rechecks = s.csv.rechecks := by rfl) : UpkeepStays s t where
  regs a _ := regs a
  events p i _ hs := by rw [rb, regs]; exact hs
  lnk := lnk
  part := part
  rechecks := rechecks

theorem UpkeepStays.refl (s : State) : UpkeepStays s s := .of_same

theorem UpkeepStays.of_bus {s t : State} (o : OnlyBus s t) (regs : ∀ a, onChiplet a ∨ beyondHeader a → rd t a = rd s a)
    (events : ∀ p i, i < 32 → rb s (H_INT_STAT p) i = true → rb t (H_INT_STAT p) i = true) : UpkeepStays s t :=
  ⟨regs, events, o.lnk, o.part, by rw [o.csv]⟩

theorem UpkeepStays.ite {s t : State} {c : Prop} [Decidable c] (h : UpkeepStays s t) : UpkeepStays s (if c then t else s) := by
  split
  · exact h
  · exact .refl s

theorem upkeepStays_foldl {α : Type} (l : List α) (f : State → α → State) (h : ∀ a x, UpkeepStays a (f a x)) (s : State) :
    UpkeepStays s (l.foldl f s) := List.foldlRecOn (motive := UpkeepStays s) l f (.refl s) fun _ ha _ _ => (h _ _).after ha

/-! ## Events and records of pages off the chiplets -/

/-- A page that is no lane chiplet's. -/
abbrev offChiplet (p : Nat) : Prop := p < 0x40 ∨ 0x80 ≤ p

theorem ne_of_offChiplet {a p x : Nat} (h : offChiplet p) (hx : x < 0x10000) (ha : onChiplet a) : a ≠ bar0 p x := by
  rintro rfl
  rw [onChiplet, page_bar0 _ hx] at ha
  omega

/-- A header register of a page off the chiplets is none of those that stay. -/
theorem ne_header_of_stays {a p x : Nat} (h : offChiplet p) (hx : x < 0x100) (ha : onChiplet a ∨ beyondHeader a) : a ≠ bar0 p x :=
  ha.elim (ne_of_offChiplet h (by omega)) fun hb => ne_header_of_beyond hb p hx

/-- A set event bit stays set over an event of any page. -/
theorem rb_intStat_raise {q i : Nat} (p b : Nat) {s : State} (hi : i < 32) (h : rb s (H_INT_STAT q) i = true) :
    rb (raise p b s) (H_INT_STAT q) i = true := by
  by_cases hq : q = p
  · subst hq
    exact rb_raise_of_set hi h
  · have hne : H_INT_STAT q ∉ eventRegs p := by
      rw [eventRegs, List.mem_cons, not_or]
      refine ⟨fun e => hq ?_, intStat_not_pba q⟩
      simp only [H_INT_STAT, bar0] at e
      omega
    rw [rb, (raise_changes p b s).1 _ hne]
    exact h

theorem upkeepStays_bumpN (a n : Nat) (s : State) : UpkeepStays s (bumpN a n s) :=
  .of_bus (bumpN_onlyBus _ _ _) (fun _ _ => rd_bumpN _ _ _ _) fun _ _ _ hs => by rw [rb, rd_bumpN]; exact hs

theorem upkeepStays_bump (a : Nat) (s : State) : UpkeepStays s (bump a s) := upkeepStays_bumpN a 1 s

theorem upkeepStays_raise {p : Nat} (h : offChiplet p) (b : Nat) (s : State) : UpkeepStays s (raise p b s) := by
  refine .of_bus (raise_onlyBus _ _ _) (fun a ha => (raise_changes p b s).1 a (not_mem_eventRegs (ne_header_of_stays h (by decide) ha) ?_))
    fun _ _ hi hs => rb_intStat_raise p b hi hs
  rcases ha with ha | ha
  · rw [onChiplet] at ha
    rw [pageHIF]
    omega
  · exact ha.2

theorem upkeepStays_raiseFirst {p : Nat} (h : offChiplet p) (b : Nat) (s : State) : UpkeepStays s (raiseFirst p b s) := by
  unfold raiseFirst
  dsimp only
  split
  · exact (upkeepStays_raise h _ _).after .of_same
  · exact .of_same

theorem upkeepStays_reportFault (p kind addr : Nat) (inj : Bool) (s : State) : UpkeepStays s (reportFault p kind addr inj s) :=
  .of_bus (reportFault_onlyBus _ _ _ _ _) (fun _ _ => rd_reportFault _ _ _ _ _ _) fun _ _ _ hs => by rw [rb, rd_reportFault]; exact hs

/-- A header register other than INT_STAT written. -/
theorem upkeepStays_wr_header {p x : Nat} (h : offChiplet p) (hx : x < 0x100) (hi : x ≠ 0x10) (v : W32) (s : State) :
    UpkeepStays s (wr (bar0 p x) v s) := by
  refine .of_bus (wr_onlyBus _ _ _) (fun a ha => rd_wr_ne _ _ (ne_header_of_stays h hx ha)) fun q i _ hs => ?_
  rw [rb, rd_wr_ne _ _ (by simp only [H_INT_STAT, bar0]; omega)]
  exact hs

theorem upkeepStays_recordErr {p : Nat} (h : offChiplet p) (code detail addr : Nat) (s : State) :
    UpkeepStays s (recordErr p code detail addr s) :=
  (upkeepStays_wr_header h (x := 0x28) (by decide) (by decide) _ _).after <|
    (upkeepStays_wr_header h (x := 0x24) (by decide) (by decide) _ _).after <|
      upkeepStays_wr_header h (x := 0x20) (by decide) (by decide) _ _

/-- A corrected word is counted in its page's header (R580, R589). -/
theorem upkeepStays_correctedAt {p : Nat} (h : offChiplet p) (s : State) : UpkeepStays s (correctedAt p s) := by
  have hcount : UpkeepStays s (addWrap (H_CE_COUNT p) 31 0 1 s) := upkeepStays_wr_header h (x := 0x30) (by decide) (by decide) _ _
  have hbucket : ∀ v t, UpkeepStays t (wf (H_CE_BUCKET p) 31 20 v t) := fun v t =>
    upkeepStays_wr_header h (x := 0x2C) (by decide) (by decide) _ _
  unfold correctedAt
  dsimp only
  split
  · exact (hbucket _ _).after hcount
  · generalize hs2 : wf (H_CE_BUCKET p) 31 20 _ _ = s2
    have h2 : UpkeepStays s s2 := hs2 ▸ (hbucket _ _).after hcount
    split
    · exact (upkeepStays_reportFault _ _ _ _ _).after (UpkeepStays.after .of_same h2)
    · exact h2

/-! ## Reads of table words (R580, R581, R583) -/

/-- No table is a lane chiplet's. -/
theorem offChiplet_tabOwner (a : Nat) : offChiplet (tabOwner a) := by
  right
  unfold tabOwner
  dsimp only
  repeat' split
  all_goals (simp only [pageCAT, pageLPM, pageVIT, pageEDT, pageDPT, pageTSN, pageLDG, pageDOC]; omega)

theorem upkeepStays_flowErr (a : Nat) (s : State) : UpkeepStays s (flowErr a s) := (upkeepStays_raise (by decide) _ _).ite

theorem upkeepStays_uninitAt (a : Nat) (s : State) : UpkeepStays s (uninitAt a s) :=
  (upkeepStays_flowErr _ _).after <| (upkeepStays_raiseFirst (by decide) _ _).after <|
    (upkeepStays_recordErr (by decide) _ _ _ _).after (upkeepStays_bump _ _)

theorem upkeepStays_ueAt (a : Nat) (s : State) : UpkeepStays s (ueAt a s) :=
  (upkeepStays_flowErr _ _).after <| (upkeepStays_reportFault _ _ _ _ _).after (upkeepStays_recordErr (offChiplet_tabOwner a) _ _ _ _)

theorem upkeepStays_noteRead (a : Nat) (s : State) : UpkeepStays s (noteRead a s) := by
  unfold noteRead
  split
  · exact .refl s
  · have hcorrected := upkeepStays_correctedAt (offChiplet_tabOwner a) s
    dsimp only
    split
    · exact .after .of_same hcorrected
    · exact hcorrected
  · exact upkeepStays_uninitAt a s
  · exact upkeepStays_ueAt a s

theorem upkeepStays_noteCe (a : Nat) (s : State) : UpkeepStays s (noteCe a s) := (upkeepStays_noteRead a s).ite

/-! ## Writes of table words (R582-R588) -/

theorem putWords_upkeepStays (a : Nat) (ws : List W32) (s : State) : UpkeepStays s (putWords a ws s) := by
  rw [putWords_rest]
  exact .of_same

theorem upkeepStays_putEcc (b : Nat) (e : Ecc) (s : State) : UpkeepStays s (putEcc b e s) := .of_same

theorem upkeepStays_unclear (b : Nat) (s : State) : UpkeepStays s (unclear b s) := by
  unfold unclear
  dsimp only
  split
  · exact UpkeepStays.ite .of_same
  · exact UpkeepStays.ite .of_same

theorem upkeepStays_ovfEdge (old s : State) : UpkeepStays s (ovfEdge old s) := by
  refine upkeepStays_foldl _ _ (fun a w => ?_) s
  have hp : offChiplet (pageCAT w) := by
    right
    rw [pageCAT]
    omega
  exact (upkeepStays_raise hp 2 a).ite

theorem upkeepStays_wordWritten (b : Nat) (old s : State) : UpkeepStays s (wordWritten b old s) := by
  have hclear : UpkeepStays s (if (eccOf s b).st = .good then unclear b s else s) := (upkeepStays_unclear b s).ite
  unfold wordWritten
  dsimp only
  split
  · exact (upkeepStays_ovfEdge _ _).after hclear
  · exact hclear

theorem upkeepStays_runMerge (m : Merge) (s : State) : UpkeepStays s (runMerge m s) := by
  have hput : ∀ e, UpkeepStays s (wordWritten (eccBase m.addr) s (putWords m.addr m.words (putEcc (eccBase m.addr) e s))) := fun e =>
    (upkeepStays_wordWritten _ _ _).after ((putWords_upkeepStays _ _ _).after (upkeepStays_putEcc _ e s))
  unfold runMerge
  dsimp only
  split
  · exact (upkeepStays_raiseFirst (by decide) _ _).after ((upkeepStays_bump _ _).after (hput _))
  · exact (upkeepStays_bump _ _).after (hput _)
  · exact hput _
  · exact hput _

theorem upkeepStays_settle (s : State) : UpkeepStays s (settle s) :=
  (upkeepStays_foldl _ _ (fun a m => upkeepStays_runMerge m a) _).after .of_same

theorem upkeepStays_engWrite (a : Nat) (ws : List W32) (s : State) : UpkeepStays s (engWrite a ws s) :=
  (upkeepStays_wordWritten _ _ _).after <| (upkeepStays_putEcc _ _ _).after <| (putWords_upkeepStays _ _ _).after (upkeepStays_settle s)

end Sys2Proof.Machine
end

section
/-!
SUPPORT. What leaves the lanes alone: the returns of the Depot, the end of a copy and of a frame that proves bad, and the decision log.
-/
namespace Sys2Proof.Machine

/-! ## What stays -/

/-- From `s` to `t` the lane chiplets' registers, the lanes' coefficients and the part stay. -/
structure LanesStay (s t : State) : Prop where
  regs : ∀ a, onChiplet a → rd t a = rd s a
  lanes : t.lnk.lanes = s.lnk.lanes
  part : t.part = s.part

theorem LanesStay.after {s t u : State} (g : LanesStay t u) (h : LanesStay s t) : LanesStay s u where
  regs a ha := (g.regs a ha).trans (h.regs a ha)
  lanes := g.lanes.trans h.lanes
  part := g.part.trans h.part

/-- A state with the same registers and lanes. -/
theorem LanesStay.of_same {s t : State} (regs : ∀ a, rd t a = rd s a := by intro; rfl)
    (lanes : t.lnk.lanes = s.lnk.lanes := by rfl) (part : t.part = s.part := by rfl) : LanesStay s t :=
  ⟨fun a _ => regs a, lanes, part⟩

theorem LanesStay.refl (s : State) : LanesStay s s := .of_same

theorem LanesStay.of_bus {s t : State} (o : OnlyBus s t) (regs : ∀ a, onChiplet a → rd t a = rd s a) : LanesStay s t :=
  ⟨regs, by rw [o.lnk], o.part⟩

theorem LanesStay.ite {s t : State} {c : Prop} [Decidable c] (h : LanesStay s t) : LanesStay s (if c then t else s) := by
  split
  · exact h
  · exact .refl s

theorem lanesStay_foldl {α : Type} (l : List α) (f : State → α → State) (h : ∀ a x, LanesStay a (f a x)) (s : State) :
    LanesStay s (l.foldl f s) := List.foldlRecOn (motive := LanesStay s) l f (.refl s) fun _ ha _ _ => (h _ _).after ha

theorem UpkeepStays.lanes {s t : State} (h : UpkeepStays s t) : LanesStay s t := ⟨fun a ha => h.regs a (.inl ha), by rw [h.lnk], h.part⟩

/-! ## Registers, counters and events off the chiplets -/

theorem not_onChiplet_of_off {p x : Nat} (hp : offChiplet p) (hx : x < 0x10000) : ¬onChiplet (bar0 p x) := fun h =>
  ne_of_offChiplet hp hx h rfl

theorem lanesStay_wr {a : Nat} (h : ¬onChiplet a) (v : W32) (s : State) : LanesStay s (wr a v s) :=
  .of_bus (wr_onlyBus _ _ _) fun _ hb => rd_wr_ne _ _ fun e => h (e ▸ hb)

theorem lanesStay_wf {a : Nat} (h : ¬onChiplet a) (hi lo v : Nat) (s : State) : LanesStay s (wf a hi lo v s) := lanesStay_wr h _ s

theorem lanesStay_bumpN (a n : Nat) (s : State) : LanesStay s (bumpN a n s) := .of_bus (bumpN_onlyBus _ _ _) fun _ _ => rd_bumpN _ _ _ _

theorem lanesStay_bump (a : Nat) (s : State) : LanesStay s (bump a s) := lanesStay_bumpN a 1 s

theorem lanesStay_raise {p : Nat} (h : offChiplet p) (b : Nat) (s : State) : LanesStay s (raise p b s) := (upkeepStays_raise h b s).lanes

theorem lanesStay_raiseFirst {p : Nat} (h : offChiplet p) (b : Nat) (s : State) : LanesStay s (raiseFirst p b s) :=
  (upkeepStays_raiseFirst h b s).lanes

theorem lanesStay_portCnt (i n k : Nat) (s : State) : LanesStay s (portCnt i n k s) := (lanesStay_bumpN _ _ _).ite

/-! ## Charges, cells and frames -/

/-- What the Depot leaves of the chiplets' registers, with the lanes. -/
theorem FramesStay.lanes {s t : State} (h : FramesStay s t) (lanes : t.lnk.lanes = s.lnk.lanes := by rfl)
    (part : t.part = s.part := by rfl) : LanesStay s t := ⟨h.regs, lanes, part⟩

theorem lanesStay_queueDec (q n : Nat) (s : State) : LanesStay s (queueDec q n s) := (framesStay_queueDec q n s).lanes

theorem lanesStay_judgeLevel (k : Nat) (s : State) : LanesStay s (judgeLevel k s) :=
  (lanesStay_raise (by decide) _ _).ite.after (lanesStay_wf (not_onChiplet (by decide)) _ _ _ _)

theorem lanesStay_poolDec (k n : Nat) (s : State) : LanesStay s (poolDec k n s) :=
  (lanesStay_judgeLevel _ _).after (lanesStay_wf (not_onChiplet (by decide)) _ _ _ _)

theorem lanesStay_areaSub (a : Area) (n : Nat) (s : State) : LanesStay s (areaSub a n s) := by
  cases a with
  | none => exact .refl s
  | queue q => exact .refl s
  | port p => exact .of_same
  | pool k q =>
    cases q with
    | none => exact lanesStay_poolDec k n s
    | some q => exact LanesStay.after .of_same (lanesStay_poolDec k n s)
  | headroom i => exact lanesStay_wf (not_onChiplet (by decide)) _ _ _ _

theorem lanesStay_enterXoff (i p : Nat) (s : State) : LanesStay s (enterXoff i p s) := by
  unfold enterXoff
  split
  · exact .refl s
  · exact (lanesStay_bump _ _).after (LanesStay.after .of_same (lanesStay_wf (not_onChiplet (by decide)) _ _ _ _))

theorem lanesStay_setPair (i p n : Nat) (s : State) : LanesStay s (setPair i p n s) := (lanesStay_enterXoff i p _).ite.after .of_same

theorem lanesStay_putFrame (f : Frame) (s : State) : LanesStay s (putFrame f s) := .of_same

theorem lanesStay_uncharge (id n : Nat) (s : State) : LanesStay s (uncharge id n s) := by
  unfold uncharge
  split
  · exact .refl s
  · exact (lanesStay_setPair _ _ _ _).after ((lanesStay_areaSub _ _ _).after (lanesStay_putFrame _ s))

theorem lanesStay_cellBack (c : Nat) (s : State) : LanesStay s (cellBack c s) := by
  have hlnk : (cellBack c s).lnk.lanes = s.lnk.lanes ∧ (cellBack c s).part = s.part := by
    unfold cellBack
    dsimp only
    split <;> exact ⟨rfl, rfl⟩
  exact (framesStay_cellBack c s).lanes hlnk.1 hlnk.2

theorem lanesStay_descBack (f : Frame) (s : State) : LanesStay s (descBack f s) :=
  lanesStay_foldl _ _ (fun a c => (lanesStay_poolDec _ _ _).after ((lanesStay_bump _ _).after (lanesStay_cellBack c a))) s

theorem lanesStay_partToMac (id : Nat) (s : State) : LanesStay s (partToMac id s) := by
  unfold partToMac
  split
  · exact .refl s
  · split
    · exact .refl s
    · exact LanesStay.ite .of_same

theorem lanesStay_delFrame (id : Nat) (s : State) : LanesStay s (delFrame id s) := LanesStay.after .of_same (lanesStay_partToMac id s)

theorem lanesStay_tryEnd (id : Nat) (s : State) : LanesStay s (tryEnd id s) := by
  unfold tryEnd
  split
  · exact .refl s
  · next f _ =>
    split
    · exact .refl s
    · have hback := (lanesStay_descBack f _).after (lanesStay_uncharge id f.charge s)
      refine (lanesStay_delFrame _ _).after ?_
      split
      · exact hback
      · exact LanesStay.after .of_same hback

/-! ## Copies -/

theorem lanesStay_poolStatus (k : Nat) (s : State) : LanesStay s (poolStatus k s) :=
  ((lanesStay_raise (by decide) _ _).ite.after (lanesStay_wf (not_onChiplet (by decide)) _ _ _ _)).after
    (lanesStay_wf (not_onChiplet (by decide)) _ _ _ _)

theorem lanesStay_vaultGive (k c b : Nat) (s : State) : LanesStay s (vaultGive k c b s) := (lanesStay_poolStatus k _).after .of_same

theorem lanesStay_endCopyBut (keep : Nat) (c : Copy) (s : State) : LanesStay s (endCopyBut keep c s) := by
  unfold endCopyBut
  refine (lanesStay_tryEnd _ _).after ((lanesStay_queueDec _ _ _).after ?_)
  dsimp only
  split
  · refine (framesStay_vaultBytes _ _).lanes.after ((lanesStay_vaultGive _ _ _ _).after ?_)
    exact .of_same
  · exact .of_same

theorem lanesStay_dropPicked (g reason : Nat) (s : State) : LanesStay s (dropPicked g reason s).2 := by
  unfold dropPicked
  split
  · exact .of_same
  · exact .refl s

theorem lanesStay_arcLose (r : Nat) (s : State) : LanesStay s (arcLose r s) := by
  unfold arcLose
  exact (lanesStay_raiseFirst (by decide) _ _).after (LanesStay.after .of_same (lanesStay_wr (not_onChiplet (by decide)) _ _))

theorem lanesStay_offerCap (c : Cap) (s : State) : LanesStay s (offerCap c s) := by
  unfold offerCap
  split
  · exact .of_same
  · exact (lanesStay_arcLose _ _).ite

theorem lanesStay_dropCopy (reason : Nat) (c : Copy) (s : State) : LanesStay s (dropCopy reason c s) := by
  unfold dropCopy
  split
  · exact lanesStay_endCopyBut 0 c s
  · dsimp only
    split
    · exact (lanesStay_endCopyBut 0 c _).after (lanesStay_dropPicked _ _ s)
    · exact (lanesStay_endCopyBut _ c _).after ((lanesStay_offerCap _ _).after (lanesStay_dropPicked _ _ s))

theorem lanesStay_countDown (i : Nat) (s : State) : LanesStay s (countDown i s) :=
  LanesStay.after (lanesStay_wr (not_onChiplet (by decide)) _ _) (lanesStay_bump _ _)

/-! ## A frame that proves bad -/

theorem lanesStay_flowAdd (x n : Nat) (s : State) : LanesStay s (flowAdd x n s) := by
  have hsettled := upkeepStays_settle s
  unfold flowAdd
  split
  · exact .refl s
  · dsimp only
    split
    · exact ((upkeepStays_engWrite _ _ _).after ((upkeepStays_noteCe _ _).after hsettled)).lanes
    · exact ((upkeepStays_noteRead _ _).after hsettled).lanes

theorem lanesStay_countFlows (xs : List Nat) (len : Nat) (s : State) : LanesStay s (countFlows xs len s) :=
  lanesStay_foldl _ _ (fun a x => lanesStay_flowAdd x len a) s

theorem lanesStay_cancelLearns (w : Nat) (ls : List Learn) (s : State) : LanesStay s (cancelLearns w ls s) := (lanesStay_bumpN _ _ _).ite

theorem upkeepStays_tsnErr (a : Nat) (s : State) : UpkeepStays s (tsnErr a s) := by
  unfold tsnErr
  dsimp only
  refine (upkeepStays_raise (by decide) _ _).after ((upkeepStays_bump _ _).after ((upkeepStays_recordErr (by decide) _ _ _ _).after ?_))
  split
  · exact upkeepStays_uninitAt a s
  · exact upkeepStays_reportFault _ _ _ _ _

theorem lanesStay_srfUnpass (x : Option (Nat × Nat)) (s : State) : LanesStay s (srfUnpass x s) := by
  have hsettled := upkeepStays_settle s
  cases x with
  | none => exact .refl s
  | some x =>
    unfold srfUnpass
    dsimp only
    split
    · exact ((upkeepStays_tsnErr _ _).after hsettled).lanes
    · split
      · exact ((upkeepStays_engWrite _ _ _).after hsettled).lanes
      · exact hsettled.lanes

theorem lanesStay_hallBad (f : Frame) (s : State) : LanesStay s (hallBad f s) := by
  have hput := (lanesStay_putFrame { f with bad := true, whole := true, learn := [] } _).after
    ((lanesStay_srfUnpass f.srf _).after (lanesStay_cancelLearns (portWing f.port) f.learn s))
  exact (lanesStay_tryEnd _ _).after ((lanesStay_foldl _ _ (fun a c => lanesStay_endCopyBut 0 c a) _).after hput)

theorem lanesStay_rxSettle_bad (id : Nat) (bytes : List Byte) (s : State) : LanesStay s (rxSettle id bytes true s) := by
  unfold rxSettle
  split
  · exact .refl s
  · next f _ =>
    have hflows := lanesStay_countFlows f.counted bytes.length s
    dsimp only
    split
    · exact (lanesStay_hallBad _ _).after hflows
    · exact (lanesStay_putFrame _ _).after hflows

theorem lanesStay_rxGone_bad (i : Nat) (r : RxOpen) (len : Nat) (s : State) : LanesStay s (rxGone i r len true s) :=
  (lanesStay_srfUnpass _ _).after ((lanesStay_cancelLearns _ _ _).after (lanesStay_countFlows _ _ s))

theorem lanesStay_dropHeld (r : RxOpen) (s : State) : LanesStay s (dropHeld r s) := by
  unfold dropHeld
  split
  · exact lanesStay_delFrame _ s
  · exact .refl s

theorem lanesStay_rxDone (i : Nat) (s : State) : LanesStay s (rxDone i s) := .of_same

/-- A frame that ends bad touches no lane. -/
theorem lanesStay_rxEnd_bad (i : Nat) (r : RxOpen) (bytes : List Byte) (n : Nat) (s : State) :
    LanesStay s (rxEnd i r bytes (some n) s) := by
  have hdone := lanesStay_rxDone i s
  unfold rxEnd
  dsimp only
  split
  · cases ‹some n = none›
  · exact (lanesStay_portCnt _ _ _ _).after ((lanesStay_dropHeld _ _).after hdone)
  · split
    · exact (lanesStay_rxSettle_bad _ _ _).after ((lanesStay_portCnt _ _ _ _).after hdone)
    · exact (lanesStay_rxGone_bad _ _ _ _).after ((lanesStay_portCnt _ _ _ _).after hdone)

theorem lanesStay_rxTruncate (i : Nat) (s : State) : LanesStay s (rxTruncate i s) := by
  unfold rxTruncate
  split
  · exact .refl s
  · exact lanesStay_rxEnd_bad _ _ _ _ _

/-- A port that goes down drops its frames and leaves the lanes (R73, R95). -/
theorem lanesStay_portFalls (i : Nat) (s : State) : LanesStay s (portFalls i s) :=
  (lanesStay_foldl _ _ (fun a c => (lanesStay_dropCopy _ c _).after (lanesStay_countDown i a)) _).after (lanesStay_rxTruncate i s)

/-! ## The decision log (R492, R493) -/

/-- From `s` to `t` a record of the log has been written, kept or lost: the registers beyond the Curator's page and the pending bits stay, and
so do the lane chiplets' counters and the state of every other block. -/
structure LogStays (s t : State) : Prop where
  regs : ∀ a, a / 0x10000 ≠ pageCUR → a / 0x10000 ≠ pageHIF + 6 → rd t a = rd s a
  ctrs : ∀ a, onChiplet a → ctr t a = ctr s a
  rest : t = { s with bus := t.bus, cur := t.cur, hif := t.hif, anx := t.anx }

theorem LogStays.after {s t u : State} (g : LogStays t u) (h : LogStays s t) : LogStays s u where
  regs a hp hq := (g.regs a hp hq).trans (h.regs a hp hq)
  ctrs a ha := (g.ctrs a ha).trans (h.ctrs a ha)
  rest := by rw [g.rest, h.rest]

theorem LogStays.of_same {s t : State} (regs : ∀ a, rd t a = rd s a := by intro; rfl) (ctrs : ∀ a, ctr t a = ctr s a := by intro; rfl)
    (rest : t = { s with bus := t.bus, cur := t.cur, hif := t.hif, anx := t.anx } := by rfl) : LogStays s t :=
  ⟨fun a _ _ => regs a, fun a _ => ctrs a, rest⟩

theorem LogStays.refl (s : State) : LogStays s s := .of_same

theorem LogStays.of_bus {s t : State} (o : OnlyBus s t) (regs : ∀ a, a / 0x10000 ≠ pageCUR → a / 0x10000 ≠ pageHIF + 6 → rd t a = rd s a)
    (ctrs : ∀ a, onChiplet a → ctr t a = ctr s a) : LogStays s t where
  regs := regs
  ctrs := ctrs
  rest := by
    have hbus : t = { s with bus := t.bus } := o
    rw [hbus]

theorem LogStays.lanes {s t : State} (h : LogStays s t) : LanesStay s t where
  regs a ha := h.regs a (by rw [onChiplet] at ha; rw [pageCUR]; omega) (by rw [onChiplet] at ha; rw [pageHIF]; omega)
  lanes := congrArg (fun x => x.lnk.lanes) h.rest
  part := congrArg (fun x => x.part) h.rest

theorem logStays_curLog {x : Nat} (hx : x < 0x10000) (v : W32) (s : State) : LogStays s (wr (bar0 pageCUR x) v s) :=
  .of_bus (wr_onlyBus _ _ _) (fun a hp _ => rd_wr_ne _ _ (by rintro rfl; exact hp (page_bar0 _ hx))) fun _ _ => rfl

theorem logStays_curCnt {n : Nat} (hn : n < 64) (s : State) : LogStays s (bump (CUR_CNT n) s) :=
  .of_bus (bump_onlyBus _ _) (fun _ _ _ => rd_bump _ _ _) fun a ha => by
    have hne : a ≠ CUR_CNT n := ne_of_offChiplet (by decide) (by omega) ha
    rw [ctr_bump, if_neg hne]

theorem not_onLedger_of_onChiplet {a : Nat} (h : onChiplet a) : ¬onLedger a := by
  rw [onChiplet] at h
  rw [onLedger]
  omega

theorem cnt8_off_chiplets {a : Nat} (h : onChiplet a) : a ≠ HIF_CNT 8 := by
  exact ne_of_offChiplet (by decide) (by decide) h

theorem logStays_raiseFirst (b : Nat) (s : State) : LogStays s (raiseFirst pageCUR b s) :=
  .of_bus (raiseFirst_onlyBus _ _ _) (fun a hp hq => by
      have hne : a ∉ eventRegs pageCUR := not_mem_eventRegs (by rintro rfl; exact hp (page_bar0 _ (by decide))) hq
      unfold raiseFirst
      dsimp only
      split
      · exact (raise_changes _ _ _).1 a hne
      · rfl) fun a ha => ctr_raiseFirst (cnt8_off_chiplets ha) (not_onLedger_of_onChiplet ha) _ _ _

theorem logStays_loseLog (s : State) : LogStays s (loseLog s) := by
  have hcount := (logStays_curLog (x := 0x124) (by decide) (rd s CUR_LOG_LOST + 1) _).after
    (logStays_curCnt (n := 6) (by decide) s)
  exact (logStays_raiseFirst _ _).after (LogStays.after .of_same hcount)

theorem logStays_hostWrite (a : Nat) (bs : List Byte) (s : State) : LogStays s (hostWrite a bs s) := by
  induction bs generalizing a s with
  | nil => exact .refl s
  | cons b bs ih => exact (ih _ _).after .of_same

theorem logStays_takeLog (r : LogRec) (s : State) : LogStays s (takeLog r s).2 :=
  (logStays_curCnt (n := 5) (by decide) _).after .of_same

theorem logStays_writeLog (r : LogRec) (s : State) : LogStays s (writeLog r s) :=
  (logStays_curLog (x := 0x11C) (by decide) _ _).after ((logStays_hostWrite _ _ _).after (logStays_takeLog r s))

theorem logStays_drainLog (n : Nat) (s : State) : LogStays s (drainLog n s) := by
  induction n generalizing s with
  | zero => exact .refl s
  | succ n ih =>
    unfold drainLog
    split
    · exact .refl s
    · next r rest _ =>
      have hrest : LogStays s { s with cur := { s.cur with staged := rest } } := .of_same
      dsimp only
      split
      · split
        · exact (ih _).after (LogStays.after .of_same ((logStays_takeLog r _).after hrest))
        · exact .refl s
      · split
        · exact .refl s
        · split
          · split
            · exact (ih _).after <| (logStays_writeLog r _).after <| (logStays_loseLog _).after <|
                (logStays_curLog (x := 0x120) (by decide) _ _).after hrest
            · exact (ih _).after ((logStays_loseLog _).after hrest)
          · exact (ih _).after ((logStays_writeLog r _).after hrest)

theorem logStays_logRecord (knob reason inst old new meas : Nat) (s : State) : LogStays s (logRecord knob reason inst old new meas s) := by
  unfold logRecord
  dsimp only
  split
  · exact logStays_loseLog s
  · split
    · exact (logStays_drainLog _ _).after .of_same
    · split
      · exact (logStays_loseLog _).after .of_same
      · exact logStays_loseLog s

end Sys2Proof.Machine
end

section
/-!
SUPPORT. Lane states: requests, training, loss of lock and retunes (R94-R97), and the settled statement about them.
-/
namespace Sys2Proof.Machine

/-! ## A lane's registers -/

theorem laneState_laneNo (k : Chiplet) (l : Lane) (s : State) : laneState s (laneNo k l) = rf s (LNK_LANE_STAT k l) 2 0 := by
  have hk : laneNo k l / 64 = k := by rw [laneNo]; omega
  have hl : laneNo k l % 64 = l := by rw [laneNo]; omega
  rw [laneState, hk, hl]

theorem onChiplet_laneStat (k : Chiplet) (l : Lane) : onChiplet (LNK_LANE_STAT k l) := onChiplet_bar0 k (by decide) (by omega)

theorem onChiplet_laneCtrl (k : Chiplet) (l : Lane) : onChiplet (LNK_LANE_CTRL k l) := onChiplet_bar0 k (by decide) (by omega)

theorem onChiplet_intStat (k : Chiplet) : onChiplet (H_INT_STAT (pageLNK k)) := by
  rw [H_INT_STAT, onChiplet, page_bar0 _ (by decide), pageLNK]
  omega

theorem onChiplet_octetMode {o : Nat} (h : o < 64) : onChiplet (LNK_OCTET_MODE (o / 8) (o % 8)) := by
  rw [LNK_OCTET_MODE, onChiplet, page_bar0 _ (by omega), pageLNK]
  omega

theorem laneCtrl_ne_laneStat (k l : Nat) : LNK_LANE_CTRL k l ≠ LNK_LANE_STAT k l := by
  simp only [LNK_LANE_CTRL, LNK_LANE_STAT, bar0]
  omega

/-- No lane's status is a header register or a pending word of a vector. -/
theorem beyondHeader_laneStat (a : Nat) {i : Nat} (hi : i < 64) : beyondHeader (LNK_LANE_STAT a i) :=
  beyondHeader_bar0 (by omega) (by omega) (by simp only [pageLNK, pageHIF]; omega)

theorem not_event_of_beyond {a : Nat} (h : beyondHeader a) (p : Nat) : a ∉ eventRegs p :=
  not_mem_eventRegs (ne_header_of_beyond h p (by decide)) h.2

theorem laneCtrl_not_event (k : Chiplet) (l : Lane) : LNK_LANE_CTRL k l ∉ eventRegs (pageLNK k) :=
  not_event_of_beyond (beyondHeader_chiplet k (by decide) (by omega) (by omega)) _

theorem laneStat_not_event (k : Chiplet) (l : Lane) : LNK_LANE_STAT k l ∉ eventRegs (pageLNK k) :=
  not_event_of_beyond (beyondHeader_laneStat k l.isLt) _

/-! ## What a lane shows where the lanes stay -/

theorem LanesStay.laneState_eq {s t : State} (h : LanesStay s t) (k : Chiplet) (l : Lane) :
    laneState t (laneNo k l) = laneState s (laneNo k l) := by
  rw [laneState_laneNo, laneState_laneNo, rf, rf, h.regs _ (onChiplet_laneStat k l)]

theorem LanesStay.laneSt_eq {s t : State} (h : LanesStay s t) (k l : Nat) : laneSt t k l = laneSt s k l := by
  rw [laneSt, laneSt, h.lanes]

theorem laneSt_putLane (k l : Nat) (v : LaneSt) (s : State) : laneSt (putLane k l v s) k l = v := sGet_sPut_same _ _ _ _

theorem laneState_putLane (k l n : Nat) (v : LaneSt) (s : State) : laneState (putLane k l v s) n = laneState s n := rfl

@[simp] theorem rd_putLane (k l : Nat) (v : LaneSt) (s : State) (a : Nat) : rd (putLane k l v s) a = rd s a := rfl

/-! ## A lane moves (R94) -/

/-- Lane `l` of chiplet `k` shown in state `v`, with its event. -/
def laneMoved (k l v : Nat) (s : State) : State :=
  raise (pageLNK k) 0 (if v = 3 then wf (LNK_LANE_STAT k l) 2 0 v s else wf (LNK_LANE_STAT k l) 15 8 0 (wf (LNK_LANE_STAT k l) 2 0 v s))

theorem setLaneState_eq (k l v : Nat) (s : State) : setLaneState k l v s =
    if laneState s (laneNo k l) = v then s
    else if portUp s (lanePort s (laneNo k l)) && !portUp (laneMoved k l v s) (lanePort s (laneNo k l)) then
      portFalls (lanePort s (laneNo k l)) (laneMoved k l v s)
    else laneMoved k l v s := rfl

theorem regsBut_laneMoved (k l v : Nat) (s : State) : RegsBut (LNK_LANE_STAT k l :: eventRegs (pageLNK k)) s (laneMoved k l v s) := by
  intro a ha
  rw [List.mem_cons, not_or] at ha
  rw [laneMoved, (raise_changes _ _ _).1 a ha.2]
  split
  · exact rd_wf_ne _ _ _ _ ha.1
  · rw [rd_wf_ne _ _ _ _ ha.1, rd_wf_ne _ _ _ _ ha.1]

theorem onlyBus_laneMoved (k l v : Nat) (s : State) : OnlyBus s (laneMoved k l v s) := by
  refine OnlyBus.trans' (raise_onlyBus _ _ _) ?_
  split
  · exact wf_onlyBus _ _ _ _ _
  · exact OnlyBus.trans' (wf_onlyBus _ _ _ _ _) (wf_onlyBus _ _ _ _ _)

/-- The lane's status: its state, and a bit error estimate of 0 unless it is UP. -/
theorem laneStat_laneMoved (k : Chiplet) (l : Lane) (v : Nat) (s : State) :
    rf (laneMoved k l v s) (LNK_LANE_STAT k l) 2 0 = v % 8 ∧
    (v ≠ 3 → rf (laneMoved k l v s) (LNK_LANE_STAT k l) 15 8 = 0) := by
  have hraise : ∀ hi lo t, rf (raise (pageLNK k) 0 t) (LNK_LANE_STAT k l) hi lo = rf t (LNK_LANE_STAT k l) hi lo := fun hi lo t => by
    rw [rf, rf, (raise_changes _ _ _).1 _ (laneStat_not_event k l)]
  rw [laneMoved, hraise, hraise]
  by_cases hv : v = 3
  · rw [if_pos hv]
    exact ⟨rf_wf_same _ _ _ _ _ (by decide) (by decide), fun h => absurd hv h⟩
  · rw [if_neg hv]
    refine ⟨?_, fun _ => rf_wf_same _ _ _ _ _ (by decide) (by decide)⟩
    rw [rf_wf_field_ne _ _ _ _ _ _ _ (by decide) (by decide) (.inr (by decide))]
    exact rf_wf_same _ _ _ _ _ (by decide) (by decide)

theorem laneState_laneMoved (k : Chiplet) (l : Lane) {v : Nat} (s : State) (hv : v < 8) :
    laneState (laneMoved k l v s) (laneNo k l) = v := by
  rw [laneState_laneNo, (laneStat_laneMoved k l v s).1, Nat.mod_eq_of_lt hv]

theorem rb_laneMoved (k l v : Nat) (s : State) : rb (laneMoved k l v s) (H_INT_STAT (pageLNK k)) 0 = true := rb_raise_self _ _ (by decide)

/-- Whatever falls with the lane's port, the lane moves and no lane register changes beside. -/
theorem setLaneState_moves {k l v : Nat} {s : State} (h : laneState s (laneNo k l) ≠ v) :
    LanesStay (laneMoved k l v s) (setLaneState k l v s) := by
  rw [setLaneState_eq, if_neg h]
  exact (lanesStay_portFalls _ _).ite

theorem laneState_setLaneState (k : Chiplet) (l : Lane) {v : Nat} (s : State) (hv : v < 8) :
    laneState (setLaneState k l v s) (laneNo k l) = v := by
  by_cases h : laneState s (laneNo k l) = v
  · rw [setLaneState_eq, if_pos h, h]
  · rw [(setLaneState_moves h).laneState_eq, laneState_laneMoved k l s hv]

theorem laneSt_setLaneState (k l v : Nat) (s : State) : laneSt (setLaneState k l v s) k l = laneSt s k l := by
  by_cases h : laneState s (laneNo k l) = v
  · rw [setLaneState_eq, if_pos h]
  · rw [(setLaneState_moves h).laneSt_eq, laneSt, (onlyBus_laneMoved _ _ _ _).lnk, laneSt]

theorem rd_laneCtrl_setLaneState (k : Chiplet) (l : Lane) (v : Nat) (s : State) :
    rd (setLaneState k l v s) (LNK_LANE_CTRL k l) = rd s (LNK_LANE_CTRL k l) := by
  by_cases h : laneState s (laneNo k l) = v
  · rw [setLaneState_eq, if_pos h]
  · rw [(setLaneState_moves h).regs _ (onChiplet_laneCtrl k l)]
    refine regsBut_laneMoved k l v s _ fun hm => ?_
    exact (List.mem_cons.mp hm).elim (laneCtrl_ne_laneStat k l) (laneCtrl_not_event k l)

/-! ## The lane's port (R67, R95) -/

theorem modeLanes_cases (m : Nat) : modeLanes m = 0 ∨ modeLanes m = 1 ∨ modeLanes m = 2 ∨ modeLanes m = 4 ∨ modeLanes m = 8 := by
  by_cases h : m < 9
  · interval_cases m <;> decide
  · left
    exact List.getD_eq_default _ _ (by simpa using h)

/-- A lane's port is formed in the lane's own octet and counts the lane among its lanes. -/
theorem lanePort_octet (s : State) (n : Nat) : lanePort s n / 8 = n / 8 ∧
    (modeLanes (octetMode s (n / 8)) ≠ 0 → ∃ j, j < modeLanes (octetMode s (n / 8)) ∧ lanePort s n + j = n) := by
  rw [lanePort]
  refine ⟨?_, fun h => ⟨n % modeLanes (octetMode s (n / 8)), Nat.mod_lt _ (Nat.pos_of_ne_zero h), ?_⟩⟩
  · have hspan : ∀ m, max (modeLanes m) 1 = 1 ∨ max (modeLanes m) 1 = 2 ∨ max (modeLanes m) 1 = 4 ∨ max (modeLanes m) 1 = 8 := fun m => by
      have hm := modeLanes_cases m
      omega
    rcases hspan (octetMode s (n / 8)) with h | h | h | h <;> rw [h] <;> omega
  · have hle := Nat.mod_le n (modeLanes (octetMode s (n / 8)))
    rw [Nat.max_eq_left (Nat.pos_of_ne_zero h)]
    omega

theorem lanePort_lt {n : Nat} (s : State) (h : n < 512) : lanePort s n < 512 := by
  rw [lanePort]
  omega

theorem laneNo_lt (k : Chiplet) (l : Lane) : laneNo k l < 512 := by
  rw [laneNo]
  omega

theorem laneUp_congr {s t : State} {n : Nat} (h : rd t (LNK_LANE_STAT (n / 64) (n % 64)) = rd s (LNK_LANE_STAT (n / 64) (n % 64))) :
    laneUp t n = laneUp s n := by
  simp only [laneUp, laneState, rf, h]

theorem octetMode_congr {s t : State} {o : Nat} (h : rd t (LNK_OCTET_MODE (o / 8) (o % 8)) = rd s (LNK_OCTET_MODE (o / 8) (o % 8))) :
    octetMode t o = octetMode s o := by
  simp only [octetMode, rf, h]

theorem portPresent_congr {s t : State} {i : Nat} (hm : octetMode t (i / 8) = octetMode s (i / 8)) (hp : t.part = s.part) :
    portPresent t i = portPresent s i := by
  simp only [portPresent, hm, hp]

/-- A network port is up or down as its octet's mode and its lanes say. -/
theorem portUp_congr {s t : State} {i : Nat} (hi : i < 512) (hm : octetMode t (i / 8) = octetMode s (i / 8)) (hp : t.part = s.part)
    (hl : ∀ n, laneUp t n = laneUp s n) : portUp t i = portUp s i := by
  simp only [portUp, if_pos hi, portPresent_congr hm hp, hm, hl]

/-- A port with a lane that is not up is down. -/
theorem portUp_of_laneDown {s t : State} {n : Nat} (hn : n < 512) (hm : octetMode t (n / 8) = octetMode s (n / 8))
    (hd : laneUp t n = false) : portUp t (lanePort s n) = false := by
  obtain ⟨hoct, hlane⟩ := lanePort_octet s n
  rw [portUp, if_pos (lanePort_lt s hn), hoct, hm]
  by_cases h0 : modeLanes (octetMode s (n / 8)) = 0
  · rw [portPresent, if_pos (lanePort_lt s hn), hoct, hm, h0]
    simp
  · obtain ⟨j, hj, e⟩ := hlane h0
    rw [Bool.and_eq_false_iff]
    right
    rw [List.all_eq_false]
    exact ⟨j, List.mem_range.mpr hj, by rw [e, hd]; decide⟩

theorem octetMode_ne_laneStat (a k l i : Nat) (hl : l < 64) (hi : i < 8) : LNK_OCTET_MODE a i ≠ LNK_LANE_STAT k l := by
  simp only [LNK_OCTET_MODE, LNK_LANE_STAT, bar0, pageLNK]
  omega

theorem octetMode_laneMoved (k : Chiplet) (l : Lane) (v o : Nat) (s : State) :
    octetMode (laneMoved k l v s) o = octetMode s o := by
  refine octetMode_congr (regsBut_laneMoved k l v s _ fun hm => ?_)
  rcases List.mem_cons.mp hm with h | h
  · exact octetMode_ne_laneStat _ _ _ _ l.isLt (by omega) h
  · exact not_event_of_beyond (beyondHeader_bar0 (by omega) (by omega) (by simp only [pageLNK, pageHIF]; omega)) _ h

/-- No other lane is up or down for it. -/
theorem laneUp_laneMoved (k : Chiplet) (l : Lane) (v : Nat) {n : Nat} (s : State) (h : n ≠ laneNo k l) :
    laneUp (laneMoved k l v s) n = laneUp s n := by
  refine laneUp_congr (regsBut_laneMoved k l v s _ fun hm => ?_)
  rcases List.mem_cons.mp hm with e | e
  · simp only [LNK_LANE_STAT, bar0, pageLNK] at e
    rw [laneNo] at h
    omega
  · exact not_event_of_beyond (beyondHeader_laneStat _ (Nat.mod_lt _ (by decide))) _ e

/-- A lane that leaves RETUNE for UP leaves every port as it was. -/
theorem portUp_laneMoved_up (k : Chiplet) (l : Lane) {i : Nat} {s : State} (hi : i < 512) (h : laneState s (laneNo k l) = 4) :
    portUp (laneMoved k l 3 s) i = portUp s i := by
  refine portUp_congr hi (octetMode_laneMoved k l 3 _ s) (onlyBus_laneMoved _ _ _ _).part fun n => ?_
  by_cases hn : n = laneNo k l
  · rw [hn, laneUp, laneUp, laneState_laneMoved k l s (by decide), h]
    rfl
  · exact laneUp_laneMoved k l 3 s hn

/-- A retuned lane comes UP without touching its port. -/
theorem setLaneState_retuned (k : Chiplet) (l : Lane) {s : State} (h : laneState s (laneNo k l) = 4) :
    setLaneState k l 3 s = laneMoved k l 3 s := by
  rw [setLaneState_eq, if_neg (by omega), portUp_laneMoved_up k l (lanePort_lt s (laneNo_lt k l)) h, Bool.and_not_self,
    if_neg Bool.false_ne_true]

/-- A lane that was not up takes no port down. -/
theorem setLaneState_trained (k : Chiplet) (l : Lane) {v : Nat} {s : State} (h : laneState s (laneNo k l) ≠ v)
    (hd : laneUp s (laneNo k l) = false) : setLaneState k l v s = laneMoved k l v s := by
  rw [setLaneState_eq, if_neg h, portUp_of_laneDown (s := s) (laneNo_lt k l) rfl hd, Bool.false_and, if_neg Bool.false_ne_true]

/-- A port that carries nothing goes down without touching a frame. -/
theorem portFalls_quiet {s : State} {i : Nat} (h : quietPort s i) : portFalls i s = s := by
  obtain ⟨hrx, hcopies⟩ := h
  have htrunc : rxTruncate i s = s := by rw [rxTruncate, hrx]
  have hnone : (s.copies.filter fun c => c.port == i && c.stage != .queued) = [] := by
    rw [List.filter_eq_nil_iff]
    intro c hc
    by_cases hp : c.port = i
    · simp [hcopies c hc hp]
    · simp [hp]
  rw [portFalls, htrunc, hnone]
  rfl

theorem quietPort_laneMoved {k l v i : Nat} {s : State} (h : quietPort s i) : quietPort (laneMoved k l v s) i := by
  have hbus := onlyBus_laneMoved k l v s
  rw [quietPort, hbus.lnk, hbus.copies]
  exact h

theorem setLaneState_quiet {k l v : Nat} {s : State} (h : laneState s (laneNo k l) ≠ v) (hq : quietPort s (lanePort s (laneNo k l))) :
    setLaneState k l v s = laneMoved k l v s := by
  rw [setLaneState_eq, if_neg h, portFalls_quiet (quietPort_laneMoved hq), ite_self]

/-! ## Lane requests (R94, R97) -/

theorem laneReq_congr {s t : State} {k l : Nat} (h : rd t (LNK_LANE_CTRL k l) = rd s (LNK_LANE_CTRL k l)) : laneReq t k l = laneReq s k l := by
  rw [laneReq, laneReq, rf, rf, h]

/-- The retune that a request ends leaves the lane's registers, and the coefficients that were saved (R97). -/
theorem abortRetune_lanes (k l reason meas : Nat) (s : State) :
    LanesStay (putLane k l { laneSt s k l with coef := (laneSt s k l).saved } s) (abortRetune k l reason meas s) :=
  (logStays_logRecord _ _ _ _ _ _ _).lanes

theorem hostAborts_lanes (k l : Nat) (s : State) :
    LanesStay (putLane k l { laneSt s k l with coef := (laneSt s k l).saved } s) (hostAborts k l s) :=
  (abortRetune_lanes k l _ _ _).after .of_same

/-- What a request leaves, from state `s` of the lane: its own register, and the state and coefficients that it asks for. -/
structure RequestDone (k : Chiplet) (l : Lane) (s t : State) : Prop where
  ctrl : rd t (LNK_LANE_CTRL k l) = rd s (LNK_LANE_CTRL k l)
  off : laneReq s k l = 0 → laneState t (laneNo k l) = 0 ∧ laneSt t k l = laneNone
  hold : laneReq s k l = 1 → laneState t (laneNo k l) = if laneState s (laneNo k l) = 0 then 0 else 1
  up : laneReq s k l = 2 → laneState t (laneNo k l) =
    if laneState s (laneNo k l) = 0 then 2 else if laneState s (laneNo k l) = 4 then 3 else laneState s (laneNo k l)
  restore : laneReq s k l = 2 → laneState s (laneNo k l) = 1 → laneSt t k l = { laneSt s k l with restoring := true }
  saved : laneReq s k l = 2 → laneState s (laneNo k l) = 4 → laneSt t k l = { laneSt s k l with coef := (laneSt s k l).saved }

/-- The state that a request starts from, the retune ended first. -/
def requested (k l : Nat) (s : State) : State := if laneState s (laneNo k l) = 4 then hostAborts k l s else s

theorem applyLaneReq_off {k l : Nat} {s : State} (h : laneReq (requested k l s) k l = 0) :
    applyLaneReq k l s = setLaneState k l 0 (putLane k l laneNone (requested k l s)) := by
  rw [requested] at h
  rw [applyLaneReq, h]
  rfl

theorem applyLaneReq_hold {k l : Nat} {s : State} (h : laneReq (requested k l s) k l = 1) :
    applyLaneReq k l s = if laneState s (laneNo k l) = 0 then requested k l s
      else setLaneState k l 1 (putLane k l { laneSt (requested k l s) k l with restoring := false } (requested k l s)) := by
  rw [requested] at h
  rw [applyLaneReq, h]
  rfl

theorem applyLaneReq_up {k l : Nat} {s : State} (h : laneReq (requested k l s) k l = 2) :
    applyLaneReq k l s = if laneState s (laneNo k l) = 0 then setLaneState k l 2 (requested k l s)
      else if laneState s (laneNo k l) = 1 then
        putLane k l { laneSt (requested k l s) k l with restoring := true } (requested k l s)
      else if laneState s (laneNo k l) = 4 then setLaneState k l 3 (requested k l s) else requested k l s := by
  rw [requested] at h
  rw [applyLaneReq, h]
  rfl

/-- The retune ended: the registers stay, and the saved coefficients return. -/
theorem rd_requested (k l : Nat) (s : State) {a : Nat} (ha : onChiplet a) : rd (requested k l s) a = rd s a := by
  unfold requested
  split
  · rw [(hostAborts_lanes k l s).regs a ha, rd_putLane]
  · rfl

theorem laneSt_requested {k l : Nat} {s : State} (h : laneState s (laneNo k l) = 4) :
    laneSt (requested k l s) k l = { laneSt s k l with coef := (laneSt s k l).saved } := by
  rw [requested, if_pos h, (hostAborts_lanes k l s).laneSt_eq, laneSt_putLane]

theorem laneState_requested (k : Chiplet) (l : Lane) (s : State) :
    laneState (requested k l s) (laneNo k l) = laneState s (laneNo k l) := by
  rw [laneState_laneNo, laneState_laneNo, rf, rf, rd_requested k l s (onChiplet_laneStat k l)]

theorem laneReq_lt (s : State) (k l : Nat) : laneReq s k l < 3 := by
  have hf : rf s (LNK_LANE_CTRL k l) 1 0 < 4 := fld_lt _ 1 0
  rw [laneReq]
  split <;> omega

theorem rd_laneCtrl_applyLaneReq (k : Chiplet) (l : Lane) (s : State) :
    rd (applyLaneReq k l s) (LNK_LANE_CTRL k l) = rd s (LNK_LANE_CTRL k l) := by
  have hctrl : rd (requested k l s) (LNK_LANE_CTRL k l) = rd s (LNK_LANE_CTRL k l) := rd_requested k l s (onChiplet_laneCtrl k l)
  have hlt := laneReq_lt (requested k l s) k l
  rcases (by omega : laneReq (requested k l s) k l = 0 ∨ laneReq (requested k l s) k l = 1 ∨ laneReq (requested k l s) k l = 2)
    with h | h | h
  · rw [applyLaneReq_off h, rd_laneCtrl_setLaneState, rd_putLane, hctrl]
  · rw [applyLaneReq_hold h]
    split
    · exact hctrl
    · rw [rd_laneCtrl_setLaneState, rd_putLane, hctrl]
  · rw [applyLaneReq_up h]
    split
    · rw [rd_laneCtrl_setLaneState, hctrl]
    · split
      · rw [rd_putLane, hctrl]
      · split
        · rw [rd_laneCtrl_setLaneState, hctrl]
        · exact hctrl

theorem applyLaneReq_done (k : Chiplet) (l : Lane) (s : State) : RequestDone k l s (applyLaneReq k l s) := by
  have hreq : laneReq (requested k l s) k l = laneReq s k l := laneReq_congr (rd_requested k l s (onChiplet_laneCtrl k l))
  have hst := laneState_requested k l s
  refine ⟨rd_laneCtrl_applyLaneReq k l s, fun h => ?_, fun h => ?_, fun h => ?_, fun h h1 => ?_, fun h h4 => ?_⟩
  · rw [applyLaneReq_off (hreq.trans h), laneSt_setLaneState, laneSt_putLane]
    exact ⟨laneState_setLaneState k l _ (by decide), rfl⟩
  · rw [applyLaneReq_hold (hreq.trans h)]
    split
    · next h0 => rw [hst, h0]
    · exact laneState_setLaneState k l _ (by decide)
  · rw [applyLaneReq_up (hreq.trans h)]
    by_cases h0 : laneState s (laneNo k l) = 0
    · rw [if_pos h0, if_pos h0, laneState_setLaneState k l _ (by decide)]
    · rw [if_neg h0, if_neg h0]
      by_cases h1 : laneState s (laneNo k l) = 1
      · rw [if_pos h1, if_neg (by omega), laneState_putLane, hst]
      · rw [if_neg h1]
        split
        · exact laneState_setLaneState k l _ (by decide)
        · exact hst
  · rw [applyLaneReq_up (hreq.trans h), if_neg (by omega), if_pos h1, laneSt_putLane, requested, if_neg (by omega)]
  · rw [applyLaneReq_up (hreq.trans h), if_neg (by omega), if_neg (by omega), if_pos h4, laneSt_setLaneState, laneSt_requested h4]

/-- A field of a masked word. -/
theorem fld_and (v m : W32) (hi lo : Nat) : fld (v &&& m) hi lo = fld v hi lo &&& fld m hi lo := by
  refine Nat.eq_of_testBit_eq fun i => ?_
  rw [Nat.testBit_and]
  simp only [fld, bitsOf, BitVec.toNat_and, Nat.testBit_mod_two_pow, Nat.testBit_div_two_pow, Nat.testBit_and]
  cases decide (i < hi + 1 - lo) <;> simp

/-- A field that a mask leaves whole. -/
theorem fld_and_kept (v m : W32) (hi lo : Nat) (h : fld m hi lo = 2 ^ (hi + 1 - lo) - 1) : fld (v &&& m) hi lo = fld v hi lo := by
  rw [fld_and, h, Nat.and_two_pow_sub_one_eq_mod, Nat.mod_eq_of_lt (fld_lt v hi lo)]

/-- A request written: the two low bits of the value choose, and the lane is otherwise as it was. -/
theorem laneReq_wr (k l : Nat) (v : W32) (s : State) :
    laneReq (wr (LNK_LANE_CTRL k l) (v &&& 0x30F) s) k l = if fld v 1 0 = 3 then 0 else fld v 1 0 := by
  have hmask : fld (v &&& 0x30F) 1 0 = fld v 1 0 := fld_and_kept v 0x30F 1 0 (by decide)
  rw [laneReq, rf, rd_wr_same, hmask]

theorem exec_laneStateReq (k : Chiplet) (l : Lane) (v : W32) {s : State} (ho : reach s (LNK_LANE_CTRL k l) = .open) :
    exec (.laneStateReq k l v) s = .next (writeLaneCtrl k l v s) :=
  congrArg Host.Outcome.next (hostDo_chiplet _ (onChiplet_laneCtrl k l) ho)

theorem claims_laneRequests : Claims.LaneRequests := by
  intro k l v s ho st c
  refine ⟨fun hon => ⟨_, exec_laneStateReq k l v ho, ?_⟩, fun hoff => ⟨_, exec_laneStateReq k l v ho, ?_⟩⟩
  · rw [writeLaneCtrl, if_pos hon]
    have hst : laneState (wr (LNK_LANE_CTRL k l) (v &&& 0x30F) s) (laneNo k l) = st := by
      rw [laneState_laneNo, rf, rd_wr_ne _ _ (laneCtrl_ne_laneStat k l).symm, ← rf, ← laneState_laneNo]
    have hreq := laneReq_wr k l v s
    have hdone := applyLaneReq_done k l (wr (LNK_LANE_CTRL k l) (v &&& 0x30F) s)
    refine ⟨hdone.ctrl.trans (rd_wr_same _ _ _), fun h => hdone.off ?_, fun h => ?_, fun h => ?_, fun h h1 => ?_, fun h h4 => ?_⟩
    · rw [hreq]
      split <;> omega
    · rw [hdone.hold (by rw [hreq, h]; rfl), hst]
    · rw [hdone.up (by rw [hreq, h]; rfl), hst]
    · exact hdone.restore (by rw [hreq, h]; rfl) (hst.trans h1)
    · exact hdone.saved (by rw [hreq, h]; rfl) (hst.trans h4)
  · rw [writeLaneCtrl, if_neg (by rw [hoff]; decide)]
    exact ⟨rd_wr_same _ _ _, regsBut_wr _ _ _, rfl⟩

/-! ## Training and loss of lock (R94, R95) -/

/-- A lane that is asked UP and may lock comes UP where it trains or restores. -/
theorem exec_trainComplete {k : Chiplet} {l : Lane} {coef : Nat} {ber : Byte} {s : State} (hon : isOn s (pageLNK k) = true)
    (hlock : mayLock s k = true) (hreq : laneReq s k l = 2)
    (hst : laneState s (laneNo k l) = 2 ∨ laneState s (laneNo k l) = 1 ∧ (laneSt s k l).restoring = true) :
    exec (.trainComplete k l coef ber) s = .next (wf (LNK_LANE_STAT k l) 15 8 ber.toNat
      (laneMoved k l 3 (putLane k l ⟨coef, (laneSt s k l).saved, false, chipTemp s k⟩ s))) := by
  have hgo : (laneState s (laneNo k l) == 2 || (laneState s (laneNo k l) == 1 && (laneSt s k l).restoring)) = true := by
    rcases hst with h | ⟨h, hr⟩
    · rw [h]; rfl
    · rw [h, hr]; rfl
  have hne : laneState s (laneNo k l) ≠ 3 := by omega
  have hdown : laneUp s (laneNo k l) = false := by
    rcases hst with h | ⟨h, -⟩ <;> rw [laneUp, h] <;> rfl
  show execTrainComplete k l coef ber s = _
  rw [execTrainComplete, hon, hlock, hreq, hgo]
  exact congrArg (fun t => Host.Outcome.next (wf (LNK_LANE_STAT k l) 15 8 ber.toNat t)) (setLaneState_trained k l hne hdown)

/-- A lane with an estimate stored over its status keeps its state and shows the estimate. -/
theorem laneStat_estimate (k : Chiplet) (l : Lane) (ber : Byte) (s : State) :
    laneState (wf (LNK_LANE_STAT k l) 15 8 ber.toNat s) (laneNo k l) = laneState s (laneNo k l) ∧
    rf (wf (LNK_LANE_STAT k l) 15 8 ber.toNat s) (LNK_LANE_STAT k l) 15 8 = ber.toNat := by
  refine ⟨?_, ?_⟩
  · rw [laneState_laneNo, laneState_laneNo, rf_wf_field_ne _ _ _ _ _ _ _ (by decide) (by decide) (.inr (by decide))]
  · rw [rf_wf_same _ _ _ _ _ (by decide) (by decide)]
    exact Nat.mod_eq_of_lt ber.isLt

theorem trainComplete_up {k : Chiplet} {l : Lane} (coef : Nat) (ber : Byte) {s : State} (hon : isOn s (pageLNK k) = true)
    (hlock : mayLock s k = true) (hreq : laneReq s k l = 2)
    (hst : laneState s (laneNo k l) = 2 ∨ laneState s (laneNo k l) = 1 ∧ (laneSt s k l).restoring = true) :
    ∃ t, exec (.trainComplete k l coef ber) s = .next t ∧ laneState t (laneNo k l) = 3 ∧
      rf t (LNK_LANE_STAT k l) 15 8 = ber.toNat ∧ laneSt t k l = ⟨coef, (laneSt s k l).saved, false, chipTemp s k⟩ ∧
      rb t (H_INT_STAT (pageLNK k)) 0 = true ∧ RegsBut (LNK_LANE_STAT k l :: eventRegs (pageLNK k)) s t := by
  obtain ⟨hstate, hber⟩ := laneStat_estimate k l ber (laneMoved k l 3 (putLane k l ⟨coef, (laneSt s k l).saved, false, chipTemp s k⟩ s))
  refine ⟨_, exec_trainComplete hon hlock hreq hst, ?_, hber, ?_, ?_, fun a ha => ?_⟩
  · rw [hstate, laneState_laneMoved k l _ (by decide)]
  · rw [laneSt, wf_lnk, (onlyBus_laneMoved _ _ _ _).lnk, ← laneSt, laneSt_putLane]
  · have hne : H_INT_STAT (pageLNK k) ≠ LNK_LANE_STAT k l :=
      (ne_header_of_beyond (beyondHeader_laneStat k l.isLt) (pageLNK k) (x := 0x10) (by decide)).symm
    rw [rb_wf_ne _ _ _ _ _ hne, rb_laneMoved]
  · have hne : a ≠ LNK_LANE_STAT k l := fun e => ha (e ▸ List.mem_cons_self)
    rw [rd_wf_ne _ _ _ _ hne, regsBut_laneMoved _ _ _ _ a ha, rd_putLane]

theorem exec_lossOfLock {k : Chiplet} {l : Lane} {s : State} (h : laneUp s (laneNo k l) = true) :
    exec (.lossOfLock k l) s = .next (setLaneState k l 2 s) := congrArg Host.Outcome.next (if_pos h)

theorem laneState_of_up {s : State} {n : Nat} (h : laneUp s n = true) : laneState s n = 3 ∨ laneState s n = 4 := by
  simpa [laneUp] using h

/-- A lane that loses lock goes to TRAIN, and its port goes down. -/
theorem lossOfLock_trains {k : Chiplet} {l : Lane} {s : State} (h : laneUp s (laneNo k l) = true) :
    ∃ t, exec (.lossOfLock k l) s = .next t ∧ laneState t (laneNo k l) = 2 ∧ rf t (LNK_LANE_STAT k l) 15 8 = 0 ∧
      portUp t (lanePort s (laneNo k l)) = false ∧ LanesStay (laneMoved k l 2 s) t ∧ t = setLaneState k l 2 s := by
  have hne : laneState s (laneNo k l) ≠ 2 := by
    have hup := laneState_of_up h
    omega
  have hstay := setLaneState_moves hne
  refine ⟨_, exec_lossOfLock h, laneState_setLaneState k l s (by decide), ?_, ?_, hstay, rfl⟩
  · rw [rf, hstay.regs _ (onChiplet_laneStat k l)]
    exact (laneStat_laneMoved k l 2 s).2 (by decide)
  · have hn := laneNo_lt k l
    refine portUp_of_laneDown hn ?_ ?_
    · rw [octetMode_congr (hstay.regs _ (onChiplet_octetMode (by omega))), octetMode_laneMoved]
    · rw [laneUp, laneState_setLaneState k l s (by decide)]
      rfl

/-- A restore without an answer goes to TRAIN. -/
theorem holdRestoreTimeout_trains {k : Chiplet} {l : Lane} {s : State} (h : laneState s (laneNo k l) = 1)
    (hr : (laneSt s k l).restoring = true) :
    ∃ t, exec (.holdRestoreTimeout k l) s = .next t ∧ laneState t (laneNo k l) = 2 ∧ (laneSt t k l).restoring = false := by
  have hgo : (laneState s (laneNo k l) == 1 && (laneSt s k l).restoring) = true := by rw [h, hr]; rfl
  refine ⟨_, congrArg Host.Outcome.next (if_pos hgo), laneState_setLaneState k l _ (by decide), ?_⟩
  rw [laneSt_setLaneState, laneSt_putLane]

theorem claims_laneMoves : Claims.LaneMoves := by
  intro k l s n
  refine ⟨fun coef ber hon hlock hreq hst => trainComplete_up coef ber hon hlock hreq hst, fun hup => ?_,
    fun h hr => holdRestoreTimeout_trains h hr⟩
  obtain ⟨t, he, hstate, hber, hport, hstay, ht⟩ := lossOfLock_trains hup
  refine ⟨t, he, hstate, hber, hport, ?_, fun hq => ?_⟩
  · rw [rb, hstay.regs _ (onChiplet_intStat k), ← rb, rb_laneMoved]
  · have hne : laneState s n ≠ 2 := by
      have hup' := laneState_of_up hup
      omega
    rw [ht, setLaneState_quiet hne hq]
    exact regsBut_laneMoved k l 2 s

/-! ## The ends of a retune (R96, R492) -/

/-- The record of a retune's end follows the lane's new state and estimate. -/
theorem exec_retuneComplete {k : Chiplet} {l : Lane} (coef : Nat) (ber : Byte) (r : Fin 12) (m : W32) {s : State}
    (h : laneState s (laneNo k l) = 4) : exec (.retuneComplete k l coef ber r m) s = .next
      (logRecord 0x08 r (laneNo k l) 4 3 m.toNat (wf (LNK_LANE_STAT k l) 15 8 ber.toNat
        (setLaneState k l 3 (putLane k l { laneSt s k l with coef := coef, temp := chipTemp s k } s)))) := by
  show execRetuneComplete k l coef ber r m s = _
  rw [execRetuneComplete, if_neg (not_not_intro h)]

theorem retuneComplete_up {k : Chiplet} {l : Lane} (coef : Nat) (ber : Byte) (r : Fin 12) (m : W32) {s : State}
    (h : laneState s (laneNo k l) = 4) : ∃ t, exec (.retuneComplete k l coef ber r m) s = .next t ∧
      laneState t (laneNo k l) = 3 ∧ laneSt t k l = { laneSt s k l with coef := coef, temp := chipTemp s k } ∧
      rf t (LNK_LANE_STAT k l) 15 8 = ber.toNat := by
  refine ⟨_, exec_retuneComplete coef ber r m h, ?_⟩
  generalize hu : setLaneState k l 3 (putLane k l { laneSt s k l with coef := coef, temp := chipTemp s k } s) = u
  have hstay := (logStays_logRecord 0x08 r (laneNo k l) 4 3 m.toNat (wf (LNK_LANE_STAT k l) 15 8 ber.toNat u)).lanes
  obtain ⟨hstate, hber⟩ := laneStat_estimate k l ber u
  refine ⟨?_, ?_, ?_⟩
  · rw [hstay.laneState_eq, hstate, ← hu, laneState_setLaneState k l _ (by decide)]
  · rw [hstay.laneSt_eq, laneSt, wf_lnk, ← laneSt, ← hu, laneSt_setLaneState, laneSt_putLane]
  · rw [rf, hstay.regs _ (onChiplet_laneStat k l), ← rf, hber]

theorem laneState_abortRetune (k : Chiplet) (l : Lane) (reason meas : Nat) (s : State) :
    laneState (abortRetune k l reason meas s) (laneNo k l) = laneState s (laneNo k l) := by
  rw [(abortRetune_lanes k l reason meas s).laneState_eq, laneState_putLane]

theorem exec_retuneAbort {k : Chiplet} {l : Lane} (r : Fin 12) (m : W32) {s : State} (h : laneState s (laneNo k l) = 4) :
    exec (.retuneAbort k l r m) s = .next (laneMoved k l 3 (abortRetune k l r m.toNat s)) := by
  have habort : laneState (abortRetune k l r m.toNat s) (laneNo k l) = 4 := (laneState_abortRetune k l _ _ s).trans h
  exact congrArg Host.Outcome.next ((if_pos h).trans (setLaneState_retuned k l habort))

theorem retuneAbort_up {k : Chiplet} {l : Lane} (r : Fin 12) (m : W32) {s : State} (h : laneState s (laneNo k l) = 4) :
    ∃ t, exec (.retuneAbort k l r m) s = .next t ∧ laneState t (laneNo k l) = 3 ∧
      laneSt t k l = { laneSt s k l with coef := (laneSt s k l).saved } := by
  refine ⟨_, exec_retuneAbort r m h, laneState_laneMoved k l _ (by decide), ?_⟩
  rw [laneSt, (onlyBus_laneMoved _ _ _ _).lnk, ← laneSt, (abortRetune_lanes k l _ _ s).laneSt_eq, laneSt_putLane]

/-! ### A record lost while the log is not enabled (R493) -/

/-- The first event of a clock, or one that is set, is set after it. -/
theorem rb_raiseFirst {p b : Nat} {s : State} (hb : b < 32) (h : isFirst s p b = true ∨ rb s (H_INT_STAT p) b = true) :
    rb (raiseFirst p b s) (H_INT_STAT p) b = true := by
  unfold raiseFirst
  dsimp only
  split
  · exact rb_raise_self _ _ hb
  · next hf =>
    rcases h with h | h
    · exact absurd h (by simpa using hf)
    · exact h

theorem curLost_not_ledger : ¬onLedger (CUR_CNT 6) := by
  unfold onLedger
  decide

theorem loseLog_counts (s : State) : ctr (loseLog s) (CUR_CNT 6) = (ctr s (CUR_CNT 6) + 1) % 2 ^ 64 := by
  have hcount : ctr (wr CUR_LOG_LOST (rd s CUR_LOG_LOST + 1) (bump (CUR_CNT 6) s)) (CUR_CNT 6) = (ctr s (CUR_CNT 6) + 1) % 2 ^ 64 := by
    rw [ctr_wr, ctr_bump, if_pos rfl]
  rw [loseLog, ctr_raiseFirst (by decide) curLost_not_ledger]
  exact hcount

/-- While the log is not enabled, the abort of a retune loses its record. -/
theorem abortRetune_loses {k l reason meas : Nat} {s : State} (h : rb s CUR_LOG_CFG 31 = false) : abortRetune k l reason meas s =
    loseLog (putLane k l { laneSt s k l with coef := (laneSt s k l).saved } s) := by
  have hoff : (!rb (putLane k l { laneSt s k l with coef := (laneSt s k l).saved } s) CUR_LOG_CFG 31) = true := by
    rw [rb, rd_putLane, ← rb, h]
    rfl
  exact if_pos hoff

theorem logLost_loseLog {s : State} (h : isFirst s pageCUR 0 = true ∨ rb s (H_INT_STAT pageCUR) 0 = true) :
    rb (loseLog s) (H_INT_STAT pageCUR) 0 = true := by
  have hne : H_INT_STAT pageCUR ≠ CUR_LOG_LOST := by decide
  have hrd : rd (wr CUR_LOG_LOST (rd s CUR_LOG_LOST + 1) (bump (CUR_CNT 6) s)) (H_INT_STAT pageCUR) = rd s (H_INT_STAT pageCUR) := by
    rw [rd_wr_ne _ _ hne, rd_bump]
  have hfirst : isFirst (wr CUR_LOG_LOST (rd s CUR_LOG_LOST + 1) (bump (CUR_CNT 6) s)) pageCUR 0 = isFirst s pageCUR 0 := by
    rw [bump, bumpN]
    rfl
  rw [loseLog]
  refine rb_raiseFirst (by decide) (h.imp (fun hf => hfirst.trans hf) fun hb => ?_)
  exact (congrArg (bit · 0) hrd).trans hb

/-- A lane that comes UP raises its own chiplet's event alone. -/
theorem laneMoved_up_keeps (k : Chiplet) (l : Lane) (s : State) :
    ctr (laneMoved k l 3 s) (CUR_CNT 6) = ctr s (CUR_CNT 6) ∧
    (rb s (H_INT_STAT pageCUR) 0 = true → rb (laneMoved k l 3 s) (H_INT_STAT pageCUR) 0 = true) := by
  have hne : H_INT_STAT pageCUR ≠ LNK_LANE_STAT k l :=
    (ne_header_of_beyond (beyondHeader_laneStat k l.isLt) pageCUR (x := 0x10) (by decide)).symm
  refine ⟨?_, fun h => rb_intStat_raise _ _ (by decide) ?_⟩
  · rw [laneMoved, ctr_raise (by decide) curLost_not_ledger, if_pos rfl, ctr_wf]
  · rw [if_pos rfl, rb_wf_ne _ _ _ _ _ hne, h]

theorem claims_retuneEnds : Claims.RetuneEnds := by
  intro k l r m s h
  refine ⟨fun coef ber => retuneComplete_up coef ber r m h, retuneAbort_up r m h, fun hoff => ⟨_, exec_retuneAbort r m h, ?_⟩⟩
  have hlost := abortRetune_loses (k := k) (l := l) (reason := r) (meas := m.toNat) hoff
  obtain ⟨hcnt, hkept⟩ := laneMoved_up_keeps k l (abortRetune k l r m.toNat s)
  refine ⟨fun hev => hkept ?_, ?_⟩
  · rw [hlost]
    exact logLost_loseLog hev
  · rw [hcnt, hlost, loseLog_counts]
    rfl

/-- Settles O16: a lane's own registers and coefficients survive all that falls with its port, since drops, frees and log records touch no
lane chiplet; and a retuned lane that comes UP takes no port down, so the record's loss is the last word on its counter. -/
theorem laneStates : Obligations.LaneStates := ⟨claims_laneRequests, claims_laneMoves, claims_retuneEnds⟩

end Sys2Proof.Machine
end

section
/-!
SUPPORT. Octet modes, die-to-die links, module bus, timestamp FIFO and lane reference clocks (R68, R69, R89-R91, R98, R100, R646), and the
settled statement about them.
-/
namespace Sys2Proof.Machine

/-! ## Octet modes (R68, R69) -/

theorem code_recordErr (p code detail addr : Nat) (s : State) :
    rf (recordErr p code detail addr s) (H_ERR_CAUSE p) 31 24 = code % 256 := by
  rw [rf, cause_recordErr, fld, bitsOf, w32, BitVec.toNat_ofNat]
  omega

/-- A mode code written as the whole register reads back. -/
theorem fld_modeCode {n : Nat} (h : n < 16) : fld (w32 n) 3 0 = n := by
  rw [fld, bitsOf, w32, BitVec.toNat_ofNat]
  omega

theorem octetMode_octet (k o : Nat) (s : State) (h : o < 8) : octetMode s (8 * k + o) = rf s (LNK_OCTET_MODE k o) 3 0 := by
  have hk : (8 * k + o) / 8 = k := by omega
  have ho : (8 * k + o) % 8 = o := by omega
  rw [octetMode, hk, ho]

theorem exec_octetModeWrite {k : Chiplet} {o : Fin 8} (v : W32) {s : State} (ho : reach s (LNK_OCTET_MODE k o) = .open) :
    exec (.octetModeWrite k o v) s = .next (writeOctetMode k o v s) :=
  congrArg Host.Outcome.next (hostDo_chiplet _ (onChiplet_bar0 k (j := 0) (by decide) (by omega)) ho)

theorem claims_octetModes : Claims.OctetModes := by
  intro k o v s ho off err
  refine ⟨fun hcode hoff => ⟨_, exec_octetModeWrite v ho, ?_⟩, fun hbad => ⟨_, exec_octetModeWrite v ho, ?_⟩⟩
  · rw [writeOctetMode, if_neg (by omega), if_pos hoff]
    refine ⟨?_, regsBut_wr _ _ _⟩
    rw [octetMode_octet _ _ _ o.isLt, rf, rd_wr_same, fld_modeCode (fld_lt v 3 0)]
  · rw [writeOctetMode]
    by_cases hcode : 8 < fld v 3 0
    · rw [if_pos hcode, if_pos hcode]
      exact ⟨regsBut_recordErr _ _ _ _ _, code_recordErr _ _ _ _ _⟩
    · have hoff : ((List.range 8).all fun j => laneState s (laneNo k (8 * o + j)) == 0) ≠ true :=
        Bool.eq_false_iff.mp (hbad.resolve_left hcode)
      rw [if_neg hcode, if_neg hcode, if_neg hoff]
      exact ⟨regsBut_recordErr _ _ _ _ _, code_recordErr _ _ _ _ _⟩

/-! ## Die-to-die links (R89-R91) -/

theorem onChiplet_first (k : Chiplet) {x : Nat} (hx : x < 0x10000) : onChiplet (bar0 (pageLNK k) x) := onChiplet_bar0 k (j := 0) (by decide) hx

theorem beyondHeader_first (k : Chiplet) {x : Nat} (h : 0x100 ≤ x) (hx : x < 0x10000) : beyondHeader (bar0 (pageLNK k) x) :=
  beyondHeader_chiplet k (j := 0) (by decide) h hx

theorem beyondHeader_d2dStat (k : Chiplet) : beyondHeader (LNK_D2D_STAT k) := beyondHeader_first k (by decide) (by decide)

theorem beyondHeader_modCmd (k : Chiplet) : beyondHeader (LNK_MOD_CMD k) := beyondHeader_first k (by decide) (by decide)

theorem intStat_ne_beyond {a : Nat} (h : beyondHeader a) (p : Nat) : H_INT_STAT p ≠ a := (ne_header_of_beyond h p (x := 0x10) (by decide)).symm

theorem rb_raise_beyond {a : Nat} (h : beyondHeader a) (p b i : Nat) (s : State) : rb (raise p b s) a i = rb s a i := by
  rw [rb, rd_raise_beyond h, rb]

theorem regsBut_wf_raise (a hi lo v p b : Nat) (s : State) : RegsBut (a :: eventRegs p) s (raise p b (wf a hi lo v s)) := by
  intro x hx
  rw [List.mem_cons, not_or] at hx
  rw [(raise_changes _ _ _).1 x hx.2, rd_wf_ne _ _ _ _ hx.1]

theorem rb_reportFault (p kind addr : Nat) (inj : Bool) (s : State) (a i : Nat) : rb (reportFault p kind addr inj s) a i = rb s a i := by
  rw [rb, rd_reportFault, rb]

/-- The standby link of chiplet `k` is not ready any more, with its event and its fault (R615). -/
def standbyLost (k : Nat) (s : State) : State :=
  reportFault (pageLNK k) 0x08 0 false (raise (pageLNK k) 5 (wf (LNK_D2D_STAT k) 2 2 0 s))

theorem standbyLost_lost (k : Chiplet) (s : State) : rb (standbyLost k s) (LNK_D2D_STAT k) 2 = false ∧
    rb (standbyLost k s) (H_INT_STAT (pageLNK k)) 5 = true ∧ RegsBut (LNK_D2D_STAT k :: eventRegs (pageLNK k)) s (standbyLost k s) := by
  refine ⟨?_, ?_, fun a ha => ?_⟩
  · rw [standbyLost, rb_reportFault, rb_raise_beyond (beyondHeader_d2dStat k), rb_wf_same _ _ _ _ (by decide)]
    rfl
  · rw [standbyLost, rb_reportFault, rb_raise_self _ _ (by decide)]
  · rw [standbyLost, rd_reportFault, regsBut_wf_raise _ _ _ _ _ _ _ a ha]

theorem rf_incSat (a hi lo : Nat) (s : State) (h : lo ≤ hi) (h32 : hi < 32) :
    rf (incSat a hi lo s) a hi lo = min (rf s a hi lo + 1) (2 ^ (hi + 1 - lo) - 1) := by
  have hlt : rf s a hi lo < 2 ^ (hi + 1 - lo) := fld_lt _ hi lo
  unfold incSat
  split
  · next hroom =>
    rw [rf_wf_same _ _ _ _ _ h h32, Nat.mod_eq_of_lt hroom]
    omega
  · omega

theorem regsBut_incSat (a hi lo : Nat) (s : State) : RegsBut [a] s (incSat a hi lo s) := by
  unfold incSat
  split
  · exact regsBut_wf _ _ _ _ _
  · exact fun _ _ => rfl

/-- A flit resent and counted, with the failures in succession that it leaves. -/
def flitCounted (k key n : Nat) (s : State) : State :=
  incSat (LNK_D2D_STAT k) 31 16 { s with lnk := { s.lnk with fails := sPut 0 key (n % 16) s.lnk.fails } }

theorem exec_flitRetry {k : Chiplet} {sb ok : Bool} {s : State} (hon : isOn s (pageLNK k) = true ∨ blkState s (pageLNK k) = 3)
    (hup : rb s (LNK_D2D_STAT k) (if sb then 2 else 1) = true) (n : Nat)
    (hn : n = if ok then 0 else sGet 0 (2 * k.val + b2n sb) s.lnk.fails + 1) : exec (.flitRetry k sb ok) s =
      .next (if n = 16 then linkFails k sb (flitCounted k (2 * k.val + b2n sb) n s) else flitCounted k (2 * k.val + b2n sb) n s) := by
  have hgo : ((!isOn s (pageLNK k) && blkState s (pageLNK k) != 3) || !rb s (LNK_D2D_STAT k) (if sb then 2 else 1)) ≠ true := by
    rw [hup]
    rcases hon with h | h <;> simp [h]
  subst hn
  exact if_neg hgo

theorem flitCounted_changes (k : Chiplet) (key n : Nat) (s : State) :
    rf (flitCounted k key n s) (LNK_D2D_STAT k) 31 16 = min (rf s (LNK_D2D_STAT k) 31 16 + 1) 65535 ∧
    sGet 0 key (flitCounted k key n s).lnk.fails = n % 16 ∧ RegsBut [LNK_D2D_STAT k] s (flitCounted k key n s) := by
  refine ⟨rf_incSat _ _ _ _ (by decide) (by decide), ?_, fun a ha => regsBut_incSat _ _ _ _ a ha⟩
  rw [flitCounted, (incSat_onlyBus _ _ _ _).lnk]
  exact sGet_sPut_same _ _ _ _

/-- The standby link fails (R90, R615). -/
theorem linkFails_standby (k : Chiplet) (s : State) : rb (linkFails k true s) (LNK_D2D_STAT k) 2 = false ∧
    rb (linkFails k true s) (H_INT_STAT (pageLNK k)) 2 = true ∧ rb (linkFails k true s) (H_INT_STAT (pageLNK k)) 5 = true ∧
    (linkFails k true s).lnk = s.lnk := by
  have hlost : linkFails k true s = standbyLost k (raise (pageLNK k) 2 s) := rfl
  obtain ⟨hready, hevent, -⟩ := standbyLost_lost k (raise (pageLNK k) 2 s)
  rw [hlost]
  refine ⟨hready, ?_, hevent, ?_⟩
  · rw [standbyLost, rb_reportFault]
    refine rb_intStat_raise _ _ (by decide) ?_
    rw [rb_wf_ne _ _ _ _ _ (intStat_ne_beyond (beyondHeader_d2dStat k) _)]
    exact rb_raise_self _ _ (by decide)
  · rw [standbyLost, (reportFault_onlyBus _ _ _ _ _).lnk, (raise_onlyBus _ _ _).lnk, wf_lnk, (raise_onlyBus _ _ _).lnk]

theorem exec_d2dStatRead {k : Chiplet} {s : State} (ho : reach s (LNK_D2D_STAT k) = .open) : exec (.d2dStatRead k) s =
    .next (wf (LNK_D2D_STAT k) 31 16 0 (answer (rd s (LNK_D2D_STAT k)).toNat s)) :=
  congrArg Host.Outcome.next (hostAsk_chiplet _ (onChiplet_first k (by decide)) ho)

theorem exec_standbyRetrain {k : Chiplet} (ok : Bool) {s : State} (hon : isOn s (pageLNK k) = true) (hen : rb s (LNK_D2D_CTRL k) 0 = true)
    (hidle : rb s (LNK_D2D_STAT k) 0 = false) : exec (.standbyRetrain k ok) s =
      if ok then .next (wf (LNK_D2D_STAT k) 2 2 1 s) else if rb s (LNK_D2D_STAT k) 2 then .next (standbyLost k s) else .next s := by
  have hgo : (!isOn s (pageLNK k) || !rb s (LNK_D2D_CTRL k) 0 || rb s (LNK_D2D_STAT k) 0) ≠ true := by
    rw [hon, hen, hidle]
    decide
  exact if_neg hgo

theorem claims_linkCommands : Claims.LinkCommands := by
  intro k s
  refine ⟨fun hon hen hidle => ⟨⟨_, exec_standbyRetrain true hon hen hidle, ?_, regsBut_wf _ _ _ _ _⟩, fun hready => ?_⟩,
    fun sb ok hon hup => ⟨fun hfew => ?_, fun hfail h16 hsb => ?_⟩, fun ho => ⟨_, exec_d2dStatRead ho, rfl, ?_, ?_, ?_⟩⟩
  · rw [rb_wf_same _ _ _ _ (by decide)]
    rfl
  · refine ⟨standbyLost k s, ?_, standbyLost_lost k s⟩
    rw [exec_standbyRetrain false hon hen hidle, hready]
    rfl
  · have hn : (if ok then 0 else sGet 0 (2 * k.val + b2n sb) s.lnk.fails + 1) < 16 := by
      split
      · decide
      · next hok => exact hfew.resolve_left hok
    obtain ⟨hcount, hkey, hregs⟩ :=
      flitCounted_changes k (2 * k.val + b2n sb) (if ok then 0 else sGet 0 (2 * k.val + b2n sb) s.lnk.fails + 1) s
    refine ⟨_, exec_flitRetry hon hup _ rfl, ?_⟩
    rw [if_neg (by omega)]
    refine ⟨hcount, ?_, hregs⟩
    rw [hkey, Nat.mod_eq_of_lt hn]
  · subst hfail hsb
    have hkey := (flitCounted_changes k (2 * k.val + b2n true) 16 s).2.1
    obtain ⟨hready, hlink, hlost, hlnk⟩ := linkFails_standby k (flitCounted k (2 * k.val + b2n true) 16 s)
    refine ⟨_, exec_flitRetry hon hup 16 h16.symm, ?_⟩
    rw [if_pos rfl, hlnk]
    exact ⟨hready, hlink, hlost, hkey⟩
  · exact rf_wf_same _ _ _ _ _ (by decide) (by decide)
  · rw [rf_wf_field_ne _ _ _ _ _ _ _ (by decide) (by decide) (.inr (by decide)), rf, rd_answer, rf]
  · exact fun a ha => (regsBut_wf _ _ _ _ _ a ha).trans (rd_answer _ _ _)

/-! ## Module bus and timestamp FIFO (R98, R100) -/

theorem bit_and (v m : W32) (i : Nat) : bit (v &&& m) i = (bit v i && bit m i) := by
  rw [bit, BitVec.toNat_and, Nat.testBit_and, bit, bit]

theorem bit_or (v m : W32) (i : Nat) : bit (v ||| m) i = (bit v i || bit m i) := by
  rw [bit, BitVec.toNat_or, Nat.testBit_or, bit, bit]

/-- Words that agree in the bits of a mask agree under the mask. -/
theorem and_eq_of_bits {x v m : W32} (h : ∀ i, i < 32 → bit m i = true → bit x i = bit v i) : x &&& m = v &&& m := by
  refine BitVec.eq_of_toNat_eq (Nat.eq_of_testBit_eq fun i => ?_)
  show bit (x &&& m) i = bit (v &&& m) i
  rw [bit_and, bit_and]
  by_cases hi : i < 32
  · cases hm : bit m i with
    | true => rw [h i hi hm]
    | false => rw [Bool.and_false, Bool.and_false]
  · have hm : bit m i = false :=
      Nat.testBit_lt_two_pow (Nat.lt_of_lt_of_le m.isLt (Nat.pow_le_pow_right (by decide) (by omega)))
    rw [hm, Bool.and_false, Bool.and_false]

theorem exec_modCmdGo {k : Chiplet} (v : W32) {s : State} (ho : reach s (LNK_MOD_CMD k) = .open) :
    exec (.modCmdGo k v) s = .next (writeModCmd k v s) :=
  congrArg Host.Outcome.next (hostDo_chiplet _ (onChiplet_first k (by decide)) ho)

/-- The bits that a write stores are neither those it keeps nor the running bit. -/
theorem modCmd_mask : ∀ i, i < 32 → bit 0x1C7FFFFF i = true → bit 0x60000000 i = false ∧ i ≠ 30 := by decide

theorem modCmdGo_starts {k : Chiplet} {v : W32} {s : State} (hon : isOn s (pageLNK k) = true) (hgo : bit v 31 = true)
    (hidle : rb s (LNK_MOD_CMD k) 30 = false) : rb (writeModCmd k v s) (LNK_MOD_CMD k) 30 = true ∧
      rd (writeModCmd k v s) (LNK_MOD_CMD k) &&& 0x1C7FFFFF = v &&& 0x1C7FFFFF ∧ RegsBut [LNK_MOD_CMD k] s (writeModCmd k v s) := by
  have hstart : (bit v 31 && !rb s (LNK_MOD_CMD k) 30 && isOn s (pageLNK k)) = true := by rw [hgo, hidle, hon]; rfl
  rw [writeModCmd, if_pos hstart]
  refine ⟨?_, and_eq_of_bits fun i hi hm => ?_, fun a ha => ?_⟩
  · rw [rb_wf_same _ _ _ _ (by decide)]
    rfl
  · obtain ⟨hkeep, h30⟩ := modCmd_mask i hi hm
    rw [rd_wf_same, bit_setFld_ne _ _ _ _ _ (by decide) (by decide) (by omega), rd_wr_same, bit_or, bit_and, bit_and, hm, hkeep,
      Bool.and_true, Bool.and_false, Bool.or_false]
  · rw [regsBut_wf _ _ _ _ _ a ha, regsBut_wr _ _ _ a ha]

/-- The module bus idle again, with the answer that ends its transaction (R98). -/
def modEnded (k : Nat) (nack : Bool) (data : Byte) (s : State) : State :=
  let s1 := wf (LNK_MOD_CMD k) 29 29 (b2n nack) (wf (LNK_MOD_CMD k) 30 30 0 s)
  if rb s (LNK_MOD_CMD k) 28 && !nack then wf (LNK_MOD_CMD k) 7 0 data.toNat s1 else s1

theorem modEnded_changes (k : Nat) (nack : Bool) (data : Byte) (s : State) :
    rb (modEnded k nack data s) (LNK_MOD_CMD k) 30 = false ∧ rb (modEnded k nack data s) (LNK_MOD_CMD k) 29 = nack ∧
    rf (modEnded k nack data s) (LNK_MOD_CMD k) 7 0 =
      (if rb s (LNK_MOD_CMD k) 28 && !nack then data.toNat else rf s (LNK_MOD_CMD k) 7 0) ∧
    RegsBut [LNK_MOD_CMD k] s (modEnded k nack data s) := by
  let s1 := wf (LNK_MOD_CMD k) 29 29 (b2n nack) (wf (LNK_MOD_CMD k) 30 30 0 s)
  have hidle : rb s1 (LNK_MOD_CMD k) 30 = false := by
    rw [rb_wf_bit_ne _ _ _ _ _ _ (by decide) (by decide) (.inr (by decide)), rb_wf_same _ _ _ _ (by decide), Nat.zero_testBit]
  have hnack : rb s1 (LNK_MOD_CMD k) 29 = nack := by
    rw [rb_wf_same _ _ _ _ (by decide)]
    cases nack <;> rfl
  have hdata : rf s1 (LNK_MOD_CMD k) 7 0 = rf s (LNK_MOD_CMD k) 7 0 := by
    rw [rf_wf_field_ne _ _ _ _ _ _ _ (by decide) (by decide) (.inr (by decide)),
      rf_wf_field_ne _ _ _ _ _ _ _ (by decide) (by decide) (.inr (by decide))]
  have hregs : RegsBut [LNK_MOD_CMD k] s s1 := fun a ha => by rw [regsBut_wf _ _ _ _ _ a ha, regsBut_wf _ _ _ _ _ a ha]
  unfold modEnded
  dsimp only
  split
  · refine ⟨?_, ?_, ?_, fun a ha => ?_⟩
    · rw [rb_wf_bit_ne _ _ _ _ _ _ (by decide) (by decide) (.inr (by decide)), hidle]
    · rw [rb_wf_bit_ne _ _ _ _ _ _ (by decide) (by decide) (.inr (by decide)), hnack]
    · rw [rf_wf_same _ _ _ _ _ (by decide) (by decide)]
      exact Nat.mod_eq_of_lt data.isLt
    · rw [regsBut_wf _ _ _ _ _ a ha, hregs a ha]
  · exact ⟨hidle, hnack, hdata, hregs⟩

theorem exec_modDone {k : Chiplet} (nack : Bool) (data : Byte) {s : State} (h : rb s (LNK_MOD_CMD k) 30 = true) :
    exec (.modDone k nack data) s = .next (raise (pageLNK k) 4 (modEnded k nack data s)) := by
  have hrun : (!rb s (LNK_MOD_CMD k) 30) ≠ true := by rw [h]; decide
  exact if_neg hrun

theorem modDone_ends {k : Chiplet} (nack : Bool) (data : Byte) {s : State} (h : rb s (LNK_MOD_CMD k) 30 = true) :
    ∃ t, exec (.modDone k nack data) s = .next t ∧ rb t (LNK_MOD_CMD k) 30 = false ∧ rb t (LNK_MOD_CMD k) 29 = nack ∧
      rb t (H_INT_STAT (pageLNK k)) 4 = true ∧
      rf t (LNK_MOD_CMD k) 7 0 = (if rb s (LNK_MOD_CMD k) 28 && !nack then data.toNat else rf s (LNK_MOD_CMD k) 7 0) ∧
      RegsBut (LNK_MOD_CMD k :: eventRegs (pageLNK k)) s t := by
  obtain ⟨hidle, hnack, hdata, hregs⟩ := modEnded_changes k nack data s
  have hcmd := beyondHeader_modCmd k
  refine ⟨_, exec_modDone nack data h, ?_, ?_, rb_raise_self _ _ (by decide), ?_, fun a ha => ?_⟩
  · rw [rb_raise_beyond hcmd, hidle]
  · rw [rb_raise_beyond hcmd, hnack]
  · rw [rf, rd_raise_beyond hcmd, ← rf, hdata]
  · rw [List.mem_cons, not_or] at ha
    rw [(raise_changes _ _ _).1 a ha.2, hregs a (by simpa using ha.1)]

/-- Word 3 of the head entry answered, and the entry removed. -/
def tsPopped (k : Nat) (s : State) : State :=
  { answer (tsWord s k 3) s with lnk := { s.lnk with fifo := sPut [] k (sGet [] k s.lnk.fifo).tail s.lnk.fifo } }

theorem exec_tsFifoPop {k : Chiplet} {s : State} (ho : reach s (LNK_TS_FIFO k 3) = .open) :
    exec (.tsFifoPop k) s = .next (tsPopped k s) :=
  congrArg Host.Outcome.next (hostAsk_chiplet _ (onChiplet_bar0 k (by decide) (by decide)) ho)

/-! ## Lane reference clocks (R646) -/

/-- What `loseLock` of the lanes `ls` of chiplet `k` leaves, every port being quiet: those lanes are not up, no lane is up that was not, and
the clocks' own registers stay. -/
structure LocksLost (k : Chiplet) (ls : List Nat) (s t : State) : Prop where
  quiet : ∀ i, quietPort t i
  pwr : t.pwr = s.pwr
  regs : ∀ a, beyondHeader a ∨ a = H_INT_STAT pagePWR → ¬onChiplet a → rd t a = rd s a
  down : ∀ n, laneUp s n = false → laneUp t n = false
  lost : ∀ l, l ∈ ls → laneUp t (laneNo k l) = false

theorem laneMoved_locksLost (k : Chiplet) (l : Lane) {s : State} (hq : ∀ i, quietPort s i) :
    LocksLost k [l.val] s (laneMoved k l 2 s) where
  quiet i := quietPort_laneMoved (hq i)
  pwr := (onlyBus_laneMoved _ _ _ _).pwr
  regs a ha hoff := by
    refine regsBut_laneMoved k l 2 s a fun hm => ?_
    rcases List.mem_cons.mp hm with e | e
    · exact hoff (e ▸ onChiplet_laneStat k l)
    · rcases ha with hb | rfl
      · exact not_event_of_beyond hb _ e
      · rw [eventRegs, List.mem_cons] at e
        rcases e with e | e
        · rw [e] at hoff
          exact hoff (onChiplet_intStat k)
        · exact intStat_not_pba _ e
  down n hn := by
    by_cases h : n = laneNo k l
    · rw [h, laneUp, laneState_laneMoved k l s (by decide)]
      rfl
    · rw [laneUp_laneMoved k l 2 s h, hn]
  lost m hm := by
    rw [List.mem_singleton.mp hm, laneUp, laneState_laneMoved k l s (by decide)]
    rfl

theorem loseLock_locksLost (k : Chiplet) (l : Lane) {s : State} (hq : ∀ i, quietPort s i) : LocksLost k [l.val] s (loseLock k l s) := by
  unfold loseLock
  split
  · next hup =>
    have hne : laneState s (laneNo k l) ≠ 2 := by
      have hst := laneState_of_up hup
      omega
    rw [setLaneState_quiet hne (hq _)]
    exact laneMoved_locksLost k l hq
  · next hup =>
    refine ⟨hq, rfl, fun _ _ _ => rfl, fun _ h => h, fun m hm => ?_⟩
    rw [List.mem_singleton.mp hm]
    simpa using hup

theorem loseLocks_lost (k : Chiplet) (ls : List Nat) (hls : ∀ l, l ∈ ls → l < 64) {s : State} (hq : ∀ i, quietPort s i) :
    LocksLost k ls s (ls.foldl (fun a l => loseLock k l a) s) := by
  induction ls generalizing s with
  | nil => exact ⟨hq, rfl, fun _ _ _ => rfl, fun _ h => h, fun _ hm => absurd hm List.not_mem_nil⟩
  | cons l ls ih =>
    have hone := loseLock_locksLost k ⟨l, hls l List.mem_cons_self⟩ hq
    have hrest := ih (fun m hm => hls m (List.mem_cons_of_mem _ hm)) hone.quiet
    refine ⟨hrest.quiet, hrest.pwr.trans hone.pwr, fun a ha hoff => (hrest.regs a ha hoff).trans (hone.regs a ha hoff),
      fun n hn => hrest.down n (hone.down n hn), fun m hm => ?_⟩
    rcases List.mem_cons.mp hm with e | hm
    · exact hrest.down _ (hone.lost m (by rw [e]; exact List.mem_singleton_self l))
    · exact hrest.lost m hm

/-- The loss of a chiplet's clock as the power pages show it. -/
def lnrefStopped (k : Nat) (s : State) : State :=
  raise pagePWR 1 (wf PWR_CLK_STAT (8 + k) (8 + k) 0 { s with pwr := { s.pwr with lnrefLost := s.pwr.lnrefLost ++ [k] } })

theorem beyondHeader_clkStat : beyondHeader PWR_CLK_STAT := beyondHeader_bar0 (by decide) (by decide) (by decide)

theorem lnrefStopped_shown (k : Chiplet) (s : State) : k.val ∈ (lnrefStopped k s).pwr.lnrefLost ∧
    rb (lnrefStopped k s) PWR_CLK_STAT (8 + k) = false ∧ rb (lnrefStopped k s) (H_INT_STAT pagePWR) 1 = true ∧
    ((∀ i, quietPort s i) → ∀ i, quietPort (lnrefStopped k s) i) := by
  have hbus := raise_onlyBus pagePWR 1 (wf PWR_CLK_STAT (8 + k) (8 + k) 0 { s with pwr := { s.pwr with lnrefLost := s.pwr.lnrefLost ++ [k.val] } })
  refine ⟨?_, ?_, rb_raise_self _ _ (by decide), fun hq i => ?_⟩
  · rw [lnrefStopped, hbus.pwr]
    exact List.mem_append_right _ (List.mem_singleton_self _)
  · rw [lnrefStopped, rb_raise_beyond beyondHeader_clkStat, rb_wf_same _ _ _ _ (by omega), Nat.zero_testBit]
  · rw [quietPort, lnrefStopped, hbus.lnk, hbus.copies]
    exact hq i

theorem exec_laneRefclkLoss {k : Chiplet} {s : State} (hp : lnkPresent s.part k = true) (hk : k.val ∉ s.pwr.lnrefLost) :
    exec (.laneRefclkLoss k) s = .next ((List.range 64).foldl (fun a l => loseLock k l a) (lnrefStopped k s)) := by
  have hgo : (!lnkPresent s.part k || s.pwr.lnrefLost.contains k.val) ≠ true := by
    rw [hp]
    simpa using hk
  exact if_neg hgo

theorem laneRefclkLoss_stops {k : Chiplet} {s : State} (hp : lnkPresent s.part k = true) (hk : k.val ∉ s.pwr.lnrefLost)
    (hq : ∀ i, quietPort s i) : ∃ t, exec (.laneRefclkLoss k) s = .next t ∧ k.val ∈ t.pwr.lnrefLost ∧
      rb t PWR_CLK_STAT (8 + k) = false ∧ rb t (H_INT_STAT pagePWR) 1 = true ∧ ∀ l, l < 64 → laneUp t (laneNo k l) = false := by
  obtain ⟨hlost, hclk, hevent, hquiet⟩ := lnrefStopped_shown k s
  have hall := loseLocks_lost k (List.range 64) (fun l hl => List.mem_range.mp hl) (hquiet hq)
  refine ⟨_, exec_laneRefclkLoss hp hk, ?_, ?_, ?_, fun l hl => hall.lost l (List.mem_range.mpr hl)⟩
  · rw [hall.pwr]
    exact hlost
  · rw [rb, hall.regs _ (.inl beyondHeader_clkStat) (not_onChiplet_of_off (x := 0x104) (by decide) (by decide))]
    exact hclk
  · rw [rb, hall.regs _ (.inr rfl) (not_onChiplet_of_off (x := 0x10) (by decide) (by decide))]
    exact hevent

theorem laneRefclkReturn_shown {k : Chiplet} {s : State} (hp : lnkPresent s.part k = true) :
    ∃ t, exec (.laneRefclkReturn k) s = .next t ∧ k.val ∉ t.pwr.lnrefLost ∧
      (isOn s pagePWR = true → rb t PWR_CLK_STAT (8 + k) = true) ∧ RegsBut [PWR_CLK_STAT] s t := by
  have hgo : (!lnkPresent s.part k) ≠ true := by rw [hp]; decide
  refine ⟨_, if_neg hgo, ?_, fun hon => ?_, ?_⟩
  · have hmem : k.val ∉ s.pwr.lnrefLost.filter fun x => x != k.val := by simp
    split
    · exact hmem
    · exact hmem
  · rw [if_pos hon, rb_wf_same _ _ _ _ (by omega)]
    rfl
  · split
    · exact fun a ha => rd_wf_ne _ _ _ _ (by simpa using ha)
    · exact fun _ _ => rfl

theorem claims_chipletServices : Claims.ChipletServices := by
  intro k s
  refine ⟨fun v ho hon hgo hidle => ⟨_, exec_modCmdGo v ho, modCmdGo_starts hon hgo hidle⟩, fun nack data h => modDone_ends nack data h,
    fun ho => ⟨_, exec_tsFifoPop ho, rfl, sGet_sPut_same _ _ _ _, fun _ _ => rfl⟩, laneRefclkLoss_stops, laneRefclkReturn_shown⟩

/-- Settles O17: each command is a few writes of its own register; the loss of a lane clock takes the lanes down one by one, and quiet ports
make every step a lane's move alone. -/
theorem chipletCommands : Obligations.ChipletCommands := ⟨claims_octetModes, claims_linkCommands, claims_chipletServices⟩

end Sys2Proof.Machine
end

section
/-!
SUPPORT. Codewords of a received frame (R78, R96), and what their counting leaves of what the MAC sees.
-/
namespace Sys2Proof.Machine

/-! ## What the MAC sees of a state -/

/-- A register that no codeword moves: of no lane's status, no event of a chiplet, the Curator's page or a pending word of a vector. -/
def steadyReg (a : Nat) : Prop :=
  a / 0x10000 ≠ pageCUR ∧ a / 0x10000 ≠ pageHIF + 6 ∧ (onChiplet a → a / 0x10000 % 8 ≠ 1 ∧ a % 0x10000 ≠ 0x10)

/-- A port's counter. -/
def portCtr (a : Nat) : Prop := onChiplet a ∧ a % 0x10000 < 0x8000

/-- From `s` to `t` all that a MAC decides by stays: its registers and counters, the lanes that are up, the frames, and the time. -/
structure MacSees (s t : State) : Prop where
  regs : ∀ a, steadyReg a → rd t a = rd s a
  ups : ∀ n, laneUp t n = laneUp s n
  ctrs : ∀ a, portCtr a → ctr t a = ctr s a
  frames : t.frames = s.frames
  nextId : t.nextId = s.nextId
  tmg : t.tmg = s.tmg
  rgr : t.rgr = s.rgr
  time : t.time = s.time
  part : t.part = s.part
  rx : t.lnk.rx = s.lnk.rx

theorem MacSees.refl (s : State) : MacSees s s := ⟨fun _ _ => rfl, fun _ => rfl, fun _ _ => rfl, rfl, rfl, rfl, rfl, rfl, rfl, rfl⟩

theorem MacSees.after {s t u : State} (g : MacSees t u) (h : MacSees s t) : MacSees s u where
  regs a ha := (g.regs a ha).trans (h.regs a ha)
  ups n := (g.ups n).trans (h.ups n)
  ctrs a ha := (g.ctrs a ha).trans (h.ctrs a ha)
  frames := g.frames.trans h.frames
  nextId := g.nextId.trans h.nextId
  tmg := g.tmg.trans h.tmg
  rgr := g.rgr.trans h.rgr
  time := g.time.trans h.time
  part := g.part.trans h.part
  rx := g.rx.trans h.rx

theorem MacSees.of_bus {s t : State} (o : OnlyBus s t) (regs : ∀ a, steadyReg a → rd t a = rd s a) (ups : ∀ n, laneUp t n = laneUp s n)
    (ctrs : ∀ a, portCtr a → ctr t a = ctr s a) : MacSees s t :=
  ⟨regs, ups, ctrs, o.frames, o.nextId, o.tmg, o.rgr, o.time, o.part, by rw [o.lnk]⟩

/-! ## One codeword -/

theorem laneCnt_not_portCtr (k : Nat) (l : Lane) {x : Nat} (hx : x < 32) : ¬portCtr (LNK_LANE_CNT k l x) := by
  rw [portCtr, LNK_LANE_CNT, offset_bar0 _ (by omega)]
  omega

theorem macSees_laneCnt (k : Nat) (l : Lane) {x : Nat} (hx : x < 32) (s : State) : MacSees s (bump (LNK_LANE_CNT k l x) s) :=
  .of_bus (bump_onlyBus _ _) (fun _ _ => rd_bump _ _ _) (fun _ => laneUp_congr (rd_bump _ _ _)) fun a ha => by
    rw [ctr_bump, if_neg]
    rintro rfl
    exact laneCnt_not_portCtr k l hx ha

theorem laneStat_page (a : Nat) {i : Nat} (hi : i < 64) : LNK_LANE_STAT a i / 0x10000 = pageLNK a + 1 := page_bar0 _ (by omega)

theorem macSees_log {s t : State} (h : LogStays s t) : MacSees s t where
  regs a ha := h.regs a ha.1 ha.2.1
  ups n := by
    have hpage := laneStat_page (n / 64) (Nat.mod_lt n (by decide : 64 > 0))
    refine laneUp_congr (h.regs _ ?_ ?_) <;> rw [hpage] <;> simp only [pageLNK, pageCUR, pageHIF] <;> omega
  ctrs a ha := h.ctrs a ha.1
  frames := congrArg (fun x => x.frames) h.rest
  nextId := congrArg (fun x => x.nextId) h.rest
  tmg := congrArg (fun x => x.tmg) h.rest
  rgr := congrArg (fun x => x.rgr) h.rest
  time := congrArg (fun x => x.time) h.rest
  part := congrArg (fun x => x.part) h.rest
  rx := congrArg (fun x => x.lnk.rx) h.rest

/-- A retuned lane that comes UP was up before. -/
theorem macSees_laneMoved (k : Chiplet) (l : Lane) {s : State} (h : laneState s (laneNo k l) = 4) : MacSees s (laneMoved k l 3 s) := by
  refine .of_bus (onlyBus_laneMoved _ _ _ _) (fun a ha => regsBut_laneMoved k l 3 s a fun hm => ?_) (fun n => ?_) fun a ha => ?_
  · obtain ⟨-, hpba, hchip⟩ := ha
    rcases List.mem_cons.mp hm with e | e
    · have hpage := laneStat_page k l.isLt
      rw [← e] at hpage
      have hmod := (hchip (e ▸ onChiplet_laneStat k l)).1
      rw [hpage, pageLNK] at hmod
      omega
    · refine not_mem_eventRegs (p := pageLNK k) (fun e => ?_) hpba e
      have hoff := (hchip (e ▸ onChiplet_intStat k)).2
      rw [e, H_INT_STAT, offset_bar0 _ (by decide)] at hoff
      omega
  · by_cases hn : n = laneNo k l
    · rw [hn, laneUp, laneUp, laneState_laneMoved k l s (by decide), h]
      rfl
    · exact laneUp_laneMoved k l 3 s hn
  · rw [laneMoved, ctr_raise (cnt8_off_chiplets ha.1) (not_onLedger_of_onChiplet ha.1), if_pos rfl, ctr_wf]

theorem codewordAborts_eq (k l : Nat) (s : State) : codewordAborts k l s =
    if laneState s (laneNo k l) = 4 then laneMoved k l 3 (abortRetune k l 0x07 (drawFree s).1.toNat (drawFree s).2) else s := rfl

theorem macSees_abortRetune (k l reason meas : Nat) (s : State) : MacSees s (abortRetune k l reason meas s) :=
  (macSees_log (logStays_logRecord _ _ _ _ _ _ _)).after ⟨fun _ _ => rfl, fun _ => rfl, fun _ _ => rfl, rfl, rfl, rfl, rfl, rfl, rfl, rfl⟩

theorem macSees_codewordAborts (k : Chiplet) (l : Lane) (s : State) : MacSees s (codewordAborts k l s) := by
  rw [codewordAborts_eq]
  split
  · next h =>
    have hdraw : MacSees s (drawFree s).2 := ⟨fun _ _ => rfl, fun _ => rfl, fun _ _ => rfl, rfl, rfl, rfl, rfl, rfl, rfl, rfl⟩
    refine (macSees_laneMoved k l ?_).after ((macSees_abortRetune _ _ _ _ _).after hdraw)
    rw [laneState_abortRetune]
    exact h
  · exact .refl s

theorem macSees_countCodeword (k : Chiplet) (cw : Lane × Option (Fin 16)) (s : State) : MacSees s (countCodeword k cw s) := by
  unfold countCodeword
  dsimp only
  split
  · exact .refl s
  · split
    · exact (macSees_codewordAborts k cw.1 _).after (macSees_laneCnt k cw.1 (by decide) s)
    · next n _ =>
      refine (macSees_laneCnt k cw.1 (by omega) _).after ?_
      split
      · exact .refl s
      · exact macSees_laneCnt k cw.1 (by decide) s

theorem macSees_rxCodewords (i : NetPort) (cws : List (Lane × Option (Fin 16))) (s : State) : MacSees s (rxCodewords i cws s) := by
  rw [rxCodewords, if_pos i.isLt]
  exact List.foldlRecOn (motive := MacSees s) cws _ (.refl s) fun b hb cw _ =>
    (macSees_countCodeword (⟨i / 64, by omega⟩ : Chiplet) cw b).after hb

/-! ## What a MAC decides by -/

theorem steady_chiplet {k j x : Nat} (hj : j < 8) (hj1 : j ≠ 1) (hx : x < 0x10000) (hx1 : x ≠ 0x10) : steadyReg (bar0 (pageLNK k + j) x) := by
  rw [steadyReg, page_bar0 _ hx, offset_bar0 _ hx]
  simp only [pageLNK, pageCUR, pageHIF]
  omega

theorem steady_first {k x : Nat} (hx : x < 0x10000) (hx1 : x ≠ 0x10) : steadyReg (bar0 (pageLNK k) x) :=
  steady_chiplet (j := 0) (by decide) (by decide) hx hx1

theorem steady_off {p x : Nat} (h : offChiplet p) (hx : x < 0x10000) (hc : p ≠ pageCUR) (hp : p ≠ pageHIF + 6) : steadyReg (bar0 p x) := by
  rw [steadyReg, page_bar0 _ hx]
  exact ⟨hc, hp, fun ha => absurd ha (not_onChiplet_of_off h hx)⟩

theorem home_lnk {k : Nat} (h : k < 8) : home (pageLNK k) = pageLNK k := by
  rw [pageLNK, home, if_neg (by omega), if_pos (by omega)]
  omega

theorem home_gal {g : Nat} (h : g ≤ 8) : home (pageGAL g) = pageGAL g := by
  rw [pageGAL, home]
  repeat rw [if_neg (by omega)]

namespace MacSees

variable {s t : State} (h : MacSees s t)
include h

theorem portCfg (i : Nat) : rd t (LNK_PORT_CFG (i / 64) (i % 64)) = rd s (LNK_PORT_CFG (i / 64) (i % 64)) :=
  h.regs _ (steady_chiplet (by decide) (by decide) (by omega) (by omega))

theorem octetMode_eq (o : Nat) : octetMode t o = octetMode s o :=
  octetMode_congr (h.regs _ (steady_first (by omega) (by omega)))

theorem maxFrame_eq (i : Nat) : maxFrame t i = maxFrame s i := by
  rw [maxFrame, maxFrame, rf, rf, h.portCfg]

theorem loops (i b : Nat) : rb t (LNK_PORT_CFG (i / 64) (i % 64)) b = rb s (LNK_PORT_CFG (i / 64) (i % 64)) b := by
  rw [rb, rb, h.portCfg]

theorem portUp_eq {i : Nat} (hi : i < 512) : portUp t i = portUp s i := portUp_congr hi (h.octetMode_eq _) h.part h.ups

theorem blkState_eq {k : Nat} (hk : k < 8) : blkState t (pageLNK k) = blkState s (pageLNK k) := by
  rw [blkState, blkState, home_lnk hk, rf, rf, H_STATE, h.regs _ (steady_first (by decide) (by decide))]

theorem macOn_eq {i : Nat} (hi : i < 512) : macOn t i = macOn s i := by
  simp only [macOn, portPresent_congr (h.octetMode_eq _) h.part, h.portUp_eq hi, h.loops, isOn, h.blkState_eq (k := i / 64) (by omega)]

theorem hbAdmits_eq (i : Nat) : hbAdmits t i = hbAdmits s i := by
  have hcap : portCap t (i / 64) = portCap s (i / 64) := by
    rw [portCap, portCap, rf, rf, h.regs (LNK_HB_CFG (i / 64)) (steady_first (by decide) (by decide))]
  have hbytes : hbBytes t (i / 64) = hbBytes s (i / 64) := by rw [hbBytes, hbBytes, h.frames]
  have hdesc : hbDesc t (i / 64) = hbDesc s (i / 64) := by rw [hbDesc, hbDesc, h.frames]
  have hport : hbPort t i = hbPort s i := by rw [hbPort, hbPort, h.frames]
  simp only [hbAdmits, hcap, hbytes, hdesc, hport]

theorem galOf_eq (i : Nat) : galOf t i = galOf s i := by
  have hspare : rd t RGR_SPARE_STAT = rd s RGR_SPARE_STAT := h.regs _ (steady_off (by decide) (by decide) (by decide) (by decide))
  rw [galOf, galOf, servingGal, servingGal, rf, rf, hspare]

theorem portFenced_eq {i : Nat} (hi : i < 512) : portFenced t i = portFenced s i := by
  have hg : galOf s i ≤ 8 := by
    rw [galOf, servingGal, portGal, if_pos hi]
    split <;> omega
  have hhome := home_gal hg
  have hstate : rd t (H_STATE (pageGAL (galOf s i))) = rd s (H_STATE (pageGAL (galOf s i))) :=
    h.regs _ (steady_off (by right; simp only [pageGAL]; omega) (by decide) (by simp only [pageGAL, pageCUR]; omega)
      (by simp only [pageGAL, pageHIF]; omega))
  rw [portFenced, portFenced, galFenced, galFenced, h.galOf_eq, blkState, blkState, hhome, rf, rf, hstate]

theorem linkCut_eq {i : Nat} (hi : i < 512) : linkCut t i = linkCut s i := by rw [linkCut, linkCut, h.portFenced_eq hi, h.rgr]

theorem rxStamp_eq (i : Nat) : rxStamp t i = rxStamp s i := by
  have htrim : rd t (LNK_TS_TRIM (i / 64) (i % 64)) = rd s (LNK_TS_TRIM (i / 64) (i % 64)) :=
    h.regs _ (steady_chiplet (by decide) (by decide) (by omega) (by omega))
  have hnow : nowQ t = nowQ s := by rw [nowQ, nowQ, eQ, eQ, h.time]
  rw [rxStamp, rxStamp, rf, rf, htrim, hnow, h.octetMode_eq]

end MacSees

/-! ## Codewords counted (R78, R96) -/

theorem rxCodewords_single (k : Chiplet) (cw : Lane × Option (Fin 16)) (s : State) :
    rxCodewords (64 * k) [cw] s = countCodeword k cw s := by
  have hk : 64 * k.val / 64 = k := by omega
  rw [rxCodewords, if_pos (by omega), hk]
  rfl

/-- Codewords are counted on a lane that is up, in a mode with FEC. -/
theorem countCodeword_on {k : Chiplet} {l : Lane} (n : Option (Fin 16)) {s : State} (h0 : octetMode s ((64 * k + l) / 8) ≠ 0)
    (h8 : octetMode s ((64 * k + l) / 8) ≠ 8) (hup : laneUp s (64 * k + l) = true) : countCodeword k (l, n) s = match n with
      | none => codewordAborts k l (bump (LNK_LANE_CNT k l 1) s)
      | some n => bump (LNK_LANE_CNT k l (2 + n)) (if n = 0 then s else bump (LNK_LANE_CNT k l 0) s) := by
  have hgo : ¬(octetMode s ((64 * k + l) / 8) = 0 ∨ octetMode s ((64 * k + l) / 8) = 8 ∨ (!laneUp s (64 * k + l)) = true) := by
    rw [hup]
    simp [h0, h8]
  rw [countCodeword]
  exact if_neg hgo

theorem laneCnt_ne {k l x y : Nat} (h : x ≠ y) : LNK_LANE_CNT k l x ≠ LNK_LANE_CNT k l y := by
  simp only [LNK_LANE_CNT, bar0]
  omega

theorem onChiplet_laneCnt (k : Chiplet) (l : Lane) {x : Nat} (hx : x < 32) : onChiplet (LNK_LANE_CNT k l x) :=
  onChiplet_bar0 k (by decide) (by omega)

/-- An uncorrectable codeword on a lane in RETUNE. -/
theorem codewordAborts_retune (k : Chiplet) (l : Lane) {s : State} (h : laneState s (laneNo k l) = 4) :
    laneState (codewordAborts k l s) (laneNo k l) = 3 ∧
    laneSt (codewordAborts k l s) k l = { laneSt s k l with coef := (laneSt s k l).saved } ∧
    ∀ a, onChiplet a → ctr (codewordAborts k l s) a = ctr s a := by
  rw [codewordAborts_eq, if_pos h]
  refine ⟨laneState_laneMoved k l _ (by decide), ?_, fun a ha => ?_⟩
  · rw [laneSt, (onlyBus_laneMoved _ _ _ _).lnk, ← laneSt, (abortRetune_lanes k l _ _ _).laneSt_eq, laneSt_putLane]
    rfl
  · rw [laneMoved, ctr_raise (cnt8_off_chiplets ha) (not_onLedger_of_onChiplet ha), if_pos rfl, ctr_wf, abortRetune,
      (logStays_logRecord _ _ _ _ _ _ _).ctrs a ha]
    rfl

theorem codewordAborts_plain {k l : Nat} {s : State} (h : laneState s (laneNo k l) ≠ 4) : codewordAborts k l s = s := by
  rw [codewordAborts_eq, if_neg h]

theorem laneState_bump (a n : Nat) (s : State) : laneState (bump a s) n = laneState s n := by
  rw [laneState, laneState, rf, rf, rd_bump]

theorem claims_codewordsCounted : Claims.CodewordsCounted := by
  intro k l n s m cnt h0 h8 hup t
  have ht : t = _ := (rxCodewords_single k (l, n) s).trans (countCodeword_on n h0 h8 hup)
  have hst : laneState (bump (cnt 1) s) (laneNo k l) = laneState s (laneNo k l) := laneState_bump _ _ _
  refine ⟨fun hn h4 => ?_, fun hn => ?_, fun hn h4 => ?_, fun x hx => ?_⟩
  · subst hn
    obtain ⟨hstate, hcoef, hctrs⟩ := codewordAborts_retune k l (hst.trans h4)
    rw [ht]
    refine ⟨hstate, ?_, ?_⟩
    · rw [hcoef, laneSt, bump_lnk]
      rfl
    · rw [hctrs _ (onChiplet_laneCnt k l (by decide)), ctr_bump, if_pos rfl]
  · rw [ht]
    cases n with
    | none =>
      have h4 := hn.resolve_left fun h => h rfl
      dsimp only
      rw [codewordAborts_plain (hst.symm ▸ h4)]
      exact fun _ _ => rd_bump _ _ _
    | some x =>
      intro a _
      dsimp only
      rw [rd_bump]
      split
      · rfl
      · exact rd_bump _ _ _
  · subst hn
    rw [ht]
    dsimp only
    rw [codewordAborts_plain (hst.symm ▸ h4)]
    exact ⟨by rw [ctr_bump, if_pos rfl], fun a ha _ => by rw [ctr_bump, if_neg (by simpa using ha)]⟩
  · subst hx
    have hne : cnt 0 ≠ cnt (2 + x) := laneCnt_ne (by omega)
    have hbin : ctr (if x = 0 then s else bump (cnt 0) s) (cnt (2 + x)) = ctr s (cnt (2 + x)) := by
      split
      · rfl
      · rw [ctr_bump, if_neg hne.symm]
    rw [ht]
    dsimp only
    refine ⟨by rw [ctr_bump, if_pos rfl, hbin], ?_, fun a ha _ => ?_⟩
    · rw [ctr_bump, if_neg hne]
      split
      · rfl
      · rw [ctr_bump, if_pos rfl]
    · rw [List.mem_cons, List.mem_singleton, not_or] at ha
      rw [ctr_bump, if_neg ha.1]
      split
      · rfl
      · rw [ctr_bump, if_neg ha.2]

end Sys2Proof.Machine
end

section
/-!
SUPPORT. Frames at the MAC, whole, in two parts and consumed (R73, R74, R76, R86, R92), and the settled statement about them.
-/
namespace Sys2Proof.Machine

/-! ## What the MAC counts of a frame that is no pause frame (R73, R101) -/

/-- A frame of `len` bytes counted under its reason, or as good with its length. -/
def macCounted (i : Nat) (cause : Option Nat) (len : Nat) (s : State) : State :=
  match cause with
  | some n => portCnt i n 1 s
  | none => portCnt i 1 len (portCnt i 0 1 s)

theorem macCounted_onlyBus (i : NetPort) (cause : Option Nat) (len : Nat) (s : State) : OnlyBus s (macCounted i cause len s) := by
  cases cause with
  | some n => rw [macCounted, portCnt_eq]; exact bumpN_onlyBus _ _ _
  | none => rw [macCounted, portCnt_eq, portCnt_eq]; exact OnlyBus.trans' (bumpN_onlyBus _ _ _) (bumpN_onlyBus _ _ _)

theorem rd_macCounted (i : NetPort) (cause : Option Nat) (len : Nat) (s : State) (a : Nat) : rd (macCounted i cause len s) a = rd s a := by
  cases cause with
  | some n => exact rd_portCnt _ _ _ _ _
  | none => exact (rd_portCnt _ _ _ _ _).trans (rd_portCnt _ _ _ _ _)

/-- A counter that is no reason's stays. -/
theorem ctr_macCounted_ne (i : NetPort) {cause : Option Nat} {n : Nat} (len : Nat) (s : State) (hc : cause ≠ some n) (h0 : n ≠ 0)
    (h1 : n ≠ 1) : ctr (macCounted i cause len s) (LNK_PORT_CNT (i / 64) (i % 64) n) = ctr s (LNK_PORT_CNT (i / 64) (i % 64) n) := by
  cases cause with
  | some m => exact ctr_portCnt_ne _ _ _ fun e => hc (congrArg some e.symm)
  | none => exact (ctr_portCnt_ne _ _ _ h1).trans (ctr_portCnt_ne _ _ _ h0)

theorem ctrsBut_portCnt (i : NetPort) (n k : Nat) (s : State) : CtrsBut [LNK_PORT_CNT (i / 64) (i % 64) n] s (portCnt i n k s) := by
  intro a ha _
  rw [portCnt_eq, ctr_bumpN_ne _ _ (by simpa using ha)]

/-! ## The end of a frame that is no pause frame -/

/-- A frame that is not kept leaves nothing to settle. -/
def rxLone (bytes : List Byte) (x : Option Nat) : RxOpen := ⟨bytes, x, [], none, [], bytes.length⟩

theorem cancelLearns_none (w : Nat) (s : State) : cancelLearns w [] s = s := ite_self _

theorem rxGone_lone (i : Nat) (bytes : List Byte) (x : Option Nat) (len : Nat) (bad : Bool) (s : State) :
    rxGone i (rxLone bytes x) len bad s = s := by
  cases bad with
  | true => exact cancelLearns_none _ s
  | false => rfl

/-- The MAC counts the frame, and what is stored of it is settled. -/
theorem rxEnd_plain {bytes : List Byte} (h : asPause bytes = none) (i : Nat) (r : RxOpen) (cause : Option Nat) (s : State) :
    rxEnd i r bytes cause s = match r.frame with
      | some id => rxSettle id (bytes.take (maxFrame s i + 1)) cause.isSome (macCounted i cause bytes.length (rxDone i s))
      | none => rxGone i r bytes.length cause.isSome (macCounted i cause bytes.length (rxDone i s)) := by
  unfold rxEnd
  rw [h]
  cases cause <;> rfl

/-- A frame held for dispatch with no flow record to count. -/
theorem rxSettle_held {id : Nat} {f : Frame} {s : State} (hf : frameOf s id = some f) (hstage : f.stage = .hold) (hc : f.counted = [])
    (hce : f.ce = false) (bytes : List Byte) (bad : Bool) :
    rxSettle id bytes bad s = putFrame { f with bytes := bytes, whole := true, bad := bad } s := by
  have hhold : f.stage ≠ .hall := by rw [hstage]; decide
  rw [rxSettle, hf]
  dsimp only
  rw [hc, hce, if_neg hhold]
  rfl

theorem pauseLike_of_not_pause {bytes : List Byte} (h : asPause bytes = none) : pauseLike bytes = false := by
  rw [asPause] at h
  cases hp : pauseLike bytes with
  | false => rfl
  | true =>
    rw [hp] at h
    split at h
    · contradiction
    · split at h <;> cases h

/-! ## The start of a frame (R86, R92) -/

/-- The frame that port `i` opens with its first bytes. -/
def openedFrame (s : State) (i : Nat) (bytes : List Byte) (len : Nat) : Frame :=
  { newFrame s i (bytes.take (maxFrame s i + 1)) false false (rxStamp s i) with total := min len (maxFrame s i + 1) }

/-- A frame stored and shown to its gallery. -/
def frameOpened (i : Nat) (bytes : List Byte) (len : Nat) (s : State) : State :=
  judgePressure (galOf s i) (wakeGal (galOf s i) (addFrame (openedFrame s i bytes len) s))

theorem rxStart_opens {i : Nat} {bytes : List Byte} {s : State} (hp : pauseLike bytes = false) (hcut : linkCut s i = false)
    (hroom : hbAdmits s i = true) (len : Nat) : rxStart i bytes len s = (some s.nextId, frameOpened i bytes len s) := by
  have hcut' : linkCut s i ≠ true := by rw [hcut]; decide
  have hroom' : (!hbAdmits s i) ≠ true := by rw [hroom]; decide
  rw [rxStart, hp, if_neg Bool.false_ne_true, if_neg hcut', if_neg hroom']
  rfl

theorem rxStart_refused {i : Nat} {bytes : List Byte} {s : State} (hp : pauseLike bytes = false) (hcut : linkCut s i = false)
    (hroom : hbAdmits s i = false) (len : Nat) : rxStart i bytes len s = (none, raise (pageLNK (i / 64)) 1 (portCnt i 11 1 s)) := by
  have hcut' : linkCut s i ≠ true := by rw [hcut]; decide
  rw [rxStart, hp, if_neg Bool.false_ne_true, if_neg hcut', hroom]
  rfl

theorem rxStart_cut {i : Nat} {bytes : List Byte} {s : State} (hp : pauseLike bytes = false) (hcut : linkCut s i = true) (len : Nat) :
    rxStart i bytes len s = (none, portCnt i 12 1 s) := by
  rw [rxStart, hp, if_neg Bool.false_ne_true, if_pos hcut]

theorem rd_wakeGal {g a : Nat} (h : onChiplet a) (hg : g < 0x1000) (s : State) : rd (wakeGal g s) a = rd s a := by
  have hpwr : a ≠ PWR_GAL_STAT := ne_of_offChiplet (by decide) (by decide) h
  have hgal : a ≠ GAL_STAT g := ne_of_offChiplet (by right; rw [pageGAL]; omega) (by decide) h
  have hramp : ∀ u, rd (endRamp g u) a = rd u a := fun u => by
    unfold endRamp
    split
    · exact rd_wf_ne _ _ _ _ hpwr
    · rfl
  unfold wakeGal
  split
  · rw [showGalState, hramp, rd_wf_ne _ _ _ _ hpwr, rd_wf_ne _ _ _ _ hgal]
  · rfl

theorem ctr_wakeGal (g : Nat) (s : State) (a : Nat) : ctr (wakeGal g s) a = ctr s a := by
  have hramp : ∀ u, ctr (endRamp g u) a = ctr u a := fun u => by
    unfold endRamp
    split <;> rfl
  unfold wakeGal
  split
  · exact hramp _
  · rfl

/-- What the pressure's judgement leaves: the frames, the ports, the chiplets' registers, and the counters but for an event's. -/
theorem judgePressure_leaves (g : Nat) (s : State) : (judgePressure g s).frames = s.frames ∧ (judgePressure g s).lnk = s.lnk ∧
    (∀ a, onChiplet a → rd (judgePressure g s) a = rd s a) ∧ CtrsBut [HIF_CNT 8] s (judgePressure g s) := by
  unfold judgePressure
  dsimp only
  generalize hu : ({ s with doc := _ } : State) = u
  have hsame : u.frames = s.frames ∧ u.lnk = s.lnk ∧ (∀ a, rd u a = rd s a) ∧ ∀ a, ctr u a = ctr s a := by
    subst hu
    exact ⟨rfl, rfl, fun _ => rfl, fun _ => rfl⟩
  obtain ⟨hframes, hlnk, hrd, hctr⟩ := hsame
  split
  · have hbus := raise_onlyBus (pageDOC g) 5 u
    have hpage : offChiplet (pageDOC g) := by
      right
      rw [pageDOC]
      omega
    refine ⟨by rw [hbus.frames, hframes], by rw [hbus.lnk, hlnk], fun a ha => ?_, fun a ha hl => ?_⟩
    · rw [(lanesStay_raise hpage 5 u).regs a ha, hrd]
    · rw [(raise_changes _ _ _).2 a ha hl, hctr]
  · exact ⟨hframes, hlnk, fun a _ => hrd a, fun a _ _ => hctr a⟩

theorem galOf_lt (s : State) {i : Nat} (hi : i < 512) : galOf s i ≤ 8 := by
  rw [galOf, servingGal, portGal, if_pos hi]
  split <;> omega

theorem frameOpened_leaves (i : NetPort) (bytes : List Byte) (len : Nat) (s : State) :
    (frameOpened i bytes len s).frames = s.frames ++ [openedFrame s i bytes len] ∧ (frameOpened i bytes len s).lnk = s.lnk ∧
    (∀ a, onChiplet a → rd (frameOpened i bytes len s) a = rd s a) ∧ CtrsBut [HIF_CNT 8] s (frameOpened i bytes len s) := by
  have hg : galOf s i < 0x1000 := by
    have hle := galOf_lt s i.isLt
    omega
  have hbus := wakeGal_onlyBus (galOf s i) (addFrame (openedFrame s i bytes len) s)
  obtain ⟨hframes, hlnk, hregs, hctrs⟩ := judgePressure_leaves (galOf s i) (wakeGal (galOf s i) (addFrame (openedFrame s i bytes len) s))
  refine ⟨hframes.trans hbus.frames, hlnk.trans hbus.lnk, fun a ha => ?_, fun a ha hl => ?_⟩
  · exact (hregs a ha).trans (rd_wakeGal ha hg _)
  · exact (hctrs a ha hl).trans (ctr_wakeGal _ _ _)

/-- A frame with a fresh number is found by it. -/
theorem frameOf_fresh {s t : State} {f : Frame} {id : Nat} (hf : t.frames = s.frames ++ [f]) (hid : f.id = id)
    (hfresh : ∀ x, x ∈ s.frames → x.id < id) : frameOf t id = some f := by
  subst hid
  have hnone : (s.frames.find? fun x => x.id == f.id) = none := by
    rw [List.find?_eq_none]
    intro x hx
    have hlt := hfresh x hx
    simp only [beq_iff_eq]
    omega
  rw [frameOf, hf, List.find?_append, hnone]
  simp

theorem frameOf_putFrame_found {s : State} {f g : Frame} {id : Nat} (hg : frameOf s id = some g) (hid : f.id = id) :
    frameOf (putFrame f s) id = some f := by
  subst hid
  rw [frameOf_putFrame, hg]
  rfl

/-! ## RX_FRAME of a frame's whole -/

theorem exec_rxFrame_whole {i : NetPort} (bytes : List Byte) (fec : Bool) (cws : List (Lane × Option (Fin 16))) {s : State}
    (hon : macOn s i = true) (hloop : rb s (LNK_PORT_CFG (i / 64) (i % 64)) 1 = false) (hidle : sGet none i.val s.lnk.rx = none) :
    exec (.rxFrame ⟨i.val, by omega⟩ (.whole bytes fec) cws) s = .next (rxWhole i bytes fec (rxCodewords i cws s)) := by
  have hz := macSees_rxCodewords i cws s
  have hloop' : rb (rxCodewords i cws s) (LNK_PORT_CFG (i / 64) (i % 64)) 1 ≠ true := by rw [hz.loops, hloop]; decide
  have hgo : (!macOn (rxCodewords i cws s) i || (sGet none i.val (rxCodewords i cws s).lnk.rx).isSome) ≠ true := by
    rw [hz.macOn_eq i.isLt, hon, hz.rx, hidle]
    decide
  show Host.Outcome.next (rxEvent i (.whole bytes fec) (rxCodewords i cws s)) = _
  rw [rxEvent, if_neg hloop', if_neg hgo]

/-- The frame as it stands once its last byte has arrived. -/
def storedFrame (s : State) (i : Nat) (bytes : List Byte) (bad : Bool) : Frame :=
  { openedFrame s i bytes bytes.length with bytes := bytes.take (maxFrame s i + 1), whole := true, bad := bad }

/-- A whole frame that the MAC stores. -/
theorem rxWhole_stored {i : NetPort} {bytes : List Byte} (fec : Bool) {s : State} (hp : asPause bytes = none) (hcut : linkCut s i = false)
    (hroom : hbAdmits s i = true) (hlen : 64 ≤ bytes.length) (hfresh : ∀ f, f ∈ s.frames → f.id < s.nextId) {cause : Option Nat}
    (hcause : rxCause (maxFrame s i) bytes.length fec (fcsGood bytes) = cause) :
    rxWhole i bytes fec s = putFrame (storedFrame s i bytes cause.isSome)
      (macCounted i cause bytes.length (rxDone i (frameOpened i bytes bytes.length s))) ∧
    frameOf (rxWhole i bytes fec s) s.nextId = some (storedFrame s i bytes cause.isSome) := by
  obtain ⟨hframes, -, hregs, -⟩ := frameOpened_leaves i bytes bytes.length s
  have hmax : maxFrame (frameOpened i bytes bytes.length s) i = maxFrame s i := by
    rw [maxFrame, maxFrame, rf, rf, hregs _ (onChiplet_portCfg i)]
  have hid : (openedFrame s i bytes bytes.length).id = s.nextId := rfl
  have hfound : frameOf (macCounted i cause bytes.length (rxDone i (frameOpened i bytes bytes.length s))) s.nextId =
      some (openedFrame s i bytes bytes.length) :=
    frameOf_fresh ((macCounted_onlyBus i _ _ _).frames.trans hframes) hid hfresh
  have hstart : (if bytes.length < 64 then (none, s) else rxStart i bytes bytes.length s) =
      (some s.nextId, frameOpened i bytes bytes.length s) := by
    rw [if_neg (by omega), rxStart_opens (pauseLike_of_not_pause hp) hcut hroom]
  have hsettled : rxWhole i bytes fec s = putFrame (storedFrame s i bytes cause.isSome)
      (macCounted i cause bytes.length (rxDone i (frameOpened i bytes bytes.length s))) := by
    rw [rxWhole, hstart]
    dsimp only
    rw [rxEnd_plain hp, hcause]
    dsimp only
    rw [hmax]
    exact rxSettle_held hfound rfl rfl rfl _ _
  refine ⟨hsettled, ?_⟩
  rw [hsettled]
  exact frameOf_putFrame_found hfound hid

/-- A whole frame of which the MAC stores nothing. -/
theorem rxWhole_lost {i : Nat} {bytes : List Byte} (fec : Bool) {s u : State} (hp : asPause bytes = none)
    (hstart : (if bytes.length < 64 then (none, s) else rxStart i bytes bytes.length s) = (none, u)) :
    rxWhole i bytes fec s = macCounted i (rxCause (maxFrame s i) bytes.length fec (fcsGood bytes)) bytes.length (rxDone i u) := by
  rw [rxWhole, hstart]
  dsimp only
  rw [rxEnd_plain hp]
  exact rxGone_lone i bytes none _ _ _

theorem rd_rxDone (i : Nat) (s : State) (a : Nat) : rd (rxDone i s) a = rd s a := rfl

theorem ctr_rxDone (i : Nat) (s : State) (a : Nat) : ctr (rxDone i s) a = ctr s a := rfl

theorem portCtr_portCnt (i : NetPort) {n : Nat} (hn : n < 32) : portCtr (LNK_PORT_CNT (i / 64) (i % 64) n) := by
  have hi := i.isLt
  rw [portCtr, LNK_PORT_CNT, onChiplet, page_bar0 _ (by omega), offset_bar0 _ (by omega), pageLNK]
  omega

/-- No port's counter is one that an event may move. -/
theorem portCnt_not_event (i : NetPort) {n : Nat} (hn : n < 32) : LNK_PORT_CNT (i / 64) (i % 64) n ∉ [HIF_CNT 8] ∧
    ¬(HIF_CNT 8 ∈ [HIF_CNT 8] ∧ onLedger (LNK_PORT_CNT (i / 64) (i % 64) n)) := by
  have hchip := (portCtr_portCnt i hn).1
  exact ⟨by simpa using cnt8_off_chiplets hchip, fun h => not_onLedger_of_onChiplet hchip h.2⟩

/-- A stored frame's counters: its reason, or the good frames and their bytes. -/
theorem ctrs_stored (i : NetPort) (bytes : List Byte) (len : Nat) (s : State) :
    (∀ n, n < 32 → ctr (macCounted i (some n) len (rxDone i (frameOpened i bytes len s))) (LNK_PORT_CNT (i / 64) (i % 64) n) =
        (ctr s (LNK_PORT_CNT (i / 64) (i % 64) n) + 1) % 2 ^ 64 ∧
      CtrsBut [LNK_PORT_CNT (i / 64) (i % 64) n, HIF_CNT 8] s (macCounted i (some n) len (rxDone i (frameOpened i bytes len s)))) ∧
    ctr (macCounted i none len (rxDone i (frameOpened i bytes len s))) (LNK_PORT_CNT (i / 64) (i % 64) 0) =
        (ctr s (LNK_PORT_CNT (i / 64) (i % 64) 0) + 1) % 2 ^ 64 ∧
    CtrsBut [LNK_PORT_CNT (i / 64) (i % 64) 0, LNK_PORT_CNT (i / 64) (i % 64) 1, HIF_CNT 8] s
      (macCounted i none len (rxDone i (frameOpened i bytes len s))) := by
  have hopen := (frameOpened_leaves i bytes len s).2.2.2
  have hsame : ∀ n, n < 32 → ctr (frameOpened i bytes len s) (LNK_PORT_CNT (i / 64) (i % 64) n) = ctr s (LNK_PORT_CNT (i / 64) (i % 64) n) :=
    fun n hn => hopen _ (portCnt_not_event i hn).1 (portCnt_not_event i hn).2
  refine ⟨fun n hn => ⟨?_, fun a ha hl => ?_⟩, ?_, fun a ha hl => ?_⟩
  · rw [macCounted, ctr_portCnt_same, ctr_rxDone, hsame n hn]
  · simp only [List.mem_cons, List.not_mem_nil, or_false, not_or, or_true, true_and] at ha hl
    rw [macCounted, ctrsBut_portCnt i n 1 _ a (by simpa using ha.1) (by simp [hl]), ctr_rxDone]
    exact hopen a (by simpa using ha.2) (by simp [hl])
  · rw [macCounted, ctr_portCnt_ne _ _ _ (by decide), ctr_portCnt_same, ctr_rxDone, hsame 0 (by decide)]
  · simp only [List.mem_cons, List.not_mem_nil, or_false, not_or, or_true, true_and] at ha hl
    rw [macCounted, ctrsBut_portCnt i 1 _ _ a (by simpa using ha.2.1) (by simp [hl]),
      ctrsBut_portCnt i 0 1 _ a (by simpa using ha.1) (by simp [hl]), ctr_rxDone]
    exact hopen a (by simpa using ha.2.2) (by simp [hl])

/-- A frame that the hold buffer refuses is counted with its event. -/
theorem rxWhole_refused {i : NetPort} {bytes : List Byte} (fec : Bool) {s : State} (hp : asPause bytes = none) (hcut : linkCut s i = false)
    (hroom : hbAdmits s i = false) (hlen : 64 ≤ bytes.length) : (rxWhole i bytes fec s).frames = s.frames ∧
      ctr (rxWhole i bytes fec s) (LNK_PORT_CNT (i / 64) (i % 64) 11) = (ctr s (LNK_PORT_CNT (i / 64) (i % 64) 11) + 1) % 2 ^ 64 ∧
      rb (rxWhole i bytes fec s) (H_INT_STAT (pageLNK (i / 64))) 1 = true := by
  have hstart : (if bytes.length < 64 then (none, s) else rxStart i bytes bytes.length s) =
      (none, raise (pageLNK (i / 64)) 1 (portCnt i 11 1 s)) := by
    rw [if_neg (by omega), rxStart_refused (pauseLike_of_not_pause hp) hcut hroom]
  have hchip := (portCtr_portCnt i (n := 11) (by decide)).1
  rw [rxWhole_lost fec hp hstart]
  refine ⟨?_, ?_, ?_⟩
  · rw [(macCounted_onlyBus i _ _ _).frames]
    exact (raise_onlyBus _ _ _).frames.trans (by rw [portCnt_eq, (bumpN_onlyBus _ _ _).frames])
  · have hcause : rxCause (maxFrame s i) bytes.length fec (fcsGood bytes) ≠ some 11 := fun h => by
      have hrange := rxCause_range h
      omega
    rw [ctr_macCounted_ne i _ _ hcause (by decide) (by decide), ctr_rxDone,
      ctr_raise (cnt8_off_chiplets hchip) (not_onLedger_of_onChiplet hchip), ctr_portCnt_same]
  · rw [rb, rd_macCounted, rd_rxDone, ← rb]
    exact rb_raise_self _ _ (by decide)

/-- A frame that meets a link being switched is counted. -/
theorem rxWhole_cut {i : NetPort} {bytes : List Byte} (fec : Bool) {s : State} (hp : asPause bytes = none) (hcut : linkCut s i = true)
    (hlen : 64 ≤ bytes.length) : (rxWhole i bytes fec s).frames = s.frames ∧
      ctr (rxWhole i bytes fec s) (LNK_PORT_CNT (i / 64) (i % 64) 12) = (ctr s (LNK_PORT_CNT (i / 64) (i % 64) 12) + 1) % 2 ^ 64 ∧
      RegsBut [] s (rxWhole i bytes fec s) := by
  have hstart : (if bytes.length < 64 then (none, s) else rxStart i bytes bytes.length s) = (none, portCnt i 12 1 s) := by
    rw [if_neg (by omega), rxStart_cut (pauseLike_of_not_pause hp) hcut]
  rw [rxWhole_lost fec hp hstart]
  refine ⟨?_, ?_, fun a _ => ?_⟩
  · rw [(macCounted_onlyBus i _ _ _).frames, portCnt_eq]
    exact (bumpN_onlyBus _ _ _).frames
  · have hcause : rxCause (maxFrame s i) bytes.length fec (fcsGood bytes) ≠ some 12 := fun h => by
      have hrange := rxCause_range h
      omega
    rw [ctr_macCounted_ne i _ _ hcause (by decide) (by decide), ctr_rxDone, ctr_portCnt_same]
  · rw [rd_macCounted, rd_rxDone, rd_portCnt]

/-- A runt is bad whatever else holds of it. -/
theorem rxCause_runt {len : Nat} (h : len < 64) (max : Nat) (fec ok : Bool) : ∃ n, rxCause max len fec ok = some n := by
  unfold rxCause
  rw [if_pos h]
  split
  · exact ⟨_, rfl⟩
  · exact ⟨_, rfl⟩

/-- A runt is counted under its reason alone. -/
theorem rxWhole_runt {i : NetPort} {bytes : List Byte} (fec : Bool) {s : State} (hp : asPause bytes = none) (hlen : bytes.length < 64)
    {n : Nat} (hcause : rxCause (maxFrame s i) bytes.length fec (fcsGood bytes) = some n) : (rxWhole i bytes fec s).frames = s.frames ∧
      ctr (rxWhole i bytes fec s) (LNK_PORT_CNT (i / 64) (i % 64) n) = (ctr s (LNK_PORT_CNT (i / 64) (i % 64) n) + 1) % 2 ^ 64 ∧
      CtrsBut [LNK_PORT_CNT (i / 64) (i % 64) n] s (rxWhole i bytes fec s) ∧ RegsBut [] s (rxWhole i bytes fec s) := by
  rw [rxWhole_lost fec hp (if_pos hlen), hcause]
  refine ⟨(macCounted_onlyBus i _ _ _).frames, ?_, ctrsBut_portCnt i n 1 (rxDone i s), fun a _ => ?_⟩
  · rw [macCounted, ctr_portCnt_same, ctr_rxDone]
  · rw [rd_macCounted, rd_rxDone]

theorem claims_frameReceived : Claims.FrameReceived := by
  intro i bytes fec cws s p cnt z hon hloop hidle hfresh cause hp
  have hz : MacSees s z := macSees_rxCodewords i cws s
  have he : exec (.rxFrame p (.whole bytes fec) cws) s = .next (rxWhole i bytes fec z) := exec_rxFrame_whole bytes fec cws hon hloop hidle
  have hcause : rxCause (maxFrame z i) bytes.length fec (fcsGood bytes) = cause := by rw [hz.maxFrame_eq]
  have hcut : linkCut z i = linkCut s i := hz.linkCut_eq i.isLt
  have hcnt : ∀ n, n < 32 → ctr z (cnt n) = ctr s (cnt n) := fun n hn => hz.ctrs _ (portCtr_portCnt i hn)
  have hreason : ∀ n, cause = some n → n < 32 := fun n hn => by
    have hrange := rxCause_range hn
    omega
  refine ⟨fun hf => ?_, fun hopen hroom hlen => ⟨_, he, ?_⟩, fun hopen hroom hlen => ⟨_, he, ?_⟩, fun hshut hlen => ⟨_, he, ?_⟩, fun hlen => ?_⟩
  · show rxCause (maxFrame s i) bytes.length fec (fcsGood bytes) = some 3
    rw [hf]
    rfl
  · obtain ⟨hstored, hfound⟩ := rxWhole_stored fec hp (hcut.trans hopen) ((hz.hbAdmits_eq i).trans hroom) hlen
      (by rw [hz.frames, hz.nextId]; exact hfresh) hcause
    obtain ⟨hbad, hgood, hothers⟩ := ctrs_stored i bytes bytes.length z
    refine ⟨⟨_, List.mem_of_find?_eq_some hfound, hz.nextId, rfl, ?_, rfl, rfl, rfl, hz.rxStamp_eq i⟩, fun n hn => ?_, fun hn => ?_⟩
    · show bytes.take (maxFrame z i + 1) = _
      rw [hz.maxFrame_eq]
    · rw [hstored, hn, ← hcnt n (hreason n hn)]
      exact hbad n (hreason n hn)
    · rw [hstored, hn, ← hcnt 0 (by decide)]
      exact ⟨hgood, hothers⟩
  · rw [← hz.frames, ← hcnt 11 (by decide)]
    exact rxWhole_refused fec hp (hcut.trans hopen) ((hz.hbAdmits_eq i).trans hroom) hlen
  · rw [← hz.frames, ← hcnt 12 (by decide)]
    exact rxWhole_cut fec hp (hcut.trans hshut) hlen
  · obtain ⟨n, hn⟩ := rxCause_runt hlen (maxFrame s i) fec (fcsGood bytes)
    obtain ⟨hframes, hcount, hctrs, hregs⟩ := rxWhole_runt fec hp hlen (hcause.trans hn)
    refine ⟨_, n, he, hframes.trans hz.frames, hn, ?_, hctrs, hregs⟩
    rw [← hcnt n (hreason n hn)]
    exact hcount

/-! ## RX_FRAME in two parts -/

theorem exec_rxFrame_head {i : NetPort} {bytes : List Byte} {len : Nat} (cws : List (Lane × Option (Fin 16))) {s : State}
    (hon : macOn s i = true) (hloop : rb s (LNK_PORT_CFG (i / 64) (i % 64)) 1 = false) (hidle : sGet none i.val s.lnk.rx = none)
    (hpart : bytes.length < len) {x : Option Nat × State} (hx : rxStart i bytes len (rxCodewords i cws s) = x) :
    exec (.rxFrame ⟨i.val, by omega⟩ (.head bytes len) cws) s =
      .next { x.2 with lnk := { x.2.lnk with rx := sPut none i.val (some ⟨bytes, x.1, [], none, [], len⟩) x.2.lnk.rx } } := by
  have hz := macSees_rxCodewords i cws s
  have hloop' : rb (rxCodewords i cws s) (LNK_PORT_CFG (i / 64) (i % 64)) 1 ≠ true := by rw [hz.loops, hloop]; decide
  have hgo : (!macOn (rxCodewords i cws s) i || (sGet none i.val (rxCodewords i cws s).lnk.rx).isSome || decide (len ≤ bytes.length)) ≠ true := by
    rw [hz.macOn_eq i.isLt, hon, hz.rx, hidle, decide_eq_false (by omega)]
    decide
  subst hx
  show Host.Outcome.next (rxEvent i (.head bytes len) (rxCodewords i cws s)) = _
  rw [rxEvent, if_neg hloop', if_neg hgo]

theorem exec_rxFrame_tail {i : NetPort} {more : List Byte} {r : RxOpen} (fec : Bool) (cws : List (Lane × Option (Fin 16))) {s : State}
    (hon : macOn s i = true) (hloop : rb s (LNK_PORT_CFG (i / 64) (i % 64)) 1 = false) (hr : sGet none i.val s.lnk.rx = some r)
    (hlen : (r.bytes ++ more).length = r.len) : exec (.rxFrame ⟨i.val, by omega⟩ (.tail more fec) cws) s =
      .next (rxEnd i r (r.bytes ++ more) (rxCause (maxFrame s i) (r.bytes ++ more).length fec (fcsGood (r.bytes ++ more))) (rxCodewords i cws s)) := by
  have hz := macSees_rxCodewords i cws s
  have hloop' : rb (rxCodewords i cws s) (LNK_PORT_CFG (i / 64) (i % 64)) 1 ≠ true := by rw [hz.loops, hloop]; decide
  have hlive : macLive (rxCodewords i cws s) i = true := macLive_of_macOn (by rw [hz.macOn_eq i.isLt, hon])
  show Host.Outcome.next (rxEvent i (.tail more fec) (rxCodewords i cws s)) = _
  rw [rxEvent, if_neg hloop', if_pos hlive, rxTail, hz.rx, hr]
  dsimp only
  rw [if_neg (not_not_intro hlen), hz.maxFrame_eq]

theorem claims_frameReceivedInParts : Claims.FrameReceivedInParts := by
  intro i cws s p hon hloop
  have hz := macSees_rxCodewords i cws s
  refine ⟨fun bytes len hpart hp hidle hcut hroom => ?_, fun r id f more fec hr hrf hf hstage hcounted hce hlen hp => ?_⟩
  · have hstart := rxStart_opens (i := i) (s := rxCodewords i cws s) hp (by rw [hz.linkCut_eq i.isLt, hcut]) (by rw [hz.hbAdmits_eq, hroom]) len
    have hframes := (frameOpened_leaves i bytes len (rxCodewords i cws s)).1
    refine ⟨_, exec_rxFrame_head cws hon hloop hidle hpart hstart, ?_, openedFrame (rxCodewords i cws s) i bytes len, ?_, hz.nextId, rfl, ?_, ?_⟩
    · refine (sGet_sPut_same _ _ _ _).trans ?_
      rw [hz.nextId]
    · exact hframes.symm ▸ List.mem_append_right _ (List.mem_singleton_self _)
    · show bytes.take (maxFrame (rxCodewords i cws s) i + 1) = _
      rw [hz.maxFrame_eq]
    · show min len (maxFrame (rxCodewords i cws s) i + 1) = _
      rw [hz.maxFrame_eq]
  · refine ⟨_, exec_rxFrame_tail fec cws hon hloop hr hlen, ?_⟩
    generalize rxCause (maxFrame s i) (r.bytes ++ more).length fec (fcsGood (r.bytes ++ more)) = cause
    have hbus := macCounted_onlyBus i cause (r.bytes ++ more).length (rxDone i (rxCodewords i cws s))
    have hfound : frameOf (macCounted i cause (r.bytes ++ more).length (rxDone i (rxCodewords i cws s))) id = some f := by
      rw [← hf]
      exact frameOf_congr (hbus.frames.trans hz.frames) id
    rw [rxEnd_plain hp, hrf]
    dsimp only
    rw [rxSettle_held hfound hstage hcounted hce, hz.maxFrame_eq]
    refine ⟨?_, ?_⟩
    · show sGet none i.val (macCounted i cause (r.bytes ++ more).length (rxDone i (rxCodewords i cws s))).lnk.rx = none
      rw [hbus.lnk]
      exact sGet_sPut_same _ _ _ _
    · have hid : f.id = id := frameOf_id hf
      exact frameOf_putFrame_found hfound hid

/-! ## A pause frame consumed (R76) -/

theorem claims_pauseFrameConsumed : Claims.PauseFrameConsumed := by
  intro i bytes fec cws pf s p cnt hon hloop hidle hp cause
  have hz := macSees_rxCodewords i cws s
  have he := exec_rxFrame_whole bytes fec cws hon hloop hidle
  have hcause : rxCause (maxFrame (rxCodewords i cws s) i) bytes.length fec (fcsGood bytes) = cause := by rw [hz.maxFrame_eq]
  have hcnt : ∀ n, n < 32 → ctr (rxCodewords i cws s) (cnt n) = ctr s (cnt n) := fun n hn => hz.ctrs _ (portCtr_portCnt i hn)
  refine ⟨fun hn => ⟨_, he, ?_⟩, fun n hn => ⟨_, he, ?_⟩⟩
  · rw [rxWhole_pause hp, hcause, hn]
    dsimp only
    obtain ⟨-, hframes, -, -, hcount⟩ := applyPause_changes i pf (rxDone i (rxCodewords i cws s))
    refine ⟨hframes.trans hz.frames, ?_, ?_, ?_⟩
    · rw [applyPause_eq, applyPause_eq, portCnt_eq, portCnt_eq, (bumpN_onlyBus _ _ _).tmg, (bumpN_onlyBus _ _ _).tmg]
      show sPut 0 i.val (pausedAfter pf (sGet 0 i.val (rxCodewords i cws s).tmg.paused)) (rxCodewords i cws s).tmg.paused = _
      rw [hz.tmg]
    · rw [hcount, ctr_rxDone, hcnt 6 (by decide)]
    · rw [applyPause_eq, ctr_portCnt_ne _ _ _ (by decide)]
      exact hcnt 0 (by decide)
  · have hrange := rxCause_range hn
    rw [rxWhole_pause hp, hcause, hn]
    dsimp only
    refine ⟨?_, ?_, ?_, ?_⟩
    · rw [portCnt_eq, (bumpN_onlyBus _ _ _).frames]
      exact hz.frames
    · rw [portCnt_eq, (bumpN_onlyBus _ _ _).tmg]
      exact congrArg (fun x => x.paused) hz.tmg
    · rw [ctr_portCnt_same, ctr_rxDone, hcnt n (by omega)]
    · rw [ctr_portCnt_ne _ _ _ (by omega), ctr_rxDone, hcnt 6 (by decide)]

/-- Settles O18: the codewords move nothing that the MAC decides by, so the frame meets the port as it stood; a kept frame is found by its
fresh number, and one that is not kept leaves nothing to settle. -/
theorem frameReceived : Obligations.FrameReceived :=
  ⟨claims_frameReceived, claims_frameReceivedInParts, claims_pauseFrameConsumed, claims_codewordsCounted⟩

end Sys2Proof.Machine
end

section
/-!
SUPPORT. The lane and MAC commands complete wherever their conditions hold (R73, R76, R77, R86, R94-R97, R342, R343).
-/
namespace Sys2Proof.Machine

theorem claims_laneCommandsComplete : Claims.LaneCommandsComplete := by
  intro k l s n
  refine ⟨fun v ho => ?_, fun coef ber hon hlock hreq hst => ?_, fun hup => ?_, fun h hr => ?_, fun h r m => ⟨fun coef ber => ?_, ?_⟩⟩
  · refine ⟨_, exec_laneStateReq k l v ho, ?_⟩
    unfold writeLaneCtrl
    dsimp only
    split
    · rw [rd_laneCtrl_applyLaneReq, rd_wr_same]
    · exact rd_wr_same _ _ _
  · obtain ⟨t, he, hstate, -, hcoef, -, -⟩ := trainComplete_up coef ber hon hlock hreq (.inl hst)
    exact ⟨t, he, hstate, by rw [hcoef]⟩
  · obtain ⟨t, he, hstate, -⟩ := lossOfLock_trains hup
    exact ⟨t, he, hstate⟩
  · obtain ⟨t, he, hstate, -⟩ := holdRestoreTimeout_trains h hr
    exact ⟨t, he, hstate⟩
  · obtain ⟨t, he, hstate, hcoef, -⟩ := retuneComplete_up coef ber r m h
    exact ⟨t, he, hstate, by rw [hcoef]⟩
  · obtain ⟨t, he, hstate, hcoef⟩ := retuneAbort_up r m h
    exact ⟨t, he, hstate, by rw [hcoef]⟩

/-- While a pair is in XOFF its request is repeated, with PFC its own and without it that of the whole port. -/
theorem pfcRefresh_requests {i : NetPort} {c : Fin 8} {s : State} (hin : inXoff s i c = true) :
    ∃ t, exec (.pfcRefresh i) s = .next t ∧
      (i.val, (if rb s (LNK_PORT_CFG (i / 64) (i % 64)) 8 then c.val else 8), rf s DPT_PFC_TIMER 31 16) ∈ t.lnk.pauseReq := by
  cases hpfc : rb s (LNK_PORT_CFG (i / 64) (i % 64)) 8 with
  | true =>
    refine ⟨_, exec_pfcRefresh_pfc hpfc, ?_⟩
    rw [(pfcRefresh_all _ hpfc).1]
    refine List.mem_append_right _ (List.mem_map.mpr ⟨c.val, ?_, rfl⟩)
    exact List.mem_filter.mpr ⟨List.mem_range.mpr c.isLt, hin⟩
  | false =>
    refine ⟨_, exec_pfcRefresh_plain hpfc ⟨c.val, c.isLt, hin⟩, ?_⟩
    rw [bump_lnk, pauseReq_pauseRequest, ite_self]
    exact List.mem_append_right _ (List.mem_singleton_self _)

theorem claims_macCommandsComplete : Claims.MacCommandsComplete := by
  intro i s p
  refine ⟨fun bytes fec cws hon hloop hidle hcut hroom hlen hp hfresh => ?_, fun q hlive hloop => ?_, fun r hlive hidle hreq => ?_,
    fun c hin hend => ?_, fun c hin => pfcRefresh_requests hin, fun b hb => ?_⟩
  · obtain ⟨-, hheld, -⟩ := claims_frameReceived i bytes fec cws s hon hloop hidle hfresh hp
    obtain ⟨t, he, ⟨f, hf, hid, hport, hbytes, -⟩, -⟩ := hheld hcut hroom hlen
    exact ⟨t, f, he, hf, hid, hport, hbytes⟩
  · refine ⟨_, exec_pauseFrameRx_heard (.pause q) hlive hloop, ?_⟩
    rw [(applyPause_changes i (.pause q) s).1, pausedAfter, testBit_pausedBit, if_pos rfl]
  · obtain ⟨t, he, hsent, -⟩ := pauseFrameTx_sends hlive hidle hreq
    exact ⟨t, he, hsent⟩
  · obtain ⟨t, he, hout, -⟩ := xoffExit_leaves hin hend
    exact ⟨t, he, hout⟩
  · obtain ⟨t, he, hends⟩ := pauseQuantaExpiry_ends i b s
    refine ⟨t, he, ?_⟩
    rw [hends, bne_self_eq_false, Bool.false_and]

end Sys2Proof.Machine
end

section
/-!
SUPPORT. The Conservator's commands complete wherever their conditions hold (R580, R585, R589-R599).
-/
namespace Sys2Proof.Machine

/-! ## What reads of table words leave -/

/-- `t` differs from `s` in its registers and counters and in the Conservator's own notes alone. -/
def OnlyNotes (s t : State) : Prop := t = { s with bus := t.bus, csv := t.csv }

theorem OnlyNotes.after {s t u : State} (g : OnlyNotes t u) (h : OnlyNotes s t) : OnlyNotes s u := by
  unfold OnlyNotes at *
  rw [g, h]

theorem OnlyBus.notes {s t : State} (h : OnlyBus s t) : OnlyNotes s t := by
  unfold OnlyBus OnlyNotes at *
  rw [h]

theorem OnlyNotes.tab {s t : State} (h : OnlyNotes s t) : t.tab = s.tab := congrArg (fun x => x.tab) h

theorem OnlyNotes.vit {s t : State} (h : OnlyNotes s t) : t.vit = s.vit := congrArg (fun x => x.vit) h

theorem OnlyNotes.part {s t : State} (h : OnlyNotes s t) : t.part = s.part := congrArg (fun x => x.part) h

theorem OnlyNotes.ite {s t : State} {c : Prop} [Decidable c] (h : OnlyNotes s t) : OnlyNotes s (if c then t else s) := by
  split
  · exact h
  · rfl

theorem onlyNotes_correctedAt (p : Nat) (s : State) : OnlyNotes s (correctedAt p s) := by
  have hcount : OnlyNotes s (addWrap (H_CE_COUNT p) 31 0 1 s) := (addWrap_onlyBus _ _ _ _ _).notes
  unfold correctedAt
  dsimp only
  split
  · exact (wf_onlyBus _ _ _ _ _).notes.after hcount
  · generalize hs2 : wf (H_CE_BUCKET p) 31 20 _ _ = s2
    have h2 : OnlyNotes s s2 := hs2 ▸ (wf_onlyBus _ _ _ _ _).notes.after hcount
    split
    · exact (reportFault_onlyBus _ _ _ _ _).notes.after (OnlyNotes.after (t := s2) rfl h2)
    · exact h2

theorem flowErr_onlyBus (a : Nat) (s : State) : OnlyBus s (flowErr a s) := by
  unfold flowErr
  split
  · exact raise_onlyBus _ _ _
  · rfl

theorem ueAt_onlyBus (a : Nat) (s : State) : OnlyBus s (ueAt a s) :=
  (flowErr_onlyBus _ _).trans' ((reportFault_onlyBus _ _ _ _ _).trans' (recordErr_onlyBus _ _ _ _ _))

theorem uninitAt_onlyBus (a : Nat) (s : State) : OnlyBus s (uninitAt a s) :=
  (flowErr_onlyBus _ _).trans' ((raiseFirst_onlyBus _ _ _).trans' ((recordErr_onlyBus _ _ _ _ _).trans' (bump_onlyBus _ _)))

theorem onlyNotes_noteRead (a : Nat) (s : State) : OnlyNotes s (noteRead a s) := by
  unfold noteRead
  split
  · rfl
  · have hcorrected := onlyNotes_correctedAt (tabOwner a) s
    dsimp only
    split
    · exact OnlyNotes.after (t := correctedAt (tabOwner a) s) rfl hcorrected
    · exact hcorrected
  · exact (uninitAt_onlyBus a s).notes
  · exact (ueAt_onlyBus a s).notes

theorem raiseStoreErr_onlyBus (p : Nat) (s : State) : OnlyBus s (raiseStoreErr p s) := by
  unfold raiseStoreErr
  split
  · exact raise_onlyBus _ _ _
  · rfl

theorem reportUe_onlyBus (a : Nat) (s : State) : OnlyBus s (reportUe a s) := (raiseStoreErr_onlyBus _ _).trans' (ueAt_onlyBus a s)

/-! ## Set events stay set -/

/-- An event bit that is set in `s` is set in `t`. -/
def EventsKept (s t : State) : Prop := ∀ p i, i < 32 → rb s (H_INT_STAT p) i = true → rb t (H_INT_STAT p) i = true

theorem EventsKept.after {s t u : State} (g : EventsKept t u) (h : EventsKept s t) : EventsKept s u :=
  fun p i hi hs => g p i hi (h p i hi hs)

theorem EventsKept.of_rd {s t : State} (h : ∀ p, rd t (H_INT_STAT p) = rd s (H_INT_STAT p)) : EventsKept s t := fun p i _ hs => by
  rw [rb, h p]
  exact hs

theorem EventsKept.refl (s : State) : EventsKept s s := .of_rd fun _ => rfl

theorem eventsKept_raise (p b : Nat) (s : State) : EventsKept s (raise p b s) := fun _ _ hi hs => rb_intStat_raise p b hi hs

theorem eventsKept_raiseFirst (p b : Nat) (s : State) : EventsKept s (raiseFirst p b s) := by
  unfold raiseFirst
  dsimp only
  split
  · exact (eventsKept_raise _ _ _).after (.of_rd fun _ => rfl)
  · exact .of_rd fun _ => rfl

theorem eventsKept_bump (a : Nat) (s : State) : EventsKept s (bump a s) := .of_rd fun _ => rd_bump _ _ _

/-- A register at another offset than INT_STAT's. -/
theorem eventsKept_wr {p x : Nat} (hx : x < 0x10000) (hi : x ≠ 0x10) (v : W32) (s : State) : EventsKept s (wr (bar0 p x) v s) :=
  .of_rd fun q => rd_wr_ne _ _ (by simp only [H_INT_STAT, bar0]; omega)

theorem eventsKept_recordErr (p code detail addr : Nat) (s : State) : EventsKept s (recordErr p code detail addr s) :=
  (eventsKept_wr (x := 0x28) (by decide) (by decide) _ _).after <|
    (eventsKept_wr (x := 0x24) (by decide) (by decide) _ _).after (eventsKept_wr (x := 0x20) (by decide) (by decide) _ _)

theorem eventsKept_reportFault (p kind addr : Nat) (inj : Bool) (s : State) : EventsKept s (reportFault p kind addr inj s) :=
  .of_rd fun _ => rd_reportFault _ _ _ _ _ _

theorem eventsKept_correctedAt (p : Nat) (s : State) : EventsKept s (correctedAt p s) := by
  have hcount : EventsKept s (addWrap (H_CE_COUNT p) 31 0 1 s) := eventsKept_wr (x := 0x30) (by decide) (by decide) _ _
  have hbucket : ∀ v t, EventsKept t (wf (H_CE_BUCKET p) 31 20 v t) := fun v t => eventsKept_wr (x := 0x2C) (by decide) (by decide) _ _
  unfold correctedAt
  dsimp only
  split
  · exact (hbucket _ _).after hcount
  · generalize hs2 : wf (H_CE_BUCKET p) 31 20 _ _ = s2
    have h2 : EventsKept s s2 := hs2 ▸ (hbucket _ _).after hcount
    split
    · exact (eventsKept_reportFault _ _ _ _ _).after (EventsKept.after (t := s2) (.of_rd fun _ => rfl) h2)
    · exact h2

theorem eventsKept_raiseStoreErr (p : Nat) (s : State) : EventsKept s (raiseStoreErr p s) := by
  unfold raiseStoreErr
  split
  · exact eventsKept_raise _ _ _
  · exact .refl s

/-! ## A scrubbing pass (R590-R592) -/

/-- What a step of a scrubbing pass leaves: the stored words, the part, and the events that are set. -/
structure ScrubStays (s t : State) : Prop where
  words : t.tab.words = s.tab.words
  part : t.part = s.part
  events : EventsKept s t

theorem ScrubStays.after {s t u : State} (g : ScrubStays t u) (h : ScrubStays s t) : ScrubStays s u :=
  ⟨g.words.trans h.words, g.part.trans h.part, g.events.after h.events⟩

theorem ScrubStays.refl (s : State) : ScrubStays s s := ⟨rfl, rfl, .refl s⟩

theorem scrubStays_foldl {α : Type} (l : List α) (f : State → α → State) (h : ∀ a x, ScrubStays a (f a x)) (s : State) :
    ScrubStays s (l.foldl f s) := List.foldlRecOn (motive := ScrubStays s) l f (.refl s) fun _ ha _ _ => (h _ _).after ha

/-- The word poisoned, and what reports it. -/
theorem scrubUe_notes (a : Nat) (s : State) : OnlyBus (putEcc a ⟨.poisoned, 0, (eccOf s a).inj⟩ s) (scrubUe a s) :=
  (reportUe_onlyBus _ _).trans' ((raiseFirst_onlyBus _ _ _).trans' (bump_onlyBus _ _))

theorem scrubStays_scrubUe (a : Nat) (s : State) : ScrubStays s (scrubUe a s) where
  words := by rw [(scrubUe_notes a s).tab, putEcc_words]
  part := (scrubUe_notes a s).part
  events := (eventsKept_raiseStoreErr _ _).after <| EventsKept.after (upkeepStays_ueAt _ _).events <|
    (eventsKept_raiseFirst _ _ _).after <| (eventsKept_bump _ _).after (.of_rd fun _ => rfl)

theorem scrubStays_scrubWord (a : Nat) (s : State) : ScrubStays s (scrubWord a s) := by
  unfold scrubWord
  split
  · exact .refl s
  · split
    · exact ⟨by rw [(onlyNotes_noteRead a s).tab], (onlyNotes_noteRead a s).part, (upkeepStays_noteRead a s).events⟩
    · exact scrubStays_scrubUe a s
    · exact .refl s
    · exact .refl s

theorem bankUe_onlyBus (b : Nat) (s : State) : OnlyBus s (bankUe b s) := incSat_onlyBus _ _ _ _

theorem eventsKept_bankUe (c : Nat) (s : State) : EventsKept s (bankUe (bankOf c) s) := by
  have hb : bankOf c < 128 := Nat.mod_lt _ (by decide)
  unfold bankUe incSat
  split
  · exact eventsKept_wr (by omega) (by omega) _ s
  · exact .refl s

/-- A step on the Hall leaves the table address space. -/
theorem scrubCell_tab (ue : Bool) (c : Nat) (s : State) : (scrubCell ue c s).tab = s.tab ∧ (scrubCell ue c s).part = s.part := by
  unfold scrubCell
  split
  · exact ⟨rfl, rfl⟩
  · split
    · generalize hput : putCell c _ s = u
      have hu : u.tab = s.tab ∧ u.part = s.part := hput ▸ ⟨rfl, rfl⟩
      have hbus : OnlyBus u (bankUe (bankOf c) (reportFault pageHAL 0x01 c false (recordErr pageHAL 0x03 0 c
          (raise pageHAL 0 (raiseFirst pageCSV 1 (bump (CSV_CNT 1) u)))))) :=
        (bankUe_onlyBus _ _).trans' <| (reportFault_onlyBus _ _ _ _ _).trans' <| (recordErr_onlyBus _ _ _ _ _).trans' <|
          (raise_onlyBus _ _ _).trans' <| (raiseFirst_onlyBus _ _ _).trans' (bump_onlyBus _ _)
      exact ⟨hbus.tab.trans hu.1, hbus.part.trans hu.2⟩
    · exact ⟨(onlyNotes_correctedAt pageHAL s).tab, (onlyNotes_correctedAt pageHAL s).part⟩

theorem eventsKept_scrubCell (ue : Bool) (c : Nat) (s : State) : EventsKept s (scrubCell ue c s) := by
  unfold scrubCell
  split
  · exact .refl s
  · split
    · exact (eventsKept_bankUe _ _).after <| (eventsKept_reportFault _ _ _ _ _).after <| (eventsKept_recordErr _ _ _ _ _).after <|
        (eventsKept_raise _ _ _).after <| (eventsKept_raiseFirst _ _ _).after <| (eventsKept_bump _ _).after (.of_rd fun _ => rfl)
    · exact EventsKept.after (t := correctedAt pageHAL s) (.of_rd fun _ => rfl) (eventsKept_correctedAt pageHAL s)

theorem scrubOwn_notes (ue : Bool) (p : Nat) (s : State) : OnlyNotes s (scrubOwn ue p s) := by
  unfold scrubOwn
  split
  · rfl
  · split
    · exact ((reportFault_onlyBus _ _ _ _ _).trans' <| (recordErr_onlyBus _ _ _ _ _).trans' <| (raiseStoreErr_onlyBus _ _).trans' <|
        (raiseFirst_onlyBus _ _ _).trans' (bump_onlyBus _ _)).notes
    · exact (bump_onlyBus _ _).notes.after (onlyNotes_correctedAt p s)

theorem eventsKept_scrubOwn (ue : Bool) (p : Nat) (s : State) : EventsKept s (scrubOwn ue p s) := by
  unfold scrubOwn
  split
  · exact .refl s
  · split
    · exact (eventsKept_reportFault _ _ _ _ _).after <| (eventsKept_recordErr _ _ _ _ _).after <| (eventsKept_raiseStoreErr _ _).after <|
        (eventsKept_raiseFirst _ _ _).after (eventsKept_bump _ _)
    · exact (eventsKept_bump _ _).after (eventsKept_correctedAt p s)

theorem scrubAt_tab (ue : Bool) (x : ScrubWord) (s : State) : (scrubAt ue x s).tab = s.tab := by
  cases x with
  | cell c => exact (scrubCell_tab ue c s).1
  | own p => exact (scrubOwn_notes ue p s).tab

theorem scrubStays_scrubAt (ue : Bool) (x : ScrubWord) (s : State) : ScrubStays s (scrubAt ue x s) := by
  refine ⟨by rw [scrubAt_tab], ?_, ?_⟩
  · cases x with
    | cell c => exact (scrubCell_tab ue c s).2
    | own p => exact (scrubOwn_notes ue p s).part
  · cases x with
    | cell c => exact eventsKept_scrubCell ue c s
    | own p => exact eventsKept_scrubOwn ue p s

/-- A word of the traffic manager's own memory beyond correction is reported to it. -/
theorem scrubAt_tmg (s : State) : rb (scrubAt true (.own 0x250) s) (H_INT_STAT pageTMG) 0 = true := by
  have hown : ownMemory s.part 0x250 = true := rfl
  have hbit : storeErrBit s.part 0x250 = some 0 := rfl
  have hpart : (raiseFirst pageCSV 1 (bump (CSV_CNT 1) s)).part = s.part := by
    rw [(raiseFirst_onlyBus _ _ _).part, (bump_onlyBus _ _).part]
  have hstep : scrubAt true (.own 0x250) s = reportFault 0x250 0x01 0 false (recordErr 0x250 0x03 0 0
      (raiseStoreErr 0x250 (raiseFirst pageCSV 1 (bump (CSV_CNT 1) s)))) := by
    show scrubOwn true 0x250 s = _
    rw [scrubOwn, hown]
    rfl
  rw [hstep]
  refine (eventsKept_reportFault _ _ _ _ _).after (eventsKept_recordErr _ _ _ _ _) _ 0 (by decide) ?_
  rw [raiseStoreErr, hpart, hbit]
  exact rb_raise_self _ _ (by decide)

/-- The table words read, and then the words outside the table address space. -/
def scrubbed (ce ue : List ScrubWord) (s : State) : State :=
  ue.foldl (fun a x => scrubAt true x a) (ce.foldl (fun a x => scrubAt false x a) (s.tab.ecc.foldl (fun a e => scrubWord e.1 a) s))

theorem exec_scrubPass (late : Bool) (ce ue : List ScrubWord) {s : State} (hon : isOn s pageCSV = true) (hen : rb s CSV_CFG 0 = true) :
    exec (.scrubPass late ce ue) s = .next (if late then raiseFirst pageCSV 5 (scrubbed ce ue s) else scrubbed ce ue s) := by
  have hgo : (isOn s pageCSV && rb s CSV_CFG 0) = true := by rw [hon, hen]; rfl
  exact if_pos hgo

theorem scrubStays_scrubbed (ce ue : List ScrubWord) (s : State) : ScrubStays s (scrubbed ce ue s) :=
  (scrubStays_foldl _ _ (fun a x => scrubStays_scrubAt true x a) _).after <|
    (scrubStays_foldl _ _ (fun a x => scrubStays_scrubAt false x a) _).after (scrubStays_foldl s.tab.ecc _ (fun a e => scrubStays_scrubWord e.1 a) s)

/-- An event that one of the steps sets is set after all of them. -/
theorem rb_foldl_scrub {ue : List ScrubWord} {x : ScrubWord} {p : Nat} (hx : x ∈ ue)
    (h : ∀ a, rb (scrubAt true x a) (H_INT_STAT p) 0 = true) (s : State) :
    rb (ue.foldl (fun a x => scrubAt true x a) s) (H_INT_STAT p) 0 = true := by
  obtain ⟨l, r, rfl⟩ := List.append_of_mem hx
  rw [List.foldl_append, List.foldl_cons]
  exact (scrubStays_foldl r _ (fun a y => scrubStays_scrubAt true y a) _).events _ 0 (by decide) (h _)

theorem foldl_scrubAt_tab (b : Bool) (l : List ScrubWord) (s : State) : (l.foldl (fun a x => scrubAt b x a) s).tab = s.tab :=
  List.foldlRecOn (motive := fun t : State => t.tab = s.tab) l _ rfl fun _ ha x _ => (scrubAt_tab b x _).trans ha

/-- A single word beyond correction is poisoned by the pass. -/
theorem scrubbed_poisons (ce ue : List ScrubWord) {a : Nat} {e : Ecc} {s : State} (hecc : s.tab.ecc = [(a, e)]) (hbase : eccBase a = a)
    (hgood : e.st = .good) (hue : rdStat s a = .ue) : (eccOf (scrubbed ce ue s) a).st = .poisoned := by
  have hword : scrubWord a s = scrubUe a s := by
    have hst : (eccOf s a).st = .good := by
      rw [eccOf, hecc, hbase, sGet, if_pos rfl, hgood]
    rw [scrubWord, hst, hue]
    rfl
  have htab : (scrubbed ce ue s).tab = (putEcc a ⟨.poisoned, 0, (eccOf s a).inj⟩ s).tab := by
    rw [scrubbed, foldl_scrubAt_tab, foldl_scrubAt_tab, hecc]
    exact (congrArg (fun x => x.tab) hword).trans (scrubUe_notes a s).tab
  have hput := eccOf_putEcc a ⟨.poisoned, 0, (eccOf s a).inj⟩ s a
  rw [if_pos hbase] at hput
  rw [eccOf, htab, ← eccOf, hput]

theorem scrubPass_reads (late : Bool) (ce ue : List ScrubWord) {s : State} (hon : isOn s pageCSV = true) (hen : rb s CSV_CFG 0 = true) :
    ∃ t, exec (.scrubPass late ce ue) s = .next t ∧ t.tab.words = s.tab.words ∧
      (.own 0x250 ∈ ue → rb t (H_INT_STAT pageTMG) 0 = true) ∧
      (∀ a e, s.tab.ecc = [(a, e)] → eccBase a = a → e.st = .good → rdStat s a = .ue → (eccOf t a).st = .poisoned) := by
  have hlate : ∀ t, t = (if late then raiseFirst pageCSV 5 (scrubbed ce ue s) else scrubbed ce ue s) →
      t.tab = (scrubbed ce ue s).tab ∧ EventsKept (scrubbed ce ue s) t := by
    intro t ht
    subst ht
    split
    · exact ⟨(raiseFirst_onlyBus _ _ _).tab, eventsKept_raiseFirst _ _ _⟩
    · exact ⟨rfl, .refl _⟩
  obtain ⟨htab, hevents⟩ := hlate _ rfl
  refine ⟨_, exec_scrubPass late ce ue hon hen, ?_, fun hmem => hevents _ 0 (by decide) ?_, fun a e hecc hbase hgood hue => ?_⟩
  · rw [htab, (scrubStays_scrubbed ce ue s).words]
  · exact rb_foldl_scrub hmem scrubAt_tmg _
  · rw [eccOf, htab, ← eccOf, scrubbed_poisons ce ue hecc hbase hgood hue]

end Sys2Proof.Machine
end

section
/-!
SUPPORT. The Conservator's merges, leaks, write-backs, comparisons and injections complete wherever their conditions hold (R580-R602).
-/
namespace Sys2Proof.Machine

/-! ## Merges, leaks and injections (R585, R589) -/

theorem runMerge_merges (m : Merge) (s : State) : (runMerge m s).tab.merges = s.tab.merges := by
  have hput : ∀ e, (wordWritten (eccBase m.addr) s (putWords m.addr m.words (putEcc (eccBase m.addr) e s))).tab.merges = s.tab.merges :=
    fun e => by rw [wordWritten_tab, putWords_merges, putEcc_merges]
  unfold runMerge
  dsimp only
  split
  · rw [(raiseFirst_onlyBus _ _ _).tab, (bump_onlyBus _ _).tab, hput]
  · rw [(bump_onlyBus _ _).tab, hput]
  · exact hput _
  · exact hput _

theorem narrowWriteMerge_takes {m : Merge} {rest : List Merge} {s : State} (h : s.tab.merges = m :: rest) :
    ∃ t, exec .narrowWriteMerge s = .next t ∧ t.tab.merges = rest := by
  have he : exec .narrowWriteMerge s = .next (runMerge m { s with tab := { s.tab with merges := rest } }) := by
    show execNarrowWriteMerge s = _
    rw [execNarrowWriteMerge, h]
  exact ⟨_, he, runMerge_merges _ _⟩

theorem ceLeak_lowers (p : Page) (s : State) :
    ∃ t, exec (.ceLeak p) s = .next t ∧ rf t (H_CE_BUCKET p) 31 20 = rf s (H_CE_BUCKET p) 31 20 - 1 := by
  have hlt : rf s (H_CE_BUCKET p) 31 20 < 2 ^ (31 + 1 - 20) := fld_lt _ 31 20
  have hleak : rf (fieldDec (H_CE_BUCKET p) 31 20 1 s) (H_CE_BUCKET p) 31 20 = rf s (H_CE_BUCKET p) 31 20 - 1 := by
    rw [fieldDec, rf_wf_same _ _ _ _ _ (by decide) (by decide)]
    exact Nat.mod_eq_of_lt (by omega)
  show ∃ t, execCeLeak p s = .next t ∧ _
  unfold execCeLeak
  dsimp only
  split
  · exact ⟨_, rfl, hleak⟩
  · exact ⟨_, rfl, hleak⟩

theorem exec_eccInject {v : W32} {s : State} (ho : reach s CSV_INJ_CMD = .open) : exec (.eccInject v) s = .next (injectEcc v s) :=
  congrArg Host.Outcome.next (hostDo_open _ _ _ ho (noteAccess_plain _ _ rfl))

theorem injectEcc_counts {v : W32} (s : State) (hgo : bit v 31 = true) :
    ctr (injectEcc v s) (CSV_CNT 15) = (ctr s (CSV_CNT 15) + 1) % 2 ^ 64 := by
  have hcount : ctr (bump (CSV_CNT 15) (wf CSV_INJ_CMD 3 0 (fld v 3 0) s)) (CSV_CNT 15) = (ctr s (CSV_CNT 15) + 1) % 2 ^ 64 := by
    rw [ctr_bump, if_pos rfl, ctr_wf]
  unfold injectEcc
  dsimp only
  rw [hgo, if_neg (by decide)]
  split
  · exact hcount
  · exact hcount

/-! ## Write-backs (R591) -/

/-- A word found beyond correction leaves the queue of write-backs. -/
theorem scrubUe_csv (a : Nat) (s : State) : (scrubUe a s).csv = s.csv := (scrubUe_notes a s).csv

theorem scrubWriteBack_takes {a : Nat} {rest : List Nat} {s : State} (hon : isOn s pageCSV = true) (h : s.csv.backQ = a :: rest)
    (hmay : mayWriteBack s a = true) : ∃ t, exec .scrubWriteBack s = .next t ∧ t.csv.backQ = rest := by
  have hgo : (!isOn s pageCSV || !mayWriteBack s a) ≠ true := by rw [hon, hmay]; decide
  have hbump : ∀ n u, u.csv.backQ = rest → (bump n u).csv.backQ = rest := fun n u hu => by rw [(bump_onlyBus _ _).csv, hu]
  show ∃ t, execScrubWriteBack s = .next t ∧ _
  unfold execScrubWriteBack
  rw [h]
  dsimp only
  rw [if_neg hgo]
  split
  · exact ⟨_, rfl, hbump _ _ rfl⟩
  · split
    · exact ⟨_, rfl, hbump _ _ rfl⟩
    · refine ⟨_, rfl, ?_⟩
      split
      · rw [scrubUe_csv]
      · exact hbump _ _ rfl
    · exact ⟨_, rfl, hbump _ _ rfl⟩
    · exact ⟨_, rfl, hbump _ _ rfl⟩

/-! ## The image comparison (R593-R595) -/

/-- The stored words and the counts of repaired rows stay. -/
def ImageStays (s t : State) : Prop := t.tab.words = s.tab.words ∧ t.vit.differ = s.vit.differ

theorem ImageStays.after {s t u : State} (g : ImageStays t u) (h : ImageStays s t) : ImageStays s u :=
  ⟨g.1.trans h.1, g.2.trans h.2⟩

theorem OnlyNotes.image {s t : State} (h : OnlyNotes s t) : ImageStays s t := ⟨by rw [h.tab], by rw [h.vit]⟩

theorem imageStays_compareImage (w a : Nat) (s : State) : ImageStays s (compareImage w a s) := by
  have hread : ImageStays s (if rdStat s a = .corrected then noteRead a s else s) := (onlyNotes_noteRead a s).ite.image
  unfold compareImage
  dsimp only
  split
  · exact ⟨rfl, rfl⟩
  · split
    · exact hread
    · have hue := (reportUe_onlyBus a _).notes.image.after hread
      split
      · exact ImageStays.after ⟨rfl, rfl⟩ hue
      · exact ImageStays.after ⟨rfl, rfl⟩ hue

theorem imageStays_compareImages (w : Nat) (l : List (Nat × Ecc)) (s : State) :
    ImageStays s (l.foldl (fun a e => compareImage w e.1 a) s) :=
  List.foldlRecOn (motive := fun t => ImageStays s t) l _ ⟨rfl, rfl⟩ fun _ ha e _ => (imageStays_compareImage w e.1 _).after ha

/-- A store reads as unlisted at a key that it does not list. -/
theorem sGet_of_absent {α : Type} (d : α) (k : Nat) (l : List (Nat × α)) (h : ∀ e, e ∈ l → e.1 ≠ k) : sGet d k l = d := by
  induction l with
  | nil => rfl
  | cons e l ih =>
    rw [sGet, if_neg (h e List.mem_cons_self)]
    exact ih fun x hx => h x (List.mem_cons_of_mem _ hx)

/-- A pass's counts begin at 0. -/
theorem differ_start (w b : Nat) (hb : b < 16) (l : List (Nat × Nat)) : sGet 0 (16 * w + b) (l.filter fun e => e.1 / 16 != w) = 0 := by
  refine sGet_of_absent _ _ _ fun e he => ?_
  have hw := (List.mem_filter.mp he).2
  simp only [bne_iff_ne, ne_eq] at hw
  omega

/-- A readable row that differs is counted, and the words stay. -/
theorem repairRow_counts {w b r : Nat} {s : State} (h0 : readable s (vitAddr w b r) = true) (h1 : readable s (vitAddr w b r + 16) = true) :
    sGet 0 (16 * w + b) (repairRow w b r s).vit.differ = sGet 0 (16 * w + b) s.vit.differ + 1 ∧ (repairRow w b r s).tab = s.tab := by
  have hgo : (readable s (vitAddr w b r) && readable s (vitAddr w b r + 16)) = true := by rw [h0, h1]; rfl
  rw [repairRow, if_pos hgo]
  refine ⟨?_, ?_⟩
  · rw [(raise_onlyBus _ _ _).vit, (bump_onlyBus _ _).vit]
    exact sGet_sPut_same _ _ _ _
  · rw [(raise_onlyBus _ _ _).tab, (bump_onlyBus _ _).tab]

/-- The counts of wing `w` cleared for a new pass. -/
def imageStarted (w : Nat) (s : State) : State :=
  { s with vit := { s.vit with differ := s.vit.differ.filter fun e => e.1 / 16 != w } }

/-- Overflow keys repaired and counted, and the images read. -/
def imageEnded (w : Nat) (keys : List (Fin 8192)) (s : State) : State :=
  let good := (keys.map (·.val) ++ clearedKeys w s).eraseDups.filter fun k => readable s (catAddr w (0x100000 + k))
  let s3 := { s with cat := { s.cat with cleared := s.cat.cleared.filter fun k => !(k / 8192 == w && good.contains (k % 8192)) } }
  s3.tab.ecc.foldl (fun a e => compareImage w e.1 a) (bumpN (CSV_CNT 13) good.length s3)

theorem imageStays_imageEnded (w : Nat) (keys : List (Fin 8192)) (s : State) : ImageStays s (imageEnded w keys s) := by
  unfold imageEnded
  dsimp only
  refine (imageStays_compareImages w _ _).after ((bumpN_onlyBus _ _ _).notes.image.after ?_)
  exact ⟨rfl, rfl⟩

/-- With no merge waiting and no row cleared, the pass repairs the one row that differs. -/
theorem exec_imageComparePass {w : Wing} {b : Fin 16} {r : Fin 4096} {s : State} (hon : isOn s pageCSV = true)
    (hmerges : s.tab.merges = []) (hcleared : s.vit.cleared = []) : exec (.imageComparePass w [(b, r)] []) s =
      .next (imageEnded w [] (repairRow w b r (imageStarted w s))) := by
  have hrows : clearedRows w (imageStarted w s) = [] := by
    have hnone : (imageStarted w s).vit.cleared = [] := hcleared
    rw [clearedRows, hnone]
    rfl
  show execImageComparePass w [(b, r)] [] s = _
  rw [execImageComparePass, if_pos hon, settle_none s hmerges]
  show Host.Outcome.next (imageEnded w [] (([(b.val, r.val)] ++ clearedRows w (imageStarted w s)).eraseDups.foldl
    (fun a x => repairRow w x.1 x.2 a) (imageStarted w s))) = _
  rw [hrows]
  rfl

theorem imageComparePass_counts {w : Wing} {b : Fin 16} {r : Fin 4096} {s : State} (hon : isOn s pageCSV = true)
    (hmerges : s.tab.merges = []) (hcleared : s.vit.cleared = []) (h0 : readable s (vitAddr w b r) = true)
    (h1 : readable s (vitAddr w b r + 16) = true) : ∃ t, exec (.imageComparePass w [(b, r)] []) s = .next t ∧
      sGet 0 (16 * w.val + b.val) t.vit.differ = 1 ∧ t.tab.words = s.tab.words := by
  obtain ⟨hcount, htab⟩ := repairRow_counts (s := imageStarted w s) (w := w) (b := b) (r := r) h0 h1
  obtain ⟨hwords, hdiffer⟩ := imageStays_imageEnded w [] (repairRow w b r (imageStarted w s))
  refine ⟨_, exec_imageComparePass hon hmerges hcleared, ?_, ?_⟩
  · rw [hdiffer, hcount]
    exact congrArg (· + 1) (differ_start w b b.isLt s.vit.differ)
  · rw [hwords, htab]
    rfl

/-! ## The shadow comparison (R596-R602) -/

theorem shadowChunks_le (k : Fin 4) : shadowChunks k ≤ 8256 := by
  fin_cases k <;> decide

theorem beyondHeader_shadowStat (k : Fin 4) : beyondHeader (CSV_SHADOW_STAT k) := beyondHeader_bar0 (by omega) (by omega) (by decide)

/-- Before the last chunk of its pass, a table's chunk index moves on by one. -/
theorem nextChunk_moves {k : Fin 4} {s u : State} (hstat : rd u (CSV_SHADOW_STAT k) = rd s (CSV_SHADOW_STAT k))
    (hlast : rf s (CSV_SHADOW_STAT k) 15 0 + 1 < shadowChunks k) :
    rf (nextChunk k u) (CSV_SHADOW_STAT k) 15 0 = rf s (CSV_SHADOW_STAT k) 15 0 + 1 := by
  have hrf : rf u (CSV_SHADOW_STAT k) 15 0 = rf s (CSV_SHADOW_STAT k) 15 0 := by rw [rf, rf, hstat]
  have hmax := shadowChunks_le k
  rw [nextChunk]
  dsimp only
  rw [hrf, if_pos hlast, addWrap, rf_wf_same _ _ _ _ _ (by decide) (by decide), hrf]
  exact Nat.mod_eq_of_lt (by omega)

theorem upkeepStays_noteSpan (n a : Nat) (s : State) : UpkeepStays s (noteSpan n a s) := by
  induction n generalizing a s with
  | zero => exact .refl s
  | succ n ih =>
    refine (ih _ _).after ?_
    split
    · exact .refl s
    · exact upkeepStays_noteRead a s

theorem shadowChunkCompare_moves {k : Fin 4} (bytes : List Byte) (err : Bool) {s : State} (hon : isOn s pageCSV = true)
    (hen : rb s CSV_CFG 1 = true) (hlast : rf s (CSV_SHADOW_STAT k) 15 0 + 1 < shadowChunks k) :
    ∃ t, exec (.shadowChunkCompare k bytes err) s = .next t ∧
      rf t (CSV_SHADOW_STAT k) 15 0 = rf s (CSV_SHADOW_STAT k) 15 0 + 1 := by
  have hgo : (!isOn s pageCSV || !rb s CSV_CFG 1) ≠ true := by rw [hon, hen]; decide
  have hstat := beyondHeader_shadowStat k
  show ∃ t, execShadowChunkCompare k bytes err s = .next t ∧ _
  unfold execShadowChunkCompare
  rw [if_neg hgo]
  split
  · exact ⟨_, rfl, nextChunk_moves rfl hlast⟩
  · split
    · refine ⟨_, rfl, nextChunk_moves ?_ hlast⟩
      rw [rd_raiseFirst_beyond hstat, rd_bump]
    · refine ⟨_, rfl, nextChunk_moves ?_ hlast⟩
      have hread : ∀ m n a b found, UpkeepStays s (bumpN (CSV_CNT 8) found (bump (CSV_CNT 7) (noteSpan m a (noteSpan n b (settle s))))) :=
        fun m n a b found => (upkeepStays_bumpN _ _ _).after <| (upkeepStays_bump _ _).after <| (upkeepStays_noteSpan _ _ _).after <|
          (upkeepStays_noteSpan _ _ _).after (upkeepStays_settle s)
      exact (hread _ _ _ _ _).regs _ (.inr hstat)

theorem upkeepStays_repairRec (w t x : Nat) (sh : List W32) (s : State) : UpkeepStays s (repairRec w t x sh s) := by
  unfold repairRec
  dsimp only
  split
  · exact upkeepStays_engWrite _ _ _
  · exact upkeepStays_engWrite _ _ _

theorem shadowRecheck_takes {r : Recheck} {rest : List Recheck} (bytes : List Byte) {s : State} (hon : isOn s pageCSV = true)
    (h : s.csv.rechecks = r :: rest) (hmem : memOk s = true) :
    ∃ t, exec (.shadowRecheck bytes) s = .next t ∧ t.csv.rechecks = rest := by
  have hgo : (!isOn s pageCSV || !memOk s) ≠ true := by rw [hon, hmem]; decide
  have hread : ∀ a b, (noteSpan 1 b (noteSpan 1 a (settle { s with csv := { s.csv with rechecks := rest } }))).csv.rechecks = rest :=
    fun a b => ((upkeepStays_noteSpan _ _ _).after ((upkeepStays_noteSpan _ _ _).after (upkeepStays_settle _))).rechecks
  show ∃ t, execShadowRecheck bytes s = .next t ∧ _
  unfold execShadowRecheck
  rw [h]
  dsimp only
  rw [if_neg hgo]
  generalize hs0 : noteSpan 1 _ (noteSpan 1 _ (settle _)) = s0
  have h0 : s0.csv.rechecks = rest := hs0 ▸ hread _ _
  split
  · exact ⟨s0, rfl, h0⟩
  · refine ⟨_, rfl, ?_⟩
    have hlast : ∀ v, (raiseFirst pageCSV 2 (wr CSV_MISMATCH_LAST v (bump (CSV_CNT 9) s0))).csv.rechecks = rest := fun v => by
      rw [(raiseFirst_onlyBus _ _ _).csv, (wr_onlyBus _ _ _).csv, (bump_onlyBus _ _).csv, h0]
    split
    · rw [(raiseFirst_onlyBus _ _ _).csv, (bump_onlyBus _ _).csv, (upkeepStays_repairRec _ _ _ _ _).rechecks, hlast]
    · rw [(bump_onlyBus _ _).csv, hlast]

theorem claims_conservatorCommandsComplete : Claims.ConservatorCommandsComplete := by
  intro s
  refine ⟨fun m rest h => narrowWriteMerge_takes h, fun p => ceLeak_lowers p s,
    fun v ho hgo => ⟨_, exec_eccInject ho, injectEcc_counts s hgo⟩, fun hon => ⟨fun late ce ue hen => scrubPass_reads late ce ue hon hen,
      fun a rest h hmay => scrubWriteBack_takes hon h hmay,
      fun w b r hmerges hcleared h0 h1 => imageComparePass_counts hon hmerges hcleared h0 h1,
      fun k bytes err hen hlast => shadowChunkCompare_moves bytes err hon hen hlast,
      fun r rest bytes h hmem => shadowRecheck_takes bytes hon h hmem⟩⟩

end Sys2Proof.Machine
end

section
/-!
SUPPORT. The Vault's care completes wherever its conditions hold (R450, R468-R477), and the settled statement about every command of the lanes,
the MAC, the Conservator and the Vault's care.
-/
namespace Sys2Proof.Machine

/-! ## Refresh and rows (R468, R472, R474) -/

theorem owed_refreshBank (k : Nat) (s : State) : sGet 0 k (refreshBank k s).vlt.owed = sGet 0 k s.vlt.owed - 1 := sGet_sPut_same _ _ _ _

theorem owed_refreshN (n k : Nat) (s : State) : sGet 0 k (refreshN n k s).vlt.owed = sGet 0 k s.vlt.owed - n := by
  induction n generalizing s with
  | zero => rfl
  | succ n ih =>
    rw [refreshN, ih, owed_refreshBank]
    omega

/-- While no column command waits, every refresh owed is sent: the forced one first, then the rest. -/
theorem refreshPerBank_sends (c : Fin 128) (b : Fin 32) {s : State} (h : vltRuns s = true) :
    ∃ t, exec (.refreshPerBank c b false) s = .next t ∧ sGet 0 (bankNo c b) t.vlt.owed = 0 := by
  have hgo : (!vltRuns s) ≠ true := by rw [h]; decide
  refine ⟨_, if_neg hgo, ?_⟩
  generalize hn : sGet 0 (bankNo c b) s.vlt.owed + 1 = n
  generalize hforced : b2n (decide (4 ≤ n)) = forced
  rw [owed_refreshN]
  show sGet 0 (bankNo c b) (refreshN forced (bankNo c b) _).vlt.owed - (n - forced) = 0
  rw [owed_refreshN]
  show sGet 0 (bankNo c b) (sPut 0 (bankNo c b) n s.vlt.owed) - forced - (n - forced) = 0
  rw [sGet_sPut_same]
  omega

theorem activate_opens (c : Fin 128) (b : Fin 32) (r : Fin 16384) {s : State} (h : vltRuns s = true)
    (hroom : (sGet [] (bankNo c b) s.vlt.trq).length < 8) :
    ∃ t, exec (.activate c b r) s = .next t ∧ sGet 0 (bankNo c b) t.vlt.openRow = r.val + 1 := by
  refine ⟨_, congrArg Host.Outcome.next (if_pos h), ?_⟩
  rw [activateRow, if_neg (by omega)]
  exact sGet_sPut_same _ _ _ _

theorem rfmRequest_counts (c : Fin 128) (b : Fin 32) {s : State} (h : vltRuns s = true) :
    ∃ t, exec (.rfmRequest c b) s = .next t ∧ ctr t (VLT_CNT 12) = (ctr s (VLT_CNT 12) + 1) % 2 ^ 64 := by
  refine ⟨_, congrArg Host.Outcome.next (if_pos h), ?_⟩
  rw [ctr_bump, if_pos rfl]

/-! ## Temperature (R469-R471) -/

theorem beyondHeader_vlt {j x : Nat} (hj : j < 8) (h : 0x100 ≤ x) (hx : x < 0x10000) : beyondHeader (bar0 (pageVLT + j) x) :=
  beyondHeader_bar0 h hx (by simp only [pageVLT, pageHIF]; omega)

theorem beyondHeader_thermStat : beyondHeader VLT_THERM_STAT := beyondHeader_vlt (j := 0) (by decide) (by decide) (by decide)

theorem thermStat_ne_flags : VLT_THERM_STAT ≠ VLT_THERM_FLAGS := by decide

theorem thermStat_setHot (k : Nat) (v : Bool) (s : State) : rd (setHot k v s) VLT_THERM_STAT = rd s VLT_THERM_STAT := by
  unfold setHot
  dsimp only
  split
  · rw [rd_raise_beyond beyondHeader_thermStat, rd_wf_ne _ _ _ _ thermStat_ne_flags]
  · exact rd_wf_ne _ _ _ _ thermStat_ne_flags

theorem thermStat_setStopped (k : Nat) (v : Bool) (s : State) : rd (setStopped k v s) VLT_THERM_STAT = rd s VLT_THERM_STAT := by
  unfold setStopped
  dsimp only
  split
  · rw [rd_raise_beyond beyondHeader_thermStat, rd_wf_ne _ _ _ _ thermStat_ne_flags]
  · exact rd_wf_ne _ _ _ _ thermStat_ne_flags

theorem stackTempRead_shows (n : Fin 4) (v : BitVec 8) (s : State) : ∃ t, exec (.stackTempRead n (some v)) s = .next t ∧
    rf t VLT_THERM_STAT (8 * n + 7) (8 * n) = v.toNat := by
  have hshown : ∀ u, rf (wf VLT_THERM_STAT (8 * n + 7) (8 * n) v.toNat u) VLT_THERM_STAT (8 * n + 7) (8 * n) = v.toNat := fun u => by
    have hwidth : 8 * n.val + 7 + 1 - 8 * n.val = 8 := by omega
    rw [rf_wf_same _ _ _ _ _ (by omega) (by omega), hwidth, Nat.mod_eq_of_lt v.isLt]
  refine ⟨_, rfl, ?_⟩
  split
  · rw [rf, thermStat_setStopped, thermStat_setHot]
    exact hshown _
  · split
    · rw [rf, thermStat_setStopped, thermStat_setHot]
      exact hshown _
    · rw [rf, thermStat_setHot]
      exact hshown _

/-! ## Pseudo-channels (R475, R476) -/

theorem pcFails_reports {c : Nat} (hc : c < 128) (s : State) : rb (pcFails c s) (H_INT_STAT pageVLT) 1 = true := by
  have hraised : rb (reportFault pageVLT 0x09 c false (raise pageVLT 1 s)) (H_INT_STAT pageVLT) 1 = true := by
    rw [rb_reportFault]
    exact rb_raise_self _ _ (by decide)
  have hne : H_INT_STAT pageVLT ≠ VLT_PC_STAT c :=
    intStat_ne_beyond (beyondHeader_vlt (j := 2) (by decide) (by omega) (by omega)) _
  unfold pcFails
  dsimp only
  split
  · rw [rb_wf_ne _ _ _ _ _ hne, hraised]
  · exact hraised

theorem pseudoChannelFail_reports {c : Fin 128} {s : State} (hserves : pcState s c = 0)
    (hue : max 1 (rf s VLT_PC_CFG 7 0) ≤ rf s (VLT_PC_STAT c) 23 16) :
    ∃ t, exec (.pseudoChannelFail c false) s = .next t ∧ rb t (H_INT_STAT pageVLT) 1 = true := by
  have hgo : (pcState s c == 0 && (false || decide (max 1 (rf s VLT_PC_CFG 7 0) ≤ rf s (VLT_PC_STAT c) 23 16))) = true := by
    rw [hserves, decide_eq_true hue]
    rfl
  exact ⟨_, if_pos hgo, pcFails_reports c.isLt s⟩

theorem pcStat_ne_first {c x : Nat} (hc : c < 128) (hx : x < 0x10000) : VLT_PC_STAT c ≠ bar0 pageVLT x := by
  simp only [VLT_PC_STAT, bar0]
  omega

theorem pcFailCmd_reports {v : W32} {s : State} (ho : reach s VLT_PC_CMD = .open) (hgo : bit v 31 = true)
    (hserves : pcState s (fld v 6 0) = 0) : ∃ t, exec (.pcFailCmd v) s = .next t ∧ rb t (H_INT_STAT pageVLT) 1 = true := by
  have hc : fld v 6 0 < 128 := fld_lt v 6 0
  have hne : VLT_PC_STAT (fld v 6 0) ≠ VLT_PC_CMD := pcStat_ne_first hc (by decide)
  have hstate : pcState (wf VLT_PC_CMD 6 0 (fld v 6 0) s) (fld v 6 0) = 0 := by
    rw [pcState, rf_wf_ne _ _ _ _ _ _ hne, ← pcState, hserves]
  have hfails : (bit v 31 && pcState (wf VLT_PC_CMD 6 0 (fld v 6 0) s) (fld v 6 0) == 0) = true := by rw [hgo, hstate]; rfl
  refine ⟨_, congrArg Host.Outcome.next (hostDo_open _ _ _ ho (noteAccess_plain _ _ rfl)), ?_⟩
  rw [writePcCmd, if_pos hfails]
  exact pcFails_reports hc _

/-- Pool `k`'s capacity and level shown again leave every other register beyond the header. -/
theorem rd_poolCap {a k : Nat} (ha : beyondHeader a) (hcap : a ≠ VLT_POOL_CAP k) (hstat : a ≠ VLT_POOL_STAT k) (s : State) :
    rd (poolCap k s) a = rd s a := by
  unfold poolCap judgeVault
  dsimp only
  split
  · rw [rd_raise_beyond ha, rd_wf_ne _ _ _ _ hstat, rd_wf_ne _ _ _ _ hcap]
  · rw [rd_wf_ne _ _ _ _ hstat, rd_wf_ne _ _ _ _ hcap]

theorem pcFence_fences {c : Fin 128} {s : State} (hdrains : pcState s c = 1) (hempty : ([0, 1, 2].all fun j => bufsUsed s j c == 0) = true) :
    ∃ t, exec (.pcFence c) s = .next t ∧ pcState t c = 2 := by
  have hgo : (pcState s c == 1 && ([0, 1, 2].all fun k => bufsUsed s k c == 0)) = true := by rw [hdrains, hempty]; rfl
  have hb : beyondHeader (VLT_PC_STAT c) := beyondHeader_vlt (by decide) (by omega) (by omega)
  have hpool : ∀ k, k < 3 → ∀ u, rd (poolCap k u) (VLT_PC_STAT c) = rd u (VLT_PC_STAT c) := fun k hk u =>
    rd_poolCap hb (pcStat_ne_first c.isLt (by omega)) (pcStat_ne_first c.isLt (by omega)) u
  refine ⟨_, if_pos hgo, ?_⟩
  rw [pcState, rf, rd_raise_beyond hb, hpool 2 (by decide), hpool 1 (by decide), hpool 0 (by decide)]
  exact rf_wf_same _ _ _ _ _ (by decide) (by decide)

/-! ## Self-refresh and pools (R450, R477) -/

theorem selfRefreshEntry_enters {s : State} (hask : rb s (H_CTRL pageVLT) 2 = true) (hempty : vaultEmpty s = true) (hwq : s.vlt.wq = [])
    (hmode : rf s VLT_MODE_STAT 13 0 = 0) : ∃ t, exec .selfRefreshEntry s = .next t ∧ t.vlt.selfRef = true := by
  have hgo : (rb s (H_CTRL pageVLT) 2 && vaultEmpty s && s.vlt.wq.isEmpty && rf s VLT_MODE_STAT 13 0 == 0) = true := by
    rw [hask, hempty, hwq, hmode]
    rfl
  exact ⟨_, if_pos hgo, rfl⟩

theorem selfRefreshExit_leaves {q : Nat} {s : State} (hq : q < 8448) (hready : spillReady s q = true) (hself : s.vlt.selfRef = true)
    (hon : blkState s pageVLT ≠ 0) : ∃ t, exec .selfRefreshExit s = .next t ∧ t.vlt.selfRef = false := by
  have hany : (List.range 8448).any (spillReady s) = true := List.any_eq_true.mpr ⟨q, List.mem_range.mpr hq, hready⟩
  have hgo : (s.vlt.selfRef && blkState s pageVLT != 0 && (List.range 8448).any (spillReady s)) = true := by
    rw [hself, hany, bne_iff_ne.mpr hon]
    rfl
  exact ⟨_, if_pos hgo, rfl⟩

theorem poolCfgWrite_stores {n : Fin 3} {v : W32} {s : State} (ho : reach s (VLT_POOL_CFG n) = .open) (hoff : blkState s pageVLT = 0) :
    ∃ t, exec (.vltPoolCfgWrite n v) s = .next t ∧ rf t (VLT_POOL_CFG n) 17 0 = fld v 17 0 := by
  have hpage : VLT_POOL_CFG n / 0x10000 = pageVLT := page_bar0 _ (by omega)
  have hplain : noteAccess (VLT_POOL_CFG n) s = s := noteAccess_plain _ _ (by rw [hpage]; rfl)
  have hb : beyondHeader (VLT_POOL_CFG n) := beyondHeader_vlt (j := 0) (by decide) (by omega) (by omega)
  have hcap : VLT_POOL_CFG n ≠ VLT_POOL_CAP n := by simp only [VLT_POOL_CFG, VLT_POOL_CAP, bar0]; omega
  have hstat : VLT_POOL_CFG n ≠ VLT_POOL_STAT n := by simp only [VLT_POOL_CFG, VLT_POOL_STAT, bar0]; omega
  refine ⟨_, congrArg Host.Outcome.next (hostDo_open _ _ _ ho hplain), ?_⟩
  rw [writePoolCfg, if_pos hoff, rf, rd_poolCap hb hcap hstat, ← rf, rf_wf_same _ _ _ _ _ (by decide) (by decide)]
  exact Nat.mod_eq_of_lt (fld_lt v 17 0)

theorem claims_vaultCommandsComplete : Claims.VaultCommandsComplete := by
  intro c b s k
  refine ⟨fun h => ⟨refreshPerBank_sends c b h, fun r hroom => activate_opens c b r h hroom, rfmRequest_counts c b h⟩,
    ⟨_, rfl, sGet_sPut_same _ _ _ _⟩, fun n v => stackTempRead_shows n v s, pseudoChannelFail_reports,
    fun v ho hgo hserves => pcFailCmd_reports ho hgo hserves, pcFence_fences, selfRefreshEntry_enters,
    fun q hq hready hself hon => selfRefreshExit_leaves hq hready hself hon, fun n v ho hoff => poolCfgWrite_stores ho hoff⟩

/-- Settles O60: each command's own effect survives what it does beside it, since table upkeep, drops and events touch none of the registers
and notes that show it. -/
theorem commandsComplete : Obligations.CommandsComplete :=
  ⟨claims_laneCommandsComplete, claims_macCommandsComplete, claims_conservatorCommandsComplete, claims_vaultCommandsComplete⟩

end Sys2Proof.Machine
end

section
/-!
SUPPORT. What the fetch of an instruction word leaves alone: the merges that it waits for and the record of its read (R116, R580-R588).
-/
namespace Sys2Proof.Machine

/-! ## What stays -/

/-- Is `a` on a gallery's Docent page? -/
def onDocent (a : Nat) : Prop := 0x100 ≤ a / 0x10000 ∧ a / 0x10000 < 0x190

/-- From `s` to `t` stays what a parse goes by: the frames, the cores, the registers beyond the headers and the Docent's counters. -/
structure ParseStays (s t : State) : Prop where
  upkeep : UpkeepStays s t
  frames : t.frames = s.frames
  cores : t.doc.cores = s.doc.cores
  ctrs : ∀ a, onDocent a → ctr t a = ctr s a

theorem ParseStays.after {s t u : State} (g : ParseStays t u) (h : ParseStays s t) : ParseStays s u where
  upkeep := g.upkeep.after h.upkeep
  frames := g.frames.trans h.frames
  cores := g.cores.trans h.cores
  ctrs a ha := (g.ctrs a ha).trans (h.ctrs a ha)

theorem ParseStays.refl (s : State) : ParseStays s s := ⟨.refl s, rfl, rfl, fun _ _ => rfl⟩

/-- What keeps the counters and changes nothing but registers, notes of reads, table words and the lookups' cleared rows. -/
theorem ParseStays.of_ctrs {s t : State} (upkeep : UpkeepStays s t) (ctrs : ∀ a, onDocent a → ctr t a = ctr s a := by intros; rfl)
    (frames : t.frames = s.frames := by rfl) (cores : t.doc.cores = s.doc.cores := by rfl) : ParseStays s t := ⟨upkeep, frames, cores, ctrs⟩

theorem ParseStays.of_bus {s t : State} (o : OnlyBus s t) (upkeep : UpkeepStays s t) (ctrs : ∀ a, onDocent a → ctr t a = ctr s a) :
    ParseStays s t := ⟨upkeep, o.frames, by rw [o.doc], ctrs⟩

theorem ParseStays.ite {s t : State} {c : Prop} [Decidable c] (h : ParseStays s t) : ParseStays s (if c then t else s) := by
  split
  · exact h
  · exact .refl s

theorem parseStays_foldl {α : Type} (l : List α) (f : State → α → State) (h : ∀ a x, ParseStays a (f a x)) (s : State) :
    ParseStays s (l.foldl f s) := List.foldlRecOn (motive := ParseStays s) l f (.refl s) fun _ ha _ _ => (h _ _).after ha

/-! ## Events and counters -/

theorem cnt8_off_docent {a : Nat} (h : onDocent a) : a ≠ HIF_CNT 8 := by
  rintro rfl
  rw [onDocent] at h
  exact absurd h (by decide)

theorem not_onLedger_of_onDocent {a : Nat} (h : onDocent a) : ¬onLedger a := by
  rw [onDocent] at h
  rw [onLedger]
  omega

theorem parseStays_raise {p : Nat} (h : offChiplet p) (b : Nat) (s : State) : ParseStays s (raise p b s) :=
  .of_bus (raise_onlyBus _ _ _) (upkeepStays_raise h b s) fun _ ha => ctr_raise (cnt8_off_docent ha) (not_onLedger_of_onDocent ha) p b s

theorem parseStays_raiseFirst {p : Nat} (h : offChiplet p) (b : Nat) (s : State) : ParseStays s (raiseFirst p b s) :=
  .of_bus (raiseFirst_onlyBus _ _ _) (upkeepStays_raiseFirst h b s) fun _ ha =>
    ctr_raiseFirst (cnt8_off_docent ha) (not_onLedger_of_onDocent ha) p b s

/-- The Conservator counts on its own page. -/
theorem parseStays_bumpCsv {n : Nat} (hn : n < 64) (s : State) : ParseStays s (bump (CSV_CNT n) s) :=
  .of_bus (bump_onlyBus _ _) (upkeepStays_bump _ _) fun a ha => by
    have hpage : CSV_CNT n / 0x10000 = pageCSV := page_bar0 _ (by omega)
    have hne : a ≠ CSV_CNT n := by
      rintro rfl
      rw [onDocent, hpage] at ha
      exact absurd ha (by decide)
    rw [ctr_bump, if_neg hne]

theorem parseStays_reportFault (p kind addr : Nat) (inj : Bool) (s : State) : ParseStays s (reportFault p kind addr inj s) :=
  .of_bus (reportFault_onlyBus _ _ _ _ _) (upkeepStays_reportFault _ _ _ _ _) fun _ _ => ctr_reportFault _ _ _ _ _ _

theorem parseStays_recordErr {p : Nat} (h : offChiplet p) (code detail addr : Nat) (s : State) :
    ParseStays s (recordErr p code detail addr s) :=
  .of_bus (recordErr_onlyBus _ _ _ _ _) (upkeepStays_recordErr h _ _ _ _) fun _ _ => rfl

/-! ## The read of a word (R580, R581, R583) -/

theorem ctr_correctedAt (p : Nat) (s : State) (a : Nat) : ctr (correctedAt p s) a = ctr s a := by
  unfold correctedAt
  dsimp only
  split
  · rfl
  · split
    · exact ctr_reportFault _ _ _ _ _ _
    · rfl

theorem OnlyNotes.frames {s t : State} (h : OnlyNotes s t) : t.frames = s.frames := congrArg (fun x => x.frames) h

theorem OnlyNotes.doc {s t : State} (h : OnlyNotes s t) : t.doc = s.doc := congrArg (fun x => x.doc) h

theorem parseStays_correctedAt {p : Nat} (h : offChiplet p) (s : State) : ParseStays s (correctedAt p s) where
  upkeep := upkeepStays_correctedAt h s
  frames := (onlyNotes_correctedAt p s).frames
  cores := by rw [(onlyNotes_correctedAt p s).doc]
  ctrs a _ := ctr_correctedAt p s a

theorem parseStays_flowErr (a : Nat) (s : State) : ParseStays s (flowErr a s) := (parseStays_raise (by decide) _ _).ite

theorem parseStays_noteRead (a : Nat) (s : State) : ParseStays s (noteRead a s) := by
  unfold noteRead
  split
  · exact .refl s
  · dsimp only
    split
    · exact .after (.of_ctrs .of_same) (parseStays_correctedAt (offChiplet_tabOwner a) s)
    · exact parseStays_correctedAt (offChiplet_tabOwner a) s
  · exact (parseStays_flowErr _ _).after <| (parseStays_raiseFirst (by decide) _ _).after <|
      (parseStays_recordErr (by decide) _ _ _ _).after (parseStays_bumpCsv (by decide) _)
  · exact (parseStays_flowErr _ _).after <| (parseStays_reportFault _ _ _ _ _).after <|
      parseStays_recordErr (offChiplet_tabOwner a) _ _ _ _

/-! ## The merges that a read waits for (R585-R588) -/

theorem unclear_keeps (b : Nat) (s : State) :
    (unclear b s).frames = s.frames ∧ (unclear b s).doc = s.doc ∧ (unclear b s).bus = s.bus := by
  unfold unclear
  dsimp only
  split
  · split <;> exact ⟨rfl, rfl, rfl⟩
  · split <;> exact ⟨rfl, rfl, rfl⟩

theorem parseStays_unclear (b : Nat) (s : State) : ParseStays s (unclear b s) := by
  obtain ⟨hframes, hdoc, hbus⟩ := unclear_keeps b s
  exact .of_ctrs (upkeepStays_unclear b s) (fun a _ => by rw [ctr, hbus, ctr]) hframes (by rw [hdoc])

theorem parseStays_ovfEdge (old s : State) : ParseStays s (ovfEdge old s) := by
  refine parseStays_foldl _ _ (fun a w => ?_) s
  have hp : offChiplet (pageCAT w) := by
    right
    rw [pageCAT]
    omega
  exact (parseStays_raise hp 2 a).ite

theorem parseStays_wordWritten (b : Nat) (old s : State) : ParseStays s (wordWritten b old s) := by
  have hclear : ParseStays s (if (eccOf s b).st = .good then unclear b s else s) := (parseStays_unclear b s).ite
  unfold wordWritten
  dsimp only
  split
  · exact (parseStays_ovfEdge _ _).after hclear
  · exact hclear

theorem parseStays_putWords (a : Nat) (ws : List W32) (s : State) : ParseStays s (putWords a ws s) := by
  rw [putWords_rest]
  exact .of_ctrs .of_same

theorem parseStays_runMerge (m : Merge) (s : State) : ParseStays s (runMerge m s) := by
  have hput : ∀ e, ParseStays s (wordWritten (eccBase m.addr) s (putWords m.addr m.words (putEcc (eccBase m.addr) e s))) := fun e =>
    (parseStays_wordWritten _ _ _).after ((parseStays_putWords _ _ _).after (.of_ctrs (upkeepStays_putEcc _ e s)))
  unfold runMerge
  dsimp only
  split
  · exact (parseStays_raiseFirst (by decide) _ _).after ((parseStays_bumpCsv (by decide) _).after (hput _))
  · exact (parseStays_bumpCsv (by decide) _).after (hput _)
  · exact hput _
  · exact hput _

theorem parseStays_settle (s : State) : ParseStays s (settle s) :=
  (parseStays_foldl _ _ (fun a m => parseStays_runMerge m a) _).after (.of_ctrs .of_same)

/-- Once every merge has run none waits. -/
theorem settle_merges (s : State) : (settle s).tab.merges = [] :=
  List.foldlRecOn (motive := fun t : State => t.tab.merges = []) _ _ rfl fun t ht m _ => (runMerge_merges m t).trans ht

/-- The state in which a core reads the table word at `a`: no merge waits and the read is recorded (R580-R588). -/
def fetched (a : Nat) (s : State) : State := noteRead a (settle s)

theorem parseStays_fetched (a : Nat) (s : State) : ParseStays s (fetched a s) := (parseStays_noteRead a _).after (parseStays_settle s)

theorem fetched_good {a : Nat} {s : State} (hm : s.tab.merges = []) (hr : rdStat s a = .good) : fetched a s = s := by
  rw [fetched, settle_none s hm, noteRead, hr]

end Sys2Proof.Machine
end

section
/-!
SUPPORT. One instruction of a parse core: how a core goes on, how its parse ends, and when the pressure cut stays away (R113-R116, R121,
R122).
-/
namespace Sys2Proof.Machine

/-! ## Cores -/

@[simp] theorem coreOf_putCore (g c : Nat) (k : Option CoreSt) (s : State) : coreOf (putCore g c k s) g c = k := sGet_sPut_same _ _ _ _

theorem cores_putCore_ne {g c n : Nat} (k : Option CoreSt) (s : State) (h : n ≠ 168 * g + c) :
    sGet none n (putCore g c k s).doc.cores = sGet none n s.doc.cores := sGet_sPut_ne _ _ _ h _

theorem coreOf_congr {s t : State} (h : t.doc.cores = s.doc.cores) (g c : Nat) : coreOf t g c = coreOf s g c := by rw [coreOf, coreOf, h]

/-! ## The hold-buffer condition and the cut (R122) -/

theorem beyondHeader_doc (g : Gallery) {x : Nat} (h : 0x100 ≤ x) (hx : x < 0x10000) : beyondHeader (bar0 (pageDOC g) x) :=
  beyondHeader_bar0 h hx (by simp only [pageDOC, pageHIF]; omega)

theorem offChiplet_doc (g : Nat) : offChiplet (pageDOC g) := by
  right
  rw [pageDOC]
  omega

theorem onDocent_excCnt (g : Gallery) {n : Nat} (h : n < 64) : onDocent (DOC_EXC_CNT g n) := by
  have hp : DOC_EXC_CNT g n / 0x10000 = pageDOC g := page_bar0 _ (by omega)
  rw [onDocent, hp, pageDOC]
  omega

theorem excCounter_lt (code : Nat) : excCounter code < 8 := by
  unfold excCounter
  split <;> omega

theorem pressed_congr {s t : State} {g : Nat} (hspare : rd t RGR_SPARE_STAT = rd s RGR_SPARE_STAT)
    (hcfg : rd t (DOC_BUDGET_CFG g) = rd s (DOC_BUDGET_CFG g)) (hframes : t.frames = s.frames) : pressed t g = pressed s g := by
  have hc : carries t g = carries s g := by rw [carries, carries, rf, hspare, rf]
  have hk : ∀ k, hbKib t k = hbKib s k := fun k => by rw [hbKib, hbKib, hbBytes, hbBytes, hframes]
  rw [pressed, pressed, hc]
  cases carries s g with
  | none => rfl
  | some k =>
    have hr : rf t (DOC_BUDGET_CFG g) 23 12 = rf s (DOC_BUDGET_CFG g) 23 12 := congrArg (fld · 23 12) hcfg
    exact decide_eq_decide.mpr (by rw [hk, hr])

theorem ParseStays.docReg {s t : State} (h : ParseStays s t) (g : Gallery) {x : Nat} (hx : 0x100 ≤ x) (hx' : x < 0x10000) :
    rd t (bar0 (pageDOC g) x) = rd s (bar0 (pageDOC g) x) := h.upkeep.regs _ (.inr (beyondHeader_doc g hx hx'))

theorem ParseStays.budget {s t : State} (h : ParseStays s t) (g : Gallery) : rd t (DOC_BUDGET_CFG g) = rd s (DOC_BUDGET_CFG g) :=
  h.docReg g (by decide) (by decide)

theorem ParseStays.longest {s t : State} (h : ParseStays s t) (g : Gallery) :
    rf t (DOC_CYC_STAT g) 22 16 = rf s (DOC_CYC_STAT g) 22 16 := congrArg (fld · 22 16) (h.docReg g (x := 0x10C) (by decide) (by decide))

theorem ParseStays.lastExc {s t : State} (h : ParseStays s t) (g : Gallery) : rd t (DOC_EXC_LAST g) = rd s (DOC_EXC_LAST g) :=
  h.docReg g (by decide) (by decide)

theorem ParseStays.excCount {s t : State} (h : ParseStays s t) (g : Gallery) (code : Nat) :
    ctr t (DOC_EXC_CNT g (excCounter code)) = ctr s (DOC_EXC_CNT g (excCounter code)) :=
  h.ctrs _ (onDocent_excCnt g (by have := excCounter_lt code; omega))

theorem ParseStays.pressed_eq {s t : State} (h : ParseStays s t) (g : Gallery) : pressed t g = pressed s g :=
  pressed_congr (h.upkeep.regs _ (.inr (beyondHeader_bar0 (by decide) (by decide) (by decide)))) (h.budget g) h.frames

theorem ParseStays.cutCycles_eq {s t : State} (h : ParseStays s t) (g : Gallery) : cutCycles t g = cutCycles s g := by
  rw [cutCycles, cutCycles, rf, h.budget g, rf]

theorem ParseStays.meetsCut_eq {s t : State} (h : ParseStays s t) (g : Gallery) (n m : Nat) : meetsCut t g n m = meetsCut s g n m := by
  rw [meetsCut, meetsCut, h.cutCycles_eq g, h.pressed_eq g]

theorem meetsCut_iff {s : State} {g n m : Nat} :
    meetsCut s g n m = true ↔ n < cutCycles s g ∧ cutCycles s g ≤ m ∧ cutCycles s g < 96 ∧ pressed s g = true := by
  simp only [meetsCut, Bool.and_eq_true, decide_eq_true_eq, and_assoc]

/-- Where an instruction does not meet the cut, no shorter one does. -/
theorem meetsCut_shorter {s : State} {g n m m' : Nat} (h : meetsCut s g n m = false) (hm : m' ≤ m) : meetsCut s g n m' = false := by
  rw [Bool.eq_false_iff, ne_eq, meetsCut_iff] at h ⊢
  rintro ⟨h1, h2, h3⟩
  exact h ⟨h1, h2.trans hm, h3⟩

/-- An instruction of one cycle meets the cut only at its own end. -/
theorem cutCycles_of_meetsCut {s : State} {g n : Nat} (h : meetsCut s g n (n + 1) = true) : cutCycles s g = n + 1 := by
  obtain ⟨h1, h2, -⟩ := meetsCut_iff.mp h
  omega

/-! ## The outcome of an instruction (R121, R122) -/

section
variable {g c n code : Nat} {k0 k : CoreSt} {s : State}

theorem applyRes_go (hcut : meetsCut s g k0.cycles (k0.cycles + n) = false) (hn : k0.cycles + n ≤ 96) :
    applyRes g c k0 (.go k n) s = putCore g c (some { k with cycles := k0.cycles + n, search := none }) s := by
  simp [applyRes, hcut, hn]

theorem applyRes_go_caught (hcut : meetsCut s g k0.cycles (k0.cycles + n) = true) : applyRes g c k0 (.go k n) s =
    putCore g c (some { (if k0.cycles + n = cutCycles s g then k else k0) with cycles := cutCycles s g, cut := true }) s := by
  simp [applyRes, hcut]

theorem applyRes_stop (hcut : meetsCut s g k0.cycles (k0.cycles + n) = true → k0.cycles + n = cutCycles s g) (hn : k0.cycles + n ≤ 96) :
    applyRes g c k0 (.stop k code n) s = endParse g c k code (k0.cycles + n) s := by
  have hgo : (meetsCut s g k0.cycles (k0.cycles + n) && decide (k0.cycles + n ≠ cutCycles s g)) = false := by
    cases hm : meetsCut s g k0.cycles (k0.cycles + n)
    · rfl
    · simp [hcut hm]
  simp only [applyRes, hgo, hn, Bool.false_eq_true, if_false, if_true]

end

/-! ## A core goes on -/

/-- From `s` a core goes on in the state `u` in which it has read its word. -/
theorem coreMoves_putCore {g c : Nat} {k k' : CoreSt} {s u : State} (hu : ParseStays s u)
    (hsame : s.tab.merges = [] → rdStat s (storeAddr g k.pc) = .good → u = s) : CoreMoves g c k k' s (putCore g c (some k') u) where
  core := coreOf_putCore _ _ _ _
  frames := hu.frames
  others n hn := by rw [cores_putCore_ne _ _ hn, hu.cores]
  rest hm hr := by
    rw [hsame hm hr]
    exact ⟨fun _ _ => rfl, fun _ _ _ => rfl, rfl⟩

/-! ## A parse ends (R116) -/

/-- The event of an exception is one of the Docent's page, or there is none. -/
theorem parseStays_excEvent (g code : Nat) (s : State) : ParseStays s (excEvent g code s) := by
  unfold excEvent
  split
  · exact parseStays_raise (offChiplet_doc g) _ _
  · split
    · exact parseStays_raise (offChiplet_doc g) _ _
    · exact (parseStays_raise (offChiplet_doc g) _ _).ite

/-- The frame as the end of its parse leaves it: an exception discards what the program wrote (R116). -/
def endedFrame (f : Frame) (k : CoreSt) (code : Nat) : Frame :=
  { f with
    stage := .ring
    fv := if code = 0 then sPut 0 7 (statusWord 0 k) k.fv else sPut 0 7 (statusWord code k) (k.fv.filter fun e => decide (e.1 < 7))
    ofs := if code = 0 then k.ofs else [(0, 0)]
    exc := code }

/-- The longest parse shown (R138). -/
def longestShown (g n : Nat) (s : State) : State := if rf s (DOC_CYC_STAT g) 22 16 < n then wf (DOC_CYC_STAT g) 22 16 n s else s

/-- The parse's length taken into the running window. -/
def lengthTaken (g n : Nat) (s : State) : State :=
  { s with doc := { s.doc with
    cycSum := sPut 0 g (sGet 0 g s.doc.cycSum + n) s.doc.cycSum
    cycCnt := sPut 0 g (sGet 0 g s.doc.cycCnt + 1) s.doc.cycCnt } }

/-- The frame ended, its code counted and its length noted. -/
def parseCounted (g c : Nat) (k : CoreSt) (code n : Nat) (f : Frame) (s : State) : State :=
  lengthTaken g n (longestShown g n (bump (DOC_EXC_CNT g (excCounter code)) (putCore g c none (putFrame (endedFrame f k code) s))))

theorem endParse_eq {g c : Nat} {k : CoreSt} {f : Frame} {s : State} (code n : Nat) (h : frameOf s k.frame = some f) :
    endParse g c k code n s = if code = 0 then parseCounted g c k code n f s
      else excEvent g code (wr (DOC_EXC_LAST g) (w32 (k.pc * 65536 + code % 256 * 256 + portIndex f.port)) (parseCounted g c k code n f s)) := by
  rw [endParse, h]
  rfl

theorem longestShown_onlyBus (g n : Nat) (s : State) : OnlyBus s (longestShown g n s) := by
  unfold longestShown
  split <;> rfl

theorem ctr_longestShown (g n : Nat) (s : State) (a : Nat) : ctr (longestShown g n s) a = ctr s a := by
  unfold longestShown
  split <;> rfl

theorem rf_longestShown (g : Nat) {n : Nat} (s : State) (hn : n < 128) :
    rf (longestShown g n s) (DOC_CYC_STAT g) 22 16 = max (rf s (DOC_CYC_STAT g) 22 16) n := by
  unfold longestShown
  split
  · rw [rf_wf_same _ _ _ _ _ (by decide) (by decide)]
    omega
  · omega

/-- What the count of a parse's end shows. -/
theorem parseCounted_shows (g c : Nat) (k : CoreSt) (code n : Nat) (f : Frame) (s : State) :
    coreOf (parseCounted g c k code n f s) g c = none ∧
    (parseCounted g c k code n f s).frames = (putFrame (endedFrame f k code) s).frames ∧
    ctr (parseCounted g c k code n f s) (DOC_EXC_CNT g (excCounter code)) = (ctr s (DOC_EXC_CNT g (excCounter code)) + 1) % 2 ^ 64 ∧
    (n < 128 → rf (parseCounted g c k code n f s) (DOC_CYC_STAT g) 22 16 = max (rf s (DOC_CYC_STAT g) 22 16) n) := by
  generalize hu : bump (DOC_EXC_CNT g (excCounter code)) (putCore g c none (putFrame (endedFrame f k code) s)) = u
  have hcore : coreOf u g c = none := by rw [← hu, coreOf, bump_doc]; exact coreOf_putCore _ _ _ _
  have hframes : u.frames = (putFrame (endedFrame f k code) s).frames := by rw [← hu, bump_frames]; rfl
  have hctr : ctr u (DOC_EXC_CNT g (excCounter code)) = (ctr s (DOC_EXC_CNT g (excCounter code)) + 1) % 2 ^ 64 := by
    rw [← hu, ctr_bump, if_pos rfl]; rfl
  have hlong : rf u (DOC_CYC_STAT g) 22 16 = rf s (DOC_CYC_STAT g) 22 16 := by rw [← hu, rf, rd_bump]; rfl
  have heq : parseCounted g c k code n f s = lengthTaken g n (longestShown g n u) := by rw [← hu]; rfl
  rw [heq]
  refine ⟨?_, (longestShown_onlyBus g n u).frames.trans hframes, (ctr_longestShown g n u _).trans hctr, fun hn => ?_⟩
  · rw [← hcore, coreOf, coreOf, ← (longestShown_onlyBus g n u).doc]
    rfl
  · rw [← hlong]
    exact rf_longestShown g u hn

/-- The end of a parse, with its core, frame, counter, longest parse and record (R116). -/
theorem parseEnds_endParse {g : Gallery} {c : Nat} {k : CoreSt} {f : Frame} {s u : State} (code n : Nat) (h : frameOf s k.frame = some f)
    (hu : ParseStays s u) : ParseEnds g c code n f k s (endParse g c k code n u) := by
  have hfu : frameOf u k.frame = some f := (frameOf_congr hu.frames _).trans h
  have hframe : ∀ t, t.frames = (putFrame (endedFrame f k code) u).frames → frameOf t f.id = some (endedFrame f k code) := fun t ht => by
    rw [frameOf_congr ht, frameOf_id h]
    exact frameOf_putFrame_found hfu (show f.id = k.frame from frameOf_id h)
  obtain ⟨hcore, hfr, hcnt, hmax⟩ := parseCounted_shows g c k code n f u
  rw [hu.excCount] at hcnt
  rw [hu.longest] at hmax
  rw [endParse_eq code n hfu]
  by_cases h0 : code = 0
  · rw [if_pos h0]
    exact ⟨hcore, ⟨_, hframe _ hfr, rfl, fun _ => by simp [endedFrame, h0], fun e => absurd h0 e⟩, hcnt, hmax, fun e => absurd h0 e⟩
  · rw [if_neg h0]
    generalize parseCounted g c k code n f u = v at *
    generalize hv : wr (DOC_EXC_LAST g) (w32 (k.pc * 65536 + code % 256 * 256 + portIndex f.port)) v = w
    have hstay := parseStays_excEvent g code w
    have hcyc : rf w (DOC_CYC_STAT g) 22 16 = rf v (DOC_CYC_STAT g) 22 16 := by
      rw [← hv, rf, rd_wr_ne _ _ (by simp only [DOC_CYC_STAT, DOC_EXC_LAST, bar0]; omega), rf]
    refine ⟨?_, ⟨_, hframe _ ?_, rfl, fun e => absurd e h0, fun _ => by simp [endedFrame, h0]⟩, ?_, fun hn => ?_, fun _ => ?_⟩
    · rw [coreOf_congr hstay.cores, ← hv]
      exact hcore
    · rw [hstay.frames, ← hv]
      exact hfr
    · rw [hstay.excCount, ← hv]
      exact hcnt
    · rw [hstay.longest, hcyc]
      exact hmax hn
    · rw [hstay.lastExc, ← hv, rd_wr_same]

/-! ## An instruction of a core (R113-R116) -/

theorem rdStat_of_readable {s : State} {a : Nat} (h : readable s a = true) : rdStat s a = .good ∨ rdStat s a = .corrected := by
  unfold readable at h
  split at h
  · rename_i hst
    exact .inl hst
  · rename_i hst
    exact .inr hst
  · exact absurd h Bool.false_ne_true
  · exact absurd h Bool.false_ne_true

theorem rdStat_of_unreadable {s : State} {a : Nat} (h : readable s a = false) : rdStat s a = .never ∨ rdStat s a = .ue := by
  unfold readable at h
  split at h
  · exact absurd h.symm Bool.false_ne_true
  · exact absurd h.symm Bool.false_ne_true
  · rename_i hst
    exact .inl hst
  · rename_i hst
    exact .inr hst

section
variable {g : Gallery} {c : Core} {w : W32} {f : Frame} {k : CoreSt} {s : State} {o : Nat} {F : W32 → Frame → CoreSt → State → CoreRes}

/-- A core that stands at a word of opcode `o` runs it in the state in which it has read the word. -/
theorem docStep_runs (h : StandsAt g c w f k s) (hop : opOf w = o) (hcyc : k.cycles < 96) :
    docStep o F g c s = applyRes g c k (F w f k (settle s)) (fetched (storeAddr g k.pc) s) := by
  obtain ⟨hcore, hframe, hreads, hword, hlegal, hrun⟩ := h
  have hgo : (decide (96 ≤ k.cycles) || k.cut) = false := by simp [hrun, hcyc]
  rcases rdStat_of_readable hreads with hst | hst
  · simp only [docStep, hcore, hframe, hgo, hst, hword, hop, hlegal, if_true, Bool.false_eq_true, if_false, fetched]
  · simp only [docStep, hcore, hframe, hgo, hst, hword, hop, hlegal, if_true, Bool.false_eq_true, if_false, fetched]

/-- An instruction whose outcome goes on moves its core and nothing else. -/
theorem docStep_goes {k' : CoreSt} {n m : Nat} (h : StandsAt g c w f k s) (hop : opOf w = o) (hm : k.cycles + m ≤ 96)
    (hcut : meetsCut s g k.cycles (k.cycles + m) = false) (hn : 0 < n ∧ n ≤ m) (hF : F w f k (settle s) = .go k' n) :
    CoreMoves g c k { k' with cycles := k.cycles + n, search := none } s (docStep o F g c s) := by
  have hu := parseStays_fetched (storeAddr g k.pc) s
  rw [docStep_runs h hop (by omega), hF, applyRes_go (by rw [hu.meetsCut_eq g]; exact meetsCut_shorter hcut (by omega)) (by omega)]
  exact coreMoves_putCore hu fetched_good

/-- An instruction whose outcome stops ends the parse, unless the cut catches it before its end (R122). -/
theorem docStep_ends {code n : Nat} (h : StandsAt g c w f k s) (hop : opOf w = o) (hn : 0 < n ∧ k.cycles + n ≤ 96)
    (hcut : meetsCut s g k.cycles (k.cycles + n) = true → k.cycles + n = cutCycles s g) (hF : F w f k (settle s) = .stop k code n) :
    ParseEnds g c code (k.cycles + n) f k s (docStep o F g c s) := by
  have hu := parseStays_fetched (storeAddr g k.pc) s
  rw [docStep_runs h hop (by omega), hF, applyRes_stop (by rw [hu.meetsCut_eq g, hu.cutCycles_eq g]; exact hcut) hn.2]
  exact parseEnds_endParse code _ h.frame hu

/-- An instruction that stays clear of the cut and whose outcome stops ends the parse. -/
theorem docStep_stops {code n m : Nat} (h : StandsAt g c w f k s) (hop : opOf w = o) (hm : k.cycles + m ≤ 96)
    (hcut : meetsCut s g k.cycles (k.cycles + m) = false) (hn : 0 < n ∧ n ≤ m) (hF : F w f k (settle s) = .stop k code n) :
    ParseEnds g c code (k.cycles + n) f k s (docStep o F g c s) := by
  have hno : meetsCut s g k.cycles (k.cycles + n) = false := meetsCut_shorter hcut (by omega)
  exact docStep_ends h hop ⟨hn.1, by omega⟩ (fun e => absurd (hno.symm.trans e) Bool.false_ne_true) hF

end

end Sys2Proof.Machine
end

section
/-!
SUPPORT. The register instructions of the parse cores (R111, R114), and O27.
-/
namespace Sys2Proof.Machine

/-! ## A register written (R111) -/

theorem getG_zero (k : CoreSt) : getG k 0 = 0 := if_pos rfl

theorem getG_setG_same {r : Nat} (v : W32) (k : CoreSt) (h : r ≠ 0) : getG (setG r v k) r = v := by
  rw [getG, setG, if_neg h, if_neg h]
  exact sGet_sPut_same _ _ _ _

theorem getG_setG_ne {r q : Nat} (v : W32) (k : CoreSt) (h : q ≠ r) : getG (setG r v k) q = getG k q := by
  unfold setG
  split
  · rfl
  · rw [getG, getG]
    split
    · rfl
    · exact sGet_sPut_ne _ _ _ h _

theorem setG_rest (r : Nat) (v : W32) (k : CoreSt) : setG r v k = { k with g := (setG r v k).g } := by
  unfold setG
  split <;> rfl

/-- A core that writes a register and moves on to the next word. -/
theorem regStep_setG (r n : Nat) {v : Nat} {x : W32} (k : CoreSt) (hv : x = w32 v) :
    RegStep r n v k { advPc (setG r x k) with cycles := k.cycles + n, search := none } where
  written h := (getG_setG_same x k h).trans hv
  kept _ h := getG_setG_ne x k h
  zero := getG_zero _
  rest := by
    rw [setG_rest]
    rfl

/-! ## Numbers modulo 2^32 (R114) -/

theorem w32_toNat (x : W32) : w32 x.toNat = x := BitVec.ofNat_toNat _ _ |>.trans (BitVec.setWidth_eq x)

theorem eq_w32_iff {x : W32} {n : Nat} : x = w32 n ↔ x.toNat = n % 2 ^ 32 :=
  ⟨fun h => by rw [h]; exact BitVec.toNat_ofNat _ _, fun h => BitVec.eq_of_toNat_eq (h.trans (BitVec.toNat_ofNat _ _).symm)⟩

theorem toNat_w32_imm (w : W32) (hi lo : Nat) (h : hi + 1 - lo ≤ 32) : (w32 (fld w hi lo)).toNat = fld w hi lo :=
  (BitVec.toNat_ofNat _ _).trans (Nat.mod_eq_of_lt ((fld_lt w hi lo).trans_le (Nat.pow_le_pow_right (by decide) h)))

theorem add_eq_w32 (x y : W32) : x + y = w32 (x.toNat + y.toNat) := eq_w32_iff.mpr (BitVec.toNat_add x y)

theorem sub_eq_w32 (x y : W32) : x - y = w32 (x.toNat + 2 ^ 32 - y.toNat) := by
  have := y.isLt
  rw [eq_w32_iff, BitVec.toNat_sub]
  congr 1
  omega

theorem and_eq_w32 (x y : W32) : x &&& y = w32 (x.toNat &&& y.toNat) := by rw [← BitVec.toNat_and, w32_toNat]

theorem or_eq_w32 (x y : W32) : x ||| y = w32 (x.toNat ||| y.toNat) := by rw [← BitVec.toNat_or, w32_toNat]

theorem xor_eq_w32 (x y : W32) : x ^^^ y = w32 (x.toNat ^^^ y.toNat) := by rw [← BitVec.toNat_xor, w32_toNat]

theorem shl_eq_w32 (x : W32) (n : Nat) : x <<< n = w32 (x.toNat * 2 ^ n) := by
  rw [eq_w32_iff, BitVec.toNat_shiftLeft, Nat.shiftLeft_eq]

theorem shr_eq_w32 (x : W32) (n : Nat) : x >>> n = w32 (x.toNat / 2 ^ n) := by
  rw [← Nat.shiftRight_eq_div_pow, ← BitVec.toNat_ushiftRight, w32_toNat]

/-- A 16-bit immediate taken as two's complement (R114). -/
theorem addImm_eq_w32 (x : W32) {n : Nat} (hn : n < 2 ^ 16) :
    x + (BitVec.ofNat 16 n).signExtend 32 = w32 (x.toNat + n + if n < 2 ^ 15 then 0 else 2 ^ 32 - 2 ^ 16) := by
  have hmsb : (BitVec.ofNat 16 n).msb = decide (2 ^ 15 ≤ n) := by
    rw [BitVec.msb_eq_decide, BitVec.toNat_ofNat, Nat.mod_eq_of_lt hn]
  rw [eq_w32_iff, BitVec.toNat_add, BitVec.toNat_signExtend, BitVec.toNat_setWidth, BitVec.toNat_ofNat, Nat.mod_eq_of_lt hn, hmsb]
  by_cases h : n < 2 ^ 15
  · rw [if_pos h, decide_eq_false (by omega)]
    simp only [Bool.false_eq_true, if_false]
    omega
  · rw [if_neg h, decide_eq_true (by omega)]
    simp only [if_true]
    omega

/-- The shift count of an immediate shift is the immediate's low five bits. -/
theorem fImm_mod_32 (w : W32) : fImm w % 32 = fld w 4 0 := by
  simp only [fImm, fld, bitsOf]
  omega

/-! ## The settled statement -/

section
variable {g : Gallery} {c : Core} {w : W32} {f : Frame} {k : CoreSt} {s : State} {o : Nat} {m : Nat}

/-- An instruction of one cycle that writes one register. -/
theorem aluStep {i : Instr} {x : W32 → CoreSt → W32} {v : Nat} (h : StandsAt g c w f k s) (hm : k.cycles + 1 ≤ 96)
    (hcut : meetsCut s g k.cycles (k.cycles + 1) = false) (hop : opOf w = o)
    (hi : exec i s = .next (docStep o (fun w _ k _ => aluG (x w k) w k) g c s)) (hv : x w k = w32 v) :
    ∃ t k', exec i s = .next t ∧ CoreMoves g c k k' s t ∧ RegStep (fGd w) 1 v k k' :=
  ⟨_, _, hi, docStep_goes h hop hm hcut (by decide) rfl, regStep_setG _ _ k hv⟩

end

/-- Settles O27: each register instruction is one write of its destination, and its number is the stated one modulo 2^32. -/
theorem docentRegisters : Obligations.DocentRegisters := by
  intro g c w f k s h hm hcut a b imm goes
  have himm : imm < 2 ^ 16 := fld_lt w 15 0
  have hw32 : (w32 imm).toNat = imm := toNat_w32_imm w 15 0 (by decide)
  refine ⟨fun hop => aluStep h hm hcut hop rfl (add_eq_w32 _ _), fun hop => aluStep h hm hcut hop rfl (sub_eq_w32 _ _),
    fun hop => aluStep h hm hcut hop rfl (and_eq_w32 _ _), fun hop => aluStep h hm hcut hop rfl (or_eq_w32 _ _),
    fun hop => aluStep h hm hcut hop rfl (xor_eq_w32 _ _), fun hop => aluStep h hm hcut hop rfl (shl_eq_w32 _ _),
    fun hop => aluStep h hm hcut hop rfl (shr_eq_w32 _ _), fun hop => aluStep h hm hcut hop rfl (addImm_eq_w32 _ himm),
    fun hop => aluStep h hm hcut hop rfl ?_, fun hop => aluStep h hm hcut hop rfl ?_, fun hop => aluStep h hm hcut hop rfl ?_,
    fun hop => aluStep h hm hcut hop rfl ?_, fun hop => aluStep h hm hcut hop rfl ?_, fun hop => aluStep h hm hcut hop rfl rfl,
    fun hop => aluStep h hm hcut hop rfl rfl, fun hop => aluStep h hm hcut hop rfl rfl, fun hop => aluStep h hm hcut hop rfl rfl⟩
  · exact (and_eq_w32 _ _).trans (by rw [fImm, hw32])
  · exact (or_eq_w32 _ _).trans (by rw [fImm, hw32])
  · exact (xor_eq_w32 _ _).trans (by rw [fImm, hw32])
  · rw [fImm_mod_32]
    exact shl_eq_w32 _ _
  · rw [fImm_mod_32]
    exact shr_eq_w32 _ _

end Sys2Proof.Machine
end

section
/-!
SUPPORT. The header window (R106-R108), and O28.
-/
namespace Sys2Proof.Machine

/-! ## Window bytes (R106, R107) -/

/-- Byte `j` as the window shows it: zero beyond the window's length (R106). -/
def windowByte (f : Frame) (j : Nat) : Byte := if j < winLen f then byteAt f.bytes j else 0

/-- `n` bytes of the window from byte `i`. -/
def windowBytes (f : Frame) (i n : Nat) : List Byte := (List.range n).map fun j => windowByte f (i + j)

/-- The core after an access to the window that ends before byte `e` (R106). -/
def readPast (f : Frame) (e : Nat) (k : CoreSt) : CoreSt := { k with overread := k.overread || decide (winLen f < e) }

theorem winBytes_within {f : Frame} {i n : Nat} (h : i + n ≤ 256) (k : CoreSt) :
    winBytes f i n k = some (windowBytes f i n, readPast f (i + n) k) := by
  rw [winBytes, if_neg (Nat.not_lt.mpr h)]
  refine congrArg some (Prod.ext rfl ?_)
  rw [readPast]
  by_cases hp : winLen f < i + n
  · rw [if_pos hp, decide_eq_true hp, Bool.or_true]
  · rw [if_neg hp, decide_eq_false hp, Bool.or_false]

theorem winBytes_beyond {f : Frame} {i n : Nat} (h : 256 < i + n) (k : CoreSt) : winBytes f i n k = none := if_pos h

theorem readPast_readPast (f : Frame) (a b : Nat) (k : CoreSt) : readPast f b (readPast f a k) = readPast f (max a b) k := by
  have h : (decide (winLen f < a) || decide (winLen f < b)) = decide (winLen f < max a b) := by
    rw [← Bool.decide_or]
    exact decide_eq_decide.mpr lt_max_iff.symm
  simp only [readPast, Bool.or_assoc, h]

/-! ## Loads (R108, R114) -/

theorem loadG_within {w : W32} {f : Frame} {k : CoreSt} {n idx : Nat} (h : k.cursor + fOff w + idx + n ≤ 256) :
    loadG n idx w f k = .go (advPc (setG (fGd w) (w32 (beNat (windowBytes f (k.cursor + fOff w + idx) n)))
      (readPast f (k.cursor + fOff w + idx + n) k))) 1 := by
  rw [loadG, winBytes_within h]

theorem loadG_beyond {w : W32} {f : Frame} {k : CoreSt} {n idx : Nat} (h : 256 < k.cursor + fOff w + idx + n) :
    loadG n idx w f k = .stop k 2 1 := by
  rw [loadG, winBytes_beyond h]

section
variable {g : Gallery} {c : Core} {w : W32} {f : Frame} {k : CoreSt} {s : State} {o : Nat}

/-- An instruction that loads `n` bytes at the cursor, its offset and an index. -/
theorem loadStep {i : Instr} (n : Nat) {idx : W32 → CoreSt → Nat} (h : StandsAt g c w f k s) (hm : k.cycles + 3 ≤ 96)
    (hcut : meetsCut s g k.cycles (k.cycles + 3) = false) (hop : opOf w = o)
    (hi : exec i s = .next (docStep o (fun w f k _ => loadG n (idx w k) w f k) g c s)) :
    (k.cursor + fOff w + idx w k + n ≤ 256 → ∃ t k', exec i s = .next t ∧ CoreMoves g c k k' s t ∧
      RegStep (fGd w) 1 (beNat (windowBytes f (k.cursor + fOff w + idx w k) n)) (readPast f (k.cursor + fOff w + idx w k + n) k) k') ∧
    (256 < k.cursor + fOff w + idx w k + n → ∃ t, exec i s = .next t ∧ ParseEnds g c 2 (k.cycles + 1) f k s t) :=
  ⟨fun hw => ⟨_, _, hi, docStep_goes h hop hm hcut (by decide) (loadG_within hw), regStep_setG _ _ (readPast _ _ _) rfl⟩,
    fun hw => ⟨_, hi, docStep_stops h hop hm hcut (by decide) (loadG_beyond hw)⟩⟩

/-! ## The header checksum (R114) -/

/-- Length of the IPv4 header at the cursor, from its IHL. -/
def ipHeaderLen (f : Frame) (k : CoreSt) : Nat := (windowByte f k.cursor).toNat % 16 * 4

theorem beNat_windowBytes_one (f : Frame) (i : Nat) : beNat (windowBytes f i 1) = (windowByte f i).toNat := by simp [windowBytes, beNat]

/-- CKV4 as an outcome of its core. -/
def ckv4 (w : W32) (f : Frame) (k : CoreSt) : CoreRes :=
  match winBytes f k.cursor 1 k with
  | none => .stop k 2 3
  | some (b0, k1) =>
    match winBytes f k.cursor (beNat b0 % 16 * 4) k1 with
    | none => .stop k 2 3
    | some (bs, k2) =>
      if onesSum bs = 0xFFFF then .go (advPc (setG (fGd w) 1 k2)) 3
      else .go (advPc (setG (fGd w) 0 { k2 with ckBad := true })) 3

theorem ckv4_within {w : W32} {f : Frame} {k : CoreSt} (h : k.cursor + max 1 (ipHeaderLen f k) ≤ 256) :
    let bad := decide (onesSum (windowBytes f k.cursor (ipHeaderLen f k)) ≠ 0xFFFF)
    ckv4 w f k = .go (advPc (setG (fGd w) (if bad then 0 else 1)
      { readPast f (k.cursor + max 1 (ipHeaderLen f k)) k with ckBad := k.ckBad || bad })) 3 := by
  intro bad
  have hlen : beNat (windowBytes f k.cursor 1) % 16 * 4 = ipHeaderLen f k := by rw [beNat_windowBytes_one, ipHeaderLen]
  have hpast : readPast f (k.cursor + ipHeaderLen f k) (readPast f (k.cursor + 1) k) =
      readPast f (k.cursor + max 1 (ipHeaderLen f k)) k := by rw [readPast_readPast, Nat.add_max_add_left]
  rw [ckv4, winBytes_within (by omega)]
  dsimp only
  rw [hlen, winBytes_within (by omega), hpast]
  dsimp only
  by_cases hsum : onesSum (windowBytes f k.cursor (ipHeaderLen f k)) = 0xFFFF
  · have hbad : bad = false := decide_eq_false (not_not_intro hsum)
    simp only [hsum, hbad, if_true, Bool.false_eq_true, if_false, Bool.or_false]
    rfl
  · have hbad : bad = true := decide_eq_true hsum
    simp only [hsum, hbad, if_true, if_false, Bool.or_true]

theorem ckv4_beyond {w : W32} {f : Frame} {k : CoreSt} (h : 256 < k.cursor + max 1 (ipHeaderLen f k)) : ckv4 w f k = .stop k 2 3 := by
  by_cases h1 : 256 < k.cursor + 1
  · rw [ckv4, winBytes_beyond h1]
  · have hlen : 256 < k.cursor + beNat (windowBytes f k.cursor 1) % 16 * 4 := by
      rw [beNat_windowBytes_one, ← ipHeaderLen]
      omega
    rw [ckv4, winBytes_within (by omega)]
    dsimp only
    rw [winBytes_beyond hlen]

theorem exec_docCkv4 (g : Gallery) (c : Core) (s : State) :
    exec (.docCkv4 g c) s = .next (docStep 0x32 (fun w f k _ => ckv4 w f k) g c s) := rfl

/-- CKV4 on a word that it stands at. -/
theorem ckv4Step (h : StandsAt g c w f k s) (hm : k.cycles + 3 ≤ 96) (hcut : meetsCut s g k.cycles (k.cycles + 3) = false)
    (hop : opOf w = 0x32) : let sum := onesSum (windowBytes f k.cursor (ipHeaderLen f k))
    (k.cursor + max 1 (ipHeaderLen f k) ≤ 256 → ∃ t k', exec (.docCkv4 g c) s = .next t ∧ CoreMoves g c k k' s t ∧
      RegStep (fGd w) 3 (if sum = 0xFFFF then 1 else 0)
        { readPast f (k.cursor + max 1 (ipHeaderLen f k)) k with ckBad := k.ckBad || decide (sum ≠ 0xFFFF) } k') ∧
    (256 < k.cursor + max 1 (ipHeaderLen f k) → ∃ t, exec (.docCkv4 g c) s = .next t ∧ ParseEnds g c 2 (k.cycles + 3) f k s t) := by
  intro sum
  refine ⟨fun hw => ⟨_, _, exec_docCkv4 g c s, docStep_goes h hop hm hcut (by decide) (ckv4_within hw),
    regStep_setG _ _ { readPast f (k.cursor + max 1 (ipHeaderLen f k)) k with ckBad := k.ckBad || decide (sum ≠ 0xFFFF) } ?_⟩,
    fun hw => ⟨_, exec_docCkv4 g c s, docStep_stops h hop hm hcut (by decide) (ckv4_beyond hw)⟩⟩
  by_cases hsum : sum = 0xFFFF
  · rw [if_pos hsum]
    exact if_neg (by simp [show onesSum _ = 0xFFFF from hsum])
  · rw [if_neg hsum]
    exact if_pos (decide_eq_true hsum)

end

/-! ## The settled statement -/

/-- Settles O28: a load writes what the window shows at its bytes, and an access that would pass byte 255 stops the parse before any
change. -/
theorem docentLoads : Obligations.DocentLoads := by
  intro g c w f k s h hm hcut x off at' past loads
  exact ⟨fun hop => loadStep 1 (idx := fun _ _ => 0) h hm hcut hop rfl, fun hop => loadStep 2 (idx := fun _ _ => 0) h hm hcut hop rfl,
    fun hop => loadStep 4 (idx := fun _ _ => 0) h hm hcut hop rfl,
    fun hop => loadStep 1 (idx := fun w k => (getG k (fGa w)).toNat % 512) h hm hcut hop rfl,
    fun hop => loadStep 2 (idx := fun w k => (getG k (fGa w)).toNat % 512) h hm hcut hop rfl,
    fun hop => loadStep 4 (idx := fun w k => (getG k (fGa w)).toNat % 512) h hm hcut hop rfl,
    fun hop => ckv4Step h hm hcut hop⟩

end Sys2Proof.Machine
end

section
/-!
SUPPORT. The cursor, the field vector and the header offsets (R107, R110, R114): the first part of O29.
-/
namespace Sys2Proof.Machine

/-! ## Field-vector slots (R110) -/

theorem sGet_setF (n v j : Nat) (k : CoreSt) :
    sGet 0 j (setF n v k).fv = if 8 ≤ j ∧ j = n then v % 65536 else sGet 0 j k.fv := by
  unfold setF
  by_cases hn : n < 8
  · rw [if_pos hn, if_neg (by omega)]
  · rw [if_neg hn, sGet_sPut]
    by_cases hj : j = n
    · rw [if_pos hj, if_pos ⟨by omega, hj⟩]
    · rw [if_neg hj, if_neg (fun e => hj e.2)]

theorem setF_rest (n v : Nat) (k : CoreSt) : setF n v k = { k with fv := (setF n v k).fv } := by
  unfold setF
  split <;> rfl

/-- Slots from `p` on written with `n` values. -/
def setSlots (p n : Nat) (v : Nat → Nat) (k : CoreSt) : CoreSt := (List.range n).foldl (fun a j => setF (p + j) (v j) a) k

theorem setSlots_succ (p n : Nat) (v : Nat → Nat) (k : CoreSt) : setSlots p (n + 1) v k = setF (p + n) (v n) (setSlots p n v k) := by
  rw [setSlots, List.range_succ, List.foldl_append]
  rfl

theorem setSlots_rest (p n : Nat) (v : Nat → Nat) (k : CoreSt) : setSlots p n v k = { k with fv := (setSlots p n v k).fv } := by
  induction n with
  | zero => rfl
  | succ n ih => rw [setSlots_succ, setF_rest, ih]

theorem sGet_setSlots (p n : Nat) (v : Nat → Nat) (k : CoreSt) (j : Nat) :
    sGet 0 j (setSlots p n v k).fv = if 8 ≤ j ∧ p ≤ j ∧ j < p + n then v (j - p) % 65536 else sGet 0 j k.fv := by
  induction n with
  | zero => rw [if_neg (by omega)]; rfl
  | succ n ih =>
    rw [setSlots_succ, sGet_setF, ih]
    by_cases hj : 8 ≤ j ∧ j = p + n
    · have hv : j - p = n := by omega
      rw [if_pos hj, if_pos (by omega), hv]
    · rw [if_neg hj]
      exact if_congr (by omega) rfl rfl

/-! ## Pairs of window bytes (R108, R114) -/

theorem byteAt_windowBytes {f : Frame} {i n j : Nat} (h : j < n) : byteAt (windowBytes f i n) j = windowByte f (i + j) := by
  simp [byteAt, windowBytes, h]

/-- Bytes 2j and 2j + 1 of a run of window bytes, as one number. -/
theorem beNat_pair {f : Frame} {i n j : Nat} (h : j < n) : beNat (slice (windowBytes f i (2 * n)) (2 * j) 2) =
    (windowByte f (i + 2 * j)).toNat * 256 + (windowByte f (i + 2 * j + 1)).toNat := by
  have hs : slice (windowBytes f i (2 * n)) (2 * j) 2 = [windowByte f (i + 2 * j), windowByte f (i + 2 * j + 1)] := by
    have h0 : byteAt (windowBytes f i (2 * n)) (2 * j) = windowByte f (i + 2 * j) := byteAt_windowBytes (by omega)
    have h1 : byteAt (windowBytes f i (2 * n)) (2 * j + 1) = windowByte f (i + (2 * j + 1)) := byteAt_windowBytes (by omega)
    rw [← h0, Nat.add_assoc, ← h1]
    rfl
  rw [hs]
  simp [beNat]

theorem toNat_windowByte (f : Frame) (j : Nat) :
    (windowByte f j).toNat = if j < min f.bytes.length 256 then (byteAt f.bytes j).toNat else 0 := by
  rw [windowByte, winLen]
  split <;> rfl

/-- A slot's number from two bytes. -/
theorem pair_lt (x y : Byte) : x.toNat * 256 + y.toNat < 65536 := by
  have := x.isLt
  have := y.isLt
  omega

/-! ## Cursor and header offsets (R107, R110) -/

theorem setCursor_within {n : Nat} (h : n ≤ 511) (k : CoreSt) : setCursor n k = .go (advPc { k with cursor := n }) 1 :=
  if_neg (Nat.not_lt.mpr h)

theorem setCursor_beyond {n : Nat} (h : 511 < n) (k : CoreSt) : setCursor n k = .stop k 2 1 := if_pos h

theorem markO_within {n : Nat} (i : Nat) (h : n ≤ 255) (k : CoreSt) :
    markO i n k = .go (advPc (if i = 0 then k else { k with ofs := sPut 512 i n k.ofs })) 1 := if_neg (Nat.not_lt.mpr h)

theorem markO_beyond {n : Nat} (i : Nat) (h : 255 < n) (k : CoreSt) : markO i n k = .stop k 2 1 := if_pos h

/-- The header offset that a mark names is the low five bits of the slot field. -/
theorem fSlot_mod_32 (w : W32) : fSlot w % 32 = fld w 4 0 := by
  simp only [fSlot, fld, bitsOf]
  omega

section
variable {g : Gallery} {c : Core} {w : W32} {f : Frame} {k : CoreSt} {s : State} {o : Nat}

/-- An instruction of one cycle with a given outcome on its core. -/
theorem plainStep {i : Instr} {F : W32 → Frame → CoreSt → State → CoreRes} {k' : CoreSt} (h : StandsAt g c w f k s)
    (hm : k.cycles + 2 ≤ 96) (hcut : meetsCut s g k.cycles (k.cycles + 2) = false) (hop : opOf w = o) (hi : exec i s = .next (docStep o F g c s))
    (hF : F w f k (settle s) = .go (advPc k') 1) (hpc : k'.pc = k.pc) : ∃ t, exec i s = .next t ∧
      CoreMoves g c k { k' with pc := (k.pc + 1) % 16384, cycles := k.cycles + 1, search := none } s t := by
  have hmove := docStep_goes h hop hm hcut (by decide) hF
  rw [advPc, hpc] at hmove
  exact ⟨_, hi, hmove⟩

/-- An instruction of one cycle that meets the window's end. -/
theorem windowStep {i : Instr} {F : W32 → Frame → CoreSt → State → CoreRes} (h : StandsAt g c w f k s) (hm : k.cycles + 2 ≤ 96)
    (hcut : meetsCut s g k.cycles (k.cycles + 2) = false) (hop : opOf w = o) (hi : exec i s = .next (docStep o F g c s))
    (hF : F w f k (settle s) = .stop k 2 1) : ∃ t, exec i s = .next t ∧ ParseEnds g c 2 (k.cycles + 1) f k s t :=
  ⟨_, hi, docStep_stops h hop hm hcut (by decide) hF⟩

/-- An instruction that sets the cursor (R107). -/
theorem cursorStep {i : Instr} {x : W32 → CoreSt → Nat} (h : StandsAt g c w f k s) (hm : k.cycles + 2 ≤ 96)
    (hcut : meetsCut s g k.cycles (k.cycles + 2) = false) (hop : opOf w = o)
    (hi : exec i s = .next (docStep o (fun w _ k _ => setCursor (x w k) k) g c s)) :
    (x w k ≤ 511 → ∃ t, exec i s = .next t ∧
      CoreMoves g c k { k with cursor := x w k, pc := (k.pc + 1) % 16384, cycles := k.cycles + 1, search := none } s t) ∧
    (511 < x w k → ∃ t, exec i s = .next t ∧ ParseEnds g c 2 (k.cycles + 1) f k s t) :=
  ⟨fun hn => plainStep h hm hcut hop hi (setCursor_within hn k) rfl, fun hn => windowStep h hm hcut hop hi (setCursor_beyond hn k)⟩

/-- An instruction that marks a header offset (R107, R110). -/
theorem markStep {i : Instr} {x : W32 → CoreSt → Nat} (h : StandsAt g c w f k s) (hm : k.cycles + 2 ≤ 96)
    (hcut : meetsCut s g k.cycles (k.cycles + 2) = false) (hop : opOf w = o)
    (hi : exec i s = .next (docStep o (fun w _ k _ => markO (fSlot w % 32) (x w k) k) g c s)) :
    (x w k ≤ 255 →
      (fld w 4 0 = 0 → ∃ t, exec i s = .next t ∧
        CoreMoves g c k { k with pc := (k.pc + 1) % 16384, cycles := k.cycles + 1, search := none } s t) ∧
      (fld w 4 0 ≠ 0 → ∃ t, exec i s = .next t ∧ CoreMoves g c k
        { k with ofs := sPut 512 (fld w 4 0) (x w k) k.ofs, pc := (k.pc + 1) % 16384, cycles := k.cycles + 1, search := none } s t)) ∧
    (255 < x w k → ∃ t, exec i s = .next t ∧ ParseEnds g c 2 (k.cycles + 1) f k s t) := by
  refine ⟨fun hn => ⟨fun h0 => plainStep h hm hcut hop hi ((markO_within _ hn k).trans ?_) rfl,
    fun h0 => plainStep (k' := { k with ofs := sPut 512 (fld w 4 0) (x w k) k.ofs }) h hm hcut hop hi ((markO_within _ hn k).trans ?_) rfl⟩,
    fun hn => windowStep h hm hcut hop hi (markO_beyond _ hn k)⟩
  · rw [fSlot_mod_32, if_pos h0]
  · rw [fSlot_mod_32, if_neg h0]

/-- STF (R110, R114). -/
theorem stfStep (h : StandsAt g c w f k s) (hm : k.cycles + 2 ≤ 96) (hcut : meetsCut s g k.cycles (k.cycles + 2) = false)
    (hop : opOf w = 0x20) :
    (fSlot w < 8 → ∃ t, exec (.docStf g c) s = .next t ∧
      CoreMoves g c k { k with pc := (k.pc + 1) % 16384, cycles := k.cycles + 1, search := none } s t) ∧
    (8 ≤ fSlot w → ∃ t, exec (.docStf g c) s = .next t ∧ CoreMoves g c k { k with
      fv := sPut 0 (fSlot w) ((getG k (fGa w)).toNat % 65536) k.fv, pc := (k.pc + 1) % 16384, cycles := k.cycles + 1, search := none } s t) := by
  refine ⟨fun hn => plainStep h hm hcut hop rfl ?_ rfl,
    fun hn => plainStep (k' := { k with fv := sPut 0 (fSlot w) ((getG k (fGa w)).toNat % 65536) k.fv }) h hm hcut hop rfl ?_ rfl⟩
  · rw [setF, if_pos hn]
  · rw [setF, if_neg (Nat.not_lt.mpr hn)]

/-- STF2: a slot takes the register's upper half and the next slot its lower half (R114). -/
theorem stf2Step (h : StandsAt g c w f k s) (hm : k.cycles + 2 ≤ 96) (hcut : meetsCut s g k.cycles (k.cycles + 2) = false)
    (hop : opOf w = 0x21) : let a := getG k (fGa w)
    ∃ t k', exec (.docStf2 g c) s = .next t ∧ CoreMoves g c k k' s t ∧ k'.cycles = k.cycles + 1 ∧
      ∀ j, sGet 0 j k'.fv = if j < 8 then sGet 0 j k.fv else if j = fSlot w then a.toNat / 65536
        else if j = fSlot w + 1 then a.toNat % 65536 else sGet 0 j k.fv := by
  intro a
  refine ⟨_, _, rfl, docStep_goes h hop hm hcut (by decide) rfl, rfl, fun j => ?_⟩
  refine (sGet_setF (fSlot w + 1) a.toNat j _).trans ?_
  rw [sGet_setF]
  have ha : a.toNat / 65536 % 65536 = a.toNat / 65536 := Nat.mod_eq_of_lt (by have := a.isLt; omega)
  by_cases h8 : j < 8
  · rw [if_neg (by omega), if_neg (by omega), if_pos h8]
  · rw [if_neg h8]
    by_cases h0 : j = fSlot w
    · rw [if_neg (by omega), if_pos ⟨by omega, h0⟩, if_pos h0, ha]
    · rw [if_neg h0]
      by_cases h1 : j = fSlot w + 1
      · rw [if_pos ⟨by omega, h1⟩, if_pos h1]
      · rw [if_neg (fun e => h1 e.2), if_neg (fun e => h0 e.2), if_neg h1]

/-! ## CPF (R114) -/

/-- CPF as an outcome of its core. -/
def cpf (w : W32) (f : Frame) (k : CoreSt) : CoreRes :=
  let n := fGd w + 1
  match winBytes f (k.cursor + fFoff w) (2 * n) k with
  | none => .stop k 2 (if n ≤ 4 then 1 else 2)
  | some (bs, k') => .go (advPc (setSlots (fSlot w) n (fun j => beNat (slice bs (2 * j) 2)) k')) (if n ≤ 4 then 1 else 2)

theorem exec_docCpf (g : Gallery) (c : Core) (s : State) : exec (.docCpf g c) s = .next (docStep 0x22 (fun w f k _ => cpf w f k) g c s) := rfl

theorem cpf_within {w : W32} {f : Frame} {k : CoreSt} (h : k.cursor + fFoff w + 2 * (fGd w + 1) ≤ 256) :
    cpf w f k = .go (advPc (setSlots (fSlot w) (fGd w + 1)
      (fun j => beNat (slice (windowBytes f (k.cursor + fFoff w) (2 * (fGd w + 1))) (2 * j) 2))
      (readPast f (k.cursor + fFoff w + 2 * (fGd w + 1)) k))) (if fGd w + 1 ≤ 4 then 1 else 2) := by
  rw [cpf, winBytes_within h]

theorem cpf_beyond {w : W32} {f : Frame} {k : CoreSt} (h : 256 < k.cursor + fFoff w + 2 * (fGd w + 1)) :
    cpf w f k = .stop k 2 (if fGd w + 1 ≤ 4 then 1 else 2) := by
  rw [cpf, winBytes_beyond h]

/-- CPF copies pairs of window bytes to slots in succession. -/
theorem cpfStep (h : StandsAt g c w f k s) (hm : k.cycles + 2 ≤ 96) (hcut : meetsCut s g k.cycles (k.cycles + 2) = false)
    (hop : opOf w = 0x22) : let n := fGd w + 1
    let p := k.cursor + fFoff w
    (p + 2 * n ≤ 256 → ∃ t k', exec (.docCpf g c) s = .next t ∧ CoreMoves g c k k' s t ∧
      k'.cycles = k.cycles + (if n ≤ 4 then 1 else 2) ∧ k'.overread = (k.overread || decide (winLen f < p + 2 * n)) ∧
      ∀ j, sGet 0 j k'.fv = if 8 ≤ j ∧ fSlot w ≤ j ∧ j < fSlot w + n then
          (windowByte f (p + 2 * (j - fSlot w))).toNat * 256 + (windowByte f (p + 2 * (j - fSlot w) + 1)).toNat
        else sGet 0 j k.fv) ∧
    (256 < p + 2 * n → ∃ t, exec (.docCpf g c) s = .next t ∧ ParseEnds g c 2 (k.cycles + if n ≤ 4 then 1 else 2) f k s t) := by
  intro n p
  have hcyc : 0 < (if n ≤ 4 then 1 else 2) ∧ (if n ≤ 4 then 1 else 2) ≤ 2 := by split <;> decide
  refine ⟨fun hw => ⟨_, _, exec_docCpf g c s, docStep_goes h hop hm hcut hcyc (cpf_within hw), rfl, ?_, fun j => ?_⟩,
    fun hw => ⟨_, exec_docCpf g c s, docStep_stops h hop hm hcut hcyc (cpf_beyond hw)⟩⟩
  · rw [setSlots_rest]
    rfl
  · refine (sGet_setSlots (fSlot w) n _ _ j).trans ?_
    by_cases hj : 8 ≤ j ∧ fSlot w ≤ j ∧ j < fSlot w + n
    · rw [if_pos hj, if_pos hj, beNat_pair (by omega), Nat.mod_eq_of_lt (pair_lt _ _)]
    · rw [if_neg hj, if_neg hj]
      rfl

end

theorem claims_docentFields : Claims.DocentFields := by
  intro g c w f k s h hm hcut a goes window moves marks
  refine ⟨fun hop => cursorStep (x := fun w k => k.cursor + fOff w) h hm hcut hop rfl,
    fun hop => cursorStep (x := fun w k => k.cursor + (getG k (fGa w)).toNat % 512) h hm hcut hop rfl,
    fun hop => cursorStep (x := fun w k => (getG k (fGa w)).toNat % 512) h hm hcut hop rfl,
    fun hop => markStep (x := fun _ k => k.cursor) h hm hcut hop rfl,
    fun hop => markStep (x := fun w k => (getG k (fGa w)).toNat % 512) h hm hcut hop rfl,
    fun hop => plainStep (k' := { k with s := fOff w }) h hm hcut hop rfl rfl rfl,
    fun hop => stfStep h hm hcut hop, fun hop => stf2Step h hm hcut hop, fun hop => ?_⟩
  intro n p
  obtain ⟨hwithin, hbeyond⟩ := cpfStep h hm hcut hop
  refine ⟨fun hw => ?_, hbeyond⟩
  obtain ⟨t, k', ht, hmoves, hcyc, hover, hslots⟩ := hwithin hw
  refine ⟨t, k', ht, hmoves, hcyc, hover, fun j => (hslots j).trans ?_⟩
  rw [toNat_windowByte, toNat_windowByte]
  rfl

end Sys2Proof.Machine
end

section
/-!
SUPPORT. Branches, and MATCH with the search that waits for its copy of the match table (R114, R115, R118, R119): the second part of O29.
-/
namespace Sys2Proof.Machine

/-! ## Branches (R114, R115) -/

section
variable {g : Gallery} {c : Core} {w : W32} {f : Frame} {k : CoreSt} {s : State} {o : Nat}

/-- A branch goes to its target in 3 cycles where its condition holds, and else to the next word in 1. -/
theorem branchStep {i : Instr} {B : W32 → CoreSt → Bool} {yes : Bool} (h : StandsAt g c w f k s) (hm : k.cycles + 3 ≤ 96)
    (hcut : meetsCut s g k.cycles (k.cycles + 3) = false) (hop : opOf w = o)
    (hi : exec i s = .next (docStep o (fun w _ k _ => branchIf (B w k) w k) g c s)) (hb : B w k = yes) :
    ∃ t, exec i s = .next t ∧ CoreMoves g c k { k with
      pc := if yes then fld w 13 0 else (k.pc + 1) % 16384, cycles := k.cycles + if yes then 3 else 1, search := none } s t := by
  cases yes with
  | true =>
    exact ⟨_, hi, docStep_goes (F := fun w _ k _ => branchIf (B w k) w k) (k' := { k with pc := fTarget w }) (n := 3) h hop hm hcut
      (by decide) (if_pos hb)⟩
  | false =>
    exact ⟨_, hi, docStep_goes (F := fun w _ k _ => branchIf (B w k) w k) (k' := advPc k) (n := 1) h hop hm hcut (by decide)
      (if_neg (Bool.eq_false_iff.mp hb))⟩

end

theorem beq_toNat (x y : W32) : (x == y) = decide (x.toNat = y.toNat) := by
  rw [Bool.beq_eq_decide_eq]
  exact decide_eq_decide.mpr BitVec.toNat_inj.symm

theorem bne_toNat (x y : W32) : (x != y) = decide (x.toNat ≠ y.toNat) := by rw [bne, beq_toNat, decide_not]

/-! ## Searches of the match table (R119) -/

/-- From `s` to `t` only searches of cores and the copies' books of them change. -/
structure OnlySearches (s t : State) : Prop where
  rest : t = { s with doc := t.doc }
  cores : ∀ j, (sGet none j t.doc.cores).map (fun q => { q with search := none }) =
    (sGet none j s.doc.cores).map fun q => { q with search := none }

theorem OnlySearches.refl (s : State) : OnlySearches s s := ⟨rfl, fun _ => rfl⟩

theorem OnlySearches.after {s t u : State} (g : OnlySearches t u) (h : OnlySearches s t) : OnlySearches s u where
  rest := by rw [g.rest, h.rest]
  cores j := (g.cores j).trans (h.cores j)

theorem onlySearches_bookSearch (g t c : Nat) (s : State) : OnlySearches s (bookSearch g t c s) := by
  unfold bookSearch
  cases hk : coreOf s g c with
  | none => exact .refl s
  | some k =>
    refine ⟨rfl, fun j => ?_⟩
    refine (congrArg (Option.map _) (sGet_sPut none (168 * g + c) j _ s.doc.cores)).trans ?_
    by_cases hj : j = 168 * g + c
    · have hs : sGet none j s.doc.cores = some k := by rw [hj]; exact hk
      rw [if_pos hj, hs]
      rfl
    · rw [if_neg hj]

theorem onlySearches_issueMatch (g c : Nat) (s : State) : OnlySearches s (issueMatch g c s) := by
  unfold issueMatch
  split
  · exact .refl s
  · exact List.foldlRecOn (motive := OnlySearches s) _ _ (.refl s) fun _ ha _ _ => (onlySearches_bookSearch _ _ _ _).after ha

namespace OnlySearches
variable {s u : State}

theorem frames (h : OnlySearches s u) : u.frames = s.frames := (congrArg State.frames h.rest).trans rfl

theorem tab (h : OnlySearches s u) : u.tab = s.tab := (congrArg State.tab h.rest).trans rfl

theorem rd_eq (h : OnlySearches s u) (a : Nat) : rd u a = rd s a := (congrArg (rd · a) h.rest).trans rfl

theorem ctr_eq (h : OnlySearches s u) (a : Nat) : ctr u a = ctr s a := (congrArg (ctr · a) h.rest).trans rfl

theorem settled (h : OnlySearches (settle s) u) : settle u = u := settle_none u (by rw [h.tab, settle_merges])

theorem meetsCut_eq (h : OnlySearches s u) (g n m : Nat) : meetsCut u g n m = meetsCut s g n m := by
  rw [meetsCut, meetsCut, cutCycles, cutCycles, rf, h.rd_eq, ← rf, pressed_congr (h.rd_eq _) (h.rd_eq _) h.frames]

/-- A core keeps all but its search. -/
theorem core {g c : Nat} {k : CoreSt} (h : OnlySearches s u) (hk : coreOf s g c = some k) :
    ∃ x, coreOf u g c = some { k with search := x } := by
  have hc := h.cores (168 * g + c)
  rw [show sGet none (168 * g + c) s.doc.cores = some k from hk] at hc
  cases hq : sGet none (168 * g + c) u.doc.cores with
  | none => rw [hq] at hc; exact absurd hc (by simp)
  | some q =>
    rw [hq] at hc
    have hsame := Option.some.inj hc
    exact ⟨q.search, hq.trans (congrArg some (congrArg (fun p : CoreSt => { p with search := q.search }) hsame))⟩

/-- A core stands at its word also once its search is booked. -/
theorem standsAt {g c : Nat} {w : W32} {f : Frame} {k : CoreSt} {x : Option Nat} (h : OnlySearches (settle s) u)
    (hs : StandsAt g c w f k s) (hk : coreOf u g c = some { k with search := x }) : StandsAt g c w f { k with search := x } u where
  core := hk
  frame := (frameOf_congr (h.frames.trans (parseStays_settle s).frames) _).trans hs.frame
  reads := by
    rw [h.settled, readable, rdStat, eccOf, h.tab]
    exact hs.reads
  word := by
    rw [h.settled, tw, h.tab]
    exact hs.word
  legal := hs.legal
  running := hs.running

end OnlySearches

/-- The end of a parse does not depend on the core's search, and is told from any state with the same counts and longest parse. -/
theorem ParseEnds.of_search {g c code n : Nat} {f : Frame} {k : CoreSt} {x : Option Nat} {s u t : State}
    (h : ParseEnds g c code n f { k with search := x } u t)
    (hctr : ctr u (DOC_EXC_CNT g (excCounter code)) = ctr s (DOC_EXC_CNT g (excCounter code)))
    (hlong : rf u (DOC_CYC_STAT g) 22 16 = rf s (DOC_CYC_STAT g) 22 16) : ParseEnds g c code n f k s t where
  free := h.free
  frame := h.frame
  counted := by rw [← hctr]; exact h.counted
  longest := by rw [← hlong]; exact h.longest
  recorded := h.recorded

/-! ## MATCH (R118) -/

/-- Cycles of a MATCH: 4 and the wait for its copy (R115, R119). -/
def matchCycles (k : CoreSt) : Nat := 4 + (k.search.getD (k.start + k.cycles) - (k.start + k.cycles))

/-- MATCH as an outcome of its core, by the entry that cannot be read, the entry found and what the entries give. -/
def matchOutcome (bad found : Option Nat) (gives : Nat → W32) (w : W32) (k : CoreSt) : CoreRes :=
  match bad with
  | some _ => .stop k 4 (matchCycles k)
  | none =>
    match found with
    | some e =>
      if 511 < k.cursor + fld (gives e) 23 16 then .stop k 2 (matchCycles k)
      else .go { k with s := fld (gives e) 31 24, cursor := k.cursor + fld (gives e) 23 16, pc := fld (gives e) 13 0 } (matchCycles k)
    | none => .go { k with matchMiss := true, pc := fTarget w } (matchCycles k)

/-- MATCH on the match table of gallery `g`. -/
def matchRes (g : Nat) (w : W32) (k : CoreSt) (s : State) : CoreRes :=
  matchOutcome (matchBad s g) (matchFind s g k.s ((getG k (jGa w)).toNat % 65536)) (fun e => tw s (matchAddr g e + 8)) w k

theorem exec_docMatch (g : Gallery) (y : TableCopy) (x : CopyCore) (s : State) : exec (.docMatch g y x) s =
    .next (docStep 0x30 (fun w _ k s0 => matchRes g w k s0) g (copyCore y x) (issueMatch g (copyCore y x) (settle s))) := by
  show execDocMatch g y x s = _
  delta execDocMatch
  refine congrArg (fun F => Host.Outcome.next (docStep 0x30 F g (copyCore y x) (issueMatch g (copyCore y x) (settle s))))
    (funext fun w => funext fun _ => funext fun k => funext fun u => ?_)
  rw [matchRes]
  generalize matchBad u g = bad
  generalize matchFind u g k.s _ = found
  cases bad with
  | some _ => rfl
  | none => cases found <;> rfl

theorem matchRes_bad {g : Nat} {w : W32} {k : CoreSt} {s : State} (h : matchBad s g ≠ none) :
    matchRes g w k s = .stop k 4 (matchCycles k) := by
  obtain ⟨e, he⟩ := Option.ne_none_iff_exists'.mp h
  rw [matchRes, he]
  rfl

theorem matchRes_miss {g : Nat} {w : W32} {k : CoreSt} {s : State} (h : matchBad s g = none)
    (hf : matchFind s g k.s ((getG k (jGa w)).toNat % 65536) = none) :
    matchRes g w k s = .go { k with matchMiss := true, pc := fTarget w } (matchCycles k) := by
  rw [matchRes, h, hf]
  rfl

theorem matchRes_hit {g e : Nat} {w : W32} {k : CoreSt} {s : State} (h : matchBad s g = none)
    (hf : matchFind s g k.s ((getG k (jGa w)).toNat % 65536) = some e) :
    matchRes g w k s = if 511 < k.cursor + fld (tw s (matchAddr g e + 8)) 23 16 then .stop k 2 (matchCycles k)
      else .go { k with s := fld (tw s (matchAddr g e + 8)) 31 24, cursor := k.cursor + fld (tw s (matchAddr g e + 8)) 23 16,
                        pc := fld (tw s (matchAddr g e + 8)) 13 0 } (matchCycles k) := by
  rw [matchRes, h, hf]
  rfl

theorem meetsCut_issued {s u : State} (ho : OnlySearches (settle s) u) (g : Gallery) (n m : Nat) : meetsCut u g n m = meetsCut s g n m := by
  rw [ho.meetsCut_eq, (parseStays_settle s).meetsCut_eq]

section
variable {g : Gallery} {y : TableCopy} {x : CopyCore} {w : W32} {f : Frame} {k : CoreSt} {v : Option Nat} {s u : State}
  (hu : u = issueMatch g (copyCore y x) (settle s)) (h : StandsAt g (copyCore y x) w f k s) (hop : opOf w = 0x30)
  (hcore : coreOf u g (copyCore y x) = some { k with search := v })
  (hm : k.cycles + matchCycles { k with search := v } ≤ 96)
  (hcut : meetsCut s g k.cycles (k.cycles + matchCycles { k with search := v }) = false)
include hu h hop hcore hm hcut

/-- A search whose outcome goes on moves its core from the state in which the searches are booked. -/
theorem matchStep_goes {k' : CoreSt} (hF : matchRes g w { k with search := v } u = .go k' (matchCycles { k with search := v })) :
    ∃ t, exec (.docMatch g y x) s = .next t ∧
      CoreMoves g (copyCore y x) k { k' with cycles := k.cycles + matchCycles { k with search := v }, search := none } u t := by
  have ho : OnlySearches (settle s) u := hu ▸ onlySearches_issueMatch _ _ _
  refine ⟨_, exec_docMatch g y x s, ?_⟩
  rw [← hu]
  obtain ⟨hc, hfr, hoth, hrest⟩ := docStep_goes (F := fun w _ k s0 => matchRes g w k s0) (ho.standsAt h hcore) hop hm
    ((meetsCut_issued ho g _ _).trans hcut) ⟨by rw [matchCycles]; omega, le_rfl⟩ (by rw [ho.settled]; exact hF)
  exact ⟨hc, hfr, hoth, hrest⟩

/-- A search whose outcome stops ends the parse. -/
theorem matchStep_stops {code : Nat} (hF : matchRes g w { k with search := v } u =
      .stop { k with search := v } code (matchCycles { k with search := v })) :
    ∃ t, exec (.docMatch g y x) s = .next t ∧ ParseEnds g (copyCore y x) code (k.cycles + matchCycles { k with search := v }) f k s t := by
  have ho : OnlySearches (settle s) u := hu ▸ onlySearches_issueMatch _ _ _
  refine ⟨_, exec_docMatch g y x s, ?_⟩
  rw [← hu]
  have hends := docStep_stops (F := fun w _ k s0 => matchRes g w k s0) (ho.standsAt h hcore) hop hm
    ((meetsCut_issued ho g _ _).trans hcut) ⟨by rw [matchCycles]; omega, le_rfl⟩ (by rw [ho.settled]; exact hF)
  refine hends.of_search ?_ ?_
  · rw [ho.ctr_eq, (parseStays_settle s).excCount]
  · rw [rf, ho.rd_eq, ← rf, (parseStays_settle s).longest]

end

theorem claims_docentBranches : Claims.DocentBranches := by
  intro g c w f k s h hm hcut a b dest goes
  refine ⟨fun hop => branchStep h hm hcut hop (B := fun _ _ => true) rfl rfl,
    fun hop => branchStep h hm hcut hop (B := fun w k => getG k (jGa w) == getG k (jGb w)) rfl (beq_toNat _ _),
    fun hop => branchStep h hm hcut hop (B := fun w k => getG k (jGa w) != getG k (jGb w)) rfl (bne_toNat _ _),
    fun hop => branchStep h hm hcut hop (B := fun w k => decide ((getG k (jGa w)).toNat < (getG k (jGb w)).toNat)) rfl rfl,
    fun hop => branchStep h hm hcut hop (B := fun w k => decide ((getG k (jGb w)).toNat ≤ (getG k (jGa w)).toNat)) rfl rfl,
    fun hop => branchStep h hm hcut hop (B := fun w k => (getG k (jGa w)).toNat == fld w 21 14) rfl (Bool.beq_eq_decide_eq _ _),
    fun hop => branchStep h hm hcut hop (B := fun w k => (getG k (jGa w)).toNat != fld w 21 14) rfl ?_,
    fun hop => branchStep h hm hcut hop (B := fun w k => bit (getG k (jGa w)) (fld w 18 14)) rfl rfl, fun hop y x hyx => ?_⟩
  · rw [bne, Bool.beq_eq_decide_eq, decide_not]
  · subst hyx
    intro u at' n idle
    have ho : OnlySearches (settle s) u := onlySearches_issueMatch _ _ _
    have hstay := parseStays_settle s
    obtain ⟨v, hcore⟩ := ho.core ((coreOf_congr hstay.cores _ _).trans h.core)
    have hn : n = matchCycles { k with search := v } := by
      show 4 + (((coreOf u g (copyCore y x)).bind fun q => q.search).getD at' - at') = _
      rw [hcore]
      rfl
    refine ⟨ho.frames.trans hstay.frames, fun j => (ho.cores j).trans (by rw [hstay.cores]), fun hm' hcut' => ?_⟩
    rw [hn] at hm' hcut' ⊢
    refine ⟨fun hbad => matchStep_stops rfl h hop hcore hm' hcut' (matchRes_bad hbad), fun hbad => ⟨fun hmiss =>
      matchStep_goes rfl h hop hcore hm' hcut' (matchRes_miss hbad hmiss), fun e he => ?_⟩⟩
    have hhit := matchRes_hit (k := { k with search := v }) hbad he
    exact ⟨fun hcur => matchStep_goes rfl h hop hcore hm' hcut' (hhit.trans (if_neg (Nat.not_lt.mpr hcur))),
      fun hcur => matchStep_stops rfl h hop hcore hm' hcut' (hhit.trans (if_pos hcur))⟩

/-- Settles O29: an instruction changes its own part of the core, or the window's end stops the parse; a search is booked before its MATCH
runs, and booking changes searches alone. -/
theorem docentFieldsAndBranches : Obligations.DocentFieldsAndBranches := ⟨claims_docentFields, claims_docentBranches⟩

end Sys2Proof.Machine
end

section
/-!
SUPPORT. The ends of a parse (R113, R116, R121, R122, R134), and O30.
-/
namespace Sys2Proof.Machine

/-! ## Instructions that end the parse or that the cut catches (R113, R116, R122) -/

section
variable {g : Gallery} {c : Core} {w : W32} {f : Frame} {k : CoreSt} {s : State} {o : Nat} {F : W32 → Frame → CoreSt → State → CoreRes}

/-- An instruction that meets the cut leaves its core caught there: with its effect where it ends in that cycle, and else without. -/
theorem docStep_caught {k' : CoreSt} {n : Nat} (h : StandsAt g c w f k s) (hop : opOf w = o) (hcyc : k.cycles < 96)
    (hcut : meetsCut s g k.cycles (k.cycles + n) = true) (hF : F w f k (settle s) = .go k' n) :
    CoreMoves g c k { (if k.cycles + n = cutCycles s g then k' else k) with cycles := cutCycles s g, cut := true } s (docStep o F g c s) := by
  have hu := parseStays_fetched (storeAddr g k.pc) s
  rw [docStep_runs h hop hcyc, hF, applyRes_go_caught (by rw [hu.meetsCut_eq g]; exact hcut), hu.cutCycles_eq g]
  exact coreMoves_putCore hu fetched_good

/-- An instruction of one cycle that ends the parse ends it also in the cut's cycle. -/
theorem docStep_ends_one {code : Nat} (h : StandsAt g c w f k s) (hop : opOf w = o) (hm : k.cycles + 1 ≤ 96)
    (hF : F w f k (settle s) = .stop k code 1) : ParseEnds g c code (k.cycles + 1) f k s (docStep o F g c s) :=
  docStep_ends h hop ⟨by decide, hm⟩ (fun hcut => (cutCycles_of_meetsCut hcut).symm) hF

/-- NOP's event takes the words of reserved opcodes (R113). -/
theorem docStep_reserved (h : StandsAt g c w f k s) (hop : opListed (opOf w) = false) (hcyc : k.cycles < 96) :
    docStep 0 F g c s = applyRes g c k (.stop k 3 1) (fetched (storeAddr g k.pc) s) := by
  obtain ⟨hcore, hframe, hreads, hword, hlegal, hrun⟩ := h
  have hgo : (decide (96 ≤ k.cycles) || k.cut) = false := by simp [hrun, hcyc]
  have h0 : opOf w ≠ 0 := fun e => by rw [e] at hop; exact absurd hop (by decide)
  rcases rdStat_of_readable hreads with hst | hst
  · simp only [docStep, hcore, hframe, hgo, hst, hword, h0, hop, Bool.not_false, and_self, if_true, Bool.false_eq_true, if_false, fetched]
  · simp only [docStep, hcore, hframe, hgo, hst, hword, h0, hop, Bool.not_false, and_self, if_true, Bool.false_eq_true, if_false, fetched]

/-- NOP's event takes a word that cannot be read (R116). -/
theorem docStep_unreadable (hcore : coreOf s g c = some k) (hframe : frameOf s k.frame = some f) (hcyc : k.cycles < 96) (hrun : k.cut = false)
    (hreads : readable (settle s) (storeAddr g k.pc) = false) :
    docStep 0 F g c s = applyRes g c k (.stop k 4 1) (fetched (storeAddr g k.pc) s) := by
  have hgo : (decide (96 ≤ k.cycles) || k.cut) = false := by simp [hrun, hcyc]
  rcases rdStat_of_unreadable hreads with hst | hst
  · simp only [docStep, hcore, hframe, hgo, hst, Bool.false_eq_true, if_false, if_true, fetched]
  · simp only [docStep, hcore, hframe, hgo, hst, Bool.false_eq_true, if_false, if_true, fetched]

end

/-- An exception with an event sets it (R138). -/
theorem endParse_raises {g c code n b : Nat} {k : CoreSt} {f : Frame} {s : State} (h : frameOf s k.frame = some f) (h0 : code ≠ 0)
    (hev : ∀ v, excEvent g code v = raise (pageDOC g) b v) (hb : b < 32) :
    rb (endParse g c k code n s) (H_INT_STAT (pageDOC g)) b = true := by
  rw [endParse_eq code n h, if_neg h0, hev]
  exact rb_raise_self _ _ hb

/-- An instruction of one cycle that only ends the parse, with its event, in the state in which its word has been read. -/
theorem applyRes_exception {g : Gallery} {c : Core} {code b : Nat} {k : CoreSt} {f : Frame} {s u : State} (hu : ParseStays s u)
    (hf : frameOf s k.frame = some f) (hm : k.cycles + 1 ≤ 96) (h0 : code ≠ 0) (hev : ∀ v, excEvent g code v = raise (pageDOC g) b v)
    (hb : b < 32) : ParseEnds g c code (k.cycles + 1) f k s (applyRes g c k (.stop k code 1) u) ∧
      rb (applyRes g c k (.stop k code 1) u) (H_INT_STAT (pageDOC g)) b = true := by
  rw [applyRes_stop (fun hcut => (cutCycles_of_meetsCut hcut).symm) hm]
  exact ⟨parseEnds_endParse code _ hf hu, endParse_raises ((frameOf_congr hu.frames _).trans hf) h0 hev hb⟩

/-! ## The budget and the pressure cut (R121-R123) -/

theorem parseStays_judgePressure (g : Nat) (s : State) : ParseStays s (judgePressure g s) := by
  unfold judgePressure
  dsimp only
  split
  · exact (parseStays_raise (offChiplet_doc g) _ _).after (.of_ctrs .of_same)
  · exact .of_ctrs .of_same

theorem exec_budgetExpiry {g : Gallery} {c : Core} {k : CoreSt} {s : State} (hcore : coreOf s g c = some k) (hcyc : 96 ≤ k.cycles) :
    exec (.budgetExpiry g c) s = .next (endParse g c k 1 96 s) := by
  show execBudgetExpiry g c s = _
  rw [execBudgetExpiry, hcore]
  exact congrArg Host.Outcome.next (if_pos hcyc)

/-- Does a PRESSURE_CUT end the parse of a core (R122)? -/
def cutEnds (s : State) (g : Nat) (k : CoreSt) : Bool :=
  k.cut || (k.cycles == cutCycles s g && decide (cutCycles s g < 96) && pressed s g)

theorem exec_pressureCut {g : Gallery} {c : Core} {k : CoreSt} {s : State} (hcore : coreOf s g c = some k) : exec (.pressureCut g c) s =
    .next (if cutEnds s g k then endParse g c k 5 k.cycles (judgePressure g s) else judgePressure g s) := by
  show execPressureCut g c s = _
  have hc : coreOf (judgePressure g s) g c = some k := (coreOf_congr (parseStays_judgePressure g s).cores _ _).trans hcore
  rw [execPressureCut, hc]
  rfl

theorem cutEnds_iff {s : State} {g : Nat} {k : CoreSt} :
    cutEnds s g k = true ↔ k.cut = true ∨ k.cycles = cutCycles s g ∧ k.cycles < 96 ∧ pressed s g = true := by
  simp only [cutEnds, Bool.or_eq_true, Bool.and_eq_true, beq_iff_eq, decide_eq_true_eq, and_assoc]
  exact or_congr_right (and_congr_right fun e => by rw [e])

/-! ## Core faults (R134, R135) -/

/-- From `s` to `t` only `bus` changes, and neither a counter of a Docent nor a register of gallery `g`'s Docent between its header and its
pools. -/
structure PoolChanges (g : Nat) (s t : State) : Prop where
  bus : OnlyBus s t
  regs : ∀ x, 0x100 ≤ x → x < 0x120 → rd t (bar0 (pageDOC g) x) = rd s (bar0 (pageDOC g) x)
  ctrs : ∀ a, onDocent a → ctr t a = ctr s a

theorem PoolChanges.after {g : Nat} {s t u : State} (h' : PoolChanges g t u) (h : PoolChanges g s t) : PoolChanges g s u where
  bus := h'.bus.trans' h.bus
  regs x hx hx' := (h'.regs x hx hx').trans (h.regs x hx hx')
  ctrs a ha := (h'.ctrs a ha).trans (h.ctrs a ha)

theorem PoolChanges.refl (g : Nat) (s : State) : PoolChanges g s s := ⟨rfl, fun _ _ _ => rfl, fun _ _ => rfl⟩

theorem ParseEnds.over_pools {g : Gallery} {c code n : Nat} {f : Frame} {k : CoreSt} {s t u : State} (h : ParseEnds g c code n f k s t)
    (hp : PoolChanges g t u) : ParseEnds g c code n f k s u where
  free := (coreOf_congr (by rw [hp.bus.doc]) _ _).trans h.free
  frame := by
    obtain ⟨x, hx, hrest⟩ := h.frame
    exact ⟨x, (frameOf_congr hp.bus.frames _).trans hx, hrest⟩
  counted := (hp.ctrs _ (onDocent_excCnt g (by have := excCounter_lt code; omega))).trans h.counted
  longest hn := (congrArg (fld · 22 16) (hp.regs 0x10C (by decide) (by decide))).trans (h.longest hn)
  recorded h0 := (hp.regs 0x110 (by decide) (by decide)).trans (h.recorded h0)

theorem poolChanges_raise (g : Gallery) (b : Nat) (s : State) : PoolChanges g s (raise (pageDOC g) b s) where
  bus := raise_onlyBus _ _ _
  regs x hx hx' := rd_raise_beyond (beyondHeader_doc g hx (by omega)) _ _ s
  ctrs a ha := ctr_raise (cnt8_off_docent ha) (not_onLedger_of_onDocent ha) _ _ s

theorem poolChanges_reportFault (g p kind addr : Nat) (inj : Bool) (s : State) : PoolChanges g s (reportFault p kind addr inj s) :=
  ⟨reportFault_onlyBus _ _ _ _ _, fun _ _ _ => rd_reportFault _ _ _ _ _ _, fun _ _ => ctr_reportFault _ _ _ _ _ _⟩

theorem poolChanges_wf (g : Nat) {y : Nat} (hy : 0x120 ≤ y) (hi lo v : Nat) (s : State) :
    PoolChanges g s (wf (bar0 (pageDOC g) y) hi lo v s) :=
  ⟨rfl, fun x _ hx => rd_wf_ne _ _ _ _ (by simp only [bar0]; omega), fun _ _ => rfl⟩

theorem poolChanges_active (g c : Nat) (v : Bool) (s : State) : PoolChanges g s (setCoreBit DOC_CORE_ACTIVE g c v s) :=
  poolChanges_wf g (by omega) _ _ _ s

theorem poolChanges_fenced (g c : Nat) (v : Bool) (s : State) : PoolChanges g s (setCoreBit DOC_CORE_FENCED g c v s) :=
  poolChanges_wf g (by omega) _ _ _ s

theorem coreActive_set_same (g c : Nat) (v : Bool) (s : State) : coreActive (setCoreBit DOC_CORE_ACTIVE g c v s) g c = v := by
  rw [coreActive, setCoreBit, rb_wf_same _ _ _ _ (Nat.mod_lt _ (by decide))]
  cases v <;> rfl

theorem coreFenced_set_same (g c : Nat) (v : Bool) (s : State) : coreFenced (setCoreBit DOC_CORE_FENCED g c v s) g c = v := by
  rw [coreFenced, setCoreBit, rb_wf_same _ _ _ _ (Nat.mod_lt _ (by decide))]
  cases v <;> rfl

/-- A core's bit of a pool register is its own. -/
theorem coreActive_set_ne {g c d : Nat} (h : d ≠ c) (v : Bool) (s : State) :
    coreActive (setCoreBit DOC_CORE_ACTIVE g c v s) g d = coreActive s g d := by
  rw [coreActive, setCoreBit, coreActive]
  have hc : c % 32 < 32 := Nat.mod_lt _ (by decide)
  by_cases hw : d / 32 = c / 32
  · rw [hw]
    exact rb_wf_bit_ne _ _ _ _ _ _ (Nat.le_refl _) hc (by omega)
  · exact rb_wf_ne _ _ _ _ _ (by simp only [DOC_CORE_ACTIVE, bar0]; omega)

theorem coreFenced_setActive {g c d : Nat} (hc : c < 256) (v : Bool) (s : State) :
    coreFenced (setCoreBit DOC_CORE_ACTIVE g c v s) g d = coreFenced s g d :=
  rb_wf_ne _ _ _ _ _ (by simp only [DOC_CORE_ACTIVE, DOC_CORE_FENCED, bar0]; omega)

theorem coreActive_setFenced {g c d : Nat} (hd : d < 256) (v : Bool) (s : State) :
    coreActive (setCoreBit DOC_CORE_FENCED g c v s) g d = coreActive s g d :=
  rb_wf_ne _ _ _ _ _ (by simp only [DOC_CORE_ACTIVE, DOC_CORE_FENCED, bar0]; omega)

/-- The core fenced, out of the pool, and reported (R134). -/
def coreFallen (g c : Nat) (s : State) : State :=
  reportFault (pageDOC g) 0x05 c false (raise (pageDOC g) 1 (setCoreBit DOC_CORE_FENCED g c true (setCoreBit DOC_CORE_ACTIVE g c false s)))

/-- The healthy spare with the lowest number joins the pool, or none is left (R134, R135). -/
def spareJoins (g : Nat) (s : State) : State :=
  match firstBelow 168 fun x => !coreActive s g x && !coreFenced s g x with
  | some x => setCoreBit DOC_CORE_ACTIVE g x true s
  | none => raise (pageDOC g) 2 s

theorem coreFault_eq {g c : Nat} {k : CoreSt} {s : State} (hf : coreFenced s g c = false) (hk : coreOf s g c = some k) : coreFault g c s =
    if coreActive s g c then spareJoins g (coreFallen g c (endParse g c k 6 k.cycles s)) else coreFallen g c (endParse g c k 6 k.cycles s) := by
  rw [coreFault, hf, if_neg Bool.false_ne_true, hk]
  rfl

/-- A core out of service: fenced, not in the pool, its fault an event. -/
structure OutOfService (g c : Nat) (s : State) : Prop where
  fenced : coreFenced s g c = true
  idle : coreActive s g c = false
  event : rb s (H_INT_STAT (pageDOC g)) 1 = true

theorem rb_raise_beyond_doc (g : Gallery) {y : Nat} (hy : 0x100 ≤ y) (hy' : y < 0x10000) (p b i : Nat) (s : State) :
    rb (raise p b s) (bar0 (pageDOC g) y) i = rb s (bar0 (pageDOC g) y) i := rb_raise_beyond (beyondHeader_doc g hy hy') p b i s

theorem outOfService_coreFallen (g : Gallery) (c : Core) (s : State) : OutOfService g c (coreFallen g c s) where
  fenced := by
    rw [coreFallen, coreFenced, rb_reportFault, DOC_CORE_FENCED, rb_raise_beyond_doc g (by omega) (by omega)]
    exact coreFenced_set_same _ _ _ _
  idle := by
    rw [coreFallen, coreActive, rb_reportFault, DOC_CORE_ACTIVE, rb_raise_beyond_doc g (by omega) (by omega)]
    exact (coreActive_setFenced (by omega) _ _).trans (coreActive_set_same _ _ _ _)
  event := by
    rw [coreFallen, rb_reportFault]
    exact rb_raise_self _ _ (by decide)

theorem poolChanges_coreFallen (g : Gallery) (c : Nat) (s : State) : PoolChanges g s (coreFallen g c s) :=
  (poolChanges_reportFault _ _ _ _ _ _).after <| (poolChanges_raise g _ _).after <|
    (poolChanges_fenced _ _ _ _).after (poolChanges_active _ _ _ _)

/-- A fenced core is no spare. -/
theorem spareJoins_keeps {g : Gallery} {c : Core} {s : State} (h : OutOfService g c s) :
    OutOfService g c (spareJoins g s) ∧ PoolChanges g s (spareJoins g s) := by
  unfold spareJoins
  cases hx : firstBelow 168 fun x => !coreActive s g x && !coreFenced s g x with
  | none =>
    refine ⟨⟨?_, ?_, rb_raise_of_set (by decide) h.event⟩, poolChanges_raise g _ _⟩
    · dsimp only
      rw [coreFenced, DOC_CORE_FENCED, rb_raise_beyond_doc g (by omega) (by omega)]
      exact h.fenced
    · dsimp only
      rw [coreActive, DOC_CORE_ACTIVE, rb_raise_beyond_doc g (by omega) (by omega)]
      exact h.idle
  | some x =>
    have hlt : x < 168 := List.mem_range.mp (List.mem_of_find?_eq_some hx)
    have hne : c.val ≠ x := fun e => by
      have hp := List.find?_some hx
      rw [← e, h.fenced] at hp
      simp at hp
    refine ⟨⟨(coreFenced_setActive (by omega) _ _).trans h.fenced, (coreActive_set_ne hne _ _).trans h.idle, ?_⟩,
      poolChanges_active _ _ _ _⟩
    refine (rb_wf_ne _ _ _ _ _ ?_).trans h.event
    simp only [H_INT_STAT, DOC_CORE_ACTIVE, bar0]
    omega

/-- A core fault ends the parse with CORE_FAULT and takes the core out of service. -/
theorem docentCoreFault_ends {g : Gallery} {c : Core} {k : CoreSt} {f : Frame} {s : State} (hcore : coreOf s g c = some k)
    (hframe : frameOf s k.frame = some f) (hf : coreFenced s g c = false) :
    ∃ t, exec (.docentCoreFault g c) s = .next t ∧ ParseEnds g c 6 k.cycles f k s t ∧ OutOfService g c t := by
  have hends : ParseEnds g c 6 k.cycles f k s (endParse g c k 6 k.cycles s) := parseEnds_endParse 6 _ hframe (.refl s)
  have hfallen := outOfService_coreFallen g c (endParse g c k 6 k.cycles s)
  have hparse := hends.over_pools (poolChanges_coreFallen g c _)
  refine ⟨coreFault g c s, rfl, ?_⟩
  rw [coreFault_eq hf hcore]
  split
  · obtain ⟨hout, hpool⟩ := spareJoins_keeps hfallen
    exact ⟨hparse.over_pools hpool, hout⟩
  · exact ⟨hparse, hfallen⟩

/-! ## The settled statement -/

/-- Settles O30: an end within the budget is one `endParse` in a state with the frame, the counters and the registers as they stood, and the
cut catches a core with the instruction's effect only where that ends in the cut's cycle. -/
theorem parseEndings : Obligations.ParseEndings := by
  intro g c f k s hcore hframe
  refine ⟨fun w h hm => ⟨fun hop => ⟨fun hcut => ?_, fun hcut => ?_⟩, fun hop hcut hlt => ?_, fun hop => ?_, fun hop => ?_,
    fun hop => ?_⟩,
    fun hm hrun hreads => ?_, fun hcyc => ?_, fun hcut => ?_, fun hrun hcyc => ?_, fun hf => ?_⟩
  · exact ⟨_, rfl, docStep_goes (F := fun _ _ k _ => .go (advPc k) 1) (n := 1) h hop hm hcut (by decide) rfl⟩
  · have hc := cutCycles_of_meetsCut hcut
    have hmove := docStep_caught (F := fun _ _ k _ => .go (advPc k) 1) h hop (by omega) hcut rfl
    rw [if_pos hc.symm, hc] at hmove
    exact ⟨_, rfl, hmove⟩
  · have hmove := docStep_caught (F := fun w _ k _ => branchIf true w k) (n := 3) h hop (by omega) hcut rfl
    rw [if_neg (by omega)] at hmove
    exact ⟨_, rfl, hmove⟩
  · exact ⟨_, rfl, docStep_ends_one h hop hm rfl⟩
  · exact ⟨_, rfl, docStep_ends_one h hop hm rfl⟩
  · have hstop := applyRes_exception (g := g) (c := c) (code := 3) (b := 4) (parseStays_fetched (storeAddr g k.pc) s) hframe hm (by decide)
      (fun _ => rfl) (by decide)
    exact ⟨_, congrArg Host.Outcome.next (docStep_reserved h hop (by omega)), hstop⟩
  · have hstop := applyRes_exception (g := g) (c := c) (code := 4) (b := 0) (parseStays_fetched (storeAddr g k.pc) s) hframe hm (by decide)
      (fun _ => rfl) (by decide)
    exact ⟨_, congrArg Host.Outcome.next (docStep_unreadable hcore hframe (by omega) hrun hreads), hstop⟩
  · exact ⟨_, exec_budgetExpiry hcore hcyc.ge, parseEnds_endParse 1 96 hframe (.refl s),
      endParse_raises hframe (by decide) (fun _ => rfl) (by decide)⟩
  · exact ⟨_, (exec_pressureCut hcore).trans (congrArg Host.Outcome.next (if_pos (cutEnds_iff.mpr hcut))),
      parseEnds_endParse 5 _ hframe (parseStays_judgePressure g s)⟩
  · have hno : ¬cutEnds s g k = true := fun e => (cutEnds_iff.mp e).elim (fun h => absurd (hrun.symm.trans h) Bool.false_ne_true)
      fun h => hcyc h.1
    have hstay := parseStays_judgePressure g s
    exact ⟨_, (exec_pressureCut hcore).trans (congrArg Host.Outcome.next (if_neg hno)),
      (coreOf_congr hstay.cores _ _).trans hcore, hstay.frames⟩
  · obtain ⟨t, ht, hends, hfenced, hidle, hevent⟩ := docentCoreFault_ends hcore hframe hf
    exact ⟨t, ht, hends, hfenced, hidle, hevent⟩

end Sys2Proof.Machine
end

section
/-!
SUPPORT. Dispatch and the reorder ring (R43, R103-R105, R109, R124, R125), and O31.
-/
namespace Sys2Proof.Machine

/-! ## The one frame with a number -/

/-- `x` is the one frame of `s` with number `id`. -/
structure OnlyFrame (s : State) (id : Nat) (x : Frame) : Prop where
  mem : x ∈ s.frames
  num : x.id = id
  only : ∀ y, y ∈ s.frames → y.id = id → y = x

theorem OnlyFrame.frameOf_eq {s : State} {id : Nat} {x : Frame} (h : OnlyFrame s id x) : frameOf s id = some x := by
  rw [frameOf]
  cases hf : s.frames.find? fun f => f.id == id with
  | none => exact absurd h.num (by simpa using List.find?_eq_none.mp hf x h.mem)
  | some y => rw [h.only y (List.mem_of_find?_eq_some hf) (by simpa using List.find?_some hf)]

theorem OnlyFrame.congr {s t : State} {id : Nat} {x : Frame} (h : OnlyFrame s id x) (hf : t.frames = s.frames) : OnlyFrame t id x :=
  ⟨by rw [hf]; exact h.mem, h.num, by rw [hf]; exact h.only⟩

theorem onlyFrame_putFrame {s : State} {f y : Frame} (hy : y ∈ s.frames) (hid : y.id = f.id) : OnlyFrame (putFrame f s) f.id f where
  mem := List.mem_map.mpr ⟨y, hy, if_pos hid⟩
  num := rfl
  only z hz hzid := by
    obtain ⟨x, -, rfl⟩ := List.mem_map.mp hz
    by_cases hx : x.id = f.id
    · exact if_pos hx
    · rw [if_neg hx] at hzid
      exact absurd hzid hx

theorem OnlyFrame.putFrame_ne {s : State} {id : Nat} {f x : Frame} (h : OnlyFrame s id x) (hid : f.id ≠ id) :
    OnlyFrame (putFrame f s) id x where
  mem := List.mem_map.mpr ⟨x, h.mem, if_neg fun e => hid (e.symm.trans h.num)⟩
  num := h.num
  only z hz hzid := by
    obtain ⟨y, hy, rfl⟩ := List.mem_map.mp hz
    by_cases hyf : y.id = f.id
    · rw [if_pos hyf] at hzid
      exact absurd hzid hid
    · rw [if_neg hyf] at hzid ⊢
      exact h.only y hy hzid

theorem mem_of_frameOf {s : State} {id : Nat} {f : Frame} (h : frameOf s id = some f) : f ∈ s.frames := List.mem_of_find?_eq_some h

/-! ## One dispatch (R103-R105, R109) -/

theorem headOfPort_held {s : State} {i : Nat} {f : Frame} (h : headOfPort s i = some f) : f ∈ s.frames ∧ f.stage = .hold := by
  unfold headOfPort at h
  split at h
  · rename_i x hx
    split at h
    · obtain rfl := Option.some.inj h
      have hp := List.find?_some hx
      simp only [Bool.and_eq_true, beq_iff_eq] at hp
      exact ⟨List.mem_of_find?_eq_some hx, hp.2⟩
    · exact absurd h (by simp)
  · exact absurd h (by simp)

theorem freeCore_none {s : State} {g c : Nat} (h : freeCore s g = some c) : coreOf s g c = none := by
  have hp := List.find?_some h
  simp only [Bool.and_eq_true, Option.isNone_iff_eq_none] at hp
  exact hp.2

/-- A core at the start of a frame's parse (R105, R109). -/
def startCore (g i : Nat) (f : Frame) (s : State) : CoreSt :=
  { frame := f.id, pc := fld (rd s (DOC_PORT_CFG g (portIndex i))) 29 16, cursor := 0, s := fld (rd s (DOC_PORT_CFG g (portIndex i))) 7 0,
    g := [], fv := dispatchSlots f s.prv.c, ofs := [(0, 0)], overread := false, matchMiss := false, ckBad := false, cycles := 0,
    start := s.time.clock, search := none, cut := false }

/-- A frame as dispatch to a core makes it. -/
def startFrame (g : Nat) (f : Frame) (s : State) : Frame :=
  { f with stage := .core, fv := dispatchSlots f s.prv.c, ofs := [(0, 0)], defAct := !wingOn s (galWing s g) }

/-- A direct inject as its dispatch makes it (R43). -/
def directFrame (f : Frame) : Frame := { f with stage := .lookup, defAct := true }

section
variable {g i c : Nat} {f : Frame} {s : State} (hport : nextPort s g = some i) (hhead : headOfPort s i = some f)
include hport hhead

theorem dispatchOne_direct (hd : f.direct.isSome = true) : dispatchOne g s = stampFrame g i (directFrame f) s := by
  rw [dispatchOne, hport]
  dsimp only
  rw [hhead]
  exact if_pos hd

theorem dispatchOne_parsed (hd : f.direct = none) : dispatchOne g s = match freeCore s g with
    | none => s
    | some c => if ringUsed s g < 512 then stampFrame g i (startFrame g f s) (putCore g c (some (startCore g i f s)) s) else s := by
  rw [dispatchOne, hport]
  dsimp only
  rw [hhead]
  refine (if_neg (by simp [hd])).trans ?_
  cases freeCore s g <;> rfl

theorem dispatchOne_starts (hd : f.direct = none) (hcore : freeCore s g = some c) (hring : ringUsed s g < 512) :
    dispatchOne g s = stampFrame g i (startFrame g f s) (putCore g c (some (startCore g i f s)) s) := by
  rw [dispatchOne_parsed hport hhead hd, hcore]
  exact if_pos hring

end

/-- With no free core, or no free place in the ring, nothing but a direct inject can go. -/
theorem dispatchOne_full {g : Nat} {s : State} (hfull : freeCore s g = none ∨ 512 ≤ ringUsed s g)
    (hd : ∀ i f, nextPort s g = some i → headOfPort s i = some f → f.direct = none) : dispatchOne g s = s := by
  cases hport : nextPort s g with
  | none => rw [dispatchOne, hport]
  | some i =>
    cases hhead : headOfPort s i with
    | none => rw [dispatchOne, hport]; dsimp only; rw [hhead]
    | some f =>
      rw [dispatchOne_parsed hport hhead (hd i f hport hhead)]
      cases hcore : freeCore s g with
      | none => rfl
      | some c => exact if_neg (Nat.not_lt.mpr (hfull.resolve_left (by simp [hcore])))

/-- What one dispatch does: nothing, or a held frame of some port stamped, with a free core given to it or none. -/
theorem dispatchOne_cases (g : Nat) (s : State) : dispatchOne g s = s ∨ ∃ i f f' u, f ∈ s.frames ∧ f.stage = .hold ∧ f'.id = f.id ∧
    (u = s ∨ ∃ c k, coreOf s g c = none ∧ u = putCore g c (some k) s) ∧ dispatchOne g s = stampFrame g i f' u := by
  cases hport : nextPort s g with
  | none => left; rw [dispatchOne, hport]
  | some i =>
    cases hhead : headOfPort s i with
    | none => left; rw [dispatchOne, hport]; dsimp only; rw [hhead]
    | some f =>
      obtain ⟨hmem, hhold⟩ := headOfPort_held hhead
      cases hd : f.direct with
      | some d => exact .inr ⟨i, f, directFrame f, s, hmem, hhold, rfl, .inl rfl, dispatchOne_direct hport hhead (by rw [hd]; rfl)⟩
      | none =>
        cases hcore : freeCore s g with
        | none => left; rw [dispatchOne_parsed hport hhead hd, hcore]
        | some c =>
          by_cases hring : ringUsed s g < 512
          · exact .inr ⟨i, f, startFrame g f s, _, hmem, hhold, rfl, .inr ⟨c, _, freeCore_none hcore, rfl⟩,
              dispatchOne_starts hport hhead hd hcore hring⟩
          · left
            rw [dispatchOne_parsed hport hhead hd, hcore]
            exact if_neg hring

/-! ## What later dispatches of the clock leave (R24) -/

/-- From `s` to `t` the frames that are no longer held and the busy cores of gallery `g` stay, the current epoch stays, and no drain count
falls. -/
structure DispatchKeeps (g : Nat) (s t : State) : Prop where
  frames : ∀ id x, OnlyFrame s id x → x.stage ≠ .hold → OnlyFrame t id x
  cores : ∀ c k, coreOf s g c = some k → coreOf t g c = some k
  epoch : t.prv.c = s.prv.c
  drain : ∀ e, sGet 0 e s.prv.drain ≤ sGet 0 e t.prv.drain

theorem DispatchKeeps.after {g : Nat} {s t u : State} (h' : DispatchKeeps g t u) (h : DispatchKeeps g s t) : DispatchKeeps g s u where
  frames id x hx hs := h'.frames id x (h.frames id x hx hs) hs
  cores c k hk := h'.cores c k (h.cores c k hk)
  epoch := h'.epoch.trans h.epoch
  drain e := (h.drain e).trans (h'.drain e)

theorem DispatchKeeps.refl (g : Nat) (s : State) : DispatchKeeps g s s := ⟨fun _ _ h _ => h, fun _ _ h => h, rfl, fun _ => le_rfl⟩

theorem drain_stampFrame (g i : Nat) (f : Frame) (s : State) (e : Nat) : sGet 0 e (stampFrame g i f s).prv.drain =
    if e = s.prv.c then sGet 0 s.prv.c s.prv.drain + 1 else sGet 0 e s.prv.drain := sGet_sPut _ _ _ _ _

theorem onlyFrame_stampFrame (g i : Nat) {f y : Frame} {s : State} (hy : y ∈ s.frames) (hid : y.id = f.id) :
    OnlyFrame (stampFrame g i f s) f.id { f with gal := g, seq := s.nextSeq, epoch := s.prv.c } :=
  (onlyFrame_putFrame (f := { f with gal := g, seq := s.nextSeq, epoch := s.prv.c }) hy hid).congr rfl

theorem dispatchKeeps_dispatchOne (g : Nat) (s : State) : DispatchKeeps g s (dispatchOne g s) := by
  obtain hs | ⟨i, f, f', u, hmem, hhold, hid, hu, hs⟩ := dispatchOne_cases g s
  · rw [hs]
    exact .refl g s
  · have hframes : u.frames = s.frames ∧ u.prv = s.prv := by
      obtain rfl | ⟨c, k, -, rfl⟩ := hu <;> exact ⟨rfl, rfl⟩
    rw [hs]
    refine ⟨fun id x hx hstage => ?_, fun c k hk => ?_, (congrArg (·.c) hframes.2 : u.prv.c = s.prv.c), fun e => ?_⟩
    · have hne : f'.id ≠ id := fun e => hstage ((hx.only f hmem (hid.symm.trans e)) ▸ hhold)
      exact ((hx.congr hframes.1).putFrame_ne (f := { f' with gal := g, seq := u.nextSeq, epoch := u.prv.c }) hne).congr rfl
    · show coreOf u g c = some k
      obtain rfl | ⟨d, q, hfree, rfl⟩ := hu
      · exact hk
      · have hcd : c ≠ d := fun e => by rw [e, hfree] at hk; exact absurd hk (by simp)
        exact (cores_putCore_ne _ _ (by omega)).trans hk
    · rw [drain_stampFrame, hframes.2]
      split
      · rename_i he
        rw [he]
        exact Nat.le_succ _
      · exact le_rfl

theorem judgePressure_prv (g : Nat) (s : State) : (judgePressure g s).prv = s.prv := by
  unfold judgePressure
  dsimp only
  split
  · exact (raise_onlyBus _ _ _).prv
  · rfl

theorem dispatchKeeps_judgePressure (g : Nat) (s : State) : DispatchKeeps g s (judgePressure g s) where
  frames _ _ hx _ := hx.congr (parseStays_judgePressure g s).frames
  cores _ _ hk := (coreOf_congr (parseStays_judgePressure g s).cores _ _).trans hk
  epoch := by rw [judgePressure_prv]
  drain _ := by rw [judgePressure_prv]

/-! ## DISPATCH -/

theorem exec_dispatch_may {g : Gallery} {s : State} (h : mayDispatch s g = true) : exec (.dispatch g) s =
    .next (judgePressure g (dispatchOne g (dispatchOne g (dispatchOne g (dispatchOne g s))))) := congrArg Host.Outcome.next (if_pos h)

/-- What the first dispatch of the clock leaves stands at the clock's end. -/
theorem exec_dispatch_keeps {g : Gallery} {s : State} (h : mayDispatch s g = true) :
    ∃ t, exec (.dispatch g) s = .next t ∧ DispatchKeeps g (dispatchOne g s) t :=
  ⟨_, exec_dispatch_may h, (dispatchKeeps_judgePressure g _).after <| (dispatchKeeps_dispatchOne g _).after <|
    (dispatchKeeps_dispatchOne g _).after (dispatchKeeps_dispatchOne g _)⟩

/-- Slot F0 holds the frame's input port (R109). -/
theorem getF_startCore (g i : Nat) (f : Frame) (s : State) : getF 0 (startCore g i f s) = f.port := by
  simp [getF, startCore, dispatchSlots, sGet_sPut]

theorem claims_dispatchStartsParse : Claims.DispatchStartsParse := by
  intro g s
  refine ⟨fun h => congrArg Host.Outcome.next (if_neg (by simp [h])), fun hmay hfull hd => ?_,
    fun i c f hmay hport hcore hhead hring hf hd => ?_,
    fun i f hmay hport hhead hf hd => ?_⟩
  · have hone := dispatchOne_full hfull hd
    refine ⟨_, exec_dispatch_may hmay, ?_⟩
    rw [hone, hone, hone, hone]
    exact ⟨(parseStays_judgePressure g s).frames, judgePressure_prv g s⟩
  · obtain ⟨t, ht, hkeeps⟩ := exec_dispatch_keeps hmay
    have hone := dispatchOne_starts hport hhead hd hcore hring
    have hx := onlyFrame_stampFrame g i (f := startFrame g f s) (s := putCore g c (some (startCore g i f s)) s) (mem_of_frameOf hf) rfl
    rw [← hone] at hx
    have hk : coreOf (dispatchOne g s) g c = some (startCore g i f s) := by
      rw [hone]
      exact coreOf_putCore g c _ s
    have hdrain : sGet 0 s.prv.c (dispatchOne g s).prv.drain = sGet 0 s.prv.c s.prv.drain + 1 := by
      rw [hone]
      exact (drain_stampFrame _ _ _ _ _).trans (if_pos rfl)
    have hepoch : (dispatchOne g s).prv.c = s.prv.c := by rw [hone]; rfl
    exact ⟨t, _, _, ht, hkeeps.cores _ _ hk, (hkeeps.frames _ _ hx (by simp [startFrame])).frameOf_eq, rfl, rfl, rfl, rfl, rfl, rfl,
      getF_startCore g i f s, rfl, rfl, rfl, rfl, rfl, Nat.lt_of_lt_of_le (by rw [hdrain]; exact Nat.lt_succ_self _) (hkeeps.drain _),
      hkeeps.epoch.trans hepoch⟩
  · obtain ⟨t, ht, hkeeps⟩ := exec_dispatch_keeps hmay
    have hone := dispatchOne_direct hport hhead hd
    have hx := onlyFrame_stampFrame g i (f := directFrame f) (s := s) (mem_of_frameOf hf) rfl
    rw [← hone] at hx
    have hepoch : (dispatchOne g s).prv.c = s.prv.c := by rw [hone]; rfl
    exact ⟨t, _, ht, (hkeeps.frames _ _ hx (by simp [directFrame])).frameOf_eq, rfl, rfl, rfl, rfl, rfl, rfl, hkeeps.epoch.trans hepoch⟩

/-! ## The reorder ring (R125) -/

/-- The older of a frame found so far and another, by order of dispatch. -/
def older (b : Option Frame) (f : Frame) : Option Frame :=
  match b with
  | some x => if f.seq < x.seq then some f else b
  | none => some f

theorem older_cases (b : Option Frame) (f : Frame) : older b f = b ∨ older b f = some f := by
  unfold older
  split
  · split
    · exact .inr rfl
    · exact .inl rfl
  · exact .inr rfl

theorem mem_of_foldl_older {f : Frame} : ∀ (l : List Frame) (b : Option Frame), l.foldl older b = some f → b = some f ∨ f ∈ l
  | [], _, h => .inl h
  | x :: r, b, h => by
    rcases mem_of_foldl_older r (older b x) h with hb | hr
    · rcases older_cases b x with e | e
      · exact .inl (e.symm.trans hb)
      · exact .inr (by rw [Option.some.inj (e.symm.trans hb)]; exact List.mem_cons_self ..)
    · exact .inr (List.mem_cons_of_mem _ hr)

theorem releasable_spec {s : State} {g : Nat} {f : Frame} (h : releasable s g = some f) : f ∈ s.frames ∧ f.stage = .ring ∧ f.gal = g ∧
    ∀ x, x ∈ s.frames → x.gal = g → x.port = f.port → x.stage = .core ∨ x.stage = .ring → f.seq ≤ x.seq := by
  rcases mem_of_foldl_older _ none h with hn | hm
  · exact absurd hn (by simp)
  · obtain ⟨hmem, hp⟩ := List.mem_filter.mp hm
    simp only [Bool.and_eq_true, beq_iff_eq, Bool.not_eq_true', List.any_eq_false, decide_eq_true_eq, Bool.or_eq_true] at hp
    obtain ⟨⟨hgal, hstage⟩, hfirst⟩ := hp
    exact ⟨hmem, hstage, hgal, fun x hx hg hport hst => Nat.not_lt.mp fun hlt => hfirst x hx ⟨⟨⟨hg, hport⟩, hlt⟩, hst⟩⟩

theorem releaseOne_some {s : State} {g : Nat} {f : Frame} (h : releasable s g = some f) :
    releaseOne g s = putFrame { f with stage := .lookup } s := by
  rw [releaseOne, h]

theorem releaseOne_none {s : State} {g : Nat} (h : releasable s g = none) : releaseOne g s = s := by rw [releaseOne, h]

/-- A release changes frames alone. -/
theorem releaseOne_rest (g : Nat) (s : State) : releaseOne g s = { s with frames := (releaseOne g s).frames } := by
  cases h : releasable s g with
  | none => rw [releaseOne_none h]
  | some f => rw [releaseOne_some h]; rfl

/-- A frame that has left the ring stays as it is. -/
theorem onlyFrame_releaseOne {g id : Nat} {x : Frame} {s : State} (hx : OnlyFrame s id x) (hstage : x.stage ≠ .ring) :
    OnlyFrame (releaseOne g s) id x := by
  cases h : releasable s g with
  | none => rw [releaseOne_none h]; exact hx
  | some f =>
    obtain ⟨hmem, hring, -⟩ := releasable_spec h
    rw [releaseOne_some h]
    exact hx.putFrame_ne fun e => hstage ((hx.only f hmem e) ▸ hring)

/-- The releases of one clock change frames alone. -/
theorem releases_rest (g : Nat) (s : State) : ∃ l, releaseOne g (releaseOne g (releaseOne g (releaseOne g s))) = { s with frames := l } := by
  have next : ∀ u : State, (∃ l, u = { s with frames := l }) → ∃ l, releaseOne g u = { s with frames := l } := by
    rintro _ ⟨l, rfl⟩
    exact ⟨_, releaseOne_rest g _⟩
  exact next _ (next _ (next _ (next s ⟨s.frames, rfl⟩)))

/-! ## DOC_CYC_STAT_READ -/

theorem pageGallery_doc (part : OrderCode) (g : Gallery) :
    pageGallery part (pageDOC g) = some g.val ∨ pageGallery part (pageDOC g) = none := by
  cases part <;> revert g <;> decide

theorem regsBut_wakeGal (g : Nat) (s : State) : RegsBut [GAL_STAT g, PWR_GAL_STAT] s (wakeGal g s) := by
  have hramp : ∀ u, RegsBut [PWR_GAL_STAT] u (endRamp g u) := fun u => by
    unfold endRamp
    split
    · exact regsBut_wf _ _ _ _ _
    · exact fun _ _ => rfl
  unfold wakeGal
  split
  · refine (((regsBut_wf _ _ _ _ _).trans (regsBut_wf _ _ _ _ _)).trans (hramp _)).mono ?_
    simp
  · exact fun _ _ => rfl

theorem regsBut_noteAccess_doc (g : Gallery) {x : Nat} (hx : x < 0x10000) (s : State) :
    RegsBut [GAL_STAT g, PWR_GAL_STAT] s (noteAccess (bar0 (pageDOC g) x) s) := by
  unfold noteAccess
  split
  · exact fun _ _ => rfl
  · rw [page_bar0 _ hx]
    rcases pageGallery_doc s.part g with h | h
    · rw [h]
      exact regsBut_wakeGal g s
    · rw [h]
      exact fun _ _ => rfl

theorem docCycStatRead_clears {g : Gallery} {s : State} (ho : reach s (DOC_CYC_STAT g) = .open) :
    ∃ t, exec (.docCycStatRead g) s = .next t ∧ rf t (DOC_CYC_STAT g) 22 16 = 0 ∧
      RegsBut [DOC_CYC_STAT g, GAL_STAT g, PWR_GAL_STAT] s t ∧ CtrsBut [] s t := by
  have hexec : exec (.docCycStatRead g) s = .next (wf (DOC_CYC_STAT g) 22 16 0
      (answer (rd (noteAccess (DOC_CYC_STAT g) s) (DOC_CYC_STAT g)).toNat (noteAccess (DOC_CYC_STAT g) s))) :=
    congrArg Host.Outcome.next (hostAsk_open _ ho)
  have hregs : RegsBut [GAL_STAT g, PWR_GAL_STAT] s (noteAccess (DOC_CYC_STAT g) s) := regsBut_noteAccess_doc g (by decide) s
  have hctrs := (noteAccess_counters (DOC_CYC_STAT g) s).1
  generalize noteAccess (DOC_CYC_STAT g) s = u at hexec hregs hctrs
  have hanswer : ∀ n, RegsBut [] u (answer n u) := fun _ _ _ => rfl
  refine ⟨_, hexec, rf_wf_same _ _ _ _ _ (by decide) (by decide), ?_, ctrsBut_of_same hctrs []⟩
  refine ((hregs.trans (hanswer _)).trans (regsBut_wf _ _ _ _ _)).mono ?_
  simp

/-! ## The settled statement -/

theorem claims_reorderReleasesInOrder : Claims.ReorderReleasesInOrder := by
  intro g s
  refine ⟨?_, fun f h => (releasable_spec h).2, docCycStatRead_clears⟩
  obtain ⟨l, hl⟩ := releases_rest g s
  refine ⟨_, rfl, by rw [hl], fun a _ => by rw [hl]; rfl, fun a _ _ => by rw [hl]; rfl, fun f h hf => ?_, fun h => ?_⟩
  · have hx : OnlyFrame (releaseOne g s) f.id { f with stage := .lookup } := by
      rw [releaseOne_some h]
      exact onlyFrame_putFrame (f := { f with stage := .lookup }) (mem_of_frameOf hf) rfl
    exact (onlyFrame_releaseOne (onlyFrame_releaseOne (onlyFrame_releaseOne hx (by simp)) (by simp)) (by simp)).frameOf_eq
  · have hone := releaseOne_none h
    rw [hone, hone, hone, hone]

/-- Settles O31: a frame once dispatched or released is no longer held or in the ring, so the further dispatches and releases of the clock
pass it by. -/
theorem dispatchAndReorder : Obligations.DispatchAndReorder := ⟨claims_dispatchStartsParse, claims_reorderReleasesInOrder⟩

end Sys2Proof.Machine
end

section
/-!
SUPPORT. What the reads, writes and events of the Catalogue's units leave alone: the registers and counters of the Catalogue's pages, the
frames and the queues of learns (R166-R178, R580-R588).
-/
namespace Sys2Proof.Machine

/-! ## What stays -/

/-- Is `a` a register of a Catalogue page (R693)? -/
def onCatalogue (a : Nat) : Prop := a / 0x10000 = pageCAT 0 ∨ a / 0x10000 = pageCAT 1

/-- From `s` to `t` stays what the Catalogue's units go by beside their tables: the registers of its pages beyond the headers, its counters
but those at `cs`, the frames, the epochs, and the learns that wait. -/
structure CatStays (cs : List Nat) (s t : State) : Prop where
  regs : ∀ a, onCatalogue a → 0x100 ≤ a % 0x10000 → rd t a = rd s a
  ctrs : ∀ a, onCatalogue a → a ∉ cs → ctr t a = ctr s a
  frames : t.frames = s.frames
  prv : t.prv = s.prv
  learnQ : t.cat.learnQ = s.cat.learnQ
  retry : t.cat.retry = s.cat.retry

section
variable {cs : List Nat} {s t u : State}

theorem CatStays.after (g : CatStays cs t u) (h : CatStays cs s t) : CatStays cs s u where
  regs a ha hx := (g.regs a ha hx).trans (h.regs a ha hx)
  ctrs a ha hc := (g.ctrs a ha hc).trans (h.ctrs a ha hc)
  frames := g.frames.trans h.frames
  prv := g.prv.trans h.prv
  learnQ := g.learnQ.trans h.learnQ
  retry := g.retry.trans h.retry

/-- A state with the same registers, counters, frames, epochs and learns. -/
theorem CatStays.of_same (regs : ∀ a, rd t a = rd s a := by intro; rfl) (ctrs : ∀ a, ctr t a = ctr s a := by intro; rfl)
    (frames : t.frames = s.frames := by rfl) (prv : t.prv = s.prv := by rfl) (learnQ : t.cat.learnQ = s.cat.learnQ := by rfl)
    (retry : t.cat.retry = s.cat.retry := by rfl) : CatStays cs s t :=
  ⟨fun a _ _ => regs a, fun a _ _ => ctrs a, frames, prv, learnQ, retry⟩

theorem CatStays.refl (s : State) : CatStays cs s s := .of_same

theorem CatStays.of_bus (o : OnlyBus s t) (regs : ∀ a, onCatalogue a → 0x100 ≤ a % 0x10000 → rd t a = rd s a)
    (ctrs : ∀ a, onCatalogue a → a ∉ cs → ctr t a = ctr s a) : CatStays cs s t :=
  ⟨regs, ctrs, o.frames, o.prv, by rw [o.cat], by rw [o.cat]⟩

theorem CatStays.ite {c : Prop} [Decidable c] (h : CatStays cs s t) : CatStays cs s (if c then t else s) := by
  split
  · exact h
  · exact .refl s

theorem catStays_foldl {α : Type} (l : List α) (f : State → α → State) (h : ∀ a x, CatStays cs a (f a x)) (s : State) :
    CatStays cs s (l.foldl f s) := List.foldlRecOn (motive := CatStays cs s) l f (.refl s) fun _ ha _ _ => (h _ _).after ha

/-! ## Registers, counters and events -/

theorem beyondHeader_of_onCatalogue {a : Nat} (h : onCatalogue a) (hx : 0x100 ≤ a % 0x10000) : beyondHeader a := by
  refine ⟨hx, ?_⟩
  rw [onCatalogue, pageCAT, pageCAT] at h
  rw [pageHIF]
  omega

/-- No counter of the Catalogue is HIF_CNT_8 or one of the Ledger's. -/
theorem ctr_plain_of_onCatalogue {a : Nat} (h : onCatalogue a) : a ≠ HIF_CNT 8 ∧ ¬onLedger a := by
  rw [onCatalogue, pageCAT, pageCAT] at h
  rw [onLedger, HIF_CNT, bar0, pageHIF]
  omega

theorem onCatalogue_bar0 {w x : Nat} (hw : w < 2) (hx : x < 0x10000) : onCatalogue (bar0 (pageCAT w) x) := by
  rw [onCatalogue, page_bar0 _ hx]
  rcases (by omega : w = 0 ∨ w = 1) with rfl | rfl
  · exact .inl rfl
  · exact .inr rfl

theorem not_onCatalogue_bar0 {p x : Nat} (hp : p ≠ pageCAT 0 ∧ p ≠ pageCAT 1) (hx : x < 0x10000) : ¬onCatalogue (bar0 p x) := by
  rw [onCatalogue, page_bar0 _ hx]
  exact fun h => h.elim hp.1 hp.2

theorem catStays_wr {a : Nat} (h : ¬onCatalogue a ∨ a % 0x10000 < 0x100) (v : W32) (s : State) : CatStays cs s (wr a v s) := by
  refine .of_bus (wr_onlyBus _ _ _) (fun b hb hx => rd_wr_ne _ _ ?_) fun _ _ _ => rfl
  rintro rfl
  exact h.elim (fun h => h hb) fun h => absurd hx (by omega)

theorem catStays_wr_header (p : Nat) {x : Nat} (hx : x < 0x100) (v : W32) (s : State) : CatStays cs s (wr (bar0 p x) v s) :=
  catStays_wr (.inr (by rw [offset_bar0 _ (by omega)]; exact hx)) v s

theorem catStays_bump {a : Nat} (h : a ∈ cs ∨ ¬onCatalogue a) (s : State) : CatStays cs s (bump a s) := by
  refine .of_bus (bump_onlyBus _ _) (fun _ _ _ => rd_bump _ _ _) fun b hb hc => ?_
  rw [ctr_bump, if_neg]
  rintro rfl
  exact h.elim hc fun h => h hb

theorem catStays_raise (p b : Nat) (s : State) : CatStays cs s (raise p b s) :=
  .of_bus (raise_onlyBus _ _ _) (fun _ ha hx => rd_raise_beyond (beyondHeader_of_onCatalogue ha hx) _ _ _) fun _ ha _ =>
    ctr_raise (ctr_plain_of_onCatalogue ha).1 (ctr_plain_of_onCatalogue ha).2 _ _ _

theorem catStays_raiseFirst (p b : Nat) (s : State) : CatStays cs s (raiseFirst p b s) := by
  unfold raiseFirst
  dsimp only
  split
  · exact (catStays_raise _ _ _).after .of_same
  · exact .of_same

theorem catStays_reportFault (p kind addr : Nat) (inj : Bool) (s : State) : CatStays cs s (reportFault p kind addr inj s) :=
  .of_bus (reportFault_onlyBus _ _ _ _ _) (fun _ _ _ => rd_reportFault _ _ _ _ _ _) fun _ _ _ => ctr_reportFault _ _ _ _ _ _

theorem catStays_recordErr (p code detail addr : Nat) (s : State) : CatStays cs s (recordErr p code detail addr s) :=
  (catStays_wr_header p (x := 0x28) (by decide) _ _).after <|
    (catStays_wr_header p (x := 0x24) (by decide) _ _).after (catStays_wr_header p (x := 0x20) (by decide) _ _)

theorem catStays_sendMsix {v : Nat} (hv : v < 256) (s : State) : CatStays cs s (sendMsix v s) := by
  refine .of_bus (sendMsix_onlyBus _ _) (fun a ha hx => (sendMsix_changes v s hv).1 a fun hm => ?_) fun a ha _ => ?_
  · obtain ⟨i, hi, rfl⟩ := List.mem_map.mp hm
    rw [List.mem_range] at hi
    refine (beyondHeader_of_onCatalogue ha hx).2 ?_
    rw [HIF_MSIX_PBA, page_bar0 _ (by omega)]
  · obtain ⟨h8, hl⟩ := ctr_plain_of_onCatalogue ha
    exact (sendMsix_changes v s hv).2 a (by simpa using h8) fun g => hl g.2

/-! ## Reads of table words (R580, R581, R583) -/

theorem OnlyNotes.prv {s t : State} (h : OnlyNotes s t) : t.prv = s.prv := congrArg (fun x => x.prv) h

theorem OnlyNotes.cat {s t : State} (h : OnlyNotes s t) : t.cat = s.cat := congrArg (fun x => x.cat) h

/-- From `s` to `t` correctable words have been counted in their pages' headers and queued, and nothing else has changed (R580, R603). -/
structure ReadsCounted (s t : State) : Prop where
  notes : OnlyNotes s t
  regs : ∀ a, a % 0x10000 ≠ 0x2C → a % 0x10000 ≠ 0x30 → rd t a = rd s a
  ctrs : ∀ a, ctr t a = ctr s a

theorem ReadsCounted.after (g : ReadsCounted t u) (h : ReadsCounted s t) : ReadsCounted s u where
  notes := g.notes.after h.notes
  regs a h1 h2 := (g.regs a h1 h2).trans (h.regs a h1 h2)
  ctrs a := (g.ctrs a).trans (h.ctrs a)

theorem ReadsCounted.refl (s : State) : ReadsCounted s s := ⟨rfl, fun _ _ _ => rfl, fun _ => rfl⟩

theorem ReadsCounted.stays (h : ReadsCounted s t) : CatStays cs s t where
  regs a _ hx := h.regs a (by omega) (by omega)
  ctrs a _ _ := h.ctrs a
  frames := h.notes.frames
  prv := h.notes.prv
  learnQ := by rw [h.notes.cat]
  retry := by rw [h.notes.cat]

theorem ReadsCounted.isOn (h : ReadsCounted s t) (p : Nat) : isOn t p = isOn s p := by
  have hx : H_STATE (home p) % 0x10000 = 0xC := offset_bar0 _ (by decide)
  rw [Machine.isOn, blkState, rf, h.regs _ (by rw [hx]; decide) (by rw [hx]; decide)]
  rfl

theorem rd_correctedAt {a : Nat} (p : Nat) (s : State) (hb : a % 0x10000 ≠ 0x2C) (hc : a % 0x10000 ≠ 0x30) :
    rd (correctedAt p s) a = rd s a := by
  have hbucket : ∀ v t, rd (wf (H_CE_BUCKET p) 31 20 v t) a = rd t a := fun v t =>
    rd_wf_ne _ _ _ _ (by rintro rfl; exact hb (offset_bar0 _ (by decide)))
  have hcount : rd (addWrap (H_CE_COUNT p) 31 0 1 s) a = rd s a :=
    rd_wf_ne _ _ _ _ (by rintro rfl; exact hc (offset_bar0 _ (by decide)))
  have hqueue : ∀ c (t : State), rd { t with csv := c } a = rd t a := fun _ _ => rfl
  unfold correctedAt
  dsimp only
  split
  · exact (hbucket _ _).trans hcount
  · split
    · rw [storm, rd_reportFault, hqueue, hbucket, hcount]
    · exact (hbucket _ _).trans hcount

theorem readsCounted_correctedAt (p : Nat) (s : State) : ReadsCounted s (correctedAt p s) :=
  ⟨onlyNotes_correctedAt p s, fun _ hb hc => rd_correctedAt p s hb hc, ctr_correctedAt p s⟩

theorem readsCounted_noteCe (a : Nat) (s : State) : ReadsCounted s (noteCe a s) := by
  unfold noteCe
  split
  case isFalse => exact .refl s
  case isTrue h =>
    have hcorrected := readsCounted_correctedAt (tabOwner a) s
    rw [noteRead, h]
    dsimp only
    split
    · exact ReadsCounted.after ⟨rfl, fun _ _ _ => rfl, fun _ => rfl⟩ hcorrected
    · exact hcorrected

theorem readsCounted_noteCes (as : List Nat) (s : State) : ReadsCounted s (noteCes as s) :=
  List.foldlRecOn (motive := ReadsCounted s) _ _ (.refl s) fun _ ha _ _ => (readsCounted_noteCe _ _).after ha

theorem readsCounted_catReads (w : Nat) (key : List Byte) (s : State) : ReadsCounted s (catReads w key s) := readsCounted_noteCes _ s

theorem catStays_flowErr (a : Nat) (s : State) : CatStays cs s (flowErr a s) := (catStays_raise _ _ _).ite

theorem catStays_uninitAt (a : Nat) (s : State) : CatStays cs s (uninitAt a s) :=
  (catStays_flowErr _ _).after <| (catStays_raiseFirst _ _ _).after <| (catStays_recordErr _ _ _ _ _).after <|
    catStays_bump (.inr (not_onCatalogue_bar0 (by decide) (by decide))) _

theorem catStays_ueAt (a : Nat) (s : State) : CatStays cs s (ueAt a s) :=
  (catStays_flowErr _ _).after <| (catStays_reportFault _ _ _ _ _).after (catStays_recordErr _ _ _ _ _)

theorem catStays_noteRead (a : Nat) (s : State) : CatStays cs s (noteRead a s) := by
  unfold noteRead
  split
  · exact .refl s
  · dsimp only
    split
    · exact .after .of_same (readsCounted_correctedAt (tabOwner a) s).stays
    · exact (readsCounted_correctedAt (tabOwner a) s).stays
  · exact catStays_uninitAt a s
  · exact catStays_ueAt a s

/-! ## The engine's writes of table words (R582-R588) -/

theorem catStays_unclear (b : Nat) (s : State) : CatStays cs s (unclear b s) := by
  unfold unclear
  dsimp only
  split
  · exact CatStays.ite .of_same
  · exact CatStays.ite .of_same

theorem catStays_wordWritten (b : Nat) (old s : State) : CatStays cs s (wordWritten b old s) := by
  have hclear : CatStays cs s (if (eccOf s b).st = .good then unclear b s else s) := (catStays_unclear b s).ite
  unfold wordWritten
  dsimp only
  split
  · exact (catStays_foldl _ _ (fun a w => (catStays_raise (pageCAT w) 2 a).ite) _).after hclear
  · exact hclear

theorem catStays_engWrite (a : Nat) (ws : List W32) (hm : s.tab.merges = []) : CatStays cs s (engWrite a ws s) := by
  have hput : CatStays cs s (putWords a ws s) := by
    rw [putWords_rest]
    exact .of_same
  unfold engWrite
  rw [settle_none s hm]
  exact (catStays_wordWritten _ _ _).after (CatStays.after .of_same hput)

theorem engWrite_merges (a : Nat) (ws : List W32) (s : State) : (engWrite a ws s).tab.merges = [] := by
  rw [engWrite, wordWritten_tab, putEcc_merges, putWords_merges, settle_merges]

/-- The engine's own write puts its words in their places, each through the mask of its place, and leaves every other word. -/
theorem tw_engWrite (a : Nat) (ws : List W32) {s : State} (hm : s.tab.merges = []) (b : Nat) : tw (engWrite a ws s) b =
    if a ≤ b ∧ b < a + 4 * ws.length ∧ (b - a) % 4 = 0 then ws.getD ((b - a) / 4) 0 &&& wordMask b else tw s b := by
  rw [engWrite, tw_wordWritten, tw_putEcc, tw_putWords, settle_none s hm]

/-- One word written by the engine. -/
theorem tw_engWrite_one (a : Nat) (v : W32) {s : State} (hm : s.tab.merges = []) (b : Nat) :
    tw (engWrite a [v] s) b = if b = a then v &&& wordMask a else tw s b := by
  rw [tw_engWrite a [v] hm, List.length_singleton]
  by_cases h : b = a
  · subst h
    rw [if_pos (by omega), if_pos rfl, Nat.sub_self]
    rfl
  · rw [if_neg (by omega), if_neg h]

/-- A readable word stays readable over the engine's write beside it in a readable word. -/
theorem readable_engWrite (a : Nat) (ws : List W32) {s : State} (hm : s.tab.merges = []) (ha : readable s a = true) {b : Nat}
    (hb : readable s b = true) : readable (engWrite a ws s) b = true := by
  have hecc : eccOf (engWrite a ws s) b = if eccBase b = eccBase a then ⟨.good, 0, false⟩ else eccOf s b := by
    rw [engWrite, settle_none s hm, eccOf, wordWritten_tab, ← eccOf, eccOf_putEcc]
    congr 1
    · split
      · rfl
      · unfold readable at ha
        split at ha
        · next h => rw [h]
        · next h => rw [h]
        · cases ha
        · cases ha
    · rw [eccOf, putWords_ecc, eccOf]
  by_cases h : eccBase b = eccBase a
  · rw [readable, rdStat, hecc, if_pos h]
    rfl
  · rw [readable, rdStat, hecc, if_neg h]
    exact hb

/-! ## Entries on the event rings (R168, R511, R530) -/

theorem hostWrite_keeps (a : Nat) (bs : List Byte) (s : State) : hostWrite a bs s = { s with hif := (hostWrite a bs s).hif } := by
  induction bs generalizing a s with
  | nil => rfl
  | cons b r ih => rw [hostWrite, ih]

theorem catStays_hostWrite (a : Nat) (bs : List Byte) (s : State) : CatStays cs s (hostWrite a bs s) := by
  rw [hostWrite_keeps]
  exact .of_same

theorem catStays_irqCount (eq : Bool) (r : Nat) (s : State) : CatStays cs s (irqCount eq r s) := by
  unfold irqCount
  dsimp only
  split
  · exact (catStays_sendMsix (fld_lt _ 31 24) _).after .of_same
  · split
    · exact .of_same
    · exact .of_same

theorem catStays_putEntry (eq : Bool) {r : Nat} (hr : r < 32) (ws : List W32) (s : State) : CatStays cs s (putEntry eq r ws s) := by
  have hprod : ¬onCatalogue (outProd eq r) := by
    cases eq
    · exact not_onCatalogue_bar0 (by decide) (by omega)
    · exact not_onCatalogue_bar0 (by decide) (by omega)
  unfold putEntry
  dsimp only
  split
  · exact (catStays_wr (.inl hprod) _ _).after (catStays_hostWrite _ _ _)
  · exact (catStays_wr (.inl hprod) _ _).after (catStays_hostWrite _ _ _)

theorem irqCount_tab (eq : Bool) (r : Nat) (s : State) : (irqCount eq r s).tab = s.tab := by
  unfold irqCount
  dsimp only
  split
  · exact (sendMsix_onlyBus _ _).tab
  · split <;> rfl

theorem putEntry_tab (eq : Bool) (r : Nat) (ws : List W32) (s : State) : (putEntry eq r ws s).tab = s.tab := by
  unfold putEntry
  dsimp only
  split
  · rw [(wf_onlyBus _ _ _ _ _).tab, hostWrite_keeps]
  · rw [(wr_onlyBus _ _ _).tab, hostWrite_keeps]

/-- An event of the Catalogue stores no table word. -/
theorem catEvent_tab (w kind x : Nat) (key : List Byte) (result : Nat) (s : State) : (catEvent w kind x key result s).tab = s.tab := by
  unfold catEvent
  dsimp only
  split
  · rfl
  · split
    · rw [putEvent, irqCount_tab, putEntry_tab]
    · rw [(raise_onlyBus _ _ _).tab, (bump_onlyBus _ _).tab]

theorem catStays_catEvent {w : Nat} (h : CAT_CNT w 13 ∈ cs) (kind x : Nat) (key : List Byte) (result : Nat) (s : State) :
    CatStays cs s (catEvent w kind x key result s) := by
  unfold catEvent
  dsimp only
  split
  · exact .refl s
  · split
    · exact (catStays_irqCount _ _ _).after (catStays_putEntry _ (fld_lt _ 4 0) _ _)
    · exact (catStays_raise _ _ _).after (catStays_bump (.inl h) _)

end

end Sys2Proof.Machine
end

section
/-!
SUPPORT. The Catalogue's searches: where its entries lie, what a search goes by, and what an entry reads as once it is written in both
replicas (R140-R142, R147-R152).
-/
namespace Sys2Proof.Machine

/-! ## Where entries lie -/

theorem crcBit_lt (b : Bool) {r : Nat} : crcBit r b < 2 ^ 32 := by
  have hsh : r * 2 % 2 ^ 32 < 2 ^ 32 := Nat.mod_lt _ (by decide)
  unfold crcBit
  dsimp only
  split
  · exact Nat.xor_lt_two_pow hsh (by decide)
  · exact hsh

theorem crc_lt {seed : Nat} (h : seed < 2 ^ 32) (bs : List Byte) : crc seed bs < 2 ^ 32 :=
  List.foldlRecOn (motive := fun r : Nat => r < 2 ^ 32) bs crcByte h fun _ hr _ _ =>
    List.foldlRecOn (motive := fun r : Nat => r < 2 ^ 32) _ _ hr fun _ _ _ _ => crcBit_lt _

/-- There are 2^18 buckets (R147). -/
theorem catBucket_lt (s : State) (key : List Byte) : catBucket s key < 2 ^ 18 := by
  have hcrc := crc_lt (seed := (rd s (CAT_HASH_SEED 0 (rf s (CAT_CFG 0) 17 16))).toNat) (BitVec.isLt _) (slice key 0 20)
  exact Nat.xor_lt_two_pow (Nat.mod_lt _ (by decide)) (by omega)

theorem mem_ovfValid {s : State} {w x : Nat} (h : x ∈ ovfValid s w) : 0x100000 ≤ x ∧ x < 0x102000 := by
  obtain ⟨e, he, rfl⟩ := List.mem_map.mp h
  have hrange := (List.mem_filter.mp he).2
  simp only [Bool.and_eq_true, decide_eq_true_eq] at hrange
  obtain ⟨⟨⟨hlo, hhi⟩, -⟩, -⟩ := hrange
  simp only [catAddr] at hlo hhi ⊢
  omega

theorem mem_bucket_lt {s : State} {key : List Byte} {x : Nat}
    (h : x ∈ [4 * catBucket s key, 4 * catBucket s key + 1, 4 * catBucket s key + 2, 4 * catBucket s key + 3]) : x < 0x100000 := by
  have hb := catBucket_lt s key
  simp only [List.mem_cons, List.not_mem_nil, or_false] at h
  omega

theorem catCandidates_lt {s : State} {w x : Nat} {key : List Byte} (h : x ∈ catCandidates s w key) : x < 0x102000 := by
  rcases List.mem_append.mp h with hb | ho
  · exact Nat.lt_trans (mem_bucket_lt hb) (by decide)
  · exact (mem_ovfValid (List.mem_of_mem_filter ho)).2

theorem catMatches_spec {s : State} {w x : Nat} {key : List Byte} (h : x ∈ catMatches s w key) :
    x < 0x102000 ∧ catValid s w x = true ∧ catKey s w x = key := by
  obtain ⟨hc, hp⟩ := List.mem_filter.mp h
  rw [Bool.and_eq_true, beq_iff_eq] at hp
  exact ⟨catCandidates_lt hc, hp⟩

theorem freeSlot_lt {s : State} {w x : Nat} {key : List Byte} (h : freeSlot s w key = some x) : x < 0x102000 := by
  unfold freeSlot at h
  dsimp only at h
  split at h
  · next hb =>
    cases h
    exact Nat.lt_trans (mem_bucket_lt (List.mem_of_find?_eq_some hb)) (by decide)
  · split at h
    · cases h
    · obtain ⟨k, hk, rfl⟩ := Option.map_eq_some_iff.mp h
      have hlt := List.mem_range.mp (List.mem_of_find?_eq_some hk)
      omega

/-- An entry lies below the other regions of table space. -/
theorem catAddr_lt {w x : Nat} (hw : w < 2) (hx : x < 0x102000) : catAddr w x + 32 ≤ 0x8000000 := by
  rw [catAddr]
  omega

theorem catAddr_inj {v w x y j k : Nat} (hx : x < 0x102000) (hy : y < 0x102000) (hj : j < 32) (hk : k < 32)
    (h : catAddr v x + j = catAddr w y + k) : v = w ∧ x = y ∧ j = k := by
  rw [catAddr, catAddr] at h
  omega

/-- The Catalogue's memory holds every bit of a word. -/
theorem wordMask_cat {a : Nat} (h : a < 0x8000000) : wordMask a = 0xFFFFFFFF := by
  have hr : a / 0x4000000 ≠ 0xB := by omega
  rw [wordMask, if_neg fun h => hr h.1, if_neg fun h => hr h.1]

theorem and_wordMask_cat {a : Nat} (h : a < 0x8000000) (v : W32) : v &&& wordMask a = v := by
  rw [wordMask_cat h]
  exact BitVec.and_allOnes

/-- An ECC word of the Catalogue has 64 bytes (R578). -/
theorem eccSize_cat {a : Nat} (h : a < 0x8000000) : eccSize a = 64 := by
  have hr : a / 0x4000000 ≤ 1 := by omega
  rw [eccSize, if_pos (.inl hr)]

theorem eccBase_cat {a : Nat} (h : a < 0x8000000) : eccBase a = a - a % 64 := by rw [eccBase, eccSize_cat h]

theorem eccLimit_cat {a : Nat} (h : a < 0x8000000) : eccLimit a = 4 := by rw [eccLimit, eccSize_cat h, if_pos rfl]

/-! ## What a search goes by -/

theorem tw_congr {s t : State} (h : t.tab = s.tab) (a : Nat) : tw t a = tw s a := by rw [tw, tw, h]

theorem rdStat_congr {s t : State} (h : t.tab = s.tab) (a : Nat) : rdStat t a = rdStat s a := by
  have he : eccOf t a = eccOf s a := by rw [eccOf, eccOf, h]
  rw [rdStat, rdStat, he]

theorem readable_congr {s t : State} (h : t.tab = s.tab) (a : Nat) : readable t a = readable s a := by
  rw [readable, readable, rdStat_congr h]

theorem catCtl_congr {s t : State} (h : t.tab = s.tab) (w x : Nat) : catCtl t w x = catCtl s w x := tw_congr h _

theorem catValid_congr {s t : State} (h : t.tab = s.tab) (w x : Nat) : catValid t w x = catValid s w x := by
  rw [catValid, catValid, catCtl_congr h]

theorem catKey_congr {s t : State} (h : t.tab = s.tab) (w x : Nat) : catKey t w x = catKey s w x := by
  rw [catKey, catKey, tws, tws, funext fun i => tw_congr h (catAddr w x + 4 * i)]

theorem catResult_congr {s t : State} (h : t.tab = s.tab) (w x : Nat) : catResult t w x = catResult s w x := by
  rw [catResult, catResult, tw_congr h, tw_congr h]

theorem catVer_congr {s t : State} (h : t.tab = s.tab) (w x : Nat) : catVer t w x = catVer s w x := by
  rw [catVer, catVer, catCtl_congr h]

theorem ovfValid_congr {s t : State} (h : t.tab = s.tab) (w : Nat) : ovfValid t w = ovfValid s w := by
  rw [ovfValid, ovfValid, h]

/-- In `t` the Catalogue's searches go by the same as in `s`: words, keys cleared to match nothing, epochs, and the hash seed in use. -/
structure CatSees (s t : State) : Prop where
  tab : t.tab = s.tab
  cleared : t.cat.cleared = s.cat.cleared
  prv : t.prv = s.prv
  bucket : ∀ key, catBucket t key = catBucket s key

section
variable {s t : State} (h : CatSees s t)
include h

theorem CatSees.candidates (w : Nat) (key : List Byte) : catCandidates t w key = catCandidates s w key := by
  rw [catCandidates, catCandidates, h.bucket, ovfValid_congr h.tab, h.cleared, funext fun x => catKey_congr h.tab w x]

theorem CatSees.unreadable (w : Nat) (key : List Byte) : catUnreadable t w key = catUnreadable s w key := by
  rw [catUnreadable, catUnreadable, h.candidates, funext fun x => congrArg not (readable_congr h.tab (catAddr w x))]

theorem CatSees.matches (w : Nat) (key : List Byte) : catMatches t w key = catMatches s w key := by
  rw [catMatches, catMatches, h.candidates, funext fun x => catValid_congr h.tab w x, funext fun x => catKey_congr h.tab w x]

theorem CatSees.search (w : Nat) (key : List Byte) (e : Nat) : catSearch t w key e = catSearch s w key e := by
  have hvis : ∀ x, visible t (catVer t w x) e = visible s (catVer s w x) e := fun x => by
    rw [catVer_congr h.tab, visible, visible, rel, rel, rel, rel, rel, rel, h.prv]
  rw [catSearch, catSearch, h.unreadable, h.matches, funext hvis]

theorem CatSees.freeSlot (w : Nat) (key : List Byte) : Machine.freeSlot t w key = Machine.freeSlot s w key := by
  rw [Machine.freeSlot, Machine.freeSlot, h.bucket, ovfValid_congr h.tab, funext fun x => catValid_congr h.tab w x]

end

theorem CatSees.after {s t u : State} (g : CatSees t u) (h : CatSees s t) : CatSees s u :=
  ⟨g.tab.trans h.tab, g.cleared.trans h.cleared, g.prv.trans h.prv, fun key => (g.bucket key).trans (h.bucket key)⟩

theorem catBucket_congr {s t : State} (h : ∀ a, onCatalogue a → 0x100 ≤ a % 0x10000 → rd t a = rd s a) (key : List Byte) :
    catBucket t key = catBucket s key := by
  have hcfg : rf t (CAT_CFG 0) 17 16 = rf s (CAT_CFG 0) 17 16 := by
    rw [rf, rf, h (CAT_CFG 0) (onCatalogue_bar0 (by decide) (by decide)) (by decide)]
  have hsel : rf s (CAT_CFG 0) 17 16 < 4 := fld_lt _ 17 16
  have hoff : CAT_HASH_SEED 0 (rf s (CAT_CFG 0) 17 16) % 0x10000 = 0x130 + 0x4 * rf s (CAT_CFG 0) 17 16 := offset_bar0 _ (by omega)
  rw [catBucket, catBucket, hcfg, h (CAT_HASH_SEED 0 _) (onCatalogue_bar0 (by decide) (by omega)) (by omega)]

/-- What keeps the tables and the Catalogue's registers lets a search find the same. -/
theorem CatSees.of_stays {cs : List Nat} {s t : State} (h : CatStays cs s t) (tab : t.tab = s.tab)
    (cleared : t.cat.cleared = s.cat.cleared) : CatSees s t := ⟨tab, cleared, h.prv, catBucket_congr h.regs⟩

theorem ReadsCounted.sees {s t : State} (h : ReadsCounted s t) : CatSees s t :=
  .of_stays (cs := []) h.stays h.notes.tab (by rw [h.notes.cat])

/-- Where no candidate's word has to be corrected, the reads of a search count nothing. -/
theorem catReads_uncorrected {w : Nat} (hw : w < 2) {key : List Byte} {s : State}
    (h : ((catCandidates s w key).all fun x => rdStat s (catAddr w x) != .corrected) = true) : catReads w key s = s := by
  rw [catReads, noteCes]
  refine List.foldlRecOn (motive := fun t : State => t = s) _ _ rfl ?_
  rintro t rfl a ha
  obtain ⟨b, hb, rfl⟩ := List.mem_map.mp (List.mem_eraseDups.mp ha)
  obtain ⟨x, hx, rfl⟩ := List.mem_map.mp hb
  have hlt := catAddr_lt hw (catCandidates_lt hx)
  have hbase : eccBase (eccBase (catAddr w x)) = eccBase (catAddr w x) := by
    rw [eccBase_cat (a := catAddr w x) (by omega), eccBase_cat (by omega)]
    omega
  have hstat : rdStat t (eccBase (catAddr w x)) = rdStat t (catAddr w x) := by
    have hle : eccBase (catAddr w x) ≤ catAddr w x := Nat.sub_le _ _
    rw [rdStat, rdStat, eccOf, eccOf, hbase, eccLimit_cat (a := catAddr w x) (by omega), eccLimit_cat (by omega)]
  have hne := List.all_eq_true.mp h x hx
  rw [noteCe, hstat, if_neg (by simpa using hne)]

/-! ## Bytes and words -/

theorem leBytes_leNat (bs : List Byte) : leBytes bs.length (leNat bs) = bs := by
  induction bs with
  | nil => rfl
  | cons b r ih =>
    have hb : b.toNat < 256 := b.isLt
    have hbyte : byte (leNat (b :: r)) = b := by
      refine BitVec.eq_of_toNat_eq ?_
      rw [byte, BitVec.toNat_ofNat, leNat]
      omega
    have hrest : leNat (b :: r) / 256 = leNat r := by rw [leNat]; omega
    rw [List.length_cons, leBytes, hbyte, hrest, ih]

theorem leNat_lt (bs : List Byte) : leNat bs < 256 ^ bs.length := by
  induction bs with
  | nil => exact Nat.one_pos
  | cons b r ih =>
    have hb : b.toNat < 256 := b.isLt
    rw [leNat, List.length_cons, Nat.pow_succ]
    omega

theorem slice_length (l : List Byte) (i n : Nat) : (slice l i n).length = n := by rw [slice, List.length_map, List.length_range]

/-- Twenty bytes spelt in words read back (R9). -/
theorem wordBytes_bytesWords_slice (l : List Byte) : wordBytes (bytesWords (slice l 0 20)) = slice l 0 20 := by
  have hword : ∀ bs : List Byte, bs.length = 4 → leBytes 4 (w32 (leNat bs)).toNat = bs := fun bs h => by
    have hlt := leNat_lt bs
    rw [h] at hlt
    rw [w32, BitVec.toNat_ofNat, Nat.mod_eq_of_lt (by omega), ← h, leBytes_leNat]
  have hspell : wordBytes (bytesWords (slice l 0 20)) = (List.range 5).flatMap fun i => slice (slice l 0 20) (4 * i) 4 := by
    rw [wordBytes, bytesWords, slice_length, List.flatMap_map]
    exact congrArg (fun f => List.flatMap f (List.range 5)) (funext fun i => hword _ (slice_length _ (4 * i) _))
  rw [hspell]
  rfl

theorem bytesWords_slice_length (l : List Byte) : (bytesWords (slice l 0 20)).length = 5 := by
  rw [bytesWords, List.length_map, List.length_range, slice_length]

/-! ## An entry written -/

theorem catWords_length (key : List Byte) (result ctl : Nat) : (catWords key result ctl).length = 8 := by
  rw [catWords, List.length_append, bytesWords_slice_length]
  rfl

/-- The result and the control word follow the key's five words (R141). -/
theorem catWords_getD_tail (key : List Byte) (result ctl j : Nat) :
    (catWords key result ctl).getD (5 + j) 0 = [w32 result, w32 (result / 2 ^ 32), w32 ctl].getD j 0 := by
  have hlen := bytesWords_slice_length key
  rw [catWords, List.getD_append_right _ _ _ _ (by omega), hlen, Nat.add_sub_cancel_left]

/-- Word `i` of the entry just written, in either replica. -/
theorem tw_putEntryBoth {x v i : Nat} (key : List Byte) (result ctl : Nat) {s : State} (hm : s.tab.merges = []) (hx : x < 0x102000)
    (hv : v < 2) (hi : i < 8) : tw (putEntryBoth x key result ctl s) (catAddr v x + 4 * i) = (catWords key result ctl).getD i 0 := by
  have hword : ∀ {u : State}, u.tab.merges = [] → tw (engWrite (catAddr v x) (catWords key result ctl) u) (catAddr v x + 4 * i) =
      (catWords key result ctl).getD i 0 := fun hu => by
    have hat : catAddr v x ≤ catAddr v x + 4 * i ∧ catAddr v x + 4 * i < catAddr v x + 4 * 8 ∧ (catAddr v x + 4 * i - catAddr v x) % 4 = 0 := by
      omega
    have hlt := catAddr_lt hv hx
    rw [tw_engWrite _ _ hu, catWords_length, if_pos hat, and_wordMask_cat (by omega)]
    congr 1
    omega
  have hboth : putEntryBoth x key result ctl s =
      engWrite (catAddr 1 x) (catWords key result ctl) (engWrite (catAddr 0 x) (catWords key result ctl) s) := rfl
  rw [hboth]
  rcases (by omega : v = 0 ∨ v = 1) with rfl | rfl
  · rw [tw_engWrite _ _ (engWrite_merges _ _ _), catWords_length, if_neg, hword hm]
    simp only [catAddr]
    omega
  · exact hword (engWrite_merges _ _ _)

section
variable {x v : Nat} (key : List Byte) (result ctl : Nat) {s : State} (hm : s.tab.merges = []) (hx : x < 0x102000) (hv : v < 2)
include hm hx hv

theorem catKey_putEntryBoth : catKey (putEntryBoth x key result ctl s) v x = slice key 0 20 := by
  have hwords : tws (putEntryBoth x key result ctl s) (catAddr v x) 5 = bytesWords (slice key 0 20) := by
    refine List.ext_getElem (by rw [bytesWords_slice_length, tws, List.length_map, List.length_range]) fun i h1 h2 => ?_
    have hi : i < 5 := by rwa [bytesWords_slice_length] at h2
    simp only [tws, List.getElem_map, List.getElem_range]
    rw [tw_putEntryBoth key result ctl hm hx hv (by omega), catWords, List.getD_append _ _ _ _ h2, List.getD_eq_getElem _ _ h2]
  rw [catKey, hwords, wordBytes_bytesWords_slice]

theorem catCtl_putEntryBoth : catCtl (putEntryBoth x key result ctl s) v x = w32 ctl := by
  rw [catCtl, show catAddr v x + 28 = catAddr v x + 4 * 7 from rfl, tw_putEntryBoth key result ctl hm hx hv (by decide)]
  exact catWords_getD_tail key result ctl 2

theorem catResult_putEntryBoth : catResult (putEntryBoth x key result ctl s) v x = BitVec.ofNat 64 result := by
  have h5 : (catWords key result ctl).getD 5 0 = w32 result := catWords_getD_tail key result ctl 0
  have h6 : (catWords key result ctl).getD 6 0 = w32 (result / 2 ^ 32) := catWords_getD_tail key result ctl 1
  rw [catResult, show catAddr v x + 20 = catAddr v x + 4 * 5 from rfl, show catAddr v x + 24 = catAddr v x + 4 * 6 from rfl,
    tw_putEntryBoth key result ctl hm hx hv (by decide), tw_putEntryBoth key result ctl hm hx hv (by decide), h5, h6]
  refine BitVec.eq_of_toNat_eq ?_
  simp only [w32, BitVec.toNat_ofNat]
  omega

end

theorem catStays_putEntryBoth {cs : List Nat} (x : Nat) (key : List Byte) (result ctl : Nat) {s : State} (hm : s.tab.merges = []) :
    CatStays cs s (putEntryBoth x key result ctl s) :=
  (catStays_engWrite _ _ (engWrite_merges _ _ _)).after (catStays_engWrite _ _ hm)

end Sys2Proof.Machine
end

section
/-!
SUPPORT. Accession: what a learn leaves of the Catalogue's entries, counters and queues (R166, R176-R178).
-/
namespace Sys2Proof.Machine

/-! ## A learn that runs -/

theorem endLearn_tab (w : Nat) (l : Learn) (s : State) : (endLearn w l s).tab = s.tab := rfl

theorem rd_endLearn (w : Nat) (l : Learn) (s : State) (a : Nat) : rd (endLearn w l s) a = rd s a := rfl

theorem catStays_endLearn {cs : List Nat} (w : Nat) (l : Learn) (s : State) : CatStays cs s (endLearn w l s) := .of_same

theorem catCnt_ne {w i j : Nat} (h : i ≠ j) : CAT_CNT w i ≠ CAT_CNT w j := by
  simp only [CAT_CNT, bar0]
  omega

/-- A counter of the Catalogue's pages lies on them. -/
theorem onCatalogue_cnt {w i : Nat} (hw : w < 2) (hi : i < 16) : onCatalogue (CAT_CNT w i) := onCatalogue_bar0 hw (by omega)

/-- The control word of a learned entry (R166): valid, hit, settled, neither static nor mortal. -/
def learnedCtl : Nat := 2 ^ 31 + 2 ^ 29 + 2 ^ 28 + 2 ^ 26

/-- Entry `x` holds the learn `l` in both replicas, settled and dynamic. -/
def HoldsLearn (l : Learn) (x : Nat) (t : State) : Prop :=
  ∀ v, v < 2 → catValid t v x = true ∧ catKey t v x = slice l.key 0 20 ∧ catResult t v x = l.result ∧
    bit (catCtl t v x) 30 = false ∧ (catVer t v x).settled = true ∧ (catVer t v x).mortal = false

theorem HoldsLearn.of_tab {l : Learn} {x : Nat} {s t : State} (h : HoldsLearn l x s) (ht : t.tab = s.tab) : HoldsLearn l x t := by
  intro v hv
  rw [catValid_congr ht, catKey_congr ht, catResult_congr ht, catCtl_congr ht, catVer_congr ht]
  exact h v hv

theorem holdsLearn_putEntryBoth {l : Learn} {x : Nat} {s : State} (hm : s.tab.merges = []) (hx : x < 0x102000) :
    HoldsLearn l x (putEntryBoth x l.key l.result.toNat learnedCtl s) := by
  intro v hv
  have hctl := catCtl_putEntryBoth l.key l.result.toNat learnedCtl hm hx hv
  refine ⟨?_, catKey_putEntryBoth _ _ _ hm hx hv, ?_, ?_, ?_, ?_⟩
  · rw [catValid, hctl]
    decide
  · rw [catResult_putEntryBoth _ _ _ hm hx hv, BitVec.ofNat_toNat, BitVec.setWidth_eq]
  · rw [hctl]
    decide
  · rw [catVer, hctl]
    decide
  · rw [catVer, hctl]
    decide

/-- The outcomes of a learn whose candidates can be read, in the state `u` that its reads leave. The search stays behind variables here: the
kernel compares two matches by evaluating what they match on, and it cannot evaluate a search. -/
theorem accession_readable {w : Nat} {l : Learn} {s u : State} (hu : catReads w l.key s = u) (hr : catUnreadable u w l.key = none) :
    (catMatches u w l.key = [] → ∀ x, freeSlot u w l.key = some x → accession w l s =
      catEvent w 0 x l.key l.result.toNat (bump (CAT_CNT w 2) (putEntryBoth x l.key l.result.toNat learnedCtl u))) ∧
    (catMatches u w l.key = [] → freeSlot u w l.key = none → accession w l s = raise (pageCAT w) 0 (bump (CAT_CNT w 5) u)) ∧
    (∀ x more, catMatches u w l.key = x :: more →
      ((x :: more).any fun y => (recVer u 0 w y).mortal || !(recVer u 0 w y).settled) = false → catResult u w x = l.result →
      accession w l s = bump (CAT_CNT w 7) (engWrite (catAddr w x + 28) [setFld (catCtl u w x) 29 29 1] u)) := by
  obtain ⟨learn, hlearn⟩ : ∃ F, F = accession := ⟨_, rfl⟩
  obtain ⟨reads, hreads⟩ : ∃ F, F = catReads := ⟨_, rfl⟩
  obtain ⟨unreadable, hunreadable⟩ : ∃ F, F = catUnreadable := ⟨_, rfl⟩
  obtain ⟨found, hfound⟩ : ∃ F, F = catMatches := ⟨_, rfl⟩
  obtain ⟨slot, hslot⟩ : ∃ F, F = freeSlot := ⟨_, rfl⟩
  rw [← hreads] at hu
  rw [← hunreadable] at hr
  rw [← hfound, ← hslot, ← hlearn]
  delta accession at hlearn
  rw [← hreads, ← hunreadable, ← hfound, ← hslot] at hlearn
  rw [hlearn]
  refine ⟨fun hk x hx => ?_, fun hk hx => ?_, fun x more hk hv he => ?_⟩
  · simp only [hu, hr, hk, hx, List.any_nil, Bool.false_eq_true, if_false, learnedCtl]
  · simp only [hu, hr, hk, hx, List.any_nil, Bool.false_eq_true, if_false]
  · simp only [hu, hr, hk, hv, he, Bool.false_eq_true, if_false, if_true]

section
variable {w : Wing} {l : Learn} {s : State} (hr : catUnreadable s w l.key = none)
include hr

/-- A learn of a new key ends with its entry written and counted; the other learns stay. -/
theorem endLearn_accession_new (hm : s.tab.merges = []) (hk : catMatches s w l.key = []) {x : Nat} (hx : freeSlot s w l.key = some x) :
    let t := endLearn w l (accession w l s)
    HoldsLearn l x t ∧ ctr t (CAT_CNT w 2) = (ctr s (CAT_CNT w 2) + 1) % 2 ^ 64 ∧ t.cat.learnQ = s.cat.learnQ ∧ t.cat.retry = s.cat.retry := by
  have hread := readsCounted_catReads w l.key s
  have hm' : (catReads w l.key s).tab.merges = [] := by rw [hread.notes.tab, hm]
  have hput := (catStays_putEntryBoth (cs := [CAT_CNT w 13, CAT_CNT w 2]) x l.key l.result.toNat learnedCtl hm').after hread.stays
  obtain ⟨hnew, -, -⟩ := accession_readable rfl ((hread.sees.unreadable _ _).trans hr)
  have hbump := (catStays_bump (a := CAT_CNT w 2) (cs := [CAT_CNT w 13, CAT_CNT w 2]) (.inl (by simp)) _).after hput
  have hevent := catStays_catEvent (w := w) (cs := [CAT_CNT w 13]) (by simp) 0 x l.key l.result.toNat
    (bump (CAT_CNT w 2) (putEntryBoth x l.key l.result.toNat learnedCtl (catReads w l.key s)))
  rw [hnew ((hread.sees.matches _ _).trans hk) x ((hread.sees.freeSlot _ _).trans hx)]
  refine ⟨?_, ?_, ?_, ?_⟩
  · exact (holdsLearn_putEntryBoth hm' (freeSlot_lt hx)).of_tab (by rw [endLearn_tab, catEvent_tab, bump_tab])
  · have hon := onCatalogue_cnt (i := 2) w.isLt (by decide)
    have hne : CAT_CNT w 2 ∉ [CAT_CNT w 13] := by simpa using catCnt_ne (w := w.val) (i := 2) (j := 13) (by decide)
    have hcount := (catStays_putEntryBoth (cs := []) x l.key l.result.toNat learnedCtl hm').ctrs _ hon (by simp)
    rw [(catStays_endLearn (cs := []) _ _ _).ctrs _ hon (by simp), hevent.ctrs _ hon hne, ctr_bump, if_pos rfl, hcount, hread.ctrs]
  · rw [(catStays_endLearn (cs := []) _ _ _).learnQ, hevent.learnQ, hbump.learnQ]
  · rw [(catStays_endLearn (cs := []) _ _ _).retry, hevent.retry, hbump.retry]

theorem endLearn_accession_full (hk : catMatches s w l.key = []) (hx : freeSlot s w l.key = none) :
    let t := endLearn w l (accession w l s)
    rb t (H_INT_STAT (pageCAT w)) 0 = true ∧ t.tab = s.tab ∧ ctr t (CAT_CNT w 5) = (ctr s (CAT_CNT w 5) + 1) % 2 ^ 64 := by
  have hread := readsCounted_catReads w l.key s
  have hon := onCatalogue_cnt (i := 5) w.isLt (by decide)
  obtain ⟨-, hfull, -⟩ := accession_readable rfl ((hread.sees.unreadable _ _).trans hr)
  rw [hfull ((hread.sees.matches _ _).trans hk) ((hread.sees.freeSlot _ _).trans hx)]
  refine ⟨?_, ?_, ?_⟩
  · rw [rb, rd_endLearn]
    exact rb_raise_self _ _ (by decide)
  · rw [endLearn_tab, raise_tab, bump_tab, hread.notes.tab]
  · rw [(catStays_endLearn (cs := []) _ _ _).ctrs _ hon (by simp), (catStays_raise (cs := []) _ _ _).ctrs _ hon (by simp), ctr_bump,
      if_pos rfl, hread.ctrs]

theorem endLearn_accession_known (hm : s.tab.merges = []) {x : Nat} {more : List Nat} (hk : catMatches s w l.key = x :: more)
    (hv : ((x :: more).any fun y => (recVer s 0 w y).mortal || !(recVer s 0 w y).settled) = false) (he : catResult s w x = l.result) :
    let t := endLearn w l (accession w l s)
    bit (catCtl t w x) 29 = true ∧ catResult t w x = catResult s w x ∧ ctr t (CAT_CNT w 7) = (ctr s (CAT_CNT w 7) + 1) % 2 ^ 64 := by
  have hread := readsCounted_catReads w l.key s
  have hm' : (catReads w l.key s).tab.merges = [] := by rw [hread.notes.tab, hm]
  have hlt := catAddr_lt w.isLt (catMatches_spec (hk ▸ List.mem_cons_self : x ∈ catMatches s w l.key)).1
  have hon := onCatalogue_cnt (i := 7) w.isLt (by decide)
  have hver : ∀ y, recVer (catReads w l.key s) 0 w y = recVer s 0 w y := fun y => by
    rw [recVer, recVer, tw_congr hread.notes.tab, tw_congr hread.notes.tab]
  obtain ⟨-, -, hknown⟩ := accession_readable rfl ((hread.sees.unreadable _ _).trans hr)
  rw [hknown x more ((hread.sees.matches _ _).trans hk) (by simpa only [hver] using hv) ((catResult_congr hread.notes.tab _ _).trans he)]
  refine ⟨?_, ?_, ?_⟩
  · rw [catCtl_congr (endLearn_tab _ _ _), catCtl_congr (bump_tab _ _), catCtl, tw_engWrite_one _ _ hm', if_pos rfl,
      and_wordMask_cat (by omega), bit_setFld_one _ _ _ (by decide)]
    rfl
  · rw [catResult_congr (endLearn_tab _ _ _), catResult_congr (bump_tab _ _), catResult, tw_engWrite_one _ _ hm', if_neg (by omega),
      tw_engWrite_one _ _ hm', if_neg (by omega), ← catResult, catResult_congr hread.notes.tab]
  · rw [(catStays_endLearn (cs := []) _ _ _).ctrs _ hon (by simp), ctr_bump, if_pos rfl,
      (catStays_engWrite (cs := []) _ _ hm').ctrs _ hon (by simp), hread.ctrs]

end

/-! ## ACCESSION_LEARN and LEARN_RETRY -/

/-- The next learn of wing `w` taken from its queue. -/
def takeLearn (w : Wing) (rest : List Learn) (s : State) : State :=
  { s with cat := { s.cat with learnQ := sPut [] w.val rest s.cat.learnQ } }

/-- The learn that waits for its retry taken. -/
def takeRetry (w : Wing) (s : State) : State := { s with cat := { s.cat with retry := sPut none w.val none s.cat.retry } }

theorem catSees_takeLearn (w : Wing) (rest : List Learn) (s : State) : CatSees s (takeLearn w rest s) := ⟨rfl, rfl, rfl, fun _ => rfl⟩

theorem catSees_takeRetry (w : Wing) (s : State) : CatSees s (takeRetry w s) := ⟨rfl, rfl, rfl, fun _ => rfl⟩

/-- A learn that waits for its one retry (R177). -/
def waitRetry (w : Wing) (l : Learn) (s : State) : State := { s with cat := { s.cat with retry := sPut none w.val (some l) s.cat.retry } }

theorem exec_accessionLearn_cons {w : Wing} {l : Learn} {rest : List Learn} {s : State} (hq : sGet [] w.val s.cat.learnQ = l :: rest) :
    exec (.accessionLearn w) s = if (!accessionOn s w) = true then .next s
      else if meetsCmd s w l = true then
        if (sGet none w.val s.cat.retry).isSome = true then .next s else .next (waitRetry w l (settle (takeLearn w rest s)))
      else .next (endLearn w l (accession w l (settle (takeLearn w rest s)))) := by
  show execAccessionLearn w s = _
  rw [execAccessionLearn, hq]
  rfl

theorem exec_learnRetry_some {w : Wing} {l : Learn} {s : State} (hq : sGet none w.val s.cat.retry = some l) :
    exec (.learnRetry w) s = if meetsCmd s w l = true then .next (endLearn w l (bump (CAT_CNT w 8) (settle (takeRetry w s))))
      else .next (endLearn w l (accession w l (settle (takeRetry w s)))) := by
  show execLearnRetry w s = _
  rw [execLearnRetry, hq]
  rfl

section
variable {w : Wing} {l : Learn} {s : State} (hm : s.tab.merges = [])
include hm

theorem exec_accessionLearn_meets {rest : List Learn} (hq : sGet [] w.val s.cat.learnQ = l :: rest) (hon : accessionOn s w = true)
    (hmeet : meetsCmd s w l = true) (hret : sGet none w.val s.cat.retry = none) :
    exec (.accessionLearn w) s = .next (waitRetry w l (takeLearn w rest s)) := by
  rw [exec_accessionLearn_cons hq, hon, hmeet, hret, settle_none (takeLearn w rest s) hm]
  rfl

theorem exec_accessionLearn_runs {rest : List Learn} (hq : sGet [] w.val s.cat.learnQ = l :: rest) (hon : accessionOn s w = true)
    (hmeet : meetsCmd s w l = false) :
    exec (.accessionLearn w) s = .next (endLearn w l (accession w l (takeLearn w rest s))) := by
  rw [exec_accessionLearn_cons hq, hon, hmeet, settle_none (takeLearn w rest s) hm]
  rfl

theorem exec_learnRetry_meets (hret : sGet none w.val s.cat.retry = some l) (hmeet : meetsCmd s w l = true) :
    exec (.learnRetry w) s = .next (endLearn w l (bump (CAT_CNT w 8) (takeRetry w s))) := by
  rw [exec_learnRetry_some hret, hmeet, settle_none (takeRetry w s) hm, if_pos rfl]

theorem exec_learnRetry_runs (hret : sGet none w.val s.cat.retry = some l) (hmeet : meetsCmd s w l = false) :
    exec (.learnRetry w) s = .next (endLearn w l (accession w l (takeRetry w s))) := by
  rw [exec_learnRetry_some hret, hmeet, settle_none (takeRetry w s) hm, if_neg Bool.false_ne_true]

end

theorem exec_accessionLearn_off {w : Wing} {s : State} (hoff : accessionOn s w = false) : exec (.accessionLearn w) s = .next s := by
  cases hq : sGet [] w.val s.cat.learnQ with
  | nil =>
    show execAccessionLearn w s = _
    rw [execAccessionLearn, hq]
  | cons l rest =>
    rw [exec_accessionLearn_cons hq, hoff]
    rfl

theorem claims_accessionLearns : Claims.AccessionLearns := by
  intro w l s hm
  refine ⟨fun rest hq hon => ⟨fun hmeet hret => ?_, fun hmeet hr => ?_⟩, exec_accessionLearn_off, fun hret => ⟨fun hmeet => ?_, ?_⟩⟩
  · exact ⟨_, exec_accessionLearn_meets hm hq hon hmeet hret, sGet_sPut_same _ _ _ _, sGet_sPut_same _ _ _ _, rfl⟩
  · have hsees := catSees_takeLearn w rest s
    have hexec := exec_accessionLearn_runs hm hq hon hmeet
    rw [← hsees.unreadable] at hr
    refine ⟨fun hk x hx => ?_, fun hk hx => ?_, fun x more hk hv he => ?_⟩
    · rw [← hsees.matches] at hk
      rw [← hsees.freeSlot] at hx
      obtain ⟨hnew, hcount, hqueue, -⟩ := endLearn_accession_new hr hm hk hx
      exact ⟨_, hexec, ⟨hnew, hcount⟩, by rw [hqueue]; exact sGet_sPut_same _ _ _ _⟩
    · rw [← hsees.matches] at hk
      rw [← hsees.freeSlot] at hx
      exact ⟨_, hexec, endLearn_accession_full hr hk hx⟩
    · rw [← hsees.matches] at hk
      exact ⟨_, hexec, endLearn_accession_known hr hm hk hv he⟩
  · refine ⟨_, exec_learnRetry_meets hm hret hmeet, ?_, ?_, ?_⟩
    · rw [(catStays_endLearn (cs := []) _ _ _).retry, bump_cat]
      exact sGet_sPut_same _ _ _ _
    · rw [endLearn_tab, bump_tab]
      rfl
    · rw [(catStays_endLearn (cs := []) _ _ _).ctrs _ (onCatalogue_cnt w.isLt (by decide)) (by simp), ctr_bump, if_pos rfl]
      rfl
  · intro hmeet hr hk x hx
    have hsees := catSees_takeRetry w s
    rw [← hsees.unreadable] at hr
    rw [← hsees.matches] at hk
    rw [← hsees.freeSlot] at hx
    obtain ⟨hnew, hcount, -, hretry⟩ := endLearn_accession_new hr hm hk hx
    exact ⟨_, exec_learnRetry_runs hm hret hmeet, ⟨hnew, hcount⟩, by rw [hretry]; exact sGet_sPut_same _ _ _ _⟩

end Sys2Proof.Machine
end

section
/-!
SUPPORT. Deaccession: what a pass over the entries leaves of each, and the writes of its configuration (R148, R173-R175).
-/
namespace Sys2Proof.Machine

/-! ## The entries a pass visits -/

theorem pairwise_of_sRising {α : Type} : ∀ (l : List (Nat × α)) (lo : Option Nat), sRising lo l = true →
    (∀ m, lo = some m → ∀ e ∈ l, m < e.1) ∧ l.Pairwise (fun a b => a.1 < b.1)
  | [], _, _ => ⟨fun _ _ _ he => absurd he List.not_mem_nil, List.Pairwise.nil⟩
  | (k, v) :: r, lo, h => by
    simp only [sRising, Bool.and_eq_true] at h
    obtain ⟨hlo, hr⟩ := h
    obtain ⟨habove, hpair⟩ := pairwise_of_sRising r (some k) hr
    refine ⟨?_, List.pairwise_cons.mpr ⟨habove k rfl, hpair⟩⟩
    rintro m rfl e he
    have hmk : m < k := by simpa using hlo
    rcases List.mem_cons.mp he with rfl | he
    · exact hmk
    · exact Nat.lt_trans hmk (habove k rfl e he)

/-- A store lists every key that reads otherwise than unlisted. -/
theorem mem_of_sGet_ne {α : Type} {d : α} {k : Nat} : ∀ {l : List (Nat × α)}, sGet d k l ≠ d → (k, sGet d k l) ∈ l
  | [], h => absurd rfl h
  | (j, v) :: r, h => by
    rw [sGet] at h ⊢
    split
    · next hj => rw [hj]; exact List.mem_cons_self
    · next hj =>
      rw [if_neg hj] at h
      exact List.mem_cons_of_mem _ (mem_of_sGet_ne h)

/-- Each entry is visited once. -/
theorem catListed_nodup {s : State} (h : Memory.wf s = true) : (catListed s).Nodup := by
  have hrising : sRising none s.tab.words = true := by
    simp only [Memory.wf, sWf, Bool.and_eq_true] at h
    exact h.1.1
  refine List.pairwise_map.mpr (List.Pairwise.imp_of_mem (fun {a b} ha hb hab => ?_)
    ((pairwise_of_sRising _ _ hrising).2.filter _))
  have hmod : ∀ {e : Nat × W32}, e ∈ s.tab.words.filter (fun e => decide (e.1 < catAddr 0 0x102000) && e.1 % 32 == 28 && bit e.2 31) →
      e.1 % 32 = 28 := fun he => by
    have hp := (List.mem_filter.mp he).2
    simp only [Bool.and_eq_true, beq_iff_eq] at hp
    exact hp.1.2
  have h1 := hmod ha
  have h2 := hmod hb
  omega

theorem catListed_lt {s : State} {x : Nat} (h : x ∈ catListed s) : x < 0x102000 := by
  obtain ⟨e, he, rfl⟩ := List.mem_map.mp h
  have hp := (List.mem_filter.mp he).2
  simp only [Bool.and_eq_true, decide_eq_true_eq] at hp
  have hlt := hp.1.1
  rw [catAddr] at hlt
  omega

theorem mem_catListed {s : State} {x : Nat} (hx : x < 0x102000) (hv : catValid s 0 x = true) : x ∈ catListed s := by
  have hne : sGet 0 (catAddr 0 x + 28) s.tab.words ≠ 0 := fun h => by
    rw [catValid, catCtl, tw, h] at hv
    exact absurd hv (by decide)
  have haddr : catAddr 0 x + 28 = 32 * x + 28 := by rw [catAddr]; omega
  have htop : catAddr 0 0x102000 = 32 * 0x102000 := rfl
  refine List.mem_map.mpr ⟨_, List.mem_filter.mpr ⟨mem_of_sGet_ne hne, ?_⟩, ?_⟩
  · have hlt : catAddr 0 x + 28 < catAddr 0 0x102000 := by omega
    have hmod : (catAddr 0 x + 28) % 32 = 28 := by omega
    have hbit : bit (sGet 0 (catAddr 0 x + 28) s.tab.words) 31 = true := hv
    rw [decide_eq_true hlt, hmod, hbit]
    rfl
  · show (catAddr 0 x + 28) / 32 = x
    omega

/-! ## One entry -/

/-- The control word of entry `x` changed in both replicas, each from its own. -/
def editCtl (x : Nat) (g : W32 → W32) (s : State) : State := editBoth (fun w => catAddr w x + 28) g s

section
variable {x : Nat} (g : W32 → W32) {s : State} (hm : s.tab.merges = []) (hx : x < 0x102000)
include hm hx

theorem catCtl_editCtl_same {v : Nat} (hv : v < 2) : catCtl (editCtl x g s) v x = g (catCtl s v x) := by
  have hlt : ∀ {w}, w < 2 → catAddr w x + 28 < 0x8000000 := fun hw => by
    have := catAddr_lt hw hx
    omega
  have hne : catAddr 0 x + 28 ≠ catAddr 1 x + 28 := fun h => absurd (catAddr_inj hx hx (by decide) (by decide) h).1 (by decide)
  rw [editCtl, editBoth, catCtl, tw_engWrite_one _ _ (engWrite_merges _ _ _), catCtl]
  rcases (by omega : v = 0 ∨ v = 1) with rfl | rfl
  · rw [if_neg hne, tw_engWrite_one _ _ hm, if_pos rfl, and_wordMask_cat (hlt (by decide))]
  · rw [if_pos rfl, and_wordMask_cat (hlt (by decide)), tw_engWrite_one _ _ hm, if_neg hne.symm]

theorem catCtl_editCtl_ne {v y : Nat} (hy : y < 0x102000) (hne : y ≠ x) : catCtl (editCtl x g s) v y = catCtl s v y := by
  have hat : ∀ w, catAddr v y + 28 ≠ catAddr w x + 28 := fun w h => hne (catAddr_inj hy hx (by decide) (by decide) h).2.1
  rw [editCtl, editBoth, catCtl, tw_engWrite_one _ _ (engWrite_merges _ _ _), if_neg (hat 1), tw_engWrite_one _ _ hm, if_neg (hat 0),
    catCtl]

theorem readable_editCtl (h0 : readable s (catAddr 0 x) = true) (h1 : readable s (catAddr 1 x) = true) {a : Nat}
    (ha : readable s a = true) : readable (editCtl x g s) a = true := by
  have hbase : ∀ {w} (u : State), w < 2 → readable u (catAddr w x + 28) = readable u (catAddr w x) := fun {w} u hw => by
    have hlt := catAddr_lt hw hx
    have hword : eccBase (catAddr w x + 28) = eccBase (catAddr w x) := by
      rw [eccBase_cat (by omega), eccBase_cat (by omega), catAddr]
      omega
    rw [readable, readable, rdStat, rdStat, eccOf, eccOf, hword, eccLimit_cat (by omega), eccLimit_cat (by omega)]
  have hfirst : ∀ {b}, readable s b = true → readable (engWrite (catAddr 0 x + 28) [g (tw s (catAddr 0 x + 28))] s) b = true := fun hb =>
    readable_engWrite _ _ hm ((hbase s (by decide)).trans h0) hb
  exact readable_engWrite _ _ (engWrite_merges _ _ _) ((hbase _ (by decide)).trans (hfirst h1)) (hfirst ha)

end

/-- What a pass may count: the entries it invalidates, and the events it loses. -/
def passCounters : List Nat := [CAT_CNT 0 9, CAT_CNT 0 13]

theorem catStays_editCtl (x : Nat) (g : W32 → W32) {s : State} (hm : s.tab.merges = []) : CatStays passCounters s (editCtl x g s) :=
  (catStays_engWrite _ _ (engWrite_merges _ _ _)).after (catStays_engWrite _ _ hm)

/-- The age of entry `x`, and the age at which it is invalidated (R174, R175). -/
def entryAge (s : State) (x : Nat) : Nat := max (fld (catCtl s 0 x) 21 16) (fld (catCtl s 1 x) 21 16)
def ageLimit (s : State) : Nat := max 1 (rf s (CAT_AGE_CFG 0) 5 0)

/-- Was entry `x` hit in either replica? -/
def entryHit (s : State) (x : Nat) : Bool := bit (catCtl s 0 x) 29 || bit (catCtl s 1 x) 29

/-- What Deaccession makes of the control word of entry `x`. -/
def agedCtl (s : State) (x : Nat) (v : W32) : W32 :=
  if entryHit s x then setFld (setFld v 29 29 0) 21 16 0
  else if entryAge s x + 1 < ageLimit s then setFld v 21 16 (entryAge s x + 1) else setFld v 31 31 0

/-- May Deaccession act on entry `x`: readable in both replicas, and valid, dynamic, not mortal and settled in Wing E's? -/
def mayAge (s : State) (x : Nat) : Bool :=
  readable s (catAddr 0 x) && readable s (catAddr 1 x) &&
    (bit (catCtl s 0 x) 31 && !bit (catCtl s 0 x) 30 && !bit (catCtl s 0 x) 27 && bit (catCtl s 0 x) 26)

/-- Deaccession writes no other word than the control words of the entry, and those of an entry it may act on. -/
theorem deaccess_acts {x : Nat} {s : State} (h : mayAge s x = true) :
    CatStays passCounters (editCtl x (agedCtl s x) s) (deaccess x s) ∧ (deaccess x s).tab = (editCtl x (agedCtl s x) s).tab := by
  simp only [mayAge, Bool.and_eq_true, Bool.not_eq_true'] at h
  obtain ⟨⟨h0, h1⟩, ⟨⟨hvalid, hstatic⟩, hmortal⟩, hsettled⟩ := h
  have hcount : ∀ u, CatStays passCounters u (bump (CAT_CNT 0 9) u) := catStays_bump (.inl List.mem_cons_self)
  unfold deaccess
  simp only [h0, h1, hvalid, hstatic, hmortal, hsettled, Bool.not_true, Bool.or_self, Bool.false_eq_true, if_false]
  split
  case isTrue hhit =>
    have hg : agedCtl s x = fun v => setFld (setFld v 29 29 0) 21 16 0 := funext fun v => if_pos hhit
    rw [hg]
    exact ⟨.refl _, rfl⟩
  case isFalse hhit =>
    split
    case isTrue hage =>
      have hg : agedCtl s x = fun v => setFld v 21 16 (entryAge s x + 1) := funext fun v => (if_neg hhit).trans (if_pos hage)
      rw [hg]
      exact ⟨.refl _, rfl⟩
    case isFalse hage =>
      have hg : agedCtl s x = fun v => setFld v 31 31 0 := funext fun v => (if_neg hhit).trans (if_neg hage)
      rw [hg]
      exact ⟨(catStays_catEvent (List.mem_cons_of_mem _ List.mem_cons_self) _ _ _ _ _).after (hcount _), by rw [catEvent_tab, bump_tab]; rfl⟩

theorem deaccess_passes {x : Nat} {s : State} (h : mayAge s x = false) :
    CatStays passCounters s (deaccess x s) ∧ (deaccess x s).tab = s.tab := by
  unfold deaccess
  dsimp only
  split
  · have hfirst : CatStays passCounters s (if rdStat s (catAddr 0 x) = .ue then noteRead (catAddr 0 x) s else s) :=
      (catStays_noteRead _ _).ite
    have htab : OnlyNotes s (if rdStat s (catAddr 0 x) = .ue then noteRead (catAddr 0 x) s else s) := (onlyNotes_noteRead _ _).ite
    have hcounted := readsCounted_noteCe (catAddr 1 x) (if rdStat s (catAddr 0 x) = .ue then noteRead (catAddr 0 x) s else s)
    exact ⟨hcounted.stays.after hfirst, hcounted.notes.tab.trans htab.tab⟩
  · next hread =>
    split
    · exact ⟨.refl s, rfl⟩
    · next hctl =>
      exfalso
      simp only [Bool.or_eq_true, Bool.not_eq_true', not_or, Bool.not_eq_false, Bool.not_eq_true] at hread hctl
      rw [mayAge, hread.1, hread.2, hctl.1.1.1, hctl.1.1.2, hctl.1.2, hctl.2] at h
      exact absurd h (by decide)

/-- From `s` to `t` the control words of entry `x` stay, readable words stay readable, and no merge waits. -/
structure EntryKept (x : Nat) (s t : State) : Prop where
  stays : CatStays passCounters s t
  merges : t.tab.merges = []
  ctl : ∀ v, v < 2 → catCtl t v x = catCtl s v x
  readable : ∀ a, readable s a = true → readable t a = true

theorem EntryKept.after {x : Nat} {s t u : State} (g : EntryKept x t u) (h : EntryKept x s t) : EntryKept x s u where
  stays := g.stays.after h.stays
  merges := g.merges
  ctl v hv := (g.ctl v hv).trans (h.ctl v hv)
  readable a ha := g.readable a (h.readable a ha)

/-- Deaccession's action on another entry. -/
theorem deaccess_keeps {x y : Nat} {s : State} (hm : s.tab.merges = []) (hx : x < 0x102000) (hy : y < 0x102000) (hne : x ≠ y) :
    EntryKept x s (deaccess y s) := by
  cases h : mayAge s y with
  | false =>
    obtain ⟨hstays, htab⟩ := deaccess_passes h
    exact ⟨hstays, by rw [htab, hm], fun v _ => catCtl_congr htab v x, fun a ha => (readable_congr htab a).trans ha⟩
  | true =>
    obtain ⟨hstays, htab⟩ := deaccess_acts h
    simp only [mayAge, Bool.and_eq_true] at h
    obtain ⟨⟨h0, h1⟩, -⟩ := h
    exact ⟨hstays.after (catStays_editCtl _ _ hm), by rw [htab]; exact engWrite_merges _ _ _,
      fun v _ => (catCtl_congr htab v x).trans (catCtl_editCtl_ne _ hm hy hx hne),
      fun a ha => (readable_congr htab a).trans (readable_editCtl _ hm hy h0 h1 ha)⟩

theorem entryKept_foldl {x : Nat} (hx : x < 0x102000) (l : List Nat) (hl : ∀ y ∈ l, y < 0x102000 ∧ x ≠ y) {s : State}
    (hm : s.tab.merges = []) : EntryKept x s (l.foldl (fun a y => deaccess y a) s) := by
  induction l generalizing s with
  | nil => exact ⟨.refl s, hm, fun _ _ => rfl, fun _ h => h⟩
  | cons y r ih =>
    obtain ⟨hy, hne⟩ := hl y List.mem_cons_self
    have hfirst := deaccess_keeps hm hx hy hne
    exact (ih (fun z hz => hl z (List.mem_cons_of_mem _ hz)) hfirst.merges).after hfirst

theorem deaccess_merges {y : Nat} {s : State} (hm : s.tab.merges = []) : (deaccess y s).tab.merges = [] := by
  cases h : mayAge s y with
  | false => rw [(deaccess_passes h).2, hm]
  | true =>
    rw [(deaccess_acts h).2]
    exact engWrite_merges _ _ _

theorem catStays_deaccess {y : Nat} {s : State} (hm : s.tab.merges = []) : CatStays passCounters s (deaccess y s) := by
  cases h : mayAge s y with
  | false => exact (deaccess_passes h).1
  | true => exact (deaccess_acts h).1.after (catStays_editCtl _ _ hm)

/-! ## A pass -/

/-- A pass ages each entry it may act on, once, by the entry's own words as the pass began. -/
theorem catCtl_pass {l : List Nat} (hl : ∀ y ∈ l, y < 0x102000) (hnd : l.Nodup) {x : Nat} (hx : x ∈ l) {s : State} (hm : s.tab.merges = [])
    (hage : mayAge s x = true) {v : Nat} (hv : v < 2) :
    catCtl (l.foldl (fun a y => deaccess y a) s) v x = agedCtl s x (catCtl s v x) := by
  obtain ⟨before, behind, rfl⟩ := List.append_of_mem hx
  have hxlt := hl x hx
  have hnd' := List.nodup_append.mp hnd
  have hbefore : ∀ y ∈ before, y < 0x102000 ∧ x ≠ y := fun y hy =>
    ⟨hl y (List.mem_append_left _ hy), fun e => hnd'.2.2 y hy x List.mem_cons_self e.symm⟩
  have hbehind : ∀ y ∈ behind, y < 0x102000 ∧ x ≠ y := fun y hy =>
    ⟨hl y (List.mem_append_right _ (List.mem_cons_of_mem _ hy)), fun e => (List.nodup_cons.mp hnd'.2.1).1 (e ▸ hy)⟩
  rw [List.foldl_append, List.foldl_cons]
  have hkept := entryKept_foldl hxlt before hbefore hm
  generalize before.foldl (fun a y => deaccess y a) s = u at hkept
  have h0 := hkept.ctl 0 (by decide)
  have h1 := hkept.ctl 1 (by decide)
  have hu : mayAge u x = true := by
    simp only [mayAge, Bool.and_eq_true] at hage ⊢
    obtain ⟨⟨hr0, hr1⟩, hctl⟩ := hage
    rw [h0]
    exact ⟨⟨hkept.readable _ hr0, hkept.readable _ hr1⟩, hctl⟩
  have hg : agedCtl u x = agedCtl s x := funext fun w => by
    have hlim : ageLimit u = ageLimit s := by
      rw [ageLimit, ageLimit, rf, rf, hkept.stays.regs (CAT_AGE_CFG 0) (onCatalogue_bar0 (by decide) (by decide)) (by decide)]
    rw [agedCtl, agedCtl, entryHit, entryHit, entryAge, entryAge, h0, h1, hlim]
  rw [(entryKept_foldl hxlt behind hbehind (deaccess_merges hkept.merges)).ctl v hv, catCtl_congr (deaccess_acts hu).2,
    catCtl_editCtl_same _ hkept.merges hxlt hv, hg, hkept.ctl v hv]

theorem catStays_pass (l : List Nat) {s : State} (hm : s.tab.merges = []) :
    CatStays passCounters s (l.foldl (fun a y => deaccess y a) s) := by
  induction l generalizing s with
  | nil => exact .refl s
  | cons y r ih => exact (ih (deaccess_merges hm)).after (catStays_deaccess hm)

/-- DEACCESSION_PASS runs a pass, counts it and reports its end. -/
theorem exec_deaccessionPass {s : State} (hm : s.tab.merges = []) (hon : isOn s (pageCAT 0) = true) (hen : rb s (CAT_CFG 0) 0 = true) :
    exec .deaccessionPass s = .next (raise (pageCAT 0) 6 (wr (CAT_AGE_STAT 0)
      (rd ((catListed s).foldl (fun a x => deaccess x a) s) (CAT_AGE_STAT 0) + 1) ((catListed s).foldl (fun a x => deaccess x a) s))) := by
  show execDeaccessionPass s = _
  rw [execDeaccessionPass, hon, hen, settle_none s hm]
  rfl

/-- A hit clears an entry's hit bit and age. -/
theorem agedCtl_hit {s : State} {x : Nat} (h : entryHit s x = true) (v : W32) :
    bit (agedCtl s x v) 29 = false ∧ fld (agedCtl s x v) 21 16 = 0 := by
  rw [agedCtl, if_pos h]
  constructor
  · rw [bit_setFld_ne _ _ _ _ _ (by decide) (by decide) (by decide), bit_setFld_one _ _ _ (by decide)]
    rfl
  · exact (fld_setFld_same _ _ _ _ (by decide) (by decide)).trans (Nat.zero_mod _)

/-- Without a hit an entry grows older. -/
theorem agedCtl_older {s : State} {x : Nat} (h : entryHit s x = false) (hage : entryAge s x + 1 < ageLimit s) (v : W32) :
    fld (agedCtl s x v) 21 16 = entryAge s x + 1 ∧ bit (agedCtl s x v) 31 = bit v 31 := by
  have hlim : rf s (CAT_AGE_CFG 0) 5 0 < 64 := fld_lt _ 5 0
  rw [agedCtl, h, if_neg Bool.false_ne_true, if_pos hage]
  constructor
  · rw [fld_setFld_same _ _ _ _ (by decide) (by decide)]
    rw [ageLimit] at hage
    omega
  · exact bit_setFld_ne _ _ _ _ _ (by decide) (by decide) (by decide)

/-- At the limit it is invalid. -/
theorem agedCtl_old {s : State} {x : Nat} (h : entryHit s x = false) (hage : ageLimit s ≤ entryAge s x + 1) (v : W32) :
    bit (agedCtl s x v) 31 = false := by
  rw [agedCtl, h, if_neg Bool.false_ne_true, if_neg (by omega), bit_setFld_one _ _ _ (by decide)]
  rfl

/-! ## Configuration writes (R148, R173) -/

/-- The Catalogue's pages belong to no gallery. -/
theorem noteAccess_catPage (w : Wing) {x : Nat} (hx : x < 0x10000) (s : State) : noteAccess (bar0 (pageCAT w) x) s = s := by
  have hpage : pageBlk s.part (pageCAT w) = some (.cat, 0, w.val) := by
    rcases (by omega : w.val = 0 ∨ w.val = 1) with h | h
    · rw [h]
      simp [pageBlk, pageCAT]
    · rw [h]
      simp [pageBlk, pageCAT]
  exact noteAccess_plain _ s (by rw [page_bar0 _ hx, pageGallery, hpage])

theorem exec_catCfgWrite {w : Wing} {v : W32} {s : State} (ho : reach s (CAT_CFG w) = .open) :
    exec (.catCfgWrite w v) s = .next (writeCatCfg w v s) :=
  congrArg Host.Outcome.next (hostDo_open _ _ _ ho (noteAccess_catPage w (by decide) s))

theorem exec_catAgeCfgWrite {w : Wing} {v : W32} {s : State} (ho : reach s (CAT_AGE_CFG w) = .open) :
    exec (.catAgeCfgWrite w v) s = .next (if w.val = 0 then writeAgeCfg v s else s) :=
  congrArg Host.Outcome.next (hostDo_open _ _ _ ho (noteAccess_catPage w (by decide) s))

/-- Wing W's page holds its own learn_en alone. -/
theorem writeCatCfg_west (v : W32) (s : State) : rf (writeCatCfg 1 v s) (CAT_CFG 1) 1 1 = fld v 1 1 ∧
    rf (writeCatCfg 1 v s) (CAT_CFG 0) 17 16 = rf s (CAT_CFG 0) 17 16 := by
  have hfld : fld v 1 1 < 2 := fld_lt v 1 1
  have hw : writeCatCfg 1 v s = wf (CAT_CFG 1) 1 1 (fld v 1 1) s := rfl
  rw [hw]
  exact ⟨(rf_wf_same _ _ _ _ _ (by decide) (by decide)).trans (Nat.mod_eq_of_lt hfld), rf_wf_ne _ _ _ _ _ _ (by decide)⟩

/-- While Wing E's block is ON its page takes learn_en and age_en, and refuses a change of the seed. -/
theorem writeCatCfg_east (v : W32) {s : State} (hon : isOn s (pageCAT 0) = true) :
    rf (writeCatCfg 0 v s) (CAT_CFG 0) 1 1 = fld v 1 1 ∧ rf (writeCatCfg 0 v s) (CAT_CFG 0) 17 16 = rf s (CAT_CFG 0) 17 16 ∧
      rf (writeCatCfg 0 v s) (CAT_CFG 0) 0 0 = fld v 0 0 ∧
      (fld v 17 16 ≠ rf s (CAT_CFG 0) 17 16 → rf (writeCatCfg 0 v s) (H_ERR_CAUSE (pageCAT 0)) 31 24 = 0x01) := by
  have hoff : catOff s = false := by
    have hst : blkState s (pageCAT 0) = 2 := by simpa [isOn] using hon
    rw [catOff, hst]
    rfl
  have h1 : fld v 1 1 < 2 := fld_lt v 1 1
  have h0 : fld v 0 0 < 2 := fld_lt v 0 0
  obtain ⟨u, hu⟩ : ∃ u, u = wf (CAT_CFG 0) 0 0 (fld v 0 0) (wf (CAT_CFG 0) 1 1 (fld v 1 1) s) := ⟨_, rfl⟩
  have hlearn : rf u (CAT_CFG 0) 1 1 = fld v 1 1 := by
    rw [hu, rf_wf_field_ne _ _ _ _ _ _ _ (by decide) (by decide) (by decide), rf_wf_same _ _ _ _ _ (by decide) (by decide)]
    exact Nat.mod_eq_of_lt h1
  have hseed : rf u (CAT_CFG 0) 17 16 = rf s (CAT_CFG 0) 17 16 := by
    rw [hu, rf_wf_field_ne _ _ _ _ _ _ _ (by decide) (by decide) (by decide),
      rf_wf_field_ne _ _ _ _ _ _ _ (by decide) (by decide) (by decide)]
  have hage : rf u (CAT_CFG 0) 0 0 = fld v 0 0 := by
    rw [hu, rf_wf_same _ _ _ _ _ (by decide) (by decide)]
    exact Nat.mod_eq_of_lt h0
  have hw : writeCatCfg 0 v s = if fld v 17 16 = rf s (CAT_CFG 0) 17 16 then u else recordErr (pageCAT 0) 0x01 0x100 0 u := by
    unfold writeCatCfg
    dsimp only
    rw [hoff, hu]
    rfl
  rw [hw]
  split
  case isTrue heq => exact ⟨hlearn, hseed, hage, fun hne => absurd heq hne⟩
  case isFalse =>
    have hkept : rd (recordErr (pageCAT 0) 0x01 0x100 0 u) (CAT_CFG 0) = rd u (CAT_CFG 0) :=
      regsBut_recordErr _ _ _ _ _ _ (by decide)
    refine ⟨by rw [rf, hkept]; exact hlearn, by rw [rf, hkept]; exact hseed, by rw [rf, hkept]; exact hage, fun _ => ?_⟩
    rw [rf, cause_recordErr, fld, bitsOf, w32, BitVec.toNat_ofNat]
    omega

theorem claims_deaccessionAges : Claims.DeaccessionAges := by
  intro s hm hwf hon hen
  refine ⟨?_, fun w v ho => ?_, fun w v ho => ?_⟩
  · have hstays := catStays_pass (catListed s) hm
    have hpass : ∀ {x}, x ∈ catListed s → mayAge s x = true → ∀ {v}, v < 2 →
        catCtl ((catListed s).foldl (fun a x => deaccess x a) s) v x = agedCtl s x (catCtl s v x) := fun hx hage _ hv =>
      catCtl_pass (fun _ hy => catListed_lt hy) (catListed_nodup hwf) hx hm hage hv
    have hexec := exec_deaccessionPass hm hon hen
    generalize (catListed s).foldl (fun a x => deaccess x a) s = u at hstays hpass hexec
    refine ⟨_, hexec, ?_, rb_raise_self _ _ (by decide), ?_⟩
    · have hon : onCatalogue (CAT_AGE_STAT 0) := onCatalogue_bar0 (by decide) (by decide)
      rw [rd_raise_beyond (beyondHeader_of_onCatalogue hon (by decide)), rd_wr_same, hstays.regs _ hon (by decide)]
    · intro x hx hvalid hstatic hmortal hsettled h0 h1
      have hage : mayAge s x = true := by
        have hm' : bit (catCtl s 0 x) 27 = false := hmortal
        have hs' : bit (catCtl s 0 x) 26 = true := hsettled
        have hv' : bit (catCtl s 0 x) 31 = true := hvalid
        rw [mayAge, h0, h1, hv', hstatic, hm', hs']
        rfl
      intro hit age lim w hw
      have hctl : catCtl (raise (pageCAT 0) 6 (wr (CAT_AGE_STAT 0) (rd u (CAT_AGE_STAT 0) + 1) u)) w x = agedCtl s x (catCtl s w x) := by
        rw [catCtl_congr (raise_tab _ _ _), catCtl_congr (wr_tab _ _ _), hpass (mem_catListed hx hvalid) hage hw]
      rw [catValid, hctl]
      exact ⟨fun h => agedCtl_hit h _, fun h hlt => agedCtl_older h hlt _, fun h hle => agedCtl_old h hle _⟩
  · refine ⟨_, exec_catCfgWrite ho, ?_⟩
    rcases w with ⟨_ | _ | _, hw⟩
    · obtain ⟨hlearn, hseed, hage, hcause⟩ := writeCatCfg_east v hon
      exact ⟨hlearn, hseed, fun _ => ⟨hage, hcause⟩⟩
    · obtain ⟨hlearn, hseed⟩ := writeCatCfg_west v s
      exact ⟨hlearn, hseed, fun h => absurd (congrArg Fin.val h) (by simp)⟩
    · omega
  · refine ⟨_, exec_catAgeCfgWrite ho, ?_⟩
    by_cases h : w = 0
    · subst h
      exact ⟨rd_wr_same _ _ _, regsBut_wr _ _ _⟩
    · have hv : w.val ≠ 0 := fun e => h (Fin.ext e)
      rw [if_neg hv, if_neg h]
      exact ⟨rfl, fun _ _ => rfl⟩

/-- Settles O38: a learn that finds its candidates readable writes both replicas from one search of its own, and a pass visits each listed
entry once, so an entry ages by its own words alone. -/
theorem learningAndAgeing : Obligations.LearningAndAgeing := ⟨claims_accessionLearns, claims_deaccessionAges⟩

end Sys2Proof.Machine
end

section
/-!
SUPPORT. CAT_LOOKUP: what a search leaves in its frame, and what it counts and records (R152-R158, R160, R184).
-/
namespace Sys2Proof.Machine

/-! ## The registers that a frame's lookups see (R184) -/

/-- The lookups' begin notes registers in the frame and nothing else. -/
theorem beginLookups_shape (p : Nat) (s : State) (f : Frame) : ∃ c, beginLookups p s f = { f with cfg := c } := by
  unfold beginLookups
  split
  · exact ⟨f.cfg, rfl⟩
  · exact ⟨_, rfl⟩

theorem sGet_filter_key {α : Type} (d : α) {k : Nat} {q : Nat → Bool} (hk : q k = true) :
    ∀ l : List (Nat × α), sGet d k (l.filter fun e => q e.1) = sGet d k l
  | [] => rfl
  | (j, v) :: r => by
    by_cases hj : j = k
    · subst hj
      simp [hk, sGet]
    · by_cases hq : q j = true
      · simp [hq, sGet, hj, sGet_filter_key d hk r]
      · simp [hq, sGet, hj, sGet_filter_key d hk r]

/-- Once its lookups in a block have begun, a frame sees the registers of that block's page as they stood. -/
theorem rdFor_begun {s t : State} {f g : Frame} {p a : Nat} (ha : a / 0x10000 = p) (hpart : t.part = s.part)
    (hg : g.cfg = (beginLookups p s f).cfg) : rdFor t g a = rdFor s f a := by
  rw [rdFor, rdFor, hg, beginLookups, ha, hpart]
  by_cases h : (f.cfg.any fun e => e.1 == p) = true
  · rw [if_pos h]
    cases hfind : f.cfg.find? fun e => e.1 == p with
    | some e => rfl
    | none =>
      obtain ⟨e, he, hp⟩ := List.any_eq_true.mp h
      exact absurd hp (List.find?_eq_none.mp hfind e he)
  · have hnone : (f.cfg.find? fun e => e.1 == p) = none :=
      List.find?_eq_none.mpr fun e he hp => h (List.any_eq_true.mpr ⟨e, he, hp⟩)
    rw [if_neg h, List.find?_append, hnone]
    simp only [List.find?_singleton, beq_self_eq_true, if_true, Option.none_or]
    rw [rd]
    exact sGet_filter_key (q := fun k => k / 0x10000 == p) _ (by simpa using ha) _

/-- A profile that a frame's port selects is one of sixteen. -/
theorem catProf_lt {s : State} {f : Frame} {b : Bool} {n : Nat} (h : catProf s f b = some n) : n < 16 := by
  unfold catProf at h
  dsimp only at h
  obtain ⟨-, hsome⟩ := Option.ite_none_right_eq_some.mp h
  cases b
  · cases hsome
    exact fld_lt _ 3 0
  · cases hsome
    exact fld_lt _ 7 4

theorem portWing_lt {i : Nat} (h : i < 522) : portWing i < 2 := by
  unfold portWing portGal
  split
  · omega
  · split
    · omega
    · split <;> omega

section
variable {s t : State} {f g : Frame} {n : Nat} (hn : n < 16) (hpart : t.part = s.part)
  (hg : g.cfg = (beginLookups (pageCAT (portWing f.port)) s f).cfg) (hport : g.port = f.port)
include hn hpart hg

theorem rdFor_ctrl_begun : rdFor t g (CAT_PROF_CTRL (portWing f.port) n) = rdFor s f (CAT_PROF_CTRL (portWing f.port) n) :=
  rdFor_begun (page_bar0 _ (by omega)) hpart hg

include hport

/-- The key of a lookup is made of the registers that it began with. -/
theorem catKeyOf_begun (hfv : g.fv = f.fv) : catKeyOf t g n = catKeyOf s f n := by
  have hrd : ∀ x, x < 0x10000 → rdFor t g (bar0 (pageCAT (portWing f.port)) x) = rdFor s f (bar0 (pageCAT (portWing f.port)) x) := fun x hx =>
    rdFor_begun (page_bar0 _ hx) hpart hg
  have hsel : ∀ i, selOf t g (CAT_PROF_SEL0 (portWing f.port) n) (CAT_PROF_SEL1 (portWing f.port) n) (CAT_PROF_SEL2 (portWing f.port) n) i =
      selOf s f (CAT_PROF_SEL0 (portWing f.port) n) (CAT_PROF_SEL1 (portWing f.port) n) (CAT_PROF_SEL2 (portWing f.port) n) i := fun i => by
    unfold selOf
    dsimp only
    split
    · rw [rfFor, rfFor, CAT_PROF_SEL0, hrd _ (by omega)]
    · split
      · rw [rfFor, rfFor, CAT_PROF_SEL1, hrd _ (by omega)]
      · rw [rfFor, rfFor, CAT_PROF_SEL2, hrd _ (by omega)]
  have hslot : ∀ k, slotBytes g k = slotBytes f k := fun k => by rw [slotBytes, slotBytes, slotOf, slotOf, hfv]
  have hctrl : rdFor t g (CAT_PROF_CTRL (portWing f.port) n) = rdFor s f (CAT_PROF_CTRL (portWing f.port) n) := hrd _ (by omega)
  rw [catKeyOf, catKeyOf, hport, hctrl, selBytes, selBytes, funext fun i => (hslot _).trans (congrArg (slotBytes f) (hsel i))]

theorem learnedResult_begun : learnedResult t g n = learnedResult s f n := by
  rw [learnedResult, learnedResult, rbFor, rbFor, hport, rdFor_ctrl_begun hn hpart hg]

end

/-! ## What a lookup leaves in its frame -/

/-- Outcome of lookup A or B. -/
def catRes (b : Bool) (f : Frame) : Option CatRes := if b then f.catB else f.catA

theorem catRes_setCatRes (b : Bool) (r : CatRes) (f : Frame) : catRes b (setCatRes b r f) = some r := by cases b <;> rfl

theorem setCatRes_keeps (b : Bool) (r : CatRes) (f : Frame) : (setCatRes b r f).id = f.id ∧ (setCatRes b r f).port = f.port ∧
    (setCatRes b r f).cfg = f.cfg ∧ (setCatRes b r f).learn = f.learn := by
  cases b <;> exact ⟨rfl, rfl, rfl, rfl⟩

/-- A SRC lookup's effect where the profile has the role, on the frame and state that the search left. -/
def afterSrc (src : Bool) (n : Nat) (key : List Byte) (hit : Option Nat) (p : Frame × State) : Frame × State :=
  if src then srcEffect p.1 n key hit p.2 else p

theorem raiseLearn_keeps (b : Bool) (s : State) (f : Frame) (n : Nat) (key : List Byte) :
    (raiseLearn s f n key).id = f.id ∧ catRes b (raiseLearn s f n key) = catRes b f := by
  unfold raiseLearn
  dsimp only
  split <;> exact ⟨rfl, rfl⟩

/-- A hit of a SRC lookup leaves all as it was, flags a static entry's other result, or raises a learn (R160, R161). -/
theorem srcEffect_hit (f : Frame) (n : Nat) (key : List Byte) (x : Nat) (s : State) :
    srcEffect f n key (some x) s = (f, s) ∨
    (∃ d, srcEffect f n key (some x) s =
      ({ f with staticDrop := d }, raise (pageCAT (portWing f.port)) 4 (bump (CAT_CNT (portWing f.port) 10) s))) ∨
    srcEffect f n key (some x) s = (raiseLearn s f n key, s) := by
  by_cases hsame : catResult s (portWing f.port) x = learnedResult s f n
  · exact .inl (if_pos hsame)
  · by_cases hstatic : bit (catCtl s (portWing f.port) x) 30 = true
    · have hdrop : ∃ d, (if rbFor s f (CAT_PROF_CTRL (portWing f.port) n) 25 = true then { f with staticDrop := true } else f) =
          { f with staticDrop := d } := by
        split
        · exact ⟨true, rfl⟩
        · exact ⟨f.staticDrop, rfl⟩
      obtain ⟨d, hd⟩ := hdrop
      refine .inr (.inl ⟨d, ?_⟩)
      rw [← hd]
      exact (if_neg hsame).trans (if_pos hstatic)
    · exact .inr (.inr ((if_neg hsame).trans (if_neg hstatic)))

/-- It keeps the frame's number and the lookup's outcome, and writes no table word. -/
theorem afterSrc_keeps (b src : Bool) (n : Nat) (key : List Byte) (hit : Option Nat) (p : Frame × State) :
    (afterSrc src n key hit p).1.id = p.1.id ∧ catRes b (afterSrc src n key hit p).1 = catRes b p.1 ∧
      OnlyBus p.2 (afterSrc src n key hit p).2 := by
  unfold afterSrc
  split
  case isFalse => exact ⟨rfl, rfl, rfl⟩
  case isTrue =>
    obtain ⟨hid, hres⟩ := raiseLearn_keeps b p.2 p.1 n key
    cases hit with
    | none => exact ⟨hid, hres, rfl⟩
    | some x =>
      rcases srcEffect_hit p.1 n key x p.2 with h | ⟨d, h⟩ | h
      · rw [h]
        exact ⟨rfl, rfl, rfl⟩
      · rw [h]
        exact ⟨rfl, rfl, (raise_onlyBus _ _ _).trans' (bump_onlyBus _ _)⟩
      · rw [h]
        exact ⟨hid, hres, rfl⟩

/-- On a miss it changes the frame alone. -/
theorem afterSrc_miss (src : Bool) (n : Nat) (key : List Byte) (f : Frame) (s : State) :
    afterSrc src n key none (f, s) = (if src then raiseLearn s f n key else f, s) := by
  cases src <;> rfl

section
variable {cs : List Nat} {x : Nat} {s : State} (hm : s.tab.merges = [])
include hm

theorem catStays_flowAdd (n : Nat) : CatStays cs s (flowAdd x n s) := by
  unfold flowAdd
  split
  · exact .refl s
  · rw [settle_none s hm]
    dsimp only
    split
    · have hread := readsCounted_noteCe (flowAddr x) s
      exact (catStays_engWrite _ _ (by rw [hread.notes.tab, hm])).after hread.stays
    · exact catStays_noteRead _ _

/-- Flow records lie beside the Catalogue's entries (R568). -/
theorem catCtl_flowAdd (n : Nat) {v y : Nat} (hv : v < 2) (hy : y < 0x102000) : catCtl (flowAdd x n s) v y = catCtl s v y := by
  have hlt := catAddr_lt hv hy
  unfold flowAdd
  split
  · rfl
  · rw [settle_none s hm]
    dsimp only
    split
    · have hread := readsCounted_noteCe (flowAddr x) s
      have hout : ¬(flowAddr x ≤ catAddr v y + 28) := by
        rw [flowAddr]
        omega
      rw [catCtl, tw_engWrite _ _ (by rw [hread.notes.tab, hm]), if_neg fun h => hout h.1, ← catCtl, catCtl_congr hread.notes.tab]
    · exact catCtl_congr (onlyNotes_noteRead _ _).tab v y

/-- A flow hit notes its record in the frame, and counts in the record alone. -/
theorem flowHit_keeps (f : Frame) : (∃ c, (flowHit f x s).1 = { f with counted := c }) ∧ CatStays cs s (flowHit f x s).2 ∧
    ∀ v y, v < 2 → y < 0x102000 → catCtl (flowHit f x s).2 v y = catCtl s v y := by
  unfold flowHit
  split
  · exact ⟨⟨f.counted, rfl⟩, .refl s, fun _ _ _ _ => rfl⟩
  · refine ⟨⟨_, rfl⟩, (catStays_flowAdd hm _).ite, fun v y hv hy => ?_⟩
    dsimp only
    split
    · exact catCtl_flowAdd hm _ hv hy
    · rfl

end

/-- A hit counted, its hit bit set under hit_upd, and a reserved kind recorded (R146, R154). -/
def hitNoted (f : Frame) (n x : Nat) (s : State) : State :=
  let w := portWing f.port
  let s1 := bump (CAT_CNT w 1) s
  let s2 := if rbFor s f (CAT_PROF_CTRL w n) 28 then putWord (catAddr w x + 28) (setFld (catCtl s w x) 29 29 1) s1 else s1
  if 0xA ≤ kindOf (catResult s w x) then recordErr (pageCAT w) 0x04 0 x s2 else s2

/-- The flow record of a hit whose result counts (R157). -/
def hitFlow (f : Frame) (x : Nat) (r : BitVec 64) (s : State) : Frame × State := if countOf r then flowHit f x s else (f, s)

theorem catHit_eq (f : Frame) (b : Bool) (n x : Nat) (s : State) : catHit f b n x s =
    (setCatRes b (.hit x (catResult s (portWing f.port) x)) (hitFlow f x (catResult s (portWing f.port) x) (hitNoted f n x s)).1,
      (hitFlow f x (catResult s (portWing f.port) x) (hitNoted f n x s)).2) := by
  unfold catHit hitFlow hitNoted
  rfl

/-- The frames and the merges that wait stay. -/
def KeepsFramesMerges (s t : State) : Prop := t.frames = s.frames ∧ t.tab.merges = s.tab.merges

theorem hitNoted_keeps (f : Frame) (n x : Nat) (s : State) : KeepsFramesMerges s (hitNoted f n x s) := by
  have hbump : KeepsFramesMerges s (bump (CAT_CNT (portWing f.port) 1) s) := ⟨bump_frames _ _, by rw [bump_tab]⟩
  have hput : ∀ a v u, KeepsFramesMerges s u → KeepsFramesMerges s (putWord a v u) := fun _ _ _ h => h
  have hrec : ∀ p c o i u, KeepsFramesMerges s u → KeepsFramesMerges s (recordErr p c o i u) := fun p c o i u h =>
    ⟨(recordErr_frames p c o i u).trans h.1, by rw [recordErr_tab]; exact h.2⟩
  have hite : ∀ (c : Prop) [Decidable c] t u, KeepsFramesMerges s t → KeepsFramesMerges s u → KeepsFramesMerges s (if c then t else u) :=
    fun _ _ _ _ ht hu => iteInduction (fun _ => ht) (fun _ => hu)
  unfold hitNoted
  exact hite _ _ _ (hrec _ _ _ _ _ (hite _ _ _ (hput _ _ _ hbump) hbump)) (hite _ _ _ (hput _ _ _ hbump) hbump)

/-- Under hit_upd the hit bit of the entry is set (R154). -/
theorem hitNoted_hitBit {f : Frame} {n x : Nat} {s : State} (hw : portWing f.port < 2) (hx : x < 0x102000)
    (hupd : rbFor s f (CAT_PROF_CTRL (portWing f.port) n) 28 = true) : bit (catCtl (hitNoted f n x s) (portWing f.port) x) 29 = true := by
  have hlt := catAddr_lt hw hx
  have hput : ∀ u, bit (catCtl (putWord (catAddr (portWing f.port) x + 28) (setFld (catCtl s (portWing f.port) x) 29 29 1) u)
      (portWing f.port) x) 29 = true := fun u => by
    rw [catCtl, tw_putWord_same, and_wordMask_cat (by omega), bit_setFld_one _ _ _ (by decide)]
    rfl
  unfold hitNoted
  dsimp only
  rw [if_pos hupd]
  split
  · rw [catCtl_congr (recordErr_tab _ _ _ _ _)]
    exact hput _
  · exact hput _

/-- The flow record of a hit leaves the frame's number and the Catalogue's words. -/
theorem hitFlow_keeps {x : Nat} {s : State} (hm : s.tab.merges = []) (f : Frame) (r : BitVec 64) :
    (hitFlow f x r s).1.id = f.id ∧ CatStays [] s (hitFlow f x r s).2 ∧
      ∀ v y, v < 2 → y < 0x102000 → catCtl (hitFlow f x r s).2 v y = catCtl s v y := by
  unfold hitFlow
  split
  · obtain ⟨⟨c, hframe⟩, hstays, hctl⟩ := flowHit_keeps (cs := []) (x := x) hm f
    exact ⟨by rw [hframe], hstays, hctl⟩
  · exact ⟨rfl, .refl s, fun _ _ _ _ => rfl⟩

/-- A hit leaves its entry's result in the frame, and under hit_upd the hit bit in the entry (R154). -/
theorem catHit_leaves {f : Frame} (b : Bool) {n x : Nat} {s : State} (hm : s.tab.merges = []) (hw : portWing f.port < 2) (hx : x < 0x102000) :
    (catHit f b n x s).1.id = f.id ∧ catRes b (catHit f b n x s).1 = some (.hit x (catResult s (portWing f.port) x)) ∧
      (catHit f b n x s).2.frames = s.frames ∧
      (rbFor s f (CAT_PROF_CTRL (portWing f.port) n) 28 = true → bit (catCtl (catHit f b n x s).2 (portWing f.port) x) 29 = true) := by
  obtain ⟨hframes, hmerges⟩ := hitNoted_keeps f n x s
  have hbit := hitNoted_hitBit (n := n) (s := s) hw hx
  have hflow := hitFlow_keeps (x := x) (hmerges.trans hm) f (catResult s (portWing f.port) x)
  rw [catHit_eq]
  obtain ⟨p, hp⟩ : ∃ p, p = hitFlow f x (catResult s (portWing f.port) x) (hitNoted f n x s) := ⟨_, rfl⟩
  rw [← hp] at hflow ⊢
  obtain ⟨hid, hstays, hctl⟩ := hflow
  refine ⟨(setCatRes_keeps _ _ _).1.trans hid, catRes_setCatRes _ _ _, hstays.frames.trans hframes, fun hupd => ?_⟩
  rw [hctl _ _ hw hx]
  exact hbit hupd

end Sys2Proof.Machine
end

section
/-!
SUPPORT. CAT_LOOKUP: its outcomes, by what its search finds (R152-R158).
-/
namespace Sys2Proof.Machine

/-- A lookup of a released frame ends by what its search finds: `g` is the frame once its lookups have begun, `key` its key, and `u` the
state that the search's reads leave. The search stays behind variables: the kernel compares two matches by evaluating what they match on. -/
theorem catLookup_outcomes {id n : Nat} {b src : Bool} {f g : Frame} {key : List Byte} {s u : State} (hf : frameOf s id = some f)
    (hprof : catProf s f b = some n) (hstage : f.stage = .lookup) (hdef : f.defAct = false) (hexc : f.exc = 0)
    (hres : (if b then f.catB else f.catA) = none) (hm : s.tab.merges = [])
    (hg : beginLookups (pageCAT (portWing f.port)) s f = g) (hkey : catKeyOf s g n = key)
    (hsrc : (rfFor s g (CAT_PROF_CTRL (portWing f.port) n) 30 29 == 1) = src)
    (hu : catReads (portWing f.port) key (bump (CAT_CNT (portWing f.port) 0) s) = u) :
    (catSearch u (portWing f.port) key g.epoch = .inr [] → ∃ p, p = afterSrc src n key none (setCatRes b .miss g, u) ∧
      execCatLookup id b s = .next (putFrame p.1 p.2)) ∧
    (∀ x more, catSearch u (portWing f.port) key g.epoch = .inr (x :: more) →
      ∃ p, p = afterSrc src n key (some x) (catHit g b n x (if more.isEmpty then u else bump (CAT_CNT (portWing f.port) 12) u)) ∧
        execCatLookup id b s = .next (putFrame p.1 p.2)) ∧
    (∀ x, catSearch u (portWing f.port) key g.epoch = .inl x →
      ∃ p, p = afterSrc src n key none (setCatRes b .miss g, catStoreErr (portWing f.port) x u) ∧
        execCatLookup id b s = .next (putFrame p.1 p.2)) := by
  have hset := settle_none s hm
  obtain ⟨lookup, hlookup⟩ : ∃ F, F = execCatLookup := ⟨_, rfl⟩
  obtain ⟨reads, hreads⟩ : ∃ F, F = catReads := ⟨_, rfl⟩
  obtain ⟨search, hsearch⟩ : ∃ F, F = catSearch := ⟨_, rfl⟩
  obtain ⟨keyOf, hkeyOf⟩ : ∃ F, F = catKeyOf := ⟨_, rfl⟩
  obtain ⟨prof, hprofOf⟩ : ∃ F, F = catProf := ⟨_, rfl⟩
  obtain ⟨err, herr⟩ : ∃ F, F = catStoreErr := ⟨_, rfl⟩
  obtain ⟨hit, hhit⟩ : ∃ F, F = catHit := ⟨_, rfl⟩
  obtain ⟨effect, heffect⟩ : ∃ F, F = afterSrc := ⟨_, rfl⟩
  have heff : ∀ k h p, (if src then srcEffect p.1 n k h p.2 else p) = effect src n k h p := fun k h p => by rw [heffect, afterSrc]
  rw [← hreads] at hu
  rw [← hkeyOf] at hkey
  rw [← hprofOf] at hprof
  rw [← hsearch, ← herr, ← hhit, ← heffect, ← hlookup]
  delta execCatLookup at hlookup
  rw [← hreads, ← hsearch, ← hkeyOf, ← hprofOf, ← herr, ← hhit] at hlookup
  rw [hlookup]
  refine ⟨fun h => ⟨_, rfl, ?_⟩, fun x more h => ⟨_, rfl, ?_⟩, fun x h => ⟨_, rfl, ?_⟩⟩
  all_goals
    simp only [hf, hprof, hstage, hdef, hexc, hres, hg, hset, hkey, hsrc, hu, h, ← heff, bne_self_eq_false, Option.isSome_none, Bool.or_self,
      Bool.false_eq_true, if_false]

/-! ## The reads of a lookup -/

/-- The state that a lookup's reads leave: the lookup counted, and the correctable words of its candidates noted. -/
def lookupReads (w : Nat) (key : List Byte) (s : State) : State := catReads w key (bump (CAT_CNT w 0) s)

theorem catSees_bump (a : Nat) (s : State) : CatSees s (bump a s) :=
  ⟨bump_tab _ _, by rw [bump_cat], bump_prv _ _, fun _ => catBucket_congr (fun _ _ _ => rd_bump _ _ _) _⟩

section
variable {w : Nat} {key : List Byte} {s : State}

theorem catSees_lookupReads : CatSees s (lookupReads w key s) := (readsCounted_catReads _ _ _).sees.after (catSees_bump _ _)

theorem lookupReads_frames : (lookupReads w key s).frames = s.frames := (readsCounted_catReads _ _ _).notes.frames.trans (bump_frames _ _)

theorem lookupReads_part : (lookupReads w key s).part = s.part := (readsCounted_catReads _ _ _).notes.part.trans (bump_part _ _)

/-- A lookup's reads count the lookup and nothing else of the counters. -/
theorem ctr_lookupReads (a : Nat) : ctr (lookupReads w key s) a = if a = CAT_CNT w 0 then (ctr s a + 1) % 2 ^ 64 else ctr s a := by
  rw [lookupReads, (readsCounted_catReads _ _ _).ctrs, ctr_bump]
  split
  · next h => rw [h]
  · rfl

theorem isOn_lookupReads (p : Nat) : isOn (lookupReads w key s) p = isOn s p := by
  rw [lookupReads, (readsCounted_catReads _ _ _).isOn, isOn, blkState, rf, rd_bump]
  rfl

/-- Where no candidate's word has to be corrected, a lookup's reads change no register. -/
theorem regsBut_lookupReads (hw : w < 2) (h : ((catCandidates s w key).all fun x => rdStat s (catAddr w x) != .corrected) = true) :
    RegsBut [] s (lookupReads w key s) := by
  have hbump : ((catCandidates (bump (CAT_CNT w 0) s) w key).all fun x => rdStat (bump (CAT_CNT w 0) s) (catAddr w x) != .corrected) = true := by
    rw [(catSees_bump _ _).candidates, funext fun x => congrArg (· != RdStat.corrected) (rdStat_congr (bump_tab _ s) (catAddr w x))]
    exact h
  rw [lookupReads, catReads_uncorrected hw hbump]
  exact fun a _ => rd_bump _ _ _

end

/-! ## A store error of a search (R158, R182) -/

/-- The records that a word that cannot be read leaves before its error is raised keep the frames. -/
theorem catStoreErr_shape (w x : Nat) (s : State) : ∃ u, catStoreErr w x s =
    raise (pageCAT w) 3 (bump (CAT_CNT 0 14) (recordErr (pageCAT w) 0x03 0 x u)) ∧ u.frames = s.frames := by
  refine ⟨_, rfl, ?_⟩
  split
  · exact (catStays_uninitAt (cs := []) _ _).frames
  · exact (catStays_reportFault (cs := []) _ _ _ _ _).frames

theorem catStoreErr_recorded {w : Nat} (hw : w < 2) (x : Nat) (s : State) : (catStoreErr w x s).frames = s.frames ∧
    rb (catStoreErr w x s) (H_INT_STAT (pageCAT w)) 3 = true ∧ rf (catStoreErr w x s) (H_ERR_CAUSE (pageCAT w)) 31 24 = 0x03 := by
  obtain ⟨u, hshape, hframes⟩ := catStoreErr_shape w x s
  rw [hshape]
  refine ⟨?_, rb_raise_self _ _ (by decide), ?_⟩
  · rw [(raise_onlyBus _ _ _).frames, bump_frames, recordErr_frames, hframes]
  · have hne : H_ERR_CAUSE (pageCAT w) ≠ H_INT_STAT (pageCAT w) := by
      simp only [H_ERR_CAUSE, H_INT_STAT, bar0]
      omega
    have hpage : H_ERR_CAUSE (pageCAT w) / 0x10000 ≠ pageHIF + 6 := by
      rw [H_ERR_CAUSE, page_bar0 _ (by decide), pageCAT, pageHIF]
      omega
    rw [rf, (raise_changes _ _ _).1 _ (not_mem_eventRegs hne hpage), rd_bump, cause_recordErr, fld, bitsOf, w32, BitVec.toNat_ofNat]
    omega

/-! ## What a lookup leaves -/

/-- The outcome noted in frame `id`. -/
def resOf (b : Bool) (id : Nat) (t : State) : Option CatRes := (frameOf t id).bind (catRes b)

/-- What a SRC lookup's effect leaves of a frame that stands in the buffer is what the frame then holds. -/
theorem frameOf_afterSrc {id : Nat} {f g : Frame} {s : State} (hf : frameOf s id = some f) {src : Bool} {n : Nat} {key : List Byte}
    {hit : Option Nat} {u : State} (hid : g.id = id) (hu : u.frames = s.frames) {p : Frame × State} (hp : p = afterSrc src n key hit (g, u)) :
    frameOf (putFrame p.1 p.2) id = some p.1 := by
  obtain ⟨hkeep, -, hbus⟩ := afterSrc_keeps false src n key hit (g, u)
  rw [← hp] at hkeep hbus
  exact frameOf_putFrame_found ((frameOf_congr (hbus.frames.trans hu) id).trans hf) (hkeep.trans hid)

theorem resOf_afterSrc {id : Nat} {b : Bool} {f g : Frame} {s : State} (hf : frameOf s id = some f) {src : Bool} {n : Nat} {key : List Byte}
    {hit : Option Nat} {u : State} (hid : g.id = id) (hu : u.frames = s.frames) {p : Frame × State} (hp : p = afterSrc src n key hit (g, u)) :
    resOf b id (putFrame p.1 p.2) = catRes b g := by
  obtain ⟨-, hres, -⟩ := afterSrc_keeps b src n key hit (g, u)
  rw [resOf, frameOf_afterSrc hf hid hu hp, hp]
  exact hres

/-- The frame once its lookups in the Catalogue have begun (R184). -/
def begunFrame (s : State) (f : Frame) : Frame := beginLookups (pageCAT (portWing f.port)) s f

theorem begunFrame_keeps (s : State) (f : Frame) : (begunFrame s f).id = f.id ∧ (begunFrame s f).port = f.port ∧ (begunFrame s f).fv = f.fv ∧
    (begunFrame s f).epoch = f.epoch ∧ (begunFrame s f).learn = f.learn := by
  obtain ⟨c, hc⟩ := beginLookups_shape (pageCAT (portWing f.port)) s f
  rw [begunFrame, hc]
  exact ⟨rfl, rfl, rfl, rfl, rfl⟩

/-- What a search finds is a match that its epoch sees (R152, R153). -/
theorem catSearch_found {s : State} {w x e : Nat} {key : List Byte} {more : List Nat} (h : catSearch s w key e = .inr (x :: more)) :
    x ∈ catMatches s w key ∧ visible s (catVer s w x) e = true := by
  unfold catSearch at h
  split at h
  · cases h
  · exact List.mem_filter.mp (Sum.inr.inj h ▸ List.mem_cons_self)

section
variable {id n : Nat} {b : Bool} {f : Frame} {s : State} (hf : frameOf s id = some f)
  (hprof : catProf s f b = some n) (hstage : f.stage = .lookup) (hdef : f.defAct = false) (hexc : f.exc = 0)
  (hres : (if b then f.catB else f.catA) = none) (hm : s.tab.merges = [])
include hf hprof hstage hdef hexc hres hm

/-- A lookup's outcome by what the search finds in the state before it, under the registers that the frame's lookups began with. -/
theorem exec_catLookup : ∃ u src, u = lookupReads (portWing f.port) (catKeyOf s f n) s ∧
    src = (rfFor s f (CAT_PROF_CTRL (portWing f.port) n) 30 29 == 1) ∧
    (catSearch s (portWing f.port) (catKeyOf s f n) f.epoch = .inr [] →
      ∃ p, p = afterSrc src n (catKeyOf s f n) none (setCatRes b .miss (begunFrame s f), u) ∧
        exec (.catLookup id b) s = .next (putFrame p.1 p.2)) ∧
    (∀ x more, catSearch s (portWing f.port) (catKeyOf s f n) f.epoch = .inr (x :: more) →
      ∃ p, p = afterSrc src n (catKeyOf s f n) (some x)
          (catHit (begunFrame s f) b n x (if more.isEmpty then u else bump (CAT_CNT (portWing f.port) 12) u)) ∧
        exec (.catLookup id b) s = .next (putFrame p.1 p.2)) ∧
    (∀ x, catSearch s (portWing f.port) (catKeyOf s f n) f.epoch = .inl x →
      ∃ p, p = afterSrc src n (catKeyOf s f n) none (setCatRes b .miss (begunFrame s f), catStoreErr (portWing f.port) x u) ∧
        exec (.catLookup id b) s = .next (putFrame p.1 p.2)) := by
  obtain ⟨-, hport, hfv, hepoch, -⟩ := begunFrame_keeps s f
  have hn := catProf_lt hprof
  obtain ⟨u, hu⟩ : ∃ u, u = lookupReads (portWing f.port) (catKeyOf s f n) s := ⟨_, rfl⟩
  have hsearch : catSearch u (portWing f.port) (catKeyOf s f n) (begunFrame s f).epoch =
      catSearch s (portWing f.port) (catKeyOf s f n) f.epoch := by rw [hepoch, hu, catSees_lookupReads.search]
  have hctrl : rdFor s (begunFrame s f) (CAT_PROF_CTRL (portWing f.port) n) = rdFor s f (CAT_PROF_CTRL (portWing f.port) n) :=
    rdFor_ctrl_begun hn rfl rfl
  have hsrc : (rfFor s (begunFrame s f) (CAT_PROF_CTRL (portWing f.port) n) 30 29 == 1) =
      (rfFor s f (CAT_PROF_CTRL (portWing f.port) n) 30 29 == 1) := by rw [rfFor, rfFor, hctrl]
  have hcases := catLookup_outcomes hf hprof hstage hdef hexc hres hm rfl (catKeyOf_begun hn rfl rfl hport hfv) hsrc hu.symm
  rw [← begunFrame, hsearch] at hcases
  exact ⟨u, _, hu, rfl, hcases⟩

/-- A miss counts the lookup alone, and under a SRC profile that learns raises a learn (R155, R160). -/
theorem catLookup_miss (hport : f.port < 522) (hmiss : catSearch s (portWing f.port) (catKeyOf s f n) f.epoch = .inr []) :
    ∃ t, exec (.catLookup id b) s = .next t ∧ resOf b id t = some .miss ∧
      ctr t (CAT_CNT (portWing f.port) 0) = (ctr s (CAT_CNT (portWing f.port) 0) + 1) % 2 ^ 64 ∧
      (((catCandidates s (portWing f.port) (catKeyOf s f n)).all fun x => rdStat s (catAddr (portWing f.port) x) != .corrected) = true →
        RegsBut [] s t) ∧
      CtrsBut [CAT_CNT (portWing f.port) 0] s t ∧
      (rfFor s f (CAT_PROF_CTRL (portWing f.port) n) 30 29 = 1 → rbFor s f (CAT_PROF_CTRL (portWing f.port) n) 27 = true → f.port < 512 →
        isOn s (pageCAT (portWing f.port)) = true →
        (frameOf t id).map (fun x => x.learn) = some (f.learn ++ [⟨catKeyOf s f n, learnedResult s f n⟩])) := by
  obtain ⟨u, src, hu, hsrc, hcase, -, -⟩ := exec_catLookup hf hprof hstage hdef hexc hres hm
  obtain ⟨p, hp, hexec⟩ := hcase hmiss
  obtain ⟨hgid, hgport, -, -, hglearn⟩ := begunFrame_keeps s f
  obtain ⟨hsid, hsport, hscfg, hslearn⟩ := setCatRes_keeps b .miss (begunFrame s f)
  have hid := hsid.trans (hgid.trans (frameOf_id hf))
  have hframes : u.frames = s.frames := by rw [hu, lookupReads_frames]
  have hpu : p.2 = u := by
    rw [hp, afterSrc_miss]
  refine ⟨_, hexec, ?_, ?_, fun hce => ?_, fun a ha _ => ?_, fun hrole hlearn hlow hon => ?_⟩
  · rw [resOf_afterSrc hf hid hframes hp, catRes_setCatRes]
  · rw [ctr, putFrame_bus, ← ctr, hpu, hu, ctr_lookupReads, if_pos rfl]
  · intro a ha
    rw [rd, putFrame_bus, putFrame_part, ← rd, hpu, hu]
    exact regsBut_lookupReads (portWing_lt hport) hce a ha
  · rw [ctr, putFrame_bus, ← ctr, hpu, hu, ctr_lookupReads, if_neg (by simpa using ha)]
  · have hn := catProf_lt hprof
    have hpart : u.part = s.part := by rw [hu, lookupReads_part]
    have hctrl : rdFor u (setCatRes b .miss (begunFrame s f)) (CAT_PROF_CTRL (portWing f.port) n) = rdFor s f (CAT_PROF_CTRL (portWing f.port) n) :=
      rdFor_ctrl_begun hn hpart hscfg
    have hresult : learnedResult u (setCatRes b .miss (begunFrame s f)) n = learnedResult s f n :=
      learnedResult_begun hn hpart hscfg (hsport.trans hgport)
    have hup : isOn u (pageCAT (portWing f.port)) = true := by rw [hu, isOn_lookupReads, hon]
    rw [frameOf_afterSrc hf hid hframes hp, hp, afterSrc_miss, hsrc, hrole]
    simp only [raiseLearn, hsport, hgport, rbFor, hctrl, hresult, hup, hslearn, hglearn, hlow]
    rw [rbFor] at hlearn
    simp [hlearn]

/-- A hit is on a valid, visible entry of the frame's key and leaves its result, with the hit bit under hit_upd (R152-R154). -/
theorem catLookup_hit (hport : f.port < 522) {x : Nat} {more : List Nat}
    (hhit : catSearch s (portWing f.port) (catKeyOf s f n) f.epoch = .inr (x :: more)) :
    ∃ t, exec (.catLookup id b) s = .next t ∧ resOf b id t = some (.hit x (catResult s (portWing f.port) x)) ∧
      (rbFor s f (CAT_PROF_CTRL (portWing f.port) n) 28 = true → bit (catCtl t (portWing f.port) x) 29 = true) := by
  obtain ⟨u, src, hu, -, -, hcase, -⟩ := exec_catLookup hf hprof hstage hdef hexc hres hm
  obtain ⟨p, hp, hexec⟩ := hcase x more hhit
  obtain ⟨v, hv⟩ : ∃ v, v = if more.isEmpty then u else bump (CAT_CNT (portWing f.port) 12) u := ⟨_, rfl⟩
  obtain ⟨hgid, hgport, -, -, -⟩ := begunFrame_keeps s f
  have hsame : v.frames = s.frames ∧ v.tab = s.tab ∧ v.part = s.part := by
    have hread : u.frames = s.frames ∧ u.tab = s.tab ∧ u.part = s.part := by
      rw [hu]
      exact ⟨lookupReads_frames, catSees_lookupReads.tab, lookupReads_part⟩
    rw [hv]
    split
    · exact hread
    · rw [bump_frames, bump_tab, bump_part]
      exact hread
  obtain ⟨hframes, htab, hpart⟩ := hsame
  have hctrl : rdFor v (begunFrame s f) (CAT_PROF_CTRL (portWing f.port) n) = rdFor s f (CAT_PROF_CTRL (portWing f.port) n) :=
    rdFor_ctrl_begun (catProf_lt hprof) hpart rfl
  have hleaves := catHit_leaves (f := begunFrame s f) (n := n) (x := x) b (htab ▸ hm : v.tab.merges = [])
    (by rw [hgport]; exact portWing_lt hport) (catMatches_spec (catSearch_found hhit).1).1
  rw [← hv] at hp
  obtain ⟨h, hh⟩ : ∃ h, h = catHit (begunFrame s f) b n x v := ⟨_, rfl⟩
  rw [← hh, hgport, rbFor, hctrl, ← rbFor, catResult_congr htab] at hleaves
  rw [← hh] at hp
  obtain ⟨hid, hnoted, hkept, hbit⟩ := hleaves
  obtain ⟨-, -, hbus⟩ := afterSrc_keeps b src n (catKeyOf s f n) (some x) h
  refine ⟨_, hexec, ?_, fun hupd => ?_⟩
  · rw [resOf_afterSrc hf (hid.trans (hgid.trans (frameOf_id hf))) (hkept.trans hframes) hp, hnoted]
  · rw [catCtl_congr (putFrame_tab _ _), hp, catCtl_congr hbus.tab]
    exact hbit hupd

/-- A word that cannot be read is a miss with its error recorded (R158). -/
theorem catLookup_err (hport : f.port < 522) {x : Nat} (herr : catSearch s (portWing f.port) (catKeyOf s f n) f.epoch = .inl x) :
    ∃ t, exec (.catLookup id b) s = .next t ∧ resOf b id t = some .miss ∧ rb t (H_INT_STAT (pageCAT (portWing f.port))) 3 = true ∧
      rf t (H_ERR_CAUSE (pageCAT (portWing f.port))) 31 24 = 0x03 := by
  obtain ⟨u, src, hu, -, -, -, hcase⟩ := exec_catLookup hf hprof hstage hdef hexc hres hm
  obtain ⟨p, hp, hexec⟩ := hcase x herr
  obtain ⟨hgid, -, -, -, -⟩ := begunFrame_keeps s f
  obtain ⟨hsid, -, -, -⟩ := setCatRes_keeps b .miss (begunFrame s f)
  obtain ⟨hkept, hint, hcause⟩ := catStoreErr_recorded (portWing_lt hport) x u
  have hframes : (catStoreErr (portWing f.port) x u).frames = s.frames := by rw [hkept, hu, lookupReads_frames]
  have hpu : p.2 = catStoreErr (portWing f.port) x u := by rw [hp, afterSrc_miss]
  refine ⟨_, hexec, ?_, ?_, ?_⟩
  · rw [resOf_afterSrc hf (hsid.trans (hgid.trans (frameOf_id hf))) hframes hp, catRes_setCatRes]
  · rw [rb, rd, putFrame_bus, putFrame_part, ← rd, hpu]
    exact hint
  · rw [rf, rd, putFrame_bus, putFrame_part, ← rd, hpu]
    exact hcause

end

/-- Settles O21: the search's reads change neither what it finds nor the registers that the frame's lookups began with, so each outcome
follows from the search in the state before. -/
theorem catalogueLookup : Obligations.CatalogueLookup := by
  intro id b f n s hf hprof hstage hdef hexc hport hres hm
  refine ⟨fun h => catLookup_miss hf hprof hstage hdef hexc hres hm hport h, fun x more h => ⟨?_, ?_⟩, fun x h => ?_⟩
  · obtain ⟨hmatch, hvis⟩ := catSearch_found h
    obtain ⟨-, hvalid, hkey⟩ := catMatches_spec hmatch
    exact ⟨hvalid, hkey, hvis⟩
  · exact catLookup_hit hf hprof hstage hdef hexc hres hm hport h
  · exact catLookup_err hf hprof hstage hdef hexc hres hm hport h

end Sys2Proof.Machine
end

section
/-!
SUPPORT. CAT_INSERT under a command of no submission ring: HIF_SQ_CFG of a ring number above 31 is some other register, and an event of the
command's own may change it before the command completes.
-/
namespace Sys2Proof.Machine

/-! ## An insert whose completion changes its ring -/

/-- HIF_SQ_CFG of a ring that does not exist is a word of pending bits of the MSI-X vectors (R530). -/
theorem sqCfg_eq_pba : HIF_SQ_CFG 0x28F8 = HIF_MSIX_PBA 2 := by decide

/-- A key of a type in host use. -/
def aliasKey : List Byte := 0x80 :: List.replicate 19 0x11

/-- CAT_INSERT of that key with tag 0x77, as though submission ring 0x28F8 had handed it over. -/
def aliasCmd : Cmd := ⟨0x28F8, 0x01, 0x77, aliasKey ++ List.replicate 36 0, 2, false, false⟩

/-- The Catalogue ON in both wings with ovf_high at one entry and enabled; memory requests allowed; completion ring 0 enabled; the block
interrupt on vector 80, which is masked. -/
def aliasRegs : State :=
  wr (HIF_MSIX_TABLE (4 * 80 + 3)) 1 <| wr HIF_CFG 0x5000 <| wr HIF_PCIE_STAT 0x1200 <| wr (HIF_CQ_CFG 0) 0x80000004 <|
    wr (CAT_OVF_CFG 0) 1 <| wr (H_INT_EN (pageCAT 0)) 4 <| setBlk (pageCAT 0) 2 <| setBlk (pageCAT 1) 2 State.reset

/-- The four entries of the key's bucket in replica E, each valid and of no key. -/
def aliasWords : List (Nat × W32) :=
  (List.range 4).map fun i => (catAddr 0 (4 * catBucket aliasRegs aliasKey + i) + 28, 0x80000000)

/-- The ECC words of the bucket and of the first overflow entry, good in both replicas. -/
def aliasEcc : List (Nat × Ecc) :=
  [0, 1].flatMap fun w => [4 * catBucket aliasRegs aliasKey, 4 * catBucket aliasRegs aliasKey + 2, 0x100000].map fun x =>
    (catAddr w x, ⟨.good, 0, false⟩)

/-- The command at the front of its executor, its bucket full and the overflow free. -/
def aliasState : State :=
  { aliasRegs with
    tab := { aliasRegs.tab with
      words := aliasWords.foldl (fun m e => sPut 0 e.1 e.2 m) []
      ecc := aliasEcc.foldl (fun m e => sPut ⟨.never, 0, false⟩ e.1 e.2 m) [] }
    prv := { aliasRegs.prv with exq := [(0, [aliasCmd])] } }

/-- Host memory after a step that goes on. -/
def memAfter (r : Res) (a n : Nat) : List (Option Byte) :=
  match r with
  | .next t => memBytes t a n
  | _ => []

theorem aliasState_premises : RunsNext aliasCmd aliasState where
  front := by decide +kernel
  form := by decide
  count := .inr (by decide +kernel)
  on := by decide +kernel
  room _ := by decide +kernel
  live := by
    unfold epochsLive
    decide +kernel
  clean := by decide
  cpl := ⟨by decide +kernel, by decide +kernel, by decide +kernel, by decide⟩

/-- The key names no entry yet, and its entry would go to the overflow's first slot. -/
theorem aliasState_search : catBadAny aliasState (slice aliasCmd.payload 0 20) = none ∧ catCurrent aliasState (slice aliasCmd.payload 0 20) = none ∧
    freeSlot aliasState 0 (slice aliasCmd.payload 0 20) = some 0x100000 ∧ readable aliasState (catAddr 0 0x100000) = true ∧
    readable aliasState (catAddr 1 0x100000) = true := by decide +kernel

/-- The completion's slot stays empty: the pending bit of ovf_high's vector names completion ring 1 instead, which is disabled. -/
theorem aliasState_completion : memAfter (exec .catInsert aliasState) (cqSlot aliasState aliasCmd.ring) 4 = [none, none, none, none] := by
  decide +kernel

/-- Refutes O37: a command's ring is any number, and HIF_SQ_CFG of ring 0x28F8 is HIF_MSIX_PBA 2. The insert's entry goes to the overflow,
ovf_high pends vector 80 there, and the completion is discarded on another, disabled ring. A premise that the ring is below 32 is missing. -/
theorem not_catalogueCommands : ¬ Obligations.CatalogueCommands := by
  intro h
  obtain ⟨hread, hcurrent, hslot, heast, hwest⟩ := aliasState_search
  obtain ⟨hinsert, -⟩ := h aliasCmd aliasState aliasState_premises (by decide) hread
  obtain ⟨-, hnew⟩ := hinsert rfl
  obtain ⟨hputs, -⟩ := hnew hcurrent
  obtain ⟨t, hexec, hcompletes, -⟩ := hputs 0x100000 hslot heast hwest
  have hempty := aliasState_completion
  rw [hexec] at hempty
  have hword := congrArg List.head? (hempty.symm.trans hcompletes.word0)
  simp [leBytes] at hword

end Sys2Proof.Machine
end

section
/-!
SUPPORT. What resolving a forwarding result leaves alone: next hops, groups with their failover steps, and the result of a route (R197, R200-R206).
-/
namespace Sys2Proof.Machine

theorem onlyNotes_noteCe (a : Nat) (s : State) : OnlyNotes s (noteCe a s) := (readsCounted_noteCe a s).notes

theorem onlyNotes_lpmErr (w a : Nat) (s : State) : OnlyNotes s (lpmErr w a s) := by
  have herr : OnlyNotes s (if rdStat s a = .never then uninitAt a s else reportFault (pageLPM w) 0x01 a (eccOf s a).inj s) := by
    split
    · exact (uninitAt_onlyBus _ _).notes
    · exact (reportFault_onlyBus _ _ _ _ _).notes
  unfold lpmErr
  exact (raise_onlyBus _ _ _).notes.after ((bump_onlyBus _ _).notes.after ((recordErr_onlyBus _ _ _ _ _).notes.after herr))

theorem onlyNotes_noVersion (w : Nat) (s : State) : OnlyNotes s (noVersion w s) :=
  (raiseFirst_onlyBus _ _ _).notes.after (bump_onlyBus _ _).notes

theorem onlyNotes_bothVersions (w : Nat) (s : State) : OnlyNotes s (bothVersions w s) :=
  (raise_onlyBus _ _ _).notes.after (bump_onlyBus _ _).notes

/-- A next hop's use leaves all but registers, counters and the notes of its reads (R200-R202). The functions that its branches turn on stay
behind variables: the kernel compares two matches by evaluating what they match on. -/
theorem onlyNotes_resolveNh {f : Frame} {prof : Option Nat} {n : Nat} {s : State} {x : Fwd × State} (h : resolveNh f prof n s = x) :
    OnlyNotes s x.2 := by
  obtain ⟨resolve, hresolve⟩ : ∃ F, F = resolveNh := ⟨_, rfl⟩
  obtain ⟨bad, hbad⟩ : ∃ F, F = nhBad := ⟨_, rfl⟩
  obtain ⟨vis, hvis⟩ : ∃ F, F = nhVis := ⟨_, rfl⟩
  obtain ⟨addr, haddr⟩ : ∃ F, F = nhAddr := ⟨_, rfl⟩
  rw [← hresolve] at h
  delta resolveNh at hresolve
  rw [← hbad, ← hvis, ← haddr] at hresolve
  rw [hresolve] at h
  dsimp only at h
  generalize hu : noteCes _ s = u at h
  have hread : OnlyNotes s u := hu ▸ (readsCounted_noteCes _ s).notes
  generalize addr _ n _ = a at h
  split at h
  · exact h ▸ (onlyNotes_lpmErr _ _ _).after hread
  · split at h
    · exact h ▸ (onlyNotes_noVersion _ _).after hread
    · generalize ht : (if (_ && _) = true then bothVersions _ u else u) = t at h
      have hvers : OnlyNotes s t := ht ▸ (OnlyNotes.ite (onlyNotes_bothVersions _ _)).after hread
      have htrap := (bump_onlyBus (LPM_CNT (portWing f.port) 8) t).notes.after hvers
      rcases ite_eq_iff.mp h with ⟨-, h⟩ | ⟨-, h⟩
      · split at h
        · split at h
          · exact h ▸ htrap
          · exact h ▸ htrap
        · exact h ▸ htrap
      · split at h
        · exact h ▸ hvers
        · exact h ▸ hvers
        · exact h ▸ hvers
        · exact h ▸ hvers
        · exact h ▸ (recordErr_onlyBus _ _ _ _ _).notes.after hvers

/-- So do the failover steps of a group (R206). -/
theorem onlyNotes_failover {w e base size : Nat} : ∀ {n k : Nat} {s : State} {x : Option Nat × State},
    failover w e base size n k s = x → OnlyNotes s x.2
  | 0, _, s, x, h => by
    rw [failover] at h
    exact h ▸ rfl
  | n + 1, k, s, x, h => by
    obtain ⟨bad, hbad⟩ : ∃ F, F = nhBad := ⟨_, rfl⟩
    rw [failover, ← hbad] at h
    dsimp only at h
    generalize hu : noteCe _ s = u at h
    have hread : OnlyNotes s u := hu ▸ onlyNotes_noteCe _ s
    have hnext : ∀ k t, OnlyNotes s t → failover w e base size n k t = x → OnlyNotes s x.2 := fun _ _ ht h => (onlyNotes_failover h).after ht
    have hbad := (raise_onlyBus (pageLPM w) 0 _).notes.after ((bump_onlyBus (LPM_CNT w 10) u).notes.after hread)
    split at h
    · exact hnext _ _ hbad h
    · split at h
      · exact hnext _ _ hread h
      · split at h
        · exact hnext _ _ hbad h
        · split at h
          · exact hnext _ _ hread h
          · split at h
            · split at h
              · exact h ▸ hread
              · exact hnext _ _ hread h
            · exact h ▸ hread

/-- So does a group's use (R203-R206). -/
theorem onlyNotes_resolveGroup {f : Frame} {prof : Option Nat} {g : Nat} {s : State} {x : Fwd × State} (h : resolveGroup f prof g s = x) :
    OnlyNotes s x.2 := by
  obtain ⟨resolve, hresolve⟩ : ∃ F, F = resolveGroup := ⟨_, rfl⟩
  obtain ⟨bad, hbad⟩ : ∃ F, F = nhBad := ⟨_, rfl⟩
  obtain ⟨unicast, hunicast⟩ : ∃ F, F = nhUnicast := ⟨_, rfl⟩
  obtain ⟨vis, hvis⟩ : ∃ F, F = grpVis := ⟨_, rfl⟩
  obtain ⟨addr, haddr⟩ : ∃ F, F = grpAddr := ⟨_, rfl⟩
  obtain ⟨bucket, hbucket⟩ : ∃ F, F = bktAddr := ⟨_, rfl⟩
  obtain ⟨steps, hsteps⟩ : ∃ F, F = failover := ⟨_, rfl⟩
  rw [← hresolve] at h
  delta resolveGroup at hresolve
  rw [← hbad, ← hunicast, ← hvis, ← haddr, ← hbucket, ← hsteps] at hresolve
  rw [hresolve] at h
  dsimp only at h
  generalize hu : noteCe _ s = u at h
  have hread : OnlyNotes s u := hu ▸ onlyNotes_noteCe _ s
  split at h
  · exact h ▸ (onlyNotes_lpmErr _ _ _).after hread
  · split at h
    · exact h ▸ (onlyNotes_noVersion _ _).after hread
    · generalize addr _ g (if vis u _ g f.epoch 0 = true then 0 else 1) = a at h
      generalize hv : noteCe _ (if (vis u _ g f.epoch 0 && vis u _ g f.epoch 1) = true then bothVersions _ u else u) = v at h
      have hvers : OnlyNotes s v := hv ▸ (onlyNotes_noteCe _ _).after (.after (.ite (onlyNotes_bothVersions _ _)) hread)
      split at h
      · exact h ▸ (onlyNotes_lpmErr _ _ _).after hvers
      · split at h
        · exact h ▸ (bump_onlyBus _ _).notes.after hvers
        · rcases ite_eq_iff.mp h with ⟨-, h⟩ | ⟨-, h⟩
          · have hfirst := (raiseFirst_onlyBus (pageLPM (portWing f.port)) 3 v).notes.after hvers
            subst hsteps
            split at h
            · next hstep => exact (onlyNotes_resolveNh h).after ((bump_onlyBus _ _).notes.after ((onlyNotes_failover hstep).after hfirst))
            · next hstep => exact (onlyNotes_resolveNh h).after ((bump_onlyBus _ _).notes.after ((onlyNotes_failover hstep).after hfirst))
          · exact (onlyNotes_resolveNh h).after hvers

theorem onlyNotes_routeResult {f : Frame} {p : Nat} {r : BitVec 64} {s : State} {x : Fwd × State} (h : routeResult f p r s = x) :
    OnlyNotes s x.2 := by
  unfold routeResult at h
  split at h
  · exact onlyNotes_resolveNh h
  · exact onlyNotes_resolveGroup h
  · exact h ▸ rfl
  · exact h ▸ rfl

end Sys2Proof.Machine
end

section
/-!
SUPPORT. ROUTE_LOOKUP: what its frame sees, what the search finds, and what is noted (R184, R191-R198).
-/
namespace Sys2Proof.Machine

/-! ## What a frame's lookups see -/

/-- The lookups' begin in a block changes no register that the frame sees. -/
theorem rdFor_beginLookups {s t : State} (hregs : RegsBut [] s t) (hpart : t.part = s.part) (p : Nat) (f : Frame) (a : Nat) :
    rdFor t (beginLookups p s f) a = rdFor s f a := by
  by_cases hp : a / 0x10000 = p
  · exact rdFor_begun hp hpart rfl
  · have hfind : (beginLookups p s f).cfg.find? (fun e => e.1 == a / 0x10000) = f.cfg.find? (fun e => e.1 == a / 0x10000) := by
      unfold beginLookups
      split
      · rfl
      · have hne : (p == a / 0x10000) = false := by simpa using Ne.symm hp
        simp [List.find?_append, hne]
    rw [rdFor, rdFor, hfind, hpart, hregs a (by simp)]

/-- Frame `g` sees in `t` what frame `f` sees in `s`: its registers, fields and Catalogue results. -/
structure SeesAs (s : State) (f : Frame) (t : State) (g : Frame) : Prop where
  regs : ∀ a, rdFor t g a = rdFor s f a
  id : g.id = f.id
  port : g.port = f.port
  fv : g.fv = f.fv
  epoch : g.epoch = f.epoch
  catA : g.catA = f.catA
  catB : g.catB = f.catB

theorem seesAs_beginLookups {s t : State} (hregs : RegsBut [] s t) (hpart : t.part = s.part) (p : Nat) (f : Frame) :
    SeesAs s f t (beginLookups p s f) := by
  obtain ⟨c, hc⟩ := beginLookups_shape p s f
  refine ⟨rdFor_beginLookups hregs hpart p f, ?_, ?_, ?_, ?_, ?_, ?_⟩ <;> rw [hc]

section
variable {s t : State} {f g : Frame} (h : SeesAs s f t g)
include h

theorem SeesAs.after {u : State} {k : Frame} (i : SeesAs t g u k) : SeesAs s f u k where
  regs a := (i.regs a).trans (h.regs a)
  id := i.id.trans h.id
  port := i.port.trans h.port
  fv := i.fv.trans h.fv
  epoch := i.epoch.trans h.epoch
  catA := i.catA.trans h.catA
  catB := i.catB.trans h.catB

theorem SeesAs.slot (n : Nat) : slotOf g n = slotOf f n := by rw [slotOf, slotOf, h.fv]

theorem SeesAs.routeProf : Machine.routeProf t g = Machine.routeProf s f := by
  simp only [Machine.routeProf, rbFor, h.regs, h.port, h.slot]
  rfl

theorem SeesAs.routeAddr (p : Nat) : Machine.routeAddr t g p = Machine.routeAddr s f p := by
  simp only [Machine.routeAddr, h.regs, h.port, h.slot]

theorem SeesAs.catRole (b : Bool) : Machine.catRole t g b = Machine.catRole s f b := by
  simp only [Machine.catRole, catProf, rfFor, h.regs, h.port]

theorem SeesAs.terminate : Machine.terminate t g = Machine.terminate s f := by
  simp only [Machine.terminate, h.catA, h.catB, h.catRole]

end

/-! ## The search -/

/-- Is `r` a visible prefix that matches (R194)? -/
def routeMatches (s : State) (fam vrf addr e : Nat) (r : Route) : Bool :=
  r.fam == fam && r.vrf == vrf && prefixEq (if fam = 0 then 32 else 128) r.len r.addr addr &&
    visible s ⟨r.birth, r.death, r.mortal, r.settled⟩ e

theorem routeMatches_iff {s : State} {fam vrf addr e : Nat} {r : Route} : routeMatches s fam vrf addr e r = true ↔
    r.fam = fam ∧ r.vrf = vrf ∧ prefixEq (if fam = 0 then 32 else 128) r.len r.addr addr = true ∧
      visible s ⟨r.birth, r.death, r.mortal, r.settled⟩ e = true := by
  simp only [routeMatches, Bool.and_eq_true, beq_iff_eq, and_assoc]

theorem routeFind_eq_argmax (s : State) (fam vrf addr e : Nat) :
    routeFind s fam vrf addr e = (s.lpm.routes.filter (routeMatches s fam vrf addr e)).argmax Route.len := by
  unfold routeFind List.argmax
  refine congrArg (fun h => List.foldl h none _) (funext fun b => funext fun r => ?_)
  cases b <;> rfl

/-- The prefix found is a visible match, and no visible match is longer (R194). -/
theorem routeFind_spec {s : State} {fam vrf addr e : Nat} {r : Route} (h : routeFind s fam vrf addr e = some r) :
    r ∈ s.lpm.routes ∧ routeMatches s fam vrf addr e r = true ∧
      ∀ q, q ∈ s.lpm.routes → routeMatches s fam vrf addr e q = true → q.len ≤ r.len := by
  rw [routeFind_eq_argmax] at h
  obtain ⟨hmem, hmatch⟩ := List.mem_filter.mp (List.argmax_mem h)
  exact ⟨hmem, hmatch, fun q hq hmq => List.le_of_mem_argmax (List.mem_filter.mpr ⟨hq, hmq⟩) h⟩

/-- The search goes by the prefix versions and the epochs alone. -/
theorem routeFind_congr {s t : State} (hlpm : t.lpm = s.lpm) (hprv : t.prv = s.prv) (fam vrf addr e : Nat) :
    routeFind t fam vrf addr e = routeFind s fam vrf addr e := by
  have hvis : ∀ v, visible t v e = visible s v e := fun v => by
    rw [visible, visible, rel, rel, rel, rel, rel, rel, hprv]
  have hmatch : routeMatches t fam vrf addr e = routeMatches s fam vrf addr e := funext fun r => by rw [routeMatches, routeMatches, hvis]
  rw [routeFind_eq_argmax, routeFind_eq_argmax, hlpm, hmatch]

/-- A lookup counted (R213). -/
def lookupCounted (w k : Nat) (s : State) : State := bump (LPM_CNT w k) (bump (LPM_CNT w 0) s)

theorem lookupCounted_changes (w k : Nat) (s : State) : OnlyBus s (lookupCounted w k s) ∧ RegsBut [] s (lookupCounted w k s) ∧
    CtrsBut [LPM_CNT w 0, LPM_CNT w k] s (lookupCounted w k s) := by
  refine ⟨(bump_onlyBus _ _).trans' (bump_onlyBus _ _), fun a _ => (rd_bump _ _ _).trans (rd_bump _ _ _), fun a ha _ => ?_⟩
  simp only [List.mem_cons, List.not_mem_nil, or_false, not_or] at ha
  rw [lookupCounted, ctr_bump, if_neg ha.2, ctr_bump, if_neg ha.1]

/-- Without long-prefix probes a search ends by what the structure holds (R194, R198). -/
theorem routeSearch_structure {f : Frame} {p vrf : Nat} {s : State}
    (hlong : (rbFor s f (LPM_PROF_CTRL (portWing f.port) p) 30 && rbFor s f (LPM_PROF_CTRL (portWing f.port) p) 23) = false) :
    (routeFind s (b2n (rbFor s f (LPM_PROF_CTRL (portWing f.port) p) 30)) vrf (routeAddr s f p) f.epoch = none →
      routeSearch f p vrf s = (.missed p, f, lookupCounted (portWing f.port) 3 s)) ∧
    (∀ r, routeFind s (b2n (rbFor s f (LPM_PROF_CTRL (portWing f.port) p) 30)) vrf (routeAddr s f p) f.epoch = some r →
      ∃ seed q, routeSearch f p vrf s = (.found p q.1 seed, f, q.2) ∧
        routeResult f p r.result (lookupCounted (portWing f.port) 1 s) = q) := by
  have hfind := fun fam addr => routeFind_congr (bump_lpm (LPM_CNT (portWing f.port) 0) s) (bump_prv _ s) fam vrf addr f.epoch
  obtain ⟨search, hsearch⟩ : ∃ F, F = routeSearch := ⟨_, rfl⟩
  obtain ⟨find, hfindOf⟩ : ∃ F, F = routeFind := ⟨_, rfl⟩
  obtain ⟨probe, hprobe⟩ : ∃ F, F = longProbe := ⟨_, rfl⟩
  rw [← hsearch]
  delta routeSearch at hsearch
  rw [← hfindOf, ← hprobe] at hsearch
  rw [← hfindOf] at hfind ⊢
  rw [hsearch]
  rw [rbFor, rbFor] at hlong
  simp only [rbFor, hlong, Bool.false_eq_true, if_false, hfind]
  refine ⟨fun h => ?_, fun r h => ?_⟩
  · rw [h]
    rfl
  · rw [h]
    exact ⟨_, _, rfl, rfl⟩


/-! ## The command -/

/-- The frame once its lookups in the Catalogue and the route block have begun (R184). -/
def routeFrame (s : State) (f : Frame) : Frame :=
  beginLookups (pageLPM (portWing f.port)) s (beginLookups (pageCAT (portWing f.port)) s f)

theorem seesAs_routeFrame {s t : State} (hregs : RegsBut [] s t) (hpart : t.part = s.part) (f : Frame) : SeesAs s f t (routeFrame s f) :=
  (seesAs_beginLookups (t := s) (fun _ _ => rfl) rfl _ f).after (seesAs_beginLookups hregs hpart _ _)

/-- The frame with the outcome of its route lookup noted. -/
def routeNoted (res : RouteRes) (f : Frame) : Frame := { f with route := some res }

theorem route_putFrame_noted {id : Nat} {f g : Frame} {s t : State} (hf : frameOf s id = some f) (ht : t.frames = s.frames) (hid : g.id = id)
    (res : RouteRes) : (frameOf (putFrame (routeNoted res g) t) id).bind (fun x => x.route) = some res := by
  rw [frameOf_putFrame_found ((frameOf_congr ht id).trans hf) (f := routeNoted res g) hid]
  rfl

theorem regsBut_putFrame {rs : List Nat} {s t : State} (f : Frame) (h : RegsBut rs s t) : RegsBut rs s (putFrame f t) := fun a ha => h a ha

theorem ctrsBut_putFrame {cs : List Nat} {s t : State} (f : Frame) (h : CtrsBut cs s t) : CtrsBut cs s (putFrame f t) := fun a ha hl => h a ha hl

section
variable {id : Nat} {f : Frame} {s : State} (hf : frameOf s id = some f) (hstage : f.stage = .lookup) (hdef : f.defAct = false)
  (hexc : f.exc = 0) (hroute : f.route = none) (hdone : catDone s f = true)
include hf hstage hdef hexc hroute hdone

/-- A frame that no profile selects makes no lookup (R191). -/
theorem exec_routeLookup_unselected (hprof : routeProf s f = none) :
    exec (.routeLookup id) s = .next (putFrame (routeNoted .notMade (routeFrame s f)) s) := by
  have hsee := (seesAs_routeFrame (t := s) (fun _ _ => rfl) rfl f).routeProf.trans hprof
  rw [routeFrame] at hsee
  show execRouteLookup id s = _
  obtain ⟨lookup, hlookup⟩ : ∃ F, F = execRouteLookup := ⟨_, rfl⟩
  obtain ⟨prof, hprofOf⟩ : ∃ F, F = routeProf := ⟨_, rfl⟩
  obtain ⟨search, hsearch⟩ : ∃ F, F = routeSearch := ⟨_, rfl⟩
  obtain ⟨term, hterm⟩ : ∃ F, F = terminate := ⟨_, rfl⟩
  obtain ⟨done, hdoneOf⟩ : ∃ F, F = catDone := ⟨_, rfl⟩
  rw [← hlookup]
  rw [← hprofOf] at hsee
  rw [← hdoneOf] at hdone
  delta execRouteLookup at hlookup
  rw [← hprofOf, ← hsearch, ← hterm, ← hdoneOf] at hlookup
  rw [hlookup]
  simp only [routeNoted, hf, hstage, hdef, hexc, hroute, hdone, hsee, routeFrame, bne_self_eq_false, Option.isSome_none, Bool.or_self, Bool.not_true,
    Bool.false_eq_true, if_false]

/-- A frame that profile `p` selects searches under it, where no TERMINATE hit chose another (R191-R193). -/
theorem exec_routeLookup_selected (hm : s.tab.merges = []) {p : Nat} (hprof : routeProf s f = some p) (hno : terminate s f = none) :
    ∃ r, routeSearch (routeFrame s f) p (slotOf f (rfFor s f (LPM_PROF_CTRL (portWing f.port) p) 22 16)) s = r ∧
      exec (.routeLookup id) s = .next (putFrame (routeNoted r.1 r.2.1) r.2.2) := by
  have hsees := seesAs_routeFrame (t := s) (fun _ _ => rfl) rfl f
  have hsee := hsees.routeProf.trans hprof
  have hseeno := hsees.terminate.trans hno
  have hslot : slotOf (routeFrame s f) (rfFor s (routeFrame s f) (LPM_PROF_CTRL (portWing f.port) p) 22 16) =
      slotOf f (rfFor s f (LPM_PROF_CTRL (portWing f.port) p) 22 16) := by rw [hsees.slot, rfFor, rfFor, hsees.regs]
  refine ⟨_, rfl, ?_⟩
  rw [← hslot]
  rw [routeFrame] at hsee hseeno
  show execRouteLookup id s = _
  obtain ⟨lookup, hlookup⟩ : ∃ F, F = execRouteLookup := ⟨_, rfl⟩
  obtain ⟨prof, hprofOf⟩ : ∃ F, F = routeProf := ⟨_, rfl⟩
  obtain ⟨search, hsearch⟩ : ∃ F, F = routeSearch := ⟨_, rfl⟩
  obtain ⟨term, hterm⟩ : ∃ F, F = terminate := ⟨_, rfl⟩
  obtain ⟨done, hdoneOf⟩ : ∃ F, F = catDone := ⟨_, rfl⟩
  have hset := settle_none s hm
  rw [← hlookup, ← hsearch]
  rw [← hprofOf] at hsee
  rw [← hterm] at hseeno
  rw [← hdoneOf] at hdone
  delta execRouteLookup at hlookup
  rw [← hprofOf, ← hsearch, ← hterm, ← hdoneOf] at hlookup
  rw [hlookup]
  simp only [routeNoted, hf, hstage, hdef, hexc, hroute, hdone, hsee, hseeno, hset, routeFrame, bne_self_eq_false, Option.isSome_none, Bool.or_self,
    Bool.not_true, Bool.false_eq_true, if_false]


/-- A lookup that no profile selects notes so, and changes no register and no counter. -/
theorem routeLookup_unselected (hprof : routeProf s f = none) : ∃ t, exec (.routeLookup id) s = .next t ∧
    (frameOf t id).bind (fun x => x.route) = some .notMade ∧ RegsBut [] s t ∧ CtrsBut [] s t := by
  have hid := (seesAs_routeFrame (t := s) (fun _ _ => rfl) rfl f).id
  exact ⟨_, exec_routeLookup_unselected hf hstage hdef hexc hroute hdone hprof,
    route_putFrame_noted hf rfl (hid.trans (frameOf_id hf)) _, fun _ _ => rfl, fun _ _ _ => rfl⟩

variable (hm : s.tab.merges = []) {p : Nat} (hprof : routeProf s f = some p) (hno : terminate s f = none)
  (hlong : (rbFor s f (LPM_PROF_CTRL (portWing f.port) p) 30 && rbFor s f (LPM_PROF_CTRL (portWing f.port) p) 23) = false)
include hm hprof hno hlong

/-- A lookup under a profile notes a miss, or the prefix found with what its result gives (R194, R197, R198). -/
theorem routeLookup_searches :
    (routeFind s (b2n (rbFor s f (LPM_PROF_CTRL (portWing f.port) p) 30)) (slotOf f (rfFor s f (LPM_PROF_CTRL (portWing f.port) p) 22 16))
        (routeAddr s f p) f.epoch = none →
      ∃ t, exec (.routeLookup id) s = .next t ∧ (frameOf t id).bind (fun x => x.route) = some (.missed p) ∧ RegsBut [] s t ∧
        CtrsBut [LPM_CNT (portWing f.port) 0, LPM_CNT (portWing f.port) 3] s t) ∧
    (∀ r, routeFind s (b2n (rbFor s f (LPM_PROF_CTRL (portWing f.port) p) 30)) (slotOf f (rfFor s f (LPM_PROF_CTRL (portWing f.port) p) 22 16))
        (routeAddr s f p) f.epoch = some r →
      ∃ t seed q, exec (.routeLookup id) s = .next t ∧ (frameOf t id).bind (fun x => x.route) = some (.found p q.1 seed) ∧
        routeResult (routeFrame s f) p r.result (lookupCounted (portWing f.port) 1 s) = q) := by
  have hsees := seesAs_routeFrame (t := s) (fun _ _ => rfl) rfl f
  have hid : (routeFrame s f).id = id := hsees.id.trans (frameOf_id hf)
  have hctrl : ∀ b, rbFor s (routeFrame s f) (LPM_PROF_CTRL (portWing f.port) p) b = rbFor s f (LPM_PROF_CTRL (portWing f.port) p) b :=
    fun b => by rw [rbFor, rbFor, hsees.regs]
  obtain ⟨r, hr, hexec⟩ := exec_routeLookup_selected hf hstage hdef hexc hroute hdone hm hprof hno
  have hsearch := routeSearch_structure (f := routeFrame s f) (p := p) (s := s)
    (vrf := slotOf f (rfFor s f (LPM_PROF_CTRL (portWing f.port) p) 22 16)) (by rw [hsees.port, hctrl, hctrl, hlong])
  rw [hsees.port, hctrl, hsees.routeAddr, hsees.epoch, hr] at hsearch
  obtain ⟨hmissed, hfound⟩ := hsearch
  refine ⟨fun h => ?_, fun x h => ?_⟩
  · obtain ⟨hbus, hregs, hctrs⟩ := lookupCounted_changes (portWing f.port) 3 s
    rw [hmissed h] at hexec
    exact ⟨_, hexec, route_putFrame_noted hf hbus.frames hid _, regsBut_putFrame _ hregs, ctrsBut_putFrame _ hctrs⟩
  · obtain ⟨hbus, -, -⟩ := lookupCounted_changes (portWing f.port) 1 s
    obtain ⟨seed, q, hq, hresult⟩ := hfound x h
    rw [hq] at hexec
    exact ⟨_, seed, q, hexec, route_putFrame_noted hf ((onlyNotes_routeResult hresult).after hbus.notes).frames hid _, hresult⟩

end

/-- A PUNT result names its queue (R197). -/
theorem routeResult_punt {f : Frame} {p : Nat} {r : BitVec 64} (s : State) (h : kindOf r = 6) :
    routeResult f p r s = (.punt (valueOf r % 16) 0, s) := by
  rw [routeResult, h]
  rfl

/-- Settles O22: what the frame's lookups see does not change as they begin, and the search is the longest of the visible matches. -/
theorem routeLookup : Obligations.RouteLookup := by
  intro id f s hf hstage hdef hexc hroute hdone hm
  refine ⟨routeLookup_unselected hf hstage hdef hexc hroute hdone, fun p hprof hno hlong => ?_⟩
  obtain ⟨hmissed, hfound⟩ := routeLookup_searches hf hstage hdef hexc hroute hdone hm hprof hno hlong
  refine ⟨hmissed, fun r hr => ?_⟩
  obtain ⟨hmem, hmatch, hlongest⟩ := routeFind_spec hr
  obtain ⟨-, hvrf, hprefix, hvis⟩ := routeMatches_iff.mp hmatch
  obtain ⟨t, seed, q, hexec, hres, hresult⟩ := hfound r hr
  refine ⟨⟨hmem, hvrf, hprefix, hvis⟩, fun q hq hfam hvrf hprefix hvis => ?_, t, q.1, seed, hexec, hres, fun hkind => ?_⟩
  · exact hlongest q hq (routeMatches_iff.mpr ⟨hfam, hvrf, hprefix, hvis⟩)
  · rw [← hresult, routeResult_punt _ hkind]

end Sys2Proof.Machine
end

section
/-!
SUPPORT. A command taken from its executor, and its completion in host memory when its work leaves the way of it (R268-R275, R511).
-/
namespace Sys2Proof.Machine

/-! ## A command taken -/

/-- The state with command `c` taken from its executor. -/
def taken (c : Cmd) (s : State) : State := putExq (executorOf c.op) ((exqOf s (executorOf c.op)).drop 1) s

theorem exqOf_taken (c : Cmd) (s : State) : exqOf (taken c s) (executorOf c.op) = (exqOf s (executorOf c.op)).drop 1 := sGet_sPut_same _ _ _ _

theorem nextEpoch_taken (c : Cmd) (s : State) : nextEpoch (taken c s) = nextEpoch s := rfl

theorem RunsNext.earlyEnd {c : Cmd} {s : State} (h : RunsNext c s) : earlyEnd s (executorOf c.op) c = none := by
  obtain ⟨hbad, -, -, -⟩ := h.form
  obtain ⟨hon, hlong⟩ := h.on
  have hcount : (match entriesOf c with | some n => n != c.entries | none => false) = false := by
    rcases h.count with hn | hn
    · rw [hn]
    · rw [hn]
      exact bne_self_eq_false _
  have hoff : (longCmd c && !tableOn s 0) = false := by
    cases hl : longCmd c
    · rfl
    · rw [hlong hl]
      rfl
  have hroom : (changes c.op && liveCount s == 4) = false := by
    cases hc : changes c.op
    · rfl
    · have hlt := h.room hc
      rw [Bool.true_and, beq_eq_false_iff_ne]
      omega
  unfold Machine.earlyEnd
  rw [hbad, hon, hoff, hroom]
  simp only [Bool.false_or, Bool.not_true, Bool.false_eq_true, if_false, ite_eq_right_iff]
  exact fun hn => absurd (hcount.symm.trans hn) Bool.false_ne_true

/-- A command that runs does its work on the state it was taken from, and finishes (R268-R275). -/
theorem RunsNext.runCmd {c : Cmd} {s : State} (h : RunsNext c s) {e op : Nat} (he : executorOf c.op = e) (hop : c.op = op)
    (f : Cmd → State → CmdEnd × State) : runCmd e op s f = finish c (f c (taken c s)).1 (f c (taken c s)).2 := by
  subst he hop
  have hset : settle (taken c s) = taken c s := settle_none _ h.clean
  rw [taken] at hset
  rw [Machine.runCmd, startCmd, h.front]
  simp only [hset, h.earlyEnd, taken]

/-! ## What a command's work leaves for its completion -/

/-- From `s` to `t` stays what the completion of a command of ring `r` goes by: the host interface and its registers, ring `r`'s
configuration, the executors and the epochs. -/
structure CmdStays (r : Nat) (s t : State) : Prop where
  regs : ∀ a, a / 0x10000 = pageHIF ∨ a / 0x10000 = pageHIF + 2 → 0x100 ≤ a % 0x10000 → rd t a = rd s a
  ring : rd t (HIF_SQ_CFG r) = rd s (HIF_SQ_CFG r)
  hif : t.hif = s.hif
  exq : t.prv.exq = s.prv.exq
  newest : t.prv.c = s.prv.c
  oldest : t.prv.o = s.prv.o

section
variable {r : Nat} {s t : State} (h : CmdStays r s t)
include h

theorem CmdStays.cqOf : Machine.cqOf t r = Machine.cqOf s r := by rw [Machine.cqOf, Machine.cqOf, rf, rf, h.ring]

theorem CmdStays.cqReg {q x : Nat} (hq : q < 32) (hx : x < 0x20) :
    rd t (bar0 (pageHIF + 2) (0x100 + x + 0x20 * q)) = rd s (bar0 (pageHIF + 2) (0x100 + x + 0x20 * q)) := by
  refine h.regs _ (.inr (page_bar0 _ (by omega))) ?_
  rw [offset_bar0 _ (by omega)]
  omega

theorem CmdStays.cqSlot : Machine.cqSlot t r = Machine.cqSlot s r := by
  have hq : Machine.cqOf s r < 32 := fld_lt _ 20 16
  have hlo : rd t (HIF_CQ_BASE_LO (Machine.cqOf s r)) = rd s (HIF_CQ_BASE_LO (Machine.cqOf s r)) := h.cqReg hq (x := 0) (by decide)
  have hhi : rd t (HIF_CQ_BASE_LO (Machine.cqOf s r) + 4) = rd s (HIF_CQ_BASE_LO (Machine.cqOf s r) + 4) := by
    have haddr : HIF_CQ_BASE_LO (Machine.cqOf s r) + 4 = bar0 (pageHIF + 2) (0x100 + 4 + 0x20 * Machine.cqOf s r) := by
      rw [HIF_CQ_BASE_LO, bar0, bar0]
      omega
    rw [haddr, h.cqReg hq (by decide)]
  have hprod : rd t (HIF_CQ_PROD (Machine.cqOf s r)) = rd s (HIF_CQ_PROD (Machine.cqOf s r)) := h.cqReg hq (x := 0x10) (by decide)
  rw [Machine.cqSlot, Machine.cqSlot, h.cqOf, rd64, rd64, hlo, hhi, rf, rf, hprod]

theorem CmdStays.phase : rb t (HIF_CQ_PROD (Machine.cqOf t r)) 16 = rb s (HIF_CQ_PROD (Machine.cqOf s r)) 16 := by
  have hq : Machine.cqOf s r < 32 := fld_lt _ 20 16
  have hprod : rd t (HIF_CQ_PROD (Machine.cqOf s r)) = rd s (HIF_CQ_PROD (Machine.cqOf s r)) := h.cqReg hq (x := 0x10) (by decide)
  rw [h.cqOf, rb, rb, hprod]

theorem CmdStays.cplOpen (o : CplOpen r s) : CplOpen r t := by
  have hq : Machine.cqOf s r < 32 := fld_lt _ 20 16
  have hcfg : rd t (HIF_CQ_CFG (Machine.cqOf s r)) = rd s (HIF_CQ_CFG (Machine.cqOf s r)) := h.cqReg hq (x := 8) (by decide)
  have hcons : rd t (HIF_CQ_CONS (Machine.cqOf s r)) = rd s (HIF_CQ_CONS (Machine.cqOf s r)) := h.cqReg hq (x := 0xC) (by decide)
  have hprod : rd t (HIF_CQ_PROD (Machine.cqOf s r)) = rd s (HIF_CQ_PROD (Machine.cqOf s r)) := h.cqReg hq (x := 0x10) (by decide)
  have hpcie : rd t HIF_PCIE_STAT = rd s HIF_PCIE_STAT := h.regs _ (.inl (by decide)) (by decide)
  have hout : ∀ u : State, outFull u false (Machine.cqOf s r) =
      ringFull (rd u (HIF_CQ_CONS (Machine.cqOf s r))) (rd u (HIF_CQ_PROD (Machine.cqOf s r))) := fun _ => rfl
  refine ⟨?_, ?_, ?_, by rw [h.hif]; exact o.none⟩
  · rw [h.cqOf, rb, hcfg]
    exact o.enabled
  · rw [memOk, rf, rb, rb, hpcie]
    exact o.mem
  · rw [h.cqOf, hout, hcons, hprod]
    exact o.room

theorem CmdStays.nextEpoch : Machine.nextEpoch t = Machine.nextEpoch s := by rw [Machine.nextEpoch, Machine.nextEpoch, h.newest]

theorem CmdStays.after {u : State} (g : CmdStays r t u) : CmdStays r s u where
  regs a ha hx := (g.regs a ha hx).trans (h.regs a ha hx)
  ring := g.ring.trans h.ring
  hif := g.hif.trans h.hif
  exq := g.exq.trans h.exq
  newest := g.newest.trans h.newest
  oldest := g.oldest.trans h.oldest

end

/-! ## The completion -/

/-- `t` differs from `s` in its registers and counters and in the host interface alone. -/
def OnlyHost (s t : State) : Prop := t = { s with bus := t.bus, hif := t.hif }

theorem OnlyHost.after {s t u : State} (g : OnlyHost t u) (h : OnlyHost s t) : OnlyHost s u := by
  unfold OnlyHost at *
  rw [g, h]

theorem OnlyBus.host {s t : State} (h : OnlyBus s t) : OnlyHost s t := by
  unfold OnlyBus OnlyHost at *
  rw [h]

theorem OnlyHost.tab {s t : State} (h : OnlyHost s t) : t.tab = s.tab := congrArg (fun x => x.tab) h

theorem OnlyHost.prv {s t : State} (h : OnlyHost s t) : t.prv = s.prv := congrArg (fun x => x.prv) h

theorem OnlyHost.tablesKept {s t : State} (h : OnlyHost s t) : TablesKept s t :=
  ⟨h.tab, congrArg (fun x => x.lpm) h, congrArg (fun x => x.vit) h, congrArg (fun x => x.cat) h, by rw [h.prv], by rw [h.prv], by rw [h.prv]⟩

theorem onlyHost_hostWrite (a : Nat) (bs : List Byte) (s : State) : OnlyHost s (hostWrite a bs s) := by
  unfold OnlyHost
  rw [hostWrite_keeps]

theorem onlyHost_putEntry (eq : Bool) (r : Nat) (ws : List W32) (s : State) : OnlyHost s (putEntry eq r ws s) := by
  unfold putEntry
  dsimp only
  split
  · exact (wf_onlyBus _ _ _ _ _).host.after (onlyHost_hostWrite _ _ _)
  · exact (wr_onlyBus _ _ _).host.after (onlyHost_hostWrite _ _ _)

theorem onlyHost_irqCount (eq : Bool) (r : Nat) (s : State) : OnlyHost s (irqCount eq r s) := by
  unfold irqCount
  dsimp only
  split
  · exact (sendMsix_onlyBus _ _).host.after rfl
  · split
    · rfl
    · rfl

theorem onlyHost_writeCpl (c : Cpl) (s : State) : OnlyHost s (writeCpl c s) := by
  have hwrite : OnlyHost s (writeEntry c s) := (bump_onlyBus _ _).host.after (onlyHost_putEntry _ _ _ _)
  unfold writeCpl
  dsimp only
  split
  · exact (onlyHost_irqCount _ _ _).after hwrite
  · exact hwrite

theorem onlyHost_complete (c : Cpl) (s : State) : OnlyHost s (complete c s) := by
  have hoffer : OnlyHost s (offerCpl c s) := by
    unfold offerCpl
    dsimp only
    split
    · exact (bump_onlyBus _ _).host
    · split
      · exact (raise_onlyBus _ _ _).host.after rfl
      · exact onlyHost_writeCpl c s
  have hpme : ∀ t, OnlyHost t (pme t) := fun t => by
    unfold pme
    split
    · rfl
    · rfl
  unfold complete
  split
  · exact (bump_onlyBus _ _).host
  · split
    · exact hoffer
    · exact (hpme _).after ((bump_onlyBus _ _).host.after rfl)

theorem countStatus_onlyBus (st : Nat) (s : State) : OnlyBus s (countStatus st s) := by
  unfold countStatus
  split
  · exact bump_onlyBus _ _
  · split
    · exact (raise_onlyBus _ _ _).trans' (bump_onlyBus _ _)
    · split
      · exact bump_onlyBus _ _
      · split
        · exact bump_onlyBus _ _
        · split
          · exact bump_onlyBus _ _
          · rfl

/-- The end of a command changes no table and no epoch. -/
theorem onlyHost_finish (c : Cmd) (r : CmdEnd) (s : State) : OnlyHost s (finish c r s) := by
  have hcount := (countStatus_onlyBus r.status s).host
  unfold finish
  dsimp only
  split
  · exact (bump_onlyBus _ _).host.after hcount
  · split
    · exact (onlyHost_complete _ _).after hcount
    · split
      · exact (onlyHost_complete _ _).after ((onlyHost_hostWrite _ _ _).after hcount)
      · exact OnlyHost.after rfl hcount

theorem mem_irqCount (eq : Bool) (r : Nat) (s : State) : (irqCount eq r s).hif.mem = s.hif.mem := by
  unfold irqCount
  dsimp only
  split
  · rw [sendMsix_hif]
    rfl
  · split
    · rfl
    · rfl

/-- Where ring `r` can take an entry, a completion is written at its slot with the phase of its lap (R511). -/
theorem mem_complete {r : Nat} (o : Nat) (w0 : W32) {ws : List W32} {s : State} (hlen : ws.length = 7) (h : CplOpen r s) :
    (complete ⟨o, r, w0 :: ws, true⟩ s).hif.mem = (hostWrite (cqSlot s r) (wordBytes
      (setFld w0 31 31 (if rb s (HIF_CQ_PROD (cqOf s r)) 16 then 0 else 1) :: ws)) s).hif.mem := by
  have hws : ((List.range 7).map fun j => ws.getD j 0) = ws := by
    refine List.ext_getElem (by rw [List.length_map, List.length_range, hlen]) fun j h1 h2 => ?_
    rw [List.getElem_map, List.getElem_range, List.getD_eq_getElem _ _ h2]
  have hput : (putEntry false (cqOf s r) (w0 :: ws) s).hif = (hostWrite (cqSlot s r) (wordBytes
      (setFld w0 31 31 (if rb s (HIF_CQ_PROD (cqOf s r)) 16 then 0 else 1) :: (List.range 7).map fun j => ws.getD j 0)) s).hif := by
    unfold putEntry
    dsimp only
    split
    · rw [(wf_onlyBus _ _ _ _ _).hif]
      rfl
    · rw [(wr_onlyBus _ _ _).hif]
      rfl
  have hwait : (s.hif.waiting.any fun x => cqOf s x.ring == cqOf s r) = false := by
    rw [h.none]
    rfl
  simp only [complete, h.enabled, h.mem, offerCpl, h.room, hwait, writeCpl, writeEntry, Bool.not_true, Bool.or_self, Bool.false_eq_true, if_false,
    if_true]
  rw [mem_irqCount, bump_hif, hput, hws]

/-! ## Its words -/

theorem memBytes_hostWrite {bs : List Byte} {i n : Nat} (h : i + n ≤ bs.length) (a : Nat) (s : State) :
    memBytes (hostWrite a bs s) (a + i) n = (slice bs i n).map some := by
  rw [memBytes, slice, List.map_map]
  refine List.map_congr_left fun j hj => ?_
  have hlt := List.mem_range.mp hj
  have hsub : a + i + j - a = i + j := by omega
  rw [mem_hostWrite, if_pos (by omega), hsub]
  rfl

/-- Bytes spell a number modulo what they can hold. -/
theorem leBytes_mod (k n : Nat) : leBytes k (n % 256 ^ k) = leBytes k n := by
  induction k generalizing n with
  | zero => rfl
  | succ k ih =>
    have hlow : byte (n % 256 ^ (k + 1)) = byte n := by
      refine BitVec.eq_of_toNat_eq ?_
      rw [byte, byte, BitVec.toNat_ofNat, BitVec.toNat_ofNat, Nat.pow_succ, Nat.mod_mul_left_mod]
    have hhigh : n % 256 ^ (k + 1) / 256 = n / 256 % 256 ^ k := by rw [Nat.pow_succ', Nat.mod_mul_right_div_self]
    rw [leBytes, hlow, hhigh, ih, leBytes]

theorem leBytes_w32 (n : Nat) : leBytes 4 (w32 n).toNat = leBytes 4 n := by
  rw [w32, BitVec.toNat_ofNat]
  exact leBytes_mod 4 n

/-- The first word of an entry with the phase of its lap over it (R511, R274). -/
theorem phase_word {x : Nat} (h : x < 2 ^ 31) (lap : Bool) :
    (setFld (w32 x) 31 31 (if lap then 0 else 1)).toNat = b2n (!lap) * 2 ^ 31 + x := by
  have hx : (w32 x).toNat = x := by rw [w32, BitVec.toNat_ofNat, Nat.mod_eq_of_lt (by omega)]
  have hbit : bitsOf x 31 31 = 0 := by rw [bitsOf, Nat.div_eq_of_lt h, Nat.zero_mod]
  rw [setFld, hx, hbit, w32, BitVec.toNat_ofNat]
  cases lap
  · simp only [Bool.false_eq_true, if_false, Bool.not_false, b2n, if_true]
    omega
  · simp only [if_true, Bool.not_true, b2n, Bool.false_eq_true, if_false]
    omega

/-- The second word's top byte is the status (R274). -/
theorem status_byte {st e o l : Nat} (he : e < 256) (ho : o < 256) (hl : l < 256) :
    byte ((w32 (st * 2 ^ 24 + e * 65536 + o * 256 + l)).toNat / 256 / 256 / 256) = byte st := by
  refine BitVec.eq_of_toNat_eq ?_
  rw [byte, byte, w32, BitVec.toNat_ofNat, BitVec.toNat_ofNat, BitVec.toNat_ofNat]
  omega

/-- What a completion counts by its status keeps the completion's way, but for BAD_OP's event (R288). -/
theorem cmdStays_countStatus {st : Nat} (h : st ≠ stBAD_OP) (r : Nat) (s : State) : CmdStays r s (countStatus st s) := by
  have hbus := countStatus_onlyBus st s
  have hregs : ∀ a, rd (countStatus st s) a = rd s a := fun a => by
    unfold countStatus
    rw [if_neg h]
    split
    · exact rd_bump _ _ _
    · split
      · exact rd_bump _ _ _
      · split
        · exact rd_bump _ _ _
        · split
          · exact rd_bump _ _ _
          · rfl
  exact ⟨fun a _ _ => hregs a, hregs _, hbus.hif, by rw [hbus.prv], by rw [hbus.prv], by rw [hbus.prv]⟩

/-- The four words of a completion that say something (R274). -/
theorem memBytes_completion {w0 w1 w2 : W32} {ws : List W32} (hlen : ws.length = 5) (a : Nat) (s : State) :
    memBytes (hostWrite a (wordBytes (w0 :: w1 :: w2 :: ws)) s) a 4 = (leBytes 4 w0.toNat).map some ∧
    sGet none (a + 7) (hostWrite a (wordBytes (w0 :: w1 :: w2 :: ws)) s).hif.mem = some (byte (w1.toNat / 256 / 256 / 256)) ∧
    memBytes (hostWrite a (wordBytes (w0 :: w1 :: w2 :: ws)) s) (a + 8) 4 = (leBytes 4 w2.toNat).map some := by
  have hbytes : (wordBytes (w0 :: w1 :: w2 :: ws)).length = 32 := by
    simp [wordBytes, List.length_flatMap, hlen, leBytes]
  refine ⟨?_, ?_, ?_⟩
  · have hfirst := memBytes_hostWrite (bs := wordBytes (w0 :: w1 :: w2 :: ws)) (i := 0) (n := 4) (by omega) a s
    rw [Nat.add_zero] at hfirst
    exact hfirst
  · rw [mem_hostWrite, if_pos (by omega), Nat.add_sub_cancel_left]
    rfl
  · rw [memBytes_hostWrite (by omega)]
    rfl

/-- The command word of a completion (R274). -/
def cplWord (c : Cmd) : Nat := 0x68000000 + c.op * 65536 + c.tag

/-- The status word of a completion (R274). -/
def statusWordOf (c : Cmd) (st : Nat) (s : State) : Nat := st * 2 ^ 24 + cplEpoch s c.op * 65536 + s.prv.o * 256 + liveCount s

/-- A command that ends with no record completes, counted by its status. -/
theorem finish_eq_complete {c : Cmd} (h : c.orphan = false) (st first : Nat) (s : State) : ∃ ws : List W32, ws.length = 5 ∧
    finish c { status := st, first := first } s = complete ⟨executorOf c.op, c.ring,
      w32 (cplWord c) :: w32 (statusWordOf c st (countStatus st s)) :: w32 first :: ws, true⟩ (countStatus st s) := by
  refine ⟨[w32 0xFFFFFFFF, w32 0, 0, 0, 0], rfl, ?_⟩
  rw [finish, h]
  rfl

/-- A command whose work left its completion's way as it was completes in host memory with its status and index (R274, R511). -/
theorem RunsNext.completes {c : Cmd} {s u : State} (h : RunsNext c s) (hu : CmdStays c.ring (taken c s) u) {st : Nat} (first : Nat)
    (hst : st ≠ stBAD_OP) : Completes c st first s (finish c { status := st, first := first } u) := by
  obtain ⟨-, horphan, hop, htag⟩ := h.form
  obtain ⟨hc, ho, hlive⟩ := h.live
  obtain ⟨ws, hlen, hfin⟩ := finish_eq_complete horphan st first u
  obtain ⟨v, hv⟩ : ∃ v, v = countStatus st u := ⟨_, rfl⟩
  rw [← hv] at hfin
  have hstays : CmdStays c.ring (taken c s) v := hv ▸ hu.after (cmdStays_countStatus hst _ u)
  have hopen : CplOpen c.ring v := hstays.cplOpen ⟨h.cpl.enabled, h.cpl.mem, h.cpl.room, h.cpl.none⟩
  have hslot : cqSlot v c.ring = cqSlot s c.ring := hstays.cqSlot
  have hphase : rb v (HIF_CQ_PROD (cqOf v c.ring)) 16 = rb s (HIF_CQ_PROD (cqOf s c.ring)) 16 := hstays.phase
  have hepoch : cplEpoch v c.op < 256 := by
    have hnewest : v.prv.c < 256 := by rw [hstays.newest]; exact hc
    unfold cplEpoch
    split
    · exact Nat.mod_lt _ (by decide)
    · exact hnewest
  have holdest : v.prv.o < 256 := by rw [hstays.oldest]; exact ho
  have hcount : liveCount v < 256 := by
    have hsame : liveCount v = liveCount s := by rw [liveCount, hstays.newest, hstays.oldest]; rfl
    omega
  have hmem := mem_complete (executorOf c.op) (w32 (cplWord c)) (ws := w32 (statusWordOf c st v) :: w32 first :: ws)
    (by rw [List.length_cons, List.length_cons, hlen]) hopen
  rw [← hfin, hslot, hphase] at hmem
  obtain ⟨hword0, hstatus, hindex⟩ := memBytes_completion (w0 := setFld (w32 (cplWord c)) 31 31
    (if rb s (HIF_CQ_PROD (cqOf s c.ring)) 16 then 0 else 1)) (w1 := w32 (statusWordOf c st v)) (w2 := w32 first) hlen (cqSlot s c.ring) v
  have hword : cplWord c < 2 ^ 31 := by
    rw [cplWord]
    omega
  have hsum : b2n (!rb s (HIF_CQ_PROD (cqOf s c.ring)) 16) * 2 ^ 31 + cplWord c =
      b2n (!rb s (HIF_CQ_PROD (cqOf s c.ring)) 16) * 2 ^ 31 + 0x68000000 + c.op * 65536 + c.tag := by
    rw [cplWord]
    omega
  refine ⟨?_, ?_, ?_, ?_⟩
  · rw [exqOf, (onlyHost_finish _ _ _).prv, hu.exq, ← exqOf, exqOf_taken]
  · rw [memBytes, hmem, ← memBytes, hword0, phase_word hword, hsum]
  · rw [hmem, hstatus, statusWordOf, status_byte hepoch holdest hcount]
  · rw [memBytes, hmem, ← memBytes, hindex, leBytes_w32]

end Sys2Proof.Machine
end

section
/-!
SUPPORT. Words of the route memories written in both replicas, and what the work of a next-hop or group command leaves alone (R27, R500).
-/
namespace Sys2Proof.Machine

/-! ## The route memories -/

/-- Does table address `a` lie in a region of the route block (R185, R500)? -/
def onRoutes (a : Nat) : Prop := 0x8000000 ≤ a ∧ a < 0x10000000

theorem onRoutes_region {w o : Nat} (hw : w < 2) (ho : o < 0x4000000) : onRoutes ((2 + w) * 0x4000000 + o) := by
  rw [onRoutes]
  omega

theorem eccBase_region (a : Nat) : eccBase a / 0x4000000 = a / 0x4000000 := by
  have hsize : eccSize a = 64 ∨ eccSize a = 16 := by
    unfold eccSize
    dsimp only
    split
    · exact .inl rfl
    · split
      · split
        · exact .inl rfl
        · exact .inr rfl
      · exact .inr rfl
  rw [eccBase]
  rcases hsize with h64 | h16
  · rw [h64]
    omega
  · rw [h16]
    omega

/-- The route memories hold every bit of a word. -/
theorem and_wordMask_routes {a : Nat} (h : onRoutes a) (v : W32) : v &&& wordMask a = v := by
  rw [onRoutes] at h
  have hr : a / 0x4000000 ≠ 0xB := by omega
  rw [wordMask, if_neg fun h => hr h.1, if_neg fun h => hr h.1]
  exact BitVec.and_allOnes

/-! ## What a next-hop or group command's work leaves alone -/

/-- From `s` to `t` words of the tables were read and written, records marked, and free choices drawn: nothing else has changed, no
register but the counts of corrected words, and no merge waits. -/
structure RouteWork (s t : State) : Prop where
  parts : t = { s with bus := t.bus, tab := t.tab, csv := t.csv, prv := { s.prv with marks := t.prv.marks } }
  regs : ∀ a, a % 0x10000 ≠ 0x2C → a % 0x10000 ≠ 0x30 → rd t a = rd s a
  merges : t.tab.merges = []

section
variable {s t u : State}

theorem RouteWork.after (g : RouteWork t u) (h : RouteWork s t) : RouteWork s u where
  parts := by
    rw [g.parts, h.parts]
  regs a h1 h2 := (g.regs a h1 h2).trans (h.regs a h1 h2)
  merges := g.merges

theorem RouteWork.nextEpoch (h : RouteWork s t) : Machine.nextEpoch t = Machine.nextEpoch s := by
  have hc : t.prv.c = s.prv.c := congrArg (fun x => x.prv.c) h.parts
  rw [Machine.nextEpoch, Machine.nextEpoch, hc]

/-- Such work keeps the way of its command's completion, whatever ring the command names. -/
theorem RouteWork.cmdStays (h : RouteWork s t) (r : Nat) : CmdStays r s t where
  regs a _ hx := h.regs a (by omega) (by omega)
  ring := by
    refine h.regs _ ?_ ?_
    · rw [HIF_SQ_CFG, bar0, pageHIF]
      omega
    · rw [HIF_SQ_CFG, bar0, pageHIF]
      omega
  hif := congrArg (fun x => x.hif) h.parts
  exq := congrArg (fun x => x.prv.exq) h.parts
  newest := congrArg (fun x => x.prv.c) h.parts
  oldest := congrArg (fun x => x.prv.o) h.parts

theorem ReadsCounted.routeWork (h : ReadsCounted s t) (hm : s.tab.merges = []) : RouteWork s t where
  parts := by
    have hnotes := h.notes
    rw [OnlyNotes] at hnotes
    rw [hnotes]
  regs := h.regs
  merges := by rw [h.notes.tab, hm]

theorem routeWork_bump (a : Nat) (hm : s.tab.merges = []) : RouteWork s (bump a s) where
  parts := by
    have hbus := bump_onlyBus a s
    rw [OnlyBus] at hbus
    rw [hbus]
  regs b _ _ := rd_bump a s b
  merges := by rw [bump_tab, hm]

theorem routeWork_markRec (k i e : Nat) (hm : s.tab.merges = []) : RouteWork s (markRec k i e s) := ⟨rfl, fun _ _ _ => rfl, hm⟩

/-- A write in the route memories changes the tables alone. -/
theorem engWrite_routes {a : Nat} (ha : onRoutes a) (ws : List W32) (hm : s.tab.merges = []) :
    engWrite a ws s = { s with tab := (engWrite a ws s).tab } := by
  have hbase := eccBase_region a
  rw [onRoutes] at ha
  have hwritten : ∀ x, wordWritten (eccBase a) s x = x := fun x => by
    have hclear : unclear (eccBase a) x = x := by
      unfold unclear
      dsimp only
      rw [hbase, if_neg (by omega), if_neg (by omega)]
    unfold wordWritten
    dsimp only
    rw [hclear, ite_self, hbase, if_neg (by omega)]
  have hput := putWords_rest ws a s
  unfold engWrite
  dsimp only
  rw [settle_none s hm, hwritten, putEcc]
  dsimp only
  rw [hput]

theorem routeWork_engWrite {a : Nat} (ha : onRoutes a) (ws : List W32) (hm : s.tab.merges = []) : RouteWork s (engWrite a ws s) where
  parts := by rw [engWrite_routes ha ws hm]
  regs b _ _ := by
    rw [engWrite_routes ha ws hm]
    rfl
  merges := engWrite_merges a ws s

end

/-! ## Words written in both replicas -/

section
variable {s : State} (hm : s.tab.merges = [])
include hm

theorem routeWork_engWriteBoth {o : Nat} (ho : o < 0x4000000) (ws : List W32) : RouteWork s (engWriteBoth 2 o ws s) :=
  (routeWork_engWrite (onRoutes_region (w := 1) (by decide) ho) ws (engWrite_merges _ _ _)).after
    (routeWork_engWrite (onRoutes_region (w := 0) (by decide) ho) ws hm)

/-- A run of words written in both replicas reads back in either. -/
theorem tw_engWriteBoth {o w j : Nat} {ws : List W32} (ho : o + 4 * ws.length ≤ 0x4000000) (hw : w < 2) (hj : j < ws.length) :
    tw (engWriteBoth 2 o ws s) ((2 + w) * 0x4000000 + o + 4 * j) = ws.getD j 0 := by
  have hat : ∀ {u : State}, u.tab.merges = [] →
      tw (engWrite ((2 + w) * 0x4000000 + o) ws u) ((2 + w) * 0x4000000 + o + 4 * j) = ws.getD j 0 := fun hu => by
    have hidx : ((2 + w) * 0x4000000 + o + 4 * j - ((2 + w) * 0x4000000 + o)) / 4 = j := by omega
    have hon : onRoutes ((2 + w) * 0x4000000 + o + 4 * j) := by
      rw [Nat.add_assoc]
      exact onRoutes_region hw (by omega)
    rw [tw_engWrite _ _ hu, if_pos (by omega), hidx, and_wordMask_routes hon]
  rw [engWriteBoth]
  rcases (by omega : w = 0 ∨ w = 1) with rfl | rfl
  · rw [tw_engWrite _ _ (engWrite_merges _ _ _), if_neg (by omega)]
    exact hat hm
  · exact hat (engWrite_merges _ _ _)

/-- Every other word stays. -/
theorem tw_engWriteBoth_ne {o b : Nat} {ws : List W32}
    (hb : ∀ w, w < 2 → ¬((2 + w) * 0x4000000 + o ≤ b ∧ b < (2 + w) * 0x4000000 + o + 4 * ws.length)) :
    tw (engWriteBoth 2 o ws s) b = tw s b := by
  have h0 := hb 0 (by decide)
  have h1 := hb 1 (by decide)
  rw [engWriteBoth, tw_engWrite _ _ (engWrite_merges _ _ _), if_neg (by omega), tw_engWrite _ _ hm, if_neg (by omega)]

/-- A word edited in both replicas, each from its own. -/
theorem tw_editBoth {f : Nat → Nat} {g : W32 → W32} (h0 : onRoutes (f 0)) (h1 : onRoutes (f 1)) (hne : f 0 ≠ f 1) (b : Nat) :
    tw (editBoth f g s) b = if b = f 0 ∨ b = f 1 then g (tw s b) else tw s b := by
  have hfirst : ∀ b, tw (engWrite (f 0) [g (tw s (f 0))] s) b = if b = f 0 then g (tw s (f 0)) else tw s b := fun b => by
    rw [tw_engWrite_one _ _ hm, and_wordMask_routes h0]
  rw [editBoth, tw_engWrite_one _ _ (engWrite_merges _ _ _), and_wordMask_routes h1, hfirst, hfirst, if_neg (Ne.symm hne)]
  by_cases hb1 : b = f 1
  · subst hb1
    rw [if_pos rfl, if_pos (.inr rfl)]
  · by_cases hb0 : b = f 0
    · subst hb0
      rw [if_neg hb1, if_pos rfl, if_pos (.inl rfl)]
    · rw [if_neg hb1, if_neg hb0, if_neg (by tauto)]

theorem routeWork_editBoth {f : Nat → Nat} (g : W32 → W32) (h0 : onRoutes (f 0)) (h1 : onRoutes (f 1)) : RouteWork s (editBoth f g s) :=
  (routeWork_engWrite h1 _ (engWrite_merges _ _ _)).after (routeWork_engWrite h0 _ hm)

end

end Sys2Proof.Machine
end

section
/-!
SUPPORT. One version of a next hop or group: where it lies, and its retirement (R200, R203, R261).
-/
namespace Sys2Proof.Machine

/-! ## Where the versions of next hops and groups lie (R200, R203) -/

/-- Record `i` of table `k` lies at offset `o` of the route regions, with its death and birth `d` bytes on. -/
structure PairLoc (k i o d : Nat) : Prop where
  loc : ∀ w, verLoc k w i = ⟨(2 + w) * 0x4000000 + o, 30, 29, (2 + w) * 0x4000000 + o + d, if d = 0 then 8 else 24, if d = 0 then 0 else 16⟩
  inside : o + 8 ≤ 0x4000000
  apart : d = 0 ∨ d = 4

theorem pairLoc_nh {n v : Nat} (hn : n < 262144) (hv : v < 2) : PairLoc 2 (2 * n + v) (0x1000000 + 32 * n + 16 * v) 0 := by
  have hdiv : (2 * n + v) / 2 = n := by omega
  have hmod : (2 * n + v) % 2 = v := by omega
  refine ⟨fun w => ?_, by omega, .inl rfl⟩
  simp only [verLoc, hdiv, hmod, nhAddr, if_true, Nat.add_assoc, Nat.add_zero]

theorem pairLoc_grp {g v : Nat} (hg : g < 16384) (hv : v < 2) : PairLoc 3 (2 * g + v) (0x1800000 + 16 * g + 8 * v) 4 := by
  have hdiv : (2 * g + v) / 2 = g := by omega
  have hmod : (2 * g + v) % 2 = v := by omega
  refine ⟨fun w => ?_, by omega, .inr rfl⟩
  have h4 : ¬((4 : Nat) = 0) := by decide
  simp only [verLoc, hdiv, hmod, grpAddr, h4, if_false, Nat.add_assoc]

/-- What the version fields of a record at offset `o` say. -/
theorem PairLoc.recValid {k i o d : Nat} (h : PairLoc k i o d) (s : State) (w : Nat) :
    recValid s k w i = bit (tw s ((2 + w) * 0x4000000 + o)) 31 := by rw [Machine.recValid, h.loc]

theorem PairLoc.recVer {k i o d : Nat} (h : PairLoc k i o d) (s : State) (w : Nat) :
    recVer s k w i = ⟨fld (tw s ((2 + w) * 0x4000000 + o + d)) ((if d = 0 then 0 else 16) + 7) (if d = 0 then 0 else 16),
      fld (tw s ((2 + w) * 0x4000000 + o + d)) ((if d = 0 then 8 else 24) + 7) (if d = 0 then 8 else 24),
      bit (tw s ((2 + w) * 0x4000000 + o)) 30, bit (tw s ((2 + w) * 0x4000000 + o)) 29⟩ := by rw [Machine.recVer, h.loc]

/-- In `t` the record at offset `o` reads as in `s`. -/
def RecSame (o d : Nat) (s t : State) : Prop := ∀ w, w < 2 → tw t ((2 + w) * 0x4000000 + o) = tw s ((2 + w) * 0x4000000 + o) ∧
  tw t ((2 + w) * 0x4000000 + o + d) = tw s ((2 + w) * 0x4000000 + o + d)

section
variable {k i o d : Nat} (h : PairLoc k i o d) {s t : State} (hs : RecSame o d s t)
include h hs

theorem PairLoc.recValid_same {w : Nat} (hw : w < 2) : Machine.recValid t k w i = Machine.recValid s k w i := by
  rw [h.recValid, h.recValid, (hs w hw).1]

theorem PairLoc.recVer_same {w : Nat} (hw : w < 2) : Machine.recVer t k w i = Machine.recVer s k w i := by
  rw [h.recVer, h.recVer, (hs w hw).1, (hs w hw).2]

/-- A record retired from where it read the same is retired from here. -/
theorem PairLoc.retired_from {u : State} (hn : nextEpoch t = nextEpoch s) (hr : Retired k i t u) : Retired k i s u := by
  have hall : ∀ w, w < 2 → Machine.recValid t k w i = Machine.recValid s k w i := fun w hw => h.recValid_same hs hw
  unfold Retired at hr ⊢
  dsimp only at hr ⊢
  rw [h.recVer_same hs (by decide), hn] at hr
  split
  · next hc =>
    rw [if_pos hc] at hr
    exact hr
  · next hc =>
    rw [if_neg hc] at hr
    exact fun w hw => by rw [← hall w hw]; exact hr w hw

end

/-! ## A record retired (R261) -/

section
variable {k i o d : Nat} (h : PairLoc k i o d) {s : State} (hm : s.tab.merges = [])
include h hm

theorem PairLoc.setCtl_work (b v : Nat) : RouteWork s (setCtl k i b v s) ∧
    ∀ a, tw (setCtl k i b v s) a = if a = 2 * 0x4000000 + o ∨ a = 3 * 0x4000000 + o then setFld (tw s a) b b v else tw s a := by
  have hctl : ∀ w, (verLoc k w i).ctl = (2 + w) * 0x4000000 + o := fun w => by rw [h.loc]
  have hin := h.inside
  have hedit : setCtl k i b v s = editBoth (fun w => (2 + w) * 0x4000000 + o) (fun x => setFld x b b v) s := by
    rw [setCtl, setCtlIn, List.foldl_cons, List.foldl_cons, List.foldl_nil, hctl, hctl]
    rfl
  have h0 : onRoutes ((2 + 0) * 0x4000000 + o) := onRoutes_region (by decide) (by omega)
  have h1 : onRoutes ((2 + 1) * 0x4000000 + o) := onRoutes_region (by decide) (by omega)
  have hne : (2 + 0) * 0x4000000 + o ≠ (2 + 1) * 0x4000000 + o := by omega
  rw [hedit]
  exact ⟨routeWork_editBoth hm _ h0 h1, tw_editBoth hm h0 h1 hne⟩

theorem PairLoc.editVer_work (g : W32 → W32) : RouteWork s (editBoth (fun w => (verLoc k w i).ver) g s) ∧
    ∀ a, tw (editBoth (fun w => (verLoc k w i).ver) g s) a =
      if a = 2 * 0x4000000 + o + d ∨ a = 3 * 0x4000000 + o + d then g (tw s a) else tw s a := by
  have hver : (fun w => (verLoc k w i).ver) = fun w => (2 + w) * 0x4000000 + o + d := funext fun w => by rw [h.loc]
  have hin := h.inside
  have hd := h.apart
  have h0 : onRoutes ((2 + 0) * 0x4000000 + o + d) := by
    rw [onRoutes]
    omega
  have h1 : onRoutes ((2 + 1) * 0x4000000 + o + d) := by
    rw [onRoutes]
    omega
  have hne : (2 + 0) * 0x4000000 + o + d ≠ (2 + 1) * 0x4000000 + o + d := by omega
  rw [hver]
  exact ⟨routeWork_editBoth hm _ h0 h1, tw_editBoth hm h0 h1 hne⟩

/-- A record born in the next epoch and not settled is freed. -/
theorem PairLoc.retireRec_frees (hc : (Machine.recVer s k 0 i).birth = nextEpoch s ∧ (Machine.recVer s k 0 i).settled = false) :
    RouteWork s (retireRec k i s) ∧
    ∀ a, tw (retireRec k i s) a = if a = 2 * 0x4000000 + o ∨ a = 3 * 0x4000000 + o then setFld (tw s a) 31 31 0 else tw s a := by
  have hfree : retireRec k i s = bump (PRV_CNT 0 7) (setCtl k i 31 0 s) := by
    unfold retireRec
    dsimp only
    rw [if_pos ⟨hc.1, by rw [hc.2]; rfl⟩, freeRec]
  obtain ⟨hwork, htw⟩ := h.setCtl_work hm 31 0
  rw [hfree]
  exact ⟨(routeWork_bump _ hwork.merges).after hwork, fun a => (tw_congr (bump_tab _ _) a).trans (htw a)⟩

/-- Any other record gets mortal and its death. -/
theorem PairLoc.retireRec_dies (hc : ¬((Machine.recVer s k 0 i).birth = nextEpoch s ∧ (Machine.recVer s k 0 i).settled = false)) :
    RouteWork s (retireRec k i s) ∧ ∀ a, tw (retireRec k i s) a =
      if a = 2 * 0x4000000 + o + d ∨ a = 3 * 0x4000000 + o + d then
        setFld (if a = 2 * 0x4000000 + o ∨ a = 3 * 0x4000000 + o then setFld (tw s a) 30 30 1 else tw s a)
          ((if d = 0 then 8 else 24) + 7) (if d = 0 then 8 else 24) (nextEpoch s)
      else if a = 2 * 0x4000000 + o ∨ a = 3 * 0x4000000 + o then setFld (tw s a) 30 30 1 else tw s a := by
  obtain ⟨hwork, htw⟩ := h.setCtl_work hm 30 1
  obtain ⟨hedit, htw2⟩ := h.editVer_work hwork.merges fun x =>
    setFld x ((if d = 0 then 8 else 24) + 7) (if d = 0 then 8 else 24) (nextEpoch s)
  have hdie : retireRec k i s = markRec k i (nextEpoch s) (editBoth (fun w => (verLoc k w i).ver)
      (fun x => setFld x ((if d = 0 then 8 else 24) + 7) (if d = 0 then 8 else 24) (nextEpoch s)) (setCtl k i 30 1 s)) := by
    unfold retireRec
    dsimp only
    rw [if_neg fun hn => hc ⟨hn.1, by simpa using hn.2⟩, h.loc 0]
  rw [hdie]
  refine ⟨(routeWork_markRec _ _ _ hedit.merges).after (hedit.after hwork), fun a => ?_⟩
  rw [← htw a]
  exact htw2 a

/-- A retirement writes the two words of its record in either replica, and no other. -/
theorem PairLoc.retireRec_work : RouteWork s (retireRec k i s) ∧
    ∀ a, (∀ w, w < 2 → a ≠ (2 + w) * 0x4000000 + o ∧ a ≠ (2 + w) * 0x4000000 + o + d) → tw (retireRec k i s) a = tw s a := by
  have houtside : ∀ a, (∀ w, w < 2 → a ≠ (2 + w) * 0x4000000 + o ∧ a ≠ (2 + w) * 0x4000000 + o + d) →
      ¬(a = 2 * 0x4000000 + o ∨ a = 3 * 0x4000000 + o) ∧ ¬(a = 2 * 0x4000000 + o + d ∨ a = 3 * 0x4000000 + o + d) := fun a ha =>
    ⟨fun hc => hc.elim (ha 0 (by decide)).1 (ha 1 (by decide)).1, fun hc => hc.elim (ha 0 (by decide)).2 (ha 1 (by decide)).2⟩
  by_cases hc : (Machine.recVer s k 0 i).birth = nextEpoch s ∧ (Machine.recVer s k 0 i).settled = false
  · obtain ⟨hwork, htw⟩ := h.retireRec_frees hm hc
    exact ⟨hwork, fun a ha => by rw [htw, if_neg (houtside a ha).1]⟩
  · obtain ⟨hwork, htw⟩ := h.retireRec_dies hm hc
    exact ⟨hwork, fun a ha => by rw [htw, if_neg (houtside a ha).2, if_neg (houtside a ha).1]⟩

theorem PairLoc.retired : Retired k i s (retireRec k i s) := by
  have hn : nextEpoch s % 2 ^ 8 = nextEpoch s := Nat.mod_eq_of_lt (Nat.mod_lt _ (by decide))
  have hctl : ∀ w, w < 2 → ((2 + w) * 0x4000000 + o = 2 * 0x4000000 + o ∨ (2 + w) * 0x4000000 + o = 3 * 0x4000000 + o) := by omega
  unfold Retired
  dsimp only
  split
  · next hc =>
    obtain ⟨-, htw⟩ := h.retireRec_frees hm hc
    have hfreed : ∀ w, w < 2 → Machine.recValid (retireRec k i s) k w i = false := fun w hw => by
      rw [h.recValid, htw, if_pos (hctl w hw), bit_setFld_one _ _ _ (by decide)]
      rfl
    exact ⟨hfreed 0 (by decide), hfreed 1 (by decide)⟩
  · next hc =>
    obtain ⟨-, htw⟩ := h.retireRec_dies hm hc
    intro w hw
    have hver : (2 + w) * 0x4000000 + o + d = 2 * 0x4000000 + o + d ∨ (2 + w) * 0x4000000 + o + d = 3 * 0x4000000 + o + d := by omega
    rw [h.recVer, h.recValid, h.recValid]
    dsimp only
    rcases h.apart with rfl | rfl
    · simp only [Nat.add_zero, if_true] at htw ⊢
      rw [htw, if_pos (hctl w hw), if_pos (hctl w hw)]
      refine ⟨?_, ?_, ?_⟩
      · rw [fld_setFld_same _ _ _ _ (by decide) (by decide)]
        exact hn
      · rw [bit_setFld_ne _ _ _ _ _ (by decide) (by decide) (by decide), bit_setFld_one _ _ _ (by decide)]
        rfl
      · rw [bit_setFld_ne _ _ _ _ _ (by decide) (by decide) (by decide), bit_setFld_ne _ _ _ _ _ (by decide) (by decide) (by decide)]
    · have h4 : ¬((4 : Nat) = 0) := by decide
      have hword : tw (retireRec k i s) ((2 + w) * 0x4000000 + o) = setFld (tw s ((2 + w) * 0x4000000 + o)) 30 30 1 := by
        rw [htw, if_neg (by omega), if_pos (hctl w hw)]
      have hdeath : tw (retireRec k i s) ((2 + w) * 0x4000000 + o + 4) =
          setFld (tw s ((2 + w) * 0x4000000 + o + 4)) 31 24 (nextEpoch s) := by
        rw [htw, if_pos hver, if_neg (by omega)]
        rfl
      rw [hword, hdeath]
      simp only [h4, if_false]
      refine ⟨?_, ?_, ?_⟩
      · rw [fld_setFld_same _ _ _ _ (by decide) (by decide)]
        exact hn
      · rw [bit_setFld_one _ _ _ (by decide)]
        rfl
      · rw [bit_setFld_ne _ _ _ _ _ (by decide) (by decide) (by decide)]

end

end Sys2Proof.Machine
end

section
/-!
SUPPORT. The two versions of a next hop or group: a new one written beside the current one, which is retired (R208).
-/
namespace Sys2Proof.Machine

/-! ## What reads the tables alone -/

section
variable {s t : State} (htab : t.tab = s.tab)
include htab

theorem recValid_congr (k w i : Nat) : recValid t k w i = recValid s k w i := by rw [recValid, recValid, tw_congr htab]

theorem recVer_congr (k w i : Nat) : recVer t k w i = recVer s k w i := by
  rw [recVer, recVer, tw_congr htab, tw_congr htab]

theorem curVersion_congr (k x : Nat) : curVersion t k x = curVersion s k x := by
  simp only [curVersion, recValid_congr htab, recVer_congr htab]

theorem otherVersion_congr (k x : Nat) : otherVersion t k x = otherVersion s k x := by
  simp only [otherVersion, recValid_congr htab]

theorem firstBad_congr (r : Nat) (offs : List Nat) : firstBad t r offs = firstBad s r offs := by
  simp only [firstBad, readable_congr htab]

theorem Staged.of_tab {u : State} {k i : Nat} (h : Staged k i u s) : Staged k i u t := fun w hw => by
  rw [recValid_congr htab, recVer_congr htab]
  exact h w hw

theorem Retired.of_tab {u : State} {k i : Nat} (h : Retired k i u s) : Retired k i u t := by
  unfold Retired at h ⊢
  dsimp only at h ⊢
  rw [recValid_congr htab, recValid_congr htab]
  split
  · next hc =>
    rw [if_pos hc] at h
    exact h
  · next hc =>
    rw [if_neg hc] at h
    exact fun w hw => by rw [recValid_congr htab, recVer_congr htab]; exact h w hw

end

/-! ## The two versions of a record pair (R208) -/

theorem curVersion_lt {s : State} {k x u : Nat} (h : curVersion s k x = some u) : u < 2 := by
  have hmem := List.mem_of_find?_eq_some h
  simp only [List.mem_cons, List.not_mem_nil, or_false] at hmem
  omega

theorem otherVersion_lt {s : State} {k x v : Nat} (h : otherVersion s k x = some v) : v < 2 := by
  have hmem := List.mem_of_find?_eq_some h
  simp only [List.mem_cons, List.not_mem_nil, or_false] at hmem
  omega

/-- The current version is valid and the other is not. -/
theorem curVersion_ne {s : State} {k x u v : Nat} (hu : curVersion s k x = some u) (hv : otherVersion s k x = some v) : u ≠ v := by
  rintro rfl
  have hvalid := List.find?_some hu
  have hfree := List.find?_some hv
  rw [Bool.and_eq_true] at hvalid
  rw [hvalid.1] at hfree
  exact absurd hfree (by decide)

/-- The pair `x` of table `k`: version `v` lies at offset `o v`. -/
structure PairPlace (k x d : Nat) (o : Nat → Nat) : Prop where
  loc : ∀ v, v < 2 → PairLoc k (2 * x + v) (o v) d
  apart : o 0 + 8 ≤ o 1

theorem pairPlace_nh {n : Nat} (hn : n < 262144) : PairPlace 2 n 0 fun v => 0x1000000 + 32 * n + 16 * v :=
  ⟨fun _ hv => pairLoc_nh hn hv, by omega⟩

theorem pairPlace_grp {g : Nat} (hg : g < 16384) : PairPlace 3 g 4 fun v => 0x1800000 + 16 * g + 8 * v :=
  ⟨fun _ hv => pairLoc_grp hg hv, by omega⟩

section
variable {k x d v : Nat} {o : Nat → Nat} (h : PairPlace k x d o) {s s1 : State} (hother : otherVersion s k x = some v)
  (hwork : RouteWork s s1) (hkept : ∀ u, u < 2 → u ≠ v → RecSame (o u) d s s1) (hnew : Staged k (2 * x + v) s s1)
include h hother hwork

/-- Beside the words of the other version, a retirement of the current one leaves every word. -/
theorem PairPlace.retireCur_work : RouteWork s (retireCur k x (curVersion s k x) s1) ∧
    ∀ a, (∀ u w, u < 2 → u ≠ v → w < 2 → a ≠ (2 + w) * 0x4000000 + o u ∧ a ≠ (2 + w) * 0x4000000 + o u + d) →
      tw (retireCur k x (curVersion s k x) s1) a = tw s1 a := by
  cases hcur : curVersion s k x with
  | none => exact ⟨hwork, fun _ _ => rfl⟩
  | some u =>
    have hu := curVersion_lt hcur
    obtain ⟨hretire, htw⟩ := (h.loc u hu).retireRec_work hwork.merges
    exact ⟨hretire.after hwork, fun a ha => htw a fun w hw => ha u w hu (curVersion_ne hcur hother) hw⟩

include hkept

theorem PairPlace.retireCur_retires {u : Nat} (hcur : curVersion s k x = some u) :
    Retired k (2 * x + u) s (retireCur k x (curVersion s k x) s1) := by
  have hu := curVersion_lt hcur
  rw [hcur]
  exact (h.loc u hu).retired_from (hkept u hu (curVersion_ne hcur hother)) hwork.nextEpoch ((h.loc u hu).retired hwork.merges)

omit hkept in
include hnew in
theorem PairPlace.retireCur_staged : Staged k (2 * x + v) s (retireCur k x (curVersion s k x) s1) := by
  have hv := otherVersion_lt hother
  have hplace := h.loc v hv
  have hd := hplace.apart
  have hin := hplace.inside
  have hsep := h.apart
  obtain ⟨-, htw⟩ := h.retireCur_work hother hwork
  have hne : ∀ u, u < 2 → u ≠ v → o u + 8 ≤ o v ∨ o v + 8 ≤ o u := fun u hu huv => by
    rcases (by omega : u = 0 ∧ v = 1 ∨ u = 1 ∧ v = 0) with ⟨rfl, rfl⟩ | ⟨rfl, rfl⟩
    · exact .inl hsep
    · exact .inr hsep
  have hsame : RecSame (o v) d s1 (retireCur k x (curVersion s k x) s1) := fun w hw => by
    refine ⟨htw _ fun u w' hu huv hw' => ?_, htw _ fun u w' hu huv hw' => ?_⟩
    · have hout := hne u hu huv
      have hinu := (h.loc u hu).inside
      omega
    · have hout := hne u hu huv
      have hinu := (h.loc u hu).inside
      omega
  intro w hw
  rw [hplace.recValid_same hsame hw, hplace.recVer_same hsame hw]
  exact hnew w hw

end

end Sys2Proof.Machine
end

section
/-!
SUPPORT. How the commands on next hops and groups end, and what NH_SET writes (R208, R274).
-/
namespace Sys2Proof.Machine

/-- Command row `i` puts version `v` of pair `x` of table `k` beside the current one, which it retires, and completes with the pair's
number; `more` holds afterwards (R208). -/
def PairPut (i : Instr) (c : Cmd) (s : State) (k x v : Nat) (more : State → Prop) : Prop :=
  ∃ t, exec i s = .next t ∧ Completes c stOK x s t ∧ Staged k (2 * x + v) s t ∧
    (∀ u, curVersion s k x = some u → u ≠ v → Retired k (2 * x + u) s t) ∧ more t

/-- Command row `i` retires the visible version of pair `x` of table `k` with mortal = 0, where there is one (R208). -/
def PairGone (i : Instr) (c : Cmd) (s : State) (k x : Nat) : Prop :=
  ([0, 1].find? (fun v => recCurrent s k (2 * x + v)) = none →
    ∃ t, exec i s = .next t ∧ Completes c stNOT_FOUND 0xFFFFFFFF s t ∧ TablesKept s t) ∧
  (∀ v, [0, 1].find? (fun v => recCurrent s k (2 * x + v)) = some v →
    ∃ t, exec i s = .next t ∧ Completes c stOK x s t ∧ Retired k (2 * x + v) s t)

section
variable {c : Cmd} {s : State} (h : RunsNext c s)
include h

/-! ## The two ends of a command on a record pair -/

/-- A command that puts a new version beside the current one, which it retires (R208). -/
theorem RunsNext.pair_ends {i : Instr} {k x v d : Nat} {o : Nat → Nat} (hplace : PairPlace k x d o) (hother : otherVersion s k x = some v)
    {s1 : State} (hwork : RouteWork (taken c s) s1) (hkept : ∀ u, u < 2 → u ≠ v → RecSame (o u) d s s1) (hnew : Staged k (2 * x + v) s s1)
    (hexec : exec i s = .next (finish c { status := stOK, first := x } (retireCur k x (curVersion s k x) s1))) :
    PairPut i c s k x v fun t => ∀ a, (∀ u w, u < 2 → u ≠ v → w < 2 →
      a ≠ (2 + w) * 0x4000000 + o u ∧ a ≠ (2 + w) * 0x4000000 + o u + d) → tw t a = tw s1 a := by
  have hotherT : otherVersion (taken c s) k x = some v := hother
  have hcurT : curVersion (taken c s) k x = curVersion s k x := rfl
  obtain ⟨hwork', htw⟩ := hplace.retireCur_work hotherT hwork
  have hstaged : Staged k (2 * x + v) (taken c s) _ := hplace.retireCur_staged hotherT hwork hnew
  have hretired := fun u => hplace.retireCur_retires (u := u) hotherT hwork hkept
  rw [hcurT] at hwork' htw hstaged hretired
  have hhost := onlyHost_finish c { status := stOK, first := x } (retireCur k x (curVersion s k x) s1)
  refine ⟨_, hexec, h.completes (hwork'.cmdStays _) x (by decide), .of_tab hhost.tab hstaged, fun u hu _ => ?_, fun a ha => ?_⟩
  · exact Retired.of_tab (u := s) hhost.tab (hretired u hu)
  · rw [tw_congr hhost.tab, htw a ha]

/-- A command that changes nothing but what its reads note ends with its status, and keeps the tables. -/
theorem RunsNext.fails_ends {i : Instr} {a : State} (hread : ReadsCounted (taken c s) a) {st : Nat} (hst : st ≠ stBAD_OP)
    (hexec : exec i s = .next (finish c { status := st } a)) :
    ∃ t, exec i s = .next t ∧ Completes c st 0xFFFFFFFF s t ∧ TablesKept s t := by
  obtain ⟨htab, hlpm, hvit, hcat, hc, ho, hmarks⟩ := (onlyHost_finish c { status := st } a).tablesKept
  have hprv := hread.notes.prv
  refine ⟨_, hexec, h.completes ((hread.routeWork h.clean).cmdStays _) _ hst, htab.trans hread.notes.tab, ?_, hvit.trans hread.notes.vit,
    hcat.trans hread.notes.cat, ?_, ?_, ?_⟩
  · exact hlpm.trans (congrArg (fun x => x.lpm) hread.notes)
  · rw [hc, hprv]
    rfl
  · rw [ho, hprv]
    rfl
  · rw [hmarks, hprv]
    rfl

omit h in
theorem recCurrent_read {a : State} (hread : ReadsCounted (taken c s) a) (k i : Nat) : recCurrent a k i = recCurrent s k i := by
  have htab : a.tab = s.tab := hread.notes.tab
  have hc : a.prv.c = s.prv.c := by
    rw [hread.notes.prv]
    rfl
  have ho : a.prv.o = s.prv.o := by
    rw [hread.notes.prv]
    rfl
  have hrel : ∀ x, rel a x = rel s x := fun x => by rw [rel, rel, ho]
  have hnext : nextEpoch a = nextEpoch s := by rw [nextEpoch, nextEpoch, hc]
  have hvisible : ∀ v e, visible a v e = visible s v e := fun v e => by rw [visible, visible, hrel, hrel, hrel]
  rw [recCurrent, recCurrent, recValid_congr htab, recVer_congr htab, hvisible, hnext]

/-- NH_DELETE and GROUP_DELETE: the visible version with mortal = 0 is retired (R208). -/
theorem RunsNext.deletePair_ends {i : Instr} {k x d : Nat} {o : Nat → Nat} (hplace : PairPlace k x d o) {a : State}
    (hread : ReadsCounted (taken c s) a) (hexec : exec i s = .next (finish c (deletePair k x a).1 (deletePair k x a).2)) : PairGone i c s k x := by
  have hcurrent : ∀ i, recCurrent a k i = recCurrent s k i := recCurrent_read hread k
  refine ⟨fun hnone => ?_, fun v hv => ?_⟩
  · simp only [deletePair, hcurrent, hnone] at hexec
    exact h.fails_ends hread (by decide) hexec
  · simp only [deletePair, hcurrent, hv] at hexec
    have hlt : v < 2 := by
      have hmem := List.mem_of_find?_eq_some hv
      simp only [List.mem_cons, List.not_mem_nil, or_false] at hmem
      omega
    have hstart : RouteWork (taken c s) a := hread.routeWork h.clean
    obtain ⟨hretire, -⟩ := (hplace.loc v hlt).retireRec_work hstart.merges
    have hsame : RecSame (o v) d s a := fun w _ => ⟨tw_congr hread.notes.tab _, tw_congr hread.notes.tab _⟩
    have hretired := (hplace.loc v hlt).retired_from hsame hstart.nextEpoch ((hplace.loc v hlt).retired hstart.merges)
    exact ⟨_, hexec, h.completes ((hretire.after hstart).cmdStays _) x (by decide),
      .of_tab (onlyHost_finish c { status := stOK, first := x } _).tab hretired⟩

end

/-! ## Next hops (R207-R208) -/

theorem readsCounted_readBoth (r : Nat) (offs : List Nat) (s : State) : ReadsCounted s (readBoth r offs s) := readsCounted_noteCes _ s

section
variable {c : Cmd} {s : State} (h : RunsNext c s)
include h

/-- The words of a next-hop version that NH_SET writes. -/
def nhWords (c : Cmd) (s : State) : List W32 :=
  [w32 (2 ^ 31 + leAt c 4 4 / 65536 % 8192 * 65536 + nextEpoch s), w32 (leAt c 8 4), w32 (leAt c 12 4), w32 (leAt c 16 4)]

theorem exec_nhSet {v : Nat} (hop : c.op = 0x14) (hn : leAt c 0 4 < 262144) (hbad : nhBadAny s (leAt c 0 4) = none)
    (hother : otherVersion s 2 (leAt c 0 4) = some v) :
    exec .nhSet s = .next (finish c { status := stOK, first := leAt c 0 4 } (retireCur 2 (leAt c 0 4) (curVersion s 2 (leAt c 0 4))
      (markRec 2 (2 * leAt c 0 4 + v) (nextEpoch s) (engWriteBoth 2 (0x1000000 + 32 * leAt c 0 4 + 16 * v) (nhWords c s)
        (nhReads (leAt c 0 4) (taken c s)))))) := by
  have hread : ReadsCounted (taken c s) (nhReads (leAt c 0 4) (taken c s)) := readsCounted_readBoth _ _ _
  obtain ⟨a, ha⟩ : ∃ a, a = nhReads (leAt c 0 4) (taken c s) := ⟨_, rfl⟩
  rw [← ha] at hread ⊢
  have htab : a.tab = s.tab := hread.notes.tab
  have hbad' : nhBadAny (taken c s) (leAt c 0 4) = none := hbad
  have hother' : otherVersion a 2 (leAt c 0 4) = some v := (otherVersion_congr htab _ _).trans hother
  have hnext : nextEpoch a = nextEpoch s := (hread.routeWork h.clean).nextEpoch
  show execNhSet s = _
  rw [execNhSet, h.runCmd (by rw [hop]; rfl) hop]
  simp only [if_neg (Nat.not_le.mpr hn), hbad', ← ha, hother', hnext, curVersion_congr htab, nhWords]

end

end Sys2Proof.Machine
end

section
/-!
SUPPORT. NH_SET, NH_DELETE and GROUP_DELETE (R207, R208).
-/
namespace Sys2Proof.Machine

/-! ## Fields of a word given by its number -/

theorem fld_w32 {n : Nat} (h : n < 2 ^ 32) (hi lo : Nat) : fld (w32 n) hi lo = n / 2 ^ lo % 2 ^ (hi + 1 - lo) := by
  rw [fld, bitsOf, w32, BitVec.toNat_ofNat, Nat.mod_eq_of_lt h]

theorem bit_w32 {n : Nat} (h : n < 2 ^ 32) (b : Nat) : bit (w32 n) b = decide (n / 2 ^ b % 2 = 1) := by
  rw [bit, w32, BitVec.toNat_ofNat, Nat.mod_eq_of_lt h, Nat.testBit_eq_decide_div_mod_eq]

theorem nextEpoch_lt (s : State) : nextEpoch s < 256 := Nat.mod_lt _ (by decide)

/-! ## A version written beside the current one -/

section
variable {k x d v : Nat} {o : Nat → Nat} (hplace : PairPlace k x d o) (hv : v < 2) {s : State} (hm : s.tab.merges = []) {ws : List W32}
  (hin : o v + 4 * ws.length ≤ 0x4000000) (e : Nat)
include hm hin

/-- Writing a version's words and marking its record is a command's work. -/
theorem writeVersion_work (hne : ws ≠ []) : RouteWork s (markRec k (2 * x + v) e (engWriteBoth 2 (o v) ws s)) := by
  have hlen := List.length_pos_iff.mpr hne
  have hwrite := routeWork_engWriteBoth hm (o := o v) (by omega) ws
  exact (routeWork_markRec _ _ _ hwrite.merges).after hwrite

theorem writeVersion_word {w j b : Nat} (hw : w < 2) (hj : j < ws.length) (hb : b = (2 + w) * 0x4000000 + o v + 4 * j) :
    tw (markRec k (2 * x + v) e (engWriteBoth 2 (o v) ws s)) b = ws.getD j 0 :=
  hb ▸ tw_engWriteBoth hm hin hw hj

include hplace hv

/-- The other version keeps its record. -/
theorem PairPlace.writeVersion_kept {s₀ : State} (htab : s.tab = s₀.tab) (hfit : o 0 + 4 * ws.length ≤ o 1) :
    ∀ u, u < 2 → u ≠ v → RecSame (o u) d s₀ (markRec k (2 * x + v) e (engWriteBoth 2 (o v) ws s)) := fun u hu huv => by
  have hd := (hplace.loc u hu).apart
  have hu' := (hplace.loc u hu).inside
  have hsep := hplace.apart
  have hout : o u + 8 ≤ o v ∨ o v + 4 * ws.length ≤ o u := by
    rcases (by omega : u = 0 ∧ v = 1 ∨ u = 1 ∧ v = 0) with ⟨rfl, rfl⟩ | ⟨rfl, rfl⟩
    · exact .inl hsep
    · exact .inr hfit
  exact fun w hw => ⟨(tw_engWriteBoth_ne hm fun _ _ => by omega).trans (tw_congr htab _),
    (tw_engWriteBoth_ne hm fun _ _ => by omega).trans (tw_congr htab _)⟩

end

/-! ## NH_SET, NH_DELETE and GROUP_DELETE (R208) -/

theorem nhAddr_eq (w n v : Nat) : nhAddr w n v = (2 + w) * 0x4000000 + (0x1000000 + 32 * n + 16 * v) := by
  unfold nhAddr
  omega

/-- The first word of a next-hop version that NH_SET writes makes it a new version. -/
theorem staged_nhWord {i o x : Nat} (hp : PairLoc 2 i o 0) {s t : State} (hx : x < 8192)
    (ht : ∀ w, w < 2 → tw t ((2 + w) * 0x4000000 + o) = w32 (2 ^ 31 + x * 65536 + nextEpoch s)) : Staged 2 i s t := by
  have hlt := nextEpoch_lt s
  have hword : 2 ^ 31 + x * 65536 + nextEpoch s < 2 ^ 32 := by omega
  intro w hw
  rw [hp.recValid, hp.recVer, Nat.add_zero, ht w hw]
  simp only [if_true, bit_w32 hword, fld_w32 hword, Ver.mk.injEq, decide_eq_true_eq, decide_eq_false_iff_not]
  omega

section
variable {c : Cmd} {s : State} (h : RunsNext c s)
include h

/-- NH_SET writes the version that is not valid, and retires the one that was current. -/
theorem RunsNext.nhSet_ends {v : Nat} (hop : c.op = 0x14) (hn : leAt c 0 4 < 262144) (hbad : nhBadAny s (leAt c 0 4) = none)
    (hother : otherVersion s 2 (leAt c 0 4) = some v) :
    PairPut .nhSet c s 2 (leAt c 0 4) v fun t =>
      ∀ w, w < 2 → tw t (nhAddr w (leAt c 0 4) v + 4) = w32 (leAt c 8 4) ∧ tw t (nhAddr w (leAt c 0 4) v + 8) = w32 (leAt c 12 4) ∧
        tw t (nhAddr w (leAt c 0 4) v + 12) = w32 (leAt c 16 4) := by
  have hexec := exec_nhSet h hop hn hbad hother
  generalize leAt c 0 4 = n at *
  obtain ⟨o, ho⟩ : ∃ o : Nat → Nat, o = fun v => 0x1000000 + 32 * n + 16 * v := ⟨_, rfl⟩
  have hplace : PairPlace 2 n 0 o := ho ▸ pairPlace_nh hn
  have hat : ∀ v, o v = 0x1000000 + 32 * n + 16 * v := fun v => congrFun ho v
  clear ho
  have hv := otherVersion_lt hother
  have hread : RouteWork (taken c s) (nhReads n (taken c s)) := (readsCounted_readBoth _ _ _).routeWork h.clean
  have htab : (nhReads n (taken c s)).tab = s.tab := (readsCounted_readBoth _ _ _).notes.tab
  generalize nhReads n (taken c s) = a at *
  have hlen : (nhWords c s).length = 4 := rfl
  rw [← hat] at hexec
  have h0 := hat 0
  have h1 := hat 1
  have hatv := hat v
  have hin : o v + 4 * (nhWords c s).length ≤ 0x4000000 := by omega
  have hwrite := writeVersion_work (k := 2) (x := n) hread.merges hin (nextEpoch s) (List.cons_ne_nil _ _)
  have hkept := hplace.writeVersion_kept hv hread.merges hin (nextEpoch s) htab (by omega)
  have hnew := staged_nhWord (s := s) (x := leAt c 4 4 / 65536 % 8192) (hplace.loc v hv) (Nat.mod_lt _ (by decide))
    fun w hw => writeVersion_word (k := 2) (x := n) hread.merges hin (nextEpoch s) hw (j := 0) (by omega) (by omega)
  obtain ⟨t, ht, hdone, hstaged, hretired, hrest⟩ := h.pair_ends hplace hother (hwrite.after hread)
    hkept hnew hexec
  have hword : ∀ w j, w < 2 → 1 ≤ j → j < 4 → tw t (nhAddr w n v + 4 * j) = (nhWords c s).getD j 0 := fun w j hw h1 hj => by
    rw [nhAddr_eq, ← hatv, hrest _ fun u w' hu huv hw' => by rw [hat u]; omega]
    exact writeVersion_word hread.merges hin _ hw (by omega) rfl
  exact ⟨t, ht, hdone, hstaged, hretired, fun w hw => ⟨hword w 1 hw (by decide) (by decide), hword w 2 hw (by decide) (by decide),
    hword w 3 hw (by decide) (by decide)⟩⟩

theorem RunsNext.nhDelete_ends (hop : c.op = 0x15) (hn : leAt c 0 4 < 262144) (hbad : nhBadAny s (leAt c 0 4) = none) :
    PairGone .nhDelete c s 2 (leAt c 0 4) := by
  refine h.deletePair_ends (a := nhReads (leAt c 0 4) (taken c s)) (pairPlace_nh hn) (readsCounted_readBoth _ _ _) ?_
  have hbad' : nhBadAny (taken c s) (leAt c 0 4) = none := hbad
  show execNhDelete s = _
  rw [execNhDelete, h.runCmd (by rw [hop]; rfl) hop]
  simp only [if_neg (Nat.not_le.mpr hn), hbad']

theorem RunsNext.groupDelete_ends (hop : c.op = 0x19) (hg : leAt c 0 2 < 16384) (hbad : grpBadAny s (leAt c 0 2) = none) :
    PairGone .groupDelete c s 3 (leAt c 0 2) := by
  refine h.deletePair_ends (a := grpReads (leAt c 0 2) (taken c s)) (pairPlace_grp hg) (readsCounted_readBoth _ _ _) ?_
  have hbad' : grpBadAny (taken c s) (leAt c 0 2) = none := hbad
  show execGroupDelete s = _
  rw [execGroupDelete, h.runCmd (by rw [hop]; rfl) hop]
  simp only [if_neg (Nat.not_le.mpr hg), hbad']

end

end Sys2Proof.Machine
end

section
/-!
SUPPORT. Blocks of buckets: which one is taken, and words written across ECC words (R209).
-/
namespace Sys2Proof.Machine

/-! ## Reads draw no free choice -/

theorem free_reportFault (p kind a : Nat) (inj : Bool) (s : State) : (reportFault p kind a inj s).bus.free = s.bus.free := by
  unfold reportFault
  split
  · rfl
  · rfl

theorem free_correctedAt (p : Nat) (s : State) : (correctedAt p s).bus.free = s.bus.free := by
  unfold correctedAt
  dsimp only
  split
  · rfl
  · split
    · exact free_reportFault _ _ _ _ _
    · rfl

theorem free_noteCe (a : Nat) (s : State) : (noteCe a s).bus.free = s.bus.free := by
  unfold noteCe
  split
  · next hc =>
    rw [noteRead, hc]
    dsimp only
    split
    · exact free_correctedAt _ _
    · exact free_correctedAt _ _
  · rfl

theorem free_readBoth (r : Nat) (offs : List Nat) (s : State) : (readBoth r offs s).bus.free = s.bus.free :=
  List.foldlRecOn (motive := fun t : State => t.bus.free = s.bus.free) _ _ rfl fun _ ha _ _ => (free_noteCe _ _).trans ha

/-! ## Blocks of buckets (R209) -/

/-- Which block is taken depends on the tables and on the next free choice alone. -/
theorem allocBlock_congr {s t : State} (htab : t.tab = s.tab) (hfree : t.bus.free = s.bus.free) (size : Nat) :
    (allocBlock size t).1 = (allocBlock size s).1 := by
  have hblocks : memberBlocks t = memberBlocks s := by rw [memberBlocks, memberBlocks, htab]
  have hdraw : ∀ n, (drawChoice n t).1 = (drawChoice n s).1 := fun n => by rw [drawChoice, drawChoice, hfree]
  simp only [allocBlock, hblocks, hdraw]
  split
  · rfl
  · rfl

/-- A block taken lies whole within the buckets, and taking it draws one free choice. -/
theorem allocBlock_some {size base : Nat} {s t : State} (h : allocBlock size s = (some base, t)) (hsize : 0 < size) (hle : size ≤ 262144) :
    base + size ≤ 262144 ∧ t = { s with bus := { s.bus with free := s.bus.free + 1 } } := by
  unfold allocBlock at h
  dsimp only at h
  split at h
  · next i _ =>
    rw [Prod.mk.injEq, Option.some.injEq] at h
    obtain ⟨rfl, rfl⟩ := h
    have hn : 0 < 262144 / size := Nat.div_pos hle hsize
    have hlt : ((drawChoice (262144 / size) s).1 + i) % (262144 / size) + 1 ≤ 262144 / size := Nat.mod_lt _ hn
    have hmul := (Nat.mul_le_mul_right size hlt).trans (Nat.div_mul_le_self 262144 size)
    rw [Nat.succ_mul] at hmul
    exact ⟨hmul, rfl⟩
  · exact absurd (congrArg Prod.fst h) (by simp)

theorem routeWork_draw {s : State} (hm : s.tab.merges = []) : RouteWork s { s with bus := { s.bus with free := s.bus.free + 1 } } :=
  ⟨rfl, fun _ _ _ => rfl, hm⟩

/-! ## Words written across ECC words -/

/-- From `s` to `t` a command's work has written the words `ws` from offset `o` of the route regions in both replicas, and no other word. -/
structure WordsWritten (o : Nat) (ws : List W32) (s t : State) : Prop where
  work : RouteWork s t
  words : ∀ w j, w < 2 → j < ws.length → tw t ((2 + w) * 0x4000000 + o + 4 * j) = ws.getD j 0
  others : ∀ b, (∀ w, w < 2 → ¬((2 + w) * 0x4000000 + o ≤ b ∧ b < (2 + w) * 0x4000000 + o + 4 * ws.length)) → tw t b = tw s b

theorem wordsWritten_nil (o : Nat) {s : State} (hm : s.tab.merges = []) : WordsWritten o [] s s :=
  ⟨⟨rfl, fun _ _ _ => rfl, hm⟩, fun _ _ _ hj => absurd hj (Nat.not_lt_zero _), fun _ _ => rfl⟩

theorem wordsWritten_engWriteBoth {o : Nat} {ws : List W32} {s : State} (hm : s.tab.merges = []) (ho : o < 0x4000000)
    (hin : o + 4 * ws.length ≤ 0x4000000) : WordsWritten o ws s (engWriteBoth 2 o ws s) :=
  ⟨routeWork_engWriteBoth hm ho ws, fun _ _ hw hj => tw_engWriteBoth hm hin hw hj, fun _ hb => tw_engWriteBoth_ne hm hb⟩

/-- Two runs of words, the second from where the first ends, are one. -/
theorem WordsWritten.append {o : Nat} {xs ys : List W32} {s t u : State} (h : WordsWritten o xs s t)
    (g : WordsWritten (o + 4 * xs.length) ys t u) (hin : o + 4 * (xs ++ ys).length ≤ 0x4000000) : WordsWritten o (xs ++ ys) s u where
  work := g.work.after h.work
  words w j hw hj := by
    rw [List.length_append] at hj hin
    by_cases hx : j < xs.length
    · rw [g.others _ fun w' hw' => by omega, h.words w j hw hx, List.getD_eq_getElem?_getD, List.getD_eq_getElem?_getD,
        List.getElem?_append_left hx]
    · have haddr : (2 + w) * 0x4000000 + o + 4 * j = (2 + w) * 0x4000000 + (o + 4 * xs.length) + 4 * (j - xs.length) := by omega
      rw [haddr, g.words w _ hw (by omega), List.getD_eq_getElem?_getD, List.getD_eq_getElem?_getD, List.getElem?_append_right (by omega)]
  others b hb := by
    rw [List.length_append] at hb
    rw [g.others b fun w hw => by have := hb w hw; omega, h.others b fun w hw => by have := hb w hw; omega]

/-- A run of words written ECC word by ECC word. -/
theorem wordsWritten_engSpan (fuel : Nat) : ∀ (o : Nat) (ws : List W32) (s : State), s.tab.merges = [] → o % 4 = 0 → ws.length ≤ fuel →
    o + 4 * ws.length ≤ 0x4000000 → WordsWritten o ws s (engSpan fuel o ws s) := by
  have hnil : ∀ n o (t : State), engSpan n o [] t = t := fun n o t => by cases n <;> rfl
  induction fuel with
  | zero =>
    intro o ws s hm _ hlen _
    obtain rfl := List.length_eq_zero_iff.mp (Nat.le_zero.mp hlen)
    exact wordsWritten_nil o hm
  | succ n ih =>
    intro o ws s hm ho hlen hin
    by_cases hws : ws = []
    · subst hws
      exact wordsWritten_nil o hm
    have hpos := List.length_pos_iff.mpr hws
    obtain ⟨k, hk⟩ : ∃ k, k = (16 - o % 16) / 4 := ⟨_, rfl⟩
    have hspan : engSpan (n + 1) o ws s = engSpan n (o + 4 * k) (ws.drop k) (engWriteBoth 2 o (ws.take k) s) := by
      rw [engSpan, if_neg (mt List.isEmpty_iff.mp hws), hk]
    rw [hspan]
    by_cases hmore : ws.length ≤ k
    · rw [List.drop_eq_nil_of_le hmore, List.take_of_length_le hmore, hnil]
      exact wordsWritten_engWriteBoth hm (by omega) hin
    · have htake : (ws.take k).length = k := List.length_take_of_le (by omega)
      have hdrop : (ws.drop k).length = ws.length - k := List.length_drop
      have hfirst := wordsWritten_engWriteBoth (ws := ws.take k) hm (o := o) (by omega) (by omega)
      have hrest := ih (o + 4 * k) (ws.drop k) _ hfirst.work.merges (by omega) (by omega) (by omega)
      rw [← htake] at hrest
      have happ := hfirst.append (ys := ws.drop k) (by rwa [htake] at hrest ⊢) (by rwa [List.take_append_drop])
      rwa [List.take_append_drop] at happ

end Sys2Proof.Machine
end

section
/-!
SUPPORT. The buckets of a block: filled in rounds, given away, and their words (R203, R207).
-/
namespace Sys2Proof.Machine

/-! ## Buckets filled in rounds (R207) -/

/-- Members whose count is used up add nothing to the sum. -/
theorem sum_live (ms : List (Nat × Nat)) : ((ms.filter fun m => m.2 != 0).map (·.2)).sum = (ms.map (·.2)).sum := by
  induction ms with
  | nil => rfl
  | cons m ms ih =>
    by_cases h0 : m.2 = 0
    · rw [List.filter_cons_of_neg (by simp [h0]), ih, List.map_cons, List.sum_cons, h0, Nat.zero_add]
    · rw [List.filter_cons_of_pos (by simp [h0]), List.map_cons, List.map_cons, List.sum_cons, List.sum_cons, ih]

/-- A round gives every live member one bucket. -/
theorem sum_lowered {l : List (Nat × Nat)} (h : ∀ m ∈ l, m.2 ≠ 0) : l.length + (l.map fun m => m.2 - 1).sum = (l.map (·.2)).sum := by
  induction l with
  | nil => rfl
  | cons m l ih =>
    have hm := h m List.mem_cons_self
    have hrest := ih fun m hm => h m (List.mem_cons_of_mem _ hm)
    rw [List.map_cons, List.map_cons, List.sum_cons, List.sum_cons, List.length_cons]
    omega

/-- Every member gets as many buckets as it counts. -/
theorem length_fillRounds (n : Nat) : ∀ ms : List (Nat × Nat), (∀ m ∈ ms, m.2 ≤ n) → (fillRounds n ms).length = (ms.map (·.2)).sum := by
  induction n with
  | zero =>
    intro ms hle
    have hzero : ∀ x ∈ ms.map (·.2), x = 0 := fun x hx => by
      obtain ⟨m, hm, rfl⟩ := List.mem_map.mp hx
      exact Nat.le_zero.mp (hle m hm)
    rw [fillRounds, List.length_nil, List.sum_eq_zero hzero]
  | succ n ih =>
    intro ms hle
    rw [fillRounds, ← sum_live]
    have hlive : ∀ m ∈ ms.filter fun m => m.2 != 0, m.2 ≠ 0 ∧ m.2 ≤ n + 1 := fun m hm => by
      rw [List.mem_filter] at hm
      exact ⟨by simpa using hm.2, hle m hm.1⟩
    generalize ms.filter (fun m => m.2 != 0) = live at hlive ⊢
    split
    · next hnil => rw [List.isEmpty_iff.mp hnil]; rfl
    · have hnext := ih (live.map fun m => (m.1, m.2 - 1)) fun x hx => by
        obtain ⟨m, hm, rfl⟩ := List.mem_map.mp hx
        have hmn := (hlive m hm).2
        dsimp only
        omega
      rw [List.length_append, List.length_map, hnext, List.map_map, ← sum_lowered fun m hm => (hlive m hm).1]
      rfl

/-- A bucket's next hop is that of a member. -/
theorem mem_fillRounds {x : Nat} (n : Nat) : ∀ ms : List (Nat × Nat), x ∈ fillRounds n ms → ∃ m ∈ ms, m.1 = x := by
  induction n with
  | zero => exact fun ms hx => absurd hx List.not_mem_nil
  | succ n ih =>
    intro ms hx
    rw [fillRounds] at hx
    split at hx
    · exact absurd hx List.not_mem_nil
    · rcases List.mem_append.mp hx with hx | hx
      · obtain ⟨m, hm, rfl⟩ := List.mem_map.mp hx
        exact ⟨m, (List.mem_filter.mp hm).1, rfl⟩
      · obtain ⟨m', hm', rfl⟩ := ih _ hx
        obtain ⟨m, hm, rfl⟩ := List.mem_map.mp hm'
        exact ⟨m, (List.mem_filter.mp hm).1, rfl⟩

/-! ## Members of a block, and a member's buckets given away (R207) -/

/-- One more bucket's next hop noted as a member. -/
def addMember (l : List Nat) (x : Option Nat) : List Nat :=
  match x with
  | some n => if l.contains n then l else l ++ [n]
  | none => l

theorem membersOf_eq (bk : List (Option Nat)) : membersOf bk = bk.foldl addMember [] := rfl

theorem mem_addMember {l : List Nat} {x : Option Nat} {n : Nat} : n ∈ addMember l x ↔ n ∈ l ∨ x = some n := by
  cases x with
  | none => simp [addMember]
  | some m =>
    by_cases hm : m ∈ l
    · have hsame : addMember l (some m) = l := if_pos (by simpa using hm)
      rw [hsame, Option.some.injEq]
      exact ⟨.inl, fun h => h.elim id fun h => h ▸ hm⟩
    · have hadd : addMember l (some m) = l ++ [m] := if_neg (by simpa using hm)
      rw [hadd, List.mem_append, List.mem_singleton, Option.some.injEq, eq_comm (a := n)]

theorem nodup_addMember {l : List Nat} (h : l.Nodup) (x : Option Nat) : (addMember l x).Nodup := by
  cases x with
  | none => exact h
  | some m =>
    by_cases hm : m ∈ l
    · have hsame : addMember l (some m) = l := if_pos (by simpa using hm)
      rwa [hsame]
    · have hadd : addMember l (some m) = l ++ [m] := if_neg (by simpa using hm)
      rw [hadd, ← List.concat_eq_append]
      exact h.concat hm

theorem mem_membersOf {bk : List (Option Nat)} {n : Nat} : n ∈ membersOf bk ↔ some n ∈ bk := by
  have hall : ∀ (bk : List (Option Nat)) (l : List Nat), n ∈ bk.foldl addMember l ↔ n ∈ l ∨ some n ∈ bk := by
    intro bk
    induction bk with
    | nil => simp
    | cons x bk ih =>
      intro l
      rw [List.foldl_cons, ih, mem_addMember, List.mem_cons, or_assoc, eq_comm (a := x)]
  rw [membersOf_eq, hall]
  simp

theorem nodup_membersOf (bk : List (Option Nat)) : (membersOf bk).Nodup :=
  List.foldlRecOn (motive := List.Nodup) bk addMember List.nodup_nil fun _ h x _ => nodup_addMember h x

/-- Where a block has another member than `old`, some member remains. -/
theorem others_ne_nil {bk : List (Option Nat)} {old : Nat} (hin : some old ∈ bk) (hne : membersOf bk ≠ [old]) :
    (membersOf bk).filter (· != old) ≠ [] := by
  intro hnil
  have hall : ∀ n ∈ membersOf bk, n = old := fun n hn => by
    have hout := List.filter_eq_nil_iff.mp hnil n hn
    simpa using hout
  have hrep := List.eq_replicate_of_mem hall
  have hnodup := nodup_membersOf bk
  have hpos := List.length_pos_of_mem (mem_membersOf.mpr hin)
  rw [hrep, List.nodup_replicate] at hnodup
  have hone : (membersOf bk).length = 1 := by omega
  rw [hone] at hrep
  exact hne hrep

section
variable {old : Nat} {rest : List Nat}

theorem length_giveAway (bk : List (Option Nat)) : ∀ k, (giveAway old rest k bk).length = bk.length := by
  induction bk with
  | nil => exact fun _ => rfl
  | cons x bk ih =>
    intro k
    rw [giveAway]
    split
    · rw [List.length_cons, List.length_cons, ih]
    · rw [List.length_cons, List.length_cons, ih]

/-- A bucket of another member stays where it is. -/
theorem getElem?_giveAway {x : Option Nat} (hx : x ≠ some old) (bk : List (Option Nat)) :
    ∀ k j : Nat, bk[j]? = some x → (giveAway old rest k bk)[j]? = some x := by
  induction bk with
  | nil => exact fun k j hj => absurd hj (by simp)
  | cons y bk ih =>
    intro k j hj
    rw [giveAway]
    cases j with
    | zero =>
      obtain rfl : y = x := by simpa using hj
      rw [if_neg hx]
      rfl
    | succ j =>
      split
      · exact ih _ j hj
      · exact ih _ j hj

/-- A bucket given away goes to a remaining member. -/
theorem mem_giveAway (hrest : rest ≠ []) {x : Option Nat} (bk : List (Option Nat)) :
    ∀ k, x ∈ giveAway old rest k bk → x ∈ bk ∧ x ≠ some old ∨ ∃ n ∈ rest, x = some n := by
  induction bk with
  | nil => exact fun _ hx => absurd hx List.not_mem_nil
  | cons y bk ih =>
    intro k hx
    have hlater : ∀ k, x ∈ giveAway old rest k bk → x ∈ y :: bk ∧ x ≠ some old ∨ ∃ n ∈ rest, x = some n := fun k hx =>
      (ih k hx).imp_left fun h => ⟨List.mem_cons_of_mem _ h.1, h.2⟩
    rw [giveAway] at hx
    split at hx
    · rcases List.mem_cons.mp hx with rfl | hx
      · have hlen := List.length_pos_iff.mpr hrest
        have hlt : k % max rest.length 1 < rest.length := by
          rw [Nat.max_eq_left hlen]
          exact Nat.mod_lt _ hlen
        exact .inr ⟨_, List.getElem_mem hlt, List.getElem?_eq_getElem hlt⟩
      · exact hlater _ hx
    · next hy =>
      rcases List.mem_cons.mp hx with rfl | hx
      · exact .inl ⟨List.mem_cons_self, hy⟩
      · exact hlater _ hx

end

/-! ## The words of a block of buckets (R203) -/

/-- The word of a bucket that holds a next hop, or none. -/
def bucketWord (x : Option Nat) : W32 :=
  match x with
  | some nh => w32 (2 ^ 31 + nh % 2 ^ 18)
  | none => 0

/-- What a bucket's word holds. -/
def bucketNh (x : W32) : Option Nat := if bit x 31 then some (fld x 17 0) else none

theorem bucketNh_bucketWord {x : Option Nat} (h : ∀ n, x = some n → n < 2 ^ 18) : bucketNh (bucketWord x) = x := by
  cases x with
  | none => rfl
  | some n =>
    have hn := h n rfl
    have hword : 2 ^ 31 + n % 2 ^ 18 < 2 ^ 32 := by omega
    have hvalid : (2 ^ 31 + n % 2 ^ 18) / 2 ^ 31 % 2 = 1 := by omega
    have hfield : (2 ^ 31 + n % 2 ^ 18) / 2 ^ 0 % 2 ^ (17 + 1 - 0) = n := by omega
    rw [bucketNh, bucketWord, bit_w32 hword, fld_w32 hword, hfield, if_pos (decide_eq_true hvalid)]

theorem bucketNhs_eq (s : State) (g : Grp) : bucketNhs s g = (bucketOffs g).map fun o => bucketNh (tw s (2 * 0x4000000 + o)) := rfl

theorem length_bucketNhs (s : State) (g : Grp) : (bucketNhs s g).length = 2 ^ g.size := by
  rw [bucketNhs_eq, List.length_map, bucketOffs, List.length_map, List.length_range]

theorem lt_of_mem_bucketNhs {s : State} {g : Grp} {n : Nat} (h : some n ∈ bucketNhs s g) : n < 2 ^ 18 := by
  rw [bucketNhs_eq] at h
  obtain ⟨o, -, ho⟩ := List.mem_map.mp h
  unfold bucketNh at ho
  split at ho
  · obtain rfl := Option.some.inj ho
    exact fld_lt _ 17 0
  · exact absurd ho (by simp)

theorem bucketNhs_congr {s t : State} (htab : t.tab = s.tab) (g : Grp) : bucketNhs t g = bucketNhs s g := by
  simp only [bucketNhs_eq, tw_congr htab]

/-- A block whose words were written holds the buckets they were made of. -/
theorem bucketNhs_written {t : State} {g : Grp} {bk : List (Option Nat)} (hlen : bk.length = 2 ^ g.size) (hbase : g.base + 2 ^ g.size ≤ 262144)
    (hlt : ∀ n, some n ∈ bk → n < 2 ^ 18)
    (ht : ∀ j, j < bk.length → tw t (2 * 0x4000000 + (0x1900000 + 4 * (g.base + j))) = (bk.map bucketWord).getD j 0) : bucketNhs t g = bk := by
  refine List.ext_getElem (by rw [length_bucketNhs, hlen]) fun j h1 h2 => ?_
  have hmod : (g.base + j) % 262144 = g.base + j := Nat.mod_eq_of_lt (by omega)
  have hword : (bk.map bucketWord).getD j 0 = bucketWord bk[j] := by
    rw [List.getD_eq_getElem _ _ (by rwa [List.length_map]), List.getElem_map]
  simp only [bucketNhs_eq, bucketOffs, List.getElem_map, List.getElem_range, hmod]
  rw [ht j h2, hword]
  exact bucketNh_bucketWord fun n hn => hlt n (hn ▸ List.getElem_mem h2)

end Sys2Proof.Machine
end

section
/-!
SUPPORT. A group's new version with its block of buckets (R203, R208, R209).
-/
namespace Sys2Proof.Machine

/-! ## A group's new version (R203, R208) -/

theorem grpAddr_eq (w g v : Nat) : grpAddr w g v = (2 + w) * 0x4000000 + (0x1800000 + 16 * g + 8 * v) := by
  unfold grpAddr
  omega

/-- The words of a group version born in epoch `e`. -/
def grpWords (size base seed e : Nat) (skip : Bool) : List W32 :=
  [w32 (2 ^ 31 + b2n skip * 2 ^ 28 + size * 2 ^ 24 + base), w32 (e * 65536 + seed % 65536)]

theorem putGroup_eq {g size v base seed : Nat} {skip : Bool} {bk : List (Option Nat)} {s t : State} (hother : otherVersion s 3 g = some v)
    (halloc : allocBlock (2 ^ size) s = (some base, t)) :
    putGroup g size skip seed bk s = ({ status := stOK, first := g }, retireCur 3 g (curVersion s 3 g)
      (markRec 3 (2 * g + v) (nextEpoch s) (engWriteBoth 2 (0x1800000 + 16 * g + 8 * v) (grpWords size base seed (nextEpoch s) skip)
        (engSpan ((bk.map bucketWord).length + 1) (0x1900000 + 4 * base) (bk.map bucketWord) t)))) := by
  rw [putGroup, hother, halloc]
  rfl

section
variable {size base seed : Nat} {skip : Bool} (hsize : size ≤ 9) (hbase : base < 262144)
include hsize hbase

/-- The first word of a group version. -/
theorem grpWord_lt : 2 ^ 31 + b2n skip * 2 ^ 28 + size * 2 ^ 24 + base < 2 ^ 32 := by
  cases skip
  · rw [show b2n false = 0 from rfl]
    omega
  · rw [show b2n true = 1 from rfl]
    omega

theorem grpWord_size : fld (w32 (2 ^ 31 + b2n skip * 2 ^ 28 + size * 2 ^ 24 + base)) 27 24 = size := by
  rw [fld_w32 (grpWord_lt hsize hbase)]
  omega

theorem grpWord_base : fld (w32 (2 ^ 31 + b2n skip * 2 ^ 28 + size * 2 ^ 24 + base)) 17 0 = base := by
  rw [fld_w32 (grpWord_lt hsize hbase)]
  omega

/-- Such words make a new version. -/
theorem staged_grpWords {i o : Nat} (hp : PairLoc 3 i o 4) {s t : State}
    (ht : ∀ w j, w < 2 → j < 2 → tw t ((2 + w) * 0x4000000 + o + 4 * j) = (grpWords size base seed (nextEpoch s) skip).getD j 0) :
    Staged 3 i s t := by
  have hlt := nextEpoch_lt s
  have hfirst := grpWord_lt (skip := skip) hsize hbase
  have hsecond : nextEpoch s * 65536 + seed % 65536 < 2 ^ 32 := by omega
  have h4 : ¬((4 : Nat) = 0) := by decide
  have hskip : b2n skip = 0 ∨ b2n skip = 1 := by cases skip <;> decide
  intro w hw
  have hw0 := ht w 0 hw (by decide)
  have hw1 := ht w 1 hw (by decide)
  rw [Nat.mul_zero, Nat.add_zero] at hw0
  rw [Nat.mul_one] at hw1
  rw [hp.recValid, hp.recVer, hw0, hw1]
  simp only [grpWords, List.getD_cons_zero, List.getD_cons_succ, h4, if_false, bit_w32 hfirst, fld_w32 hsecond, Ver.mk.injEq, decide_eq_true_eq,
    decide_eq_false_iff_not]
  omega

end

/-- Version `v` of group `g` has a block of `2 ^ size` buckets that holds `bk` in replica E. -/
def BlockHolds (t : State) (g v size : Nat) (bk : List (Option Nat)) : Prop :=
  fld (tw t (grpAddr 0 g v)) 27 24 = size ∧
  bucketNhs t ⟨fld (tw t (grpAddr 0 g v)) 17 0, size, bit (tw t (grpAddr 0 g v)) 28, 0⟩ = bk

theorem RecSame.trans {o d : Nat} {s t u : State} (h : RecSame o d s t) (g : RecSame o d t u) : RecSame o d s u := fun w hw =>
  ⟨(g w hw).1.trans (h w hw).1, (g w hw).2.trans (h w hw).2⟩

section
variable {c : Cmd} {s : State} (h : RunsNext c s)
include h

/-- A group's new version is staged with its block of buckets, and the version that was current is retired. -/
theorem RunsNext.putGroup_ends {i : Instr} {g v size seed : Nat} {skip : Bool} {bk : List (Option Nat)} {a : State} (hg : g < 16384)
    (hsize : size ≤ 9) (hlen : bk.length = 2 ^ size) (hlt : ∀ n, some n ∈ bk → n < 2 ^ 18) (hread : RouteWork (taken c s) a)
    (htab : a.tab = s.tab) (hfree : a.bus.free = s.bus.free) (hother : otherVersion s 3 g = some v)
    (halloc : (allocBlock (2 ^ size) s).1 ≠ none)
    (hexec : exec i s = .next (finish c (putGroup g size skip seed bk a).1 (putGroup g size skip seed bk a).2)) :
    PairPut i c s 3 g v fun t => BlockHolds t g v size bk := by
  have hpow : 2 ^ size ≤ 2 ^ 9 := Nat.pow_le_pow_right (by decide) hsize
  rw [← allocBlock_congr htab hfree] at halloc
  obtain ⟨base, hbase⟩ := Option.ne_none_iff_exists'.mp halloc
  obtain ⟨b, hb⟩ : ∃ b, allocBlock (2 ^ size) a = (some base, b) := ⟨_, Prod.ext hbase rfl⟩
  obtain ⟨hfit, hdraw⟩ := allocBlock_some hb (Nat.two_pow_pos _) (by omega)
  have hpos := Nat.two_pow_pos size
  have hmap : (bk.map bucketWord).length = 2 ^ size := List.length_map _ |>.trans hlen
  have hbtab : b.tab = s.tab := by rw [hdraw, ← htab]
  have hdrawn : RouteWork (taken c s) b := (hdraw ▸ routeWork_draw hread.merges : RouteWork a b).after hread
  rw [putGroup_eq ((otherVersion_congr htab _ _).trans hother) hb, curVersion_congr htab, hread.nextEpoch, nextEpoch_taken] at hexec
  obtain ⟨hspan, hbuckets, hothers⟩ := wordsWritten_engSpan ((bk.map bucketWord).length + 1) (0x1900000 + 4 * base) (bk.map bucketWord) b
    hdrawn.merges (by omega) (by omega) (by omega)
  generalize engSpan ((bk.map bucketWord).length + 1) (0x1900000 + 4 * base) (bk.map bucketWord) b = u at hexec hspan hbuckets hothers
  obtain ⟨o, ho⟩ : ∃ o : Nat → Nat, o = fun v => 0x1800000 + 16 * g + 8 * v := ⟨_, rfl⟩
  have hplace : PairPlace 3 g 4 o := ho ▸ pairPlace_grp hg
  have hat : ∀ v, o v = 0x1800000 + 16 * g + 8 * v := fun v => congrFun ho v
  have hv := otherVersion_lt hother
  have hatv := hat v
  have h0 := hat 0
  have h1 := hat 1
  rw [← hatv] at hexec
  have hwords : (grpWords size base seed (nextEpoch s) skip).length = 2 := rfl
  have hin : o v + 4 * (grpWords size base seed (nextEpoch s) skip).length ≤ 0x4000000 := by omega
  have hwrite := writeVersion_work (k := 3) (x := g) hspan.merges hin (nextEpoch s) (List.cons_ne_nil _ _)
  have hkept := hplace.writeVersion_kept hv hspan.merges hin (nextEpoch s) (s₀ := u) rfl (by omega)
  have hapart : ∀ x, x < 2 → RecSame (o x) 4 s u := fun x hx w hw => by
    have hatx := hat x
    exact ⟨(hothers _ fun _ _ => by omega).trans (tw_congr hbtab _), (hothers _ fun _ _ => by omega).trans (tw_congr hbtab _)⟩
  have hword := fun w j (hw : w < 2) (hj : j < 2) => writeVersion_word (k := 3) (x := g) hspan.merges hin (nextEpoch s) hw (j := j) hj rfl
  have hnew := staged_grpWords hsize (by omega) (hplace.loc v hv) hword
  obtain ⟨t, ht, hdone, hstaged, hretired, hrest⟩ := h.pair_ends hplace hother (hwrite.after (hspan.after hdrawn))
    (fun x hx hxv => (hapart x hx).trans (hkept x hx hxv)) hnew hexec
  have hdesc : tw t (grpAddr 0 g v) = w32 (2 ^ 31 + b2n skip * 2 ^ 28 + size * 2 ^ 24 + base) := by
    rw [grpAddr_eq, ← hatv, hrest _ fun x w hx hxv hw => by rw [hat x]; omega]
    exact writeVersion_word hspan.merges hin _ (w := 0) (j := 0) (by decide) (by omega) (by omega)
  refine ⟨t, ht, hdone, hstaged, hretired, ?_, ?_⟩
  · rw [hdesc, grpWord_size hsize (by omega)]
  · rw [hdesc, grpWord_base hsize (by omega)]
    refine bucketNhs_written hlen hfit hlt fun j hj => ?_
    have haddr : 2 * 0x4000000 + (0x1900000 + 4 * (base + j)) = (2 + 0) * 0x4000000 + (0x1900000 + 4 * base) + 4 * j := by omega
    have hkeep : tw (markRec 3 (2 * g + v) (nextEpoch s) (engWriteBoth 2 (o v) (grpWords size base seed (nextEpoch s) skip) u))
        ((2 + 0) * 0x4000000 + (0x1900000 + 4 * base) + 4 * j) = tw u ((2 + 0) * 0x4000000 + (0x1900000 + 4 * base) + 4 * j) :=
      tw_engWriteBoth_ne hspan.merges fun _ _ => by omega
    dsimp only
    rw [haddr, hrest _ fun x w hx hxv hw => by rw [hat x]; omega, hkeep]
    exact hbuckets 0 j (by decide) (by omega)

end

end Sys2Proof.Machine
end

section
/-!
SUPPORT. GROUP_SET, and what the commands on a group's member read (R207-R209).
-/
namespace Sys2Proof.Machine

/-! ## GROUP_SET, GROUP_REPLACE_MEMBER and GROUP_REMOVE_MEMBER (R207-R209) -/

/-- The members that GROUP_SET lists, with their counts (R207). -/
def membersAsked (c : Cmd) : List (Nat × Nat) :=
  (List.range (leAt c 6 2)).map fun j => (leAt c (8 + 4 * j) 4 % 2 ^ 18, leAt c (8 + 4 * j) 4 / 2 ^ 18 % 1024)

/-- The block that GROUP_SET's members fill. -/
theorem buckets_asked {c : Cmd} {size : Nat} (hsize : size ≤ 9) (hsum : (membersAsked c).foldl (fun x y => x + y.2) 0 = 2 ^ size) :
    ((fillRounds 512 (membersAsked c)).map some).length = 2 ^ size ∧ ∀ n, some n ∈ (fillRounds 512 (membersAsked c)).map some → n < 2 ^ 18 := by
  have hpow : 2 ^ size ≤ 2 ^ 9 := Nat.pow_le_pow_right (by decide) hsize
  have htotal : ((membersAsked c).map (·.2)).sum = 2 ^ size := by rw [List.sum_eq_foldl, List.foldl_map, hsum]
  have hcount : ∀ m ∈ membersAsked c, m.2 ≤ 512 := fun m hm =>
    (List.le_sum_of_mem (List.mem_map_of_mem hm)).trans (htotal.le.trans hpow)
  refine ⟨by rw [List.length_map, length_fillRounds 512 _ hcount, htotal], fun n hn => ?_⟩
  obtain ⟨_, hfill, hx⟩ := List.mem_map.mp hn
  obtain rfl := Option.some.inj hx
  obtain ⟨m, hm, rfl⟩ := mem_fillRounds 512 _ hfill
  obtain ⟨j, -, rfl⟩ := List.mem_map.mp hm
  exact Nat.mod_lt _ (by decide)

section
variable {c : Cmd} {s : State} (h : RunsNext c s)
include h

theorem exec_groupSet (hop : c.op = 0x16) (hg : leAt c 0 2 < 16384) (hm : leAt c 6 2 ≤ 512) (hbad : grpBadAny s (leAt c 0 2) = none)
    (hsum : (membersAsked c).foldl (fun x y => x + y.2) 0 = 2 ^ min 9 (byteOf c 2)) {r : CmdEnd × State}
    (hr : r = putGroup (leAt c 0 2) (min 9 (byteOf c 2)) (byteOf c 3 % 2 == 1) (leAt c 4 2) ((fillRounds 512 (membersAsked c)).map some)
      (grpReads (leAt c 0 2) (taken c s))) : exec .groupSet s = .next (finish c r.1 r.2) := by
  have hbad' : grpBadAny (taken c s) (leAt c 0 2) = none := hbad
  have hmin : min (leAt c 6 2) 513 = leAt c 6 2 := by omega
  rw [membersAsked] at hsum
  show execGroupSet s = _
  rw [execGroupSet, h.runCmd (by rw [hop]; rfl) hop]
  simp only [hr, hmin, hsum, Nat.not_le.mpr hg, Nat.not_lt.mpr hm, ne_eq, not_true_eq_false, or_self, if_false, hbad', membersAsked]

theorem RunsNext.groupSet_ends {v : Nat} (hop : c.op = 0x16) (hg : leAt c 0 2 < 16384) (hm : leAt c 6 2 ≤ 512)
    (hbad : grpBadAny s (leAt c 0 2) = none) (hsum : (membersAsked c).foldl (fun x y => x + y.2) 0 = 2 ^ min 9 (byteOf c 2))
    (hother : otherVersion s 3 (leAt c 0 2) = some v) (halloc : (allocBlock (2 ^ min 9 (byteOf c 2)) s).1 ≠ none) :
    PairPut .groupSet c s 3 (leAt c 0 2) v fun t =>
      BlockHolds t (leAt c 0 2) v (min 9 (byteOf c 2)) ((fillRounds 512 (membersAsked c)).map some) := by
  have hsize : min 9 (byteOf c 2) ≤ 9 := Nat.min_le_left _ _
  obtain ⟨hlen, hlt⟩ := buckets_asked hsize hsum
  have hread : ReadsCounted (taken c s) (grpReads (leAt c 0 2) (taken c s)) := readsCounted_readBoth _ _ _
  exact h.putGroup_ends hg hsize hlen hlt (hread.routeWork h.clean) hread.notes.tab (free_readBoth _ _ _) hother halloc
    (exec_groupSet h hop hg hm hbad hsum rfl)

end

/-! ### A member replaced or removed -/

/-- The group that a command on a member changes, with its buckets, as the state before the command has it. -/
structure MemberIn (c : Cmd) (s : State) (d : Grp) : Prop where
  group : leAt c 0 2 < 16384
  member : leAt c 4 4 < 262144
  descriptor : grpBadAny s (leAt c 0 2) = none
  current : grpCur s (leAt c 0 2) = some d
  buckets : firstBad s 2 (bucketOffs d) = none
  holds : (bucketNhs s d).contains (some (leAt c 4 4)) = true

theorem grpCur_congr {s t : State} (htab : t.tab = s.tab) (g : Nat) : grpCur t g = grpCur s g := by
  simp only [grpCur, curVersion_congr htab, tw_congr htab]

theorem grpCur_size {s : State} {g : Nat} {d : Grp} (h : grpCur s g = some d) : d.size ≤ 9 := by
  obtain ⟨v, -, rfl⟩ := Option.map_eq_some_iff.mp h
  exact Nat.min_le_left _ _

/-- The state in which a changed member's group is written: its descriptor and buckets have been read. -/
def memberRead (c : Cmd) (d : Grp) (s : State) : State := readBoth 2 (bucketOffs d) (grpReads (leAt c 0 2) s)

theorem readsCounted_memberRead (c : Cmd) (d : Grp) (s : State) : ReadsCounted s (memberRead c d s) :=
  (readsCounted_readBoth _ _ _).after (readsCounted_readBoth _ _ _)

theorem free_memberRead (c : Cmd) (d : Grp) (s : State) : (memberRead c d s).bus.free = s.bus.free :=
  (free_readBoth _ _ _).trans (free_readBoth _ _ _)

section
variable {c : Cmd} {s : State} {d : Grp} (hin : MemberIn c s d) {only : Bool}
  (honly : (only && membersOf (bucketNhs s d) == [leAt c 4 4]) = false)
include hin honly

theorem MemberIn.changeMember_eq (f : Nat → List (Option Nat) → List (Option Nat)) : changeMember c only f (taken c s) =
    putGroup (leAt c 0 2) d.size d.skip d.seed (f (leAt c 4 4) (bucketNhs s d)) (memberRead c d (taken c s)) := by
  have htab : (grpReads (leAt c 0 2) (taken c s)).tab = s.tab := (readsCounted_readBoth _ _ _).notes.tab
  have htab' : (memberRead c d (taken c s)).tab = s.tab := (readsCounted_memberRead c d (taken c s)).notes.tab
  have hdesc : grpBadAny (taken c s) (leAt c 0 2) = none := hin.descriptor
  have hcur := (grpCur_congr htab _).trans hin.current
  have hbuckets := (firstBad_congr htab _ _).trans hin.buckets
  have hnhs := bucketNhs_congr htab' d
  rw [memberRead] at hnhs ⊢
  rw [changeMember]
  simp only [hdesc, hcur, hbuckets, hnhs, honly, hin.holds, Bool.false_eq_true, if_false, Bool.not_true]

end

end Sys2Proof.Machine
end

section
/-!
SUPPORT. Next hops, groups and their blocks of buckets (R207-R209).
-/
namespace Sys2Proof.Machine

section
variable {c : Cmd} {s : State} (h : RunsNext c s) {d : Grp} (hin : MemberIn c s d)
include h hin

/-- A member's buckets given other next hops: the group's new version. -/
theorem RunsNext.changeMember_ends {i : Instr} {only : Bool} {f : Nat → List (Option Nat) → List (Option Nat)} {bk : List (Option Nat)} {v : Nat}
    (honly : (only && membersOf (bucketNhs s d) == [leAt c 4 4]) = false) (hf : f (leAt c 4 4) (bucketNhs s d) = bk)
    (hlen : bk.length = (bucketNhs s d).length) (hlt : ∀ n, some n ∈ bk → n < 2 ^ 18) (hother : otherVersion s 3 (leAt c 0 2) = some v)
    (halloc : (allocBlock (2 ^ d.size) s).1 ≠ none)
    (hexec : exec i s = .next (finish c (changeMember c only f (taken c s)).1 (changeMember c only f (taken c s)).2)) :
    PairPut i c s 3 (leAt c 0 2) v fun t => BlockHolds t (leAt c 0 2) v d.size bk := by
  have hread := readsCounted_memberRead c d (taken c s)
  rw [hin.changeMember_eq honly f, hf] at hexec
  exact h.putGroup_ends hin.group (grpCur_size hin.current) (hlen.trans (length_bucketNhs s d)) hlt (hread.routeWork h.clean) hread.notes.tab
    (free_memberRead _ _ _) hother halloc hexec

theorem RunsNext.groupReplaceMember_ends {v : Nat} (hop : c.op = 0x17) (hnew : leAt c 8 4 < 262144)
    (hother : otherVersion s 3 (leAt c 0 2) = some v) (halloc : (allocBlock (2 ^ d.size) s).1 ≠ none) :
    PairPut .groupReplaceMember c s 3 (leAt c 0 2) v fun t => BlockHolds t (leAt c 0 2) v d.size
      ((bucketNhs s d).map fun x => if x = some (leAt c 4 4) then some (leAt c 8 4) else x) := by
  refine h.changeMember_ends hin (only := false) (f := fun old bk => bk.map fun x => if x = some old then some (leAt c 8 4) else x) rfl rfl
    (List.length_map _) (fun n hn => ?_) hother halloc ?_
  · obtain ⟨x, hx, hxn⟩ := List.mem_map.mp hn
    split at hxn
    · exact Option.some.inj hxn ▸ hnew
    · exact lt_of_mem_bucketNhs (hxn ▸ hx)
  · show execGroupReplaceMember s = _
    rw [execGroupReplaceMember, h.runCmd (by rw [hop]; rfl) hop]
    simp only [Nat.not_le.mpr hin.group, Nat.not_le.mpr hin.member, Nat.not_le.mpr hnew, or_self, if_false]

theorem RunsNext.groupRemoveMember_ends {v : Nat} (hop : c.op = 0x18) (hmore : membersOf (bucketNhs s d) ≠ [leAt c 4 4])
    (hother : otherVersion s 3 (leAt c 0 2) = some v) (halloc : (allocBlock (2 ^ d.size) s).1 ≠ none) :
    PairPut .groupRemoveMember c s 3 (leAt c 0 2) v fun t => BlockHolds t (leAt c 0 2) v d.size
      (giveAway (leAt c 4 4) ((membersOf (bucketNhs s d)).filter (· != leAt c 4 4)) 0 (bucketNhs s d)) := by
  have hholds : some (leAt c 4 4) ∈ bucketNhs s d := by simpa using hin.holds
  have honly : (true && membersOf (bucketNhs s d) == [leAt c 4 4]) = false := by
    rw [Bool.true_and]
    exact beq_eq_false_iff_ne.mpr hmore
  refine h.changeMember_ends hin (f := fun old bk => giveAway old ((membersOf bk).filter (· != old)) 0 bk) honly rfl (length_giveAway _ _)
    (fun n hn => ?_) hother halloc ?_
  · rcases mem_giveAway (others_ne_nil hholds hmore) _ _ hn with ⟨hmem, -⟩ | ⟨m, hm, hnm⟩
    · exact lt_of_mem_bucketNhs hmem
    · rw [Option.some.inj hnm]
      exact lt_of_mem_bucketNhs (mem_membersOf.mp (List.mem_filter.mp hm).1)
  · show execGroupRemoveMember s = _
    rw [execGroupRemoveMember, h.runCmd (by rw [hop]; rfl) hop]
    simp only [Nat.not_le.mpr hin.group, Nat.not_le.mpr hin.member, or_self, if_false]

end

/-- A member removed is in no bucket, where another remains (R207). -/
theorem not_mem_giveAway {bk : List (Option Nat)} {old : Nat} (hin : some old ∈ bk) (hne : membersOf bk ≠ [old]) :
    some old ∉ giveAway old ((membersOf bk).filter (· != old)) 0 bk := fun hmem => by
  rcases mem_giveAway (others_ne_nil hin hne) _ _ hmem with ⟨-, hno⟩ | ⟨n, hn, hold⟩
  · exact hno rfl
  · rw [List.mem_filter, ← Option.some.inj hold, bne_self_eq_false] at hn
    exact absurd hn.2 Bool.false_ne_true

/-- Settles O40: each command's work writes the version that is not valid, retires the current one, and keeps the way of its completion. -/
theorem nextHopsAndGroups : Obligations.NextHopsAndGroups := by
  unfold Obligations.NextHopsAndGroups
  intro c s h
  refine ⟨fun hop hn hbad v hother => h.nhSet_ends hop hn hbad hother, fun hop hn hbad => h.nhDelete_ends hop hn hbad,
    fun hop hg hbad => h.groupDelete_ends hop hg hbad, fun hop hg hm hbad hsum v hother halloc => h.groupSet_ends hop hg hm hbad hsum hother halloc,
    fun d hg hold hbad hcur hbuckets hholds v hother halloc => ?_⟩
  have hin : MemberIn c s d := ⟨hg, hold, hbad, hcur, hbuckets, hholds⟩
  refine ⟨fun hop hnew => h.groupReplaceMember_ends hin hop hnew hother halloc, fun hop hmore => ?_⟩
  have hmem : some (leAt c 4 4) ∈ bucketNhs s d := by simpa using hholds
  obtain ⟨t, ht, hdone, hstaged, hretired, hblock⟩ := h.groupRemoveMember_ends hin hop hmore hother halloc
  exact ⟨t, ht, hdone, hstaged, hretired, _, hblock, length_giveAway _ _, not_mem_giveAway hmem hmore,
    fun k x hk hx => getElem?_giveAway hx _ 0 k hk⟩

end Sys2Proof.Machine
end

section
/-!
SUPPORT. ROUTE_ADD under a command of no submission ring: an event of the command's own may change the register that stands for its ring (R208, R212, R530).
-/
namespace Sys2Proof.Machine

/-! ## A prefix structure that can be read (R185, R720) -/

/-- The ECC words of both prefix regions, each written and good. -/
def goodPrefixes : List (Nat × Ecc) := (List.range (2 * prefixCount)).map fun n => (prefixAddr n, ⟨.good, 0, false⟩)

theorem prefixClean_goodPrefixes {s : State} (h : s.tab.ecc = goodPrefixes) : prefixClean s = true := by
  have hgood : ∀ e ∈ goodPrefixes, prefixGood e = true := fun e he => by
    obtain ⟨n, hn, rfl⟩ := List.mem_map.mp he
    have hcount : prefixCount = 241664 := rfl
    have hlt := List.mem_range.mp hn
    obtain ⟨a, ha⟩ : ∃ a, a = prefixAddr n := ⟨_, rfl⟩
    have hregion : 2 * 0x4000000 ≤ a ∧ a < 4 * 0x4000000 ∧ a % 0x4000000 < 0xEC0000 ∧ a % 64 = 0 := by
      rw [prefixAddr, hcount] at ha
      rw [hcount] at hlt
      omega
    obtain ⟨hlow, hhigh, hoff, halign⟩ := hregion
    have herrs : symErrs ⟨.good, 0, false⟩ ≤ eccLimit a := Nat.zero_le _
    rw [← ha, prefixGood]
    simp only [hlow, hhigh, hoff, halign, herrs]
    rfl
  rw [prefixClean, h, List.filter_eq_self.mpr hgood, goodPrefixes, List.length_map, List.length_range, beq_self_eq_true]

/-- Where every prefix word is good a route command meets no unreadable one. -/
theorem prefixMet_of_clean {s : State} (h : prefixClean s = true) : prefixMet s = (none, s) := if_pos h

/-- ROUTE_ADD of a good prefix that has no current version and for which there is room (R208). -/
theorem RunsNext.exec_routeAdd {c : Cmd} {s : State} (h : RunsNext c s) (hop : c.op = 0x10) (hclean : prefixClean s = true)
    (hbad : badPfx s (pfxOf c) = false) (hlong : longPfx (pfxOf c) = false) (hkind : routeKind (leAt c 20 8) = true)
    (hnew : s.lpm.routes.any (routeCurrent s (pfxOf c)) = false) (hroom : unitsUsed s + (if (pfxOf c).fam = 0 then 1 else 2) ≤ 2097152) :
    exec .routeAdd s = .next (finish c { status := stOK } (addRoute (pfxOf c) (leAt c 20 8) (taken c s))) := by
  have hcleanT : prefixClean (taken c s) = true := hclean
  have hbadT : badPfx (taken c s) (pfxOf c) = false := hbad
  have hnewT : (taken c s).lpm.routes.any (routeCurrent (taken c s) (pfxOf c)) = false := hnew
  have hroomT : ¬2097152 < unitsUsed (taken c s) + (if (pfxOf c).fam = 0 then 1 else 2) := Nat.not_lt.mpr hroom
  show execRouteAdd s = _
  rw [execRouteAdd, h.runCmd (by rw [hop]; rfl) hop]
  simp only [routePut, hbadT, hkind, hlong, prefixDo, prefixMet_of_clean hcleanT, structPut, hnewT, hroomT, Bool.not_true, Bool.not_false,
    Bool.and_false, Bool.false_and, Bool.false_eq_true, if_false]

/-! ## A route added under a command whose completion changes its ring -/

/-- ROUTE_ADD of 10.1.0.0/16 of VRF 4, punted to queue 3, with tag 0x77, as though submission ring 0x28F8 had handed it over. -/
def aliasRoute : Cmd :=
  ⟨0x28F8, 0x10, 0x77, leBytes 2 4 ++ [16, 0, 10, 1] ++ List.replicate 14 0 ++ leBytes 8 (6 * 2 ^ 60 + 3), 1, false, false⟩

/-- The command at the front of its executor; the route block ON in both wings with occ_high at one unit and enabled; memory requests
allowed; completion ring 0 enabled; the block interrupt on vector 80, which is masked; the prefix words good, and no route. -/
def aliasRouteState : State :=
  let s := wr (HIF_MSIX_TABLE (4 * 80 + 3)) 1 <| wr HIF_CFG 0x5000 <| wr HIF_PCIE_STAT 0x1200 <| wr (HIF_CQ_CFG 0) 0x80000004 <|
    wr (LPM_OCC_CFG 0) 1 <| wr (H_INT_EN (pageLPM 0)) 2 <| setBlk (pageLPM 0) 2 <| setBlk (pageLPM 1) 2 State.reset
  putExq 1 [aliasRoute] { s with tab := { s.tab with ecc := goodPrefixes } }

theorem aliasRouteState_premises : RunsNext aliasRoute aliasRouteState where
  front := by decide +kernel
  form := by decide
  count := .inr (by decide +kernel)
  on := by decide +kernel
  room _ := by decide +kernel
  live := by
    unfold epochsLive
    decide +kernel
  clean := by decide
  cpl := ⟨by decide +kernel, by decide +kernel, by decide +kernel, by decide⟩

/-- The prefix and its result are good, the prefix has no version yet, and there is room for one. -/
theorem aliasRouteState_search : badPfx aliasRouteState (pfxOf aliasRoute) = false ∧ longPfx (pfxOf aliasRoute) = false ∧
    routeKind (leAt aliasRoute 20 8) = true ∧ aliasRouteState.lpm.routes.any (routeCurrent aliasRouteState (pfxOf aliasRoute)) = false ∧
    unitsUsed aliasRouteState + (if (pfxOf aliasRoute).fam = 0 then 1 else 2) ≤ 2097152 := by decide +kernel

/-- The completion's slot stays empty: the pending bit of occ_high's vector names completion ring 1 instead, which is disabled. -/
theorem aliasRouteState_completion : memBytes (finish aliasRoute { status := stOK }
    (addRoute (pfxOf aliasRoute) (leAt aliasRoute 20 8) (taken aliasRoute aliasRouteState))) (cqSlot aliasRouteState aliasRoute.ring) 4 =
    [none, none, none, none] := by decide +kernel

/-- Refutes O39: a command's ring is any number, and HIF_SQ_CFG of ring 0x28F8 is HIF_MSIX_PBA 2. The route's unit raises occ_high, which
pends vector 80 there, and the completion is discarded on another, disabled ring. A premise that the ring is below 32 is missing. -/
theorem not_routeCommands : ¬ Obligations.RouteCommands := by
  intro h
  obtain ⟨hbad, hlong, hkind, hnew, hroom⟩ := aliasRouteState_search
  have hclean : prefixClean aliasRouteState = true := prefixClean_goodPrefixes (by simp only [aliasRouteState, putExq])
  obtain ⟨-, hread⟩ := h aliasRoute aliasRouteState aliasRouteState_premises hbad hlong
  obtain ⟨hadd, -⟩ := hread (congrArg Prod.fst (prefixMet_of_clean hclean))
  obtain ⟨-, hkinds⟩ := hadd rfl
  obtain ⟨-, hnews⟩ := hkinds hkind
  obtain ⟨hputs, -⟩ := hnews hnew
  obtain ⟨t, -, hexec, hcompletes, -⟩ := hputs hroom
  rw [aliasRouteState_premises.exec_routeAdd rfl hclean hbad hlong hkind hnew hroom, Host.Outcome.next.injEq] at hexec
  have hword := congrArg List.head? (aliasRouteState_completion.symm.trans (hexec ▸ hcompletes.word0))
  simp [leBytes] at hword

end Sys2Proof.Machine
end
